-- ==== Sys2Proof/Word.lean ====
section
/-! DEFINITION. The plain value types of the model: bytes, words and sparse tables.

The ZW16 counts bytes, 32-bit register words (R5) and 64-bit quantities.  Sparse collections (registers,
memory, contexts, ports, processors) are association lists in one canonical form; their operations stand
in `Sys2Proof.Machine.Ops`. -/

namespace Sys2Proof

/-- One byte of device memory or of a frame. -/
abbrev Byte := BitVec 8

/-- One register word (R5). -/
abbrev Word := BitVec 32

/-- A 64-bit quantity: a general register, a counter, a time. -/
abbrev DWord := BitVec 64

/-- A sparse table: pairs of a key and a value, keys strictly rising, no pair whose value is what an
unlisted key reads as. -/
abbrev Table (α : Type) := List (Nat × α)

end Sys2Proof
end

