-- ==== Sys2Proof/Syntax.lean ====
section
/-! DEFINITION. The commands of the ZW16: one constructor for each row of the opcode table, with the row's
operands.

`t` is the CLK_TIME tick in which a command falls (R410).  A Doraral instruction carries it inside its
`Issue` operand, with the number of the processor that executes it (R240).  The other operands are the
values the sender gives, or what a detector found (a CRC that passed, a level, a length). -/

namespace Sys2Proof

/-- What the header check of a CSI-2 packet found (R52, R88): good, a corrected single-bit error, or an error it cannot
correct. -/
inductive Ecc where
  | good
  | corrected
  | bad
  deriving DecidableEq, Repr

/-- The header of a packet of a camera port's stream: its virtual channel (R50) and what its check found. -/
structure PktHead where
  vc : Fin 16
  ecc : Ecc
  deriving DecidableEq, Repr

/-- An image line as the port holds it: its virtual channel, its data type, what its header's check found (R50, R52), and whether a
word of the line buffer that holds it is lost (R378, R380). -/
structure LineHead where
  vc : Fin 16
  dt : Fin 64
  ecc : Ecc
  lost : Bool
  deriving DecidableEq, Repr

/-- The form of a master's access: the number whose power of two is its bytes, and how the detection code fares of the word or
block that it reads, or of the one that a write covers only in part (0 good, 1 the first read flagged and the re-read good, 2 both
flagged, R379, R382). -/
structure Form where
  size : Fin 4
  det : Fin 3
  deriving DecidableEq, Repr

/-- How the detection codes of one DMA burst fare (0 good, 1 the first read flagged and the next good, 2 both flagged): of its
source, of the DMA buffer (R380), and of a word or block of its destination that it covers only in part (R379). -/
structure BurstDet where
  src : Fin 3
  buf : Fin 3
  part : Fin 3
  deriving DecidableEq, Repr

/-- How a GDDR6 burst fares in the end (R189, R382): it passes within its retries, or it fails after the third, and then its
re-read passes or fails. -/
inductive BurstEnd where
  | passed
  | reread
  | lost
  deriving DecidableEq, Repr

/-- One Doraral instruction as a processor meets it: the CLK_TIME tick, the processor's HARTID (R240), how the detection code
of its fetch fares (0 good, 1 the first read flagged and the re-read good, 2 both flagged, R267), whether a detection
error of the register file strikes it (R268), and how the word or block fares that it stores to only in part (R379). -/
structure Issue where
  t : Nat
  h : Fin 0x300
  det : Fin 3
  rf : Bool
  part : Fin 3
  deriving DecidableEq, Repr

/-- A word that a scrubber finds lost (R375, R381): a word of memory, a record of the trace buffer, or a word of the
retained block. -/
inductive ScrubbedWord where
  | memory (a : BitVec 48)
  | trace (record : Fin 32768)
  | retained (word : Fin 1024)
  deriving DecidableEq, Repr

/-- What a received Melhan frame's header says (R441): sender's role, PAIR_ROLE, SYS_SVC.level and ETH_SRC.id, frame sequence,
send time; and whether its CRC passed. -/
structure MlHdr where
  role : Fin 4
  strap : Bool
  level : Fin 4
  id : BitVec 16
  seq : Word
  time : DWord
  crcOk : Bool
  /-- Its type byte is one of the table of R441; a frame of any other type is dropped. -/
  listed : Bool
  deriving DecidableEq, Repr

/-- What a STATE frame mirrors (R441, R444): a context's registers, an accelerator's sequence and levels, a context's
safe-output requests, or the end of a full copy (R442). -/
inductive MlState where
  | ctx (n : Nat) (state cause : Nat) (hist : Nat) (doubt late gap rej : Nat) (reacting : Bool)
  | acc (a : Nat) (stat : Nat) (rst pwr : Bool) (phase : Nat)
  | sout (n : Nat) (mask : Nat)
  | copyEnd
  deriving DecidableEq, Repr

/-- What a LOG frame mirrors (R441, R444): a fault record, a watchdog's count, or the fallow list's gain or loss of an item. -/
inductive MlLog where
  | record (slot : Nat) (body : List Byte)
  | watch (w count : Nat)
  | fallow (kind num : Nat) (listed : Bool)
  deriving DecidableEq, Repr

/-- The increments of VD_DOUBT_n, VD_LATE_n and VD_REJ_n that a decision made (R44, R441). -/
structure DecCounts where
  doubt : Bool
  late : Nat
  rej : Nat
  deriving DecidableEq, Repr

/-- The payload of a Melhan frame, by its type (R441). -/
inductive MlMsg where
  | heartbeat (echo arrived : Nat)
  | decision (n fid state causes hist : Nat) (counts : DecCounts) (nofb noinput : Bool)
  | state (x : MlState)
  | keys (n admitCtr epoch : Nat)
  | time (ns : Nat)
  | frame (p fid stamp : Nat)
  | log (x : MlLog)
  | handOver (last : List (Nat × Nat))
  | ack (seqs : List Nat)
  | bulk (offset : Nat) (data : List Byte)
  deriving DecidableEq, Repr

/-- One command of the block. -/
inductive Instr where
  /-- REGISTER_WRITE (R6). A write to a register that has no row of its own: the field changes according to its access code (RW, W1C, RWL, RET) and reserved bits are ignored. -/
  | registerWrite (t : Nat) (master : BitVec 11) (addr : BitVec 48) (form : Form) (value : DWord)
  /-- LOW_WORD_READ (R5). A read of the low word of a 64-bit register, which latches the high word so that a following high-word read returns a consistent value. -/
  | lowWordRead (t : Nat) (master : BitVec 11) (addr : BitVec 48) (form : Form)
  /-- ENABLE (R40). VD command ENABLE moves an OFF context to ADMITTING, or to FALLOW if it is on the fallow list. -/
  | enable (t : Nat) (n : Fin 1024)
  /-- DISABLE (R40). VD command DISABLE moves a context to OFF; undecided frames are still decided and published. -/
  | disable (t : Nat) (n : Fin 1024)
  /-- READMIT (R40). VD command READMIT moves a REJECTED context whose reaction is complete to ADMITTING. -/
  | readmit (t : Nat) (n : Fin 1024)
  /-- CLEAR_FALLOW (R39). VD command CLEAR_FALLOW returns a FALLOW context to ADMITTING, removes it from the fallow list and clears its rejection history. -/
  | clearFallow (t : Nat) (n : Fin 1024)
  /-- FORCE_DOUBT (R40). VD command FORCE_DOUBT makes the next decided frame that enters the window fail with HOST. -/
  | forceDoubt (t : Nat) (n : Fin 1024)
  /-- CLEAR_COUNTS (R40). VD command CLEAR_COUNTS clears VD_DOUBT_n, VD_LATE_n, VD_GAP_n and the sat bit. -/
  | clearCounts (t : Nat) (n : Fin 1024)
  /-- EVIDENCE_DEADLINE (R23). The evidence deadline tick passes with no complete on-time evidence frame, so the frame fails with EV_MISSING or ACC_RESET. -/
  | evidenceDeadline (t : Nat) (n : Fin 1024)
  /-- VERDICT_DEADLINE (R140). The verdict deadline tick is reached: running checks, graphs and VP2 programs are stopped and the frame takes CK_LATE or FB_MISSING. -/
  | verdictDeadline (t : Nat) (n : Fin 1024)
  /-- DECIDE_FRAME (R24). A frame is decided at the first tick in which its checks, fall-back and agreement are complete (or its deadline is reached) and every earlier frame of the context is decided. -/
  | decideFrame (t : Nat) (n : Fin 1024)
  /-- ACC_RESET_PULSE_END (R34). The reset pulse width_us expires and ACC_RST_N[a] is raised, or the sequence continues into a merged power cycle. -/
  | accResetPulseEnd (t : Nat) (a : Fin 4)
  /-- ACC_POWER_OFF_END (R34). The off_ms period expires and ACC_PWREN[a] is driven high. -/
  | accPowerOffEnd (t : Nat) (a : Fin 4)
  /-- ACC_SETTLE_END (R34). The settle_ms period expires and ACC_RST_N[a] is driven high, completing the sequence or POWER_UP. -/
  | accSettleEnd (t : Nat) (a : Fin 4)
  /-- READMIT_DELAY_EXPIRE (R28). The readmit delay after reaction completion elapses with auto = 1 and the context enters ADMITTING. -/
  | readmitDelayExpire (t : Nat) (n : Fin 1024)
  /-- CIN_FRAME_START (R55). A Frame Start on a camera port is stamped, assigned an ordinal and frame ID, and its slot, pepper, tag line and forwarding begin. -/
  | cinFrameStart (t : Nat) (p : Fin 16) (fn : BitVec 16) (hd : PktHead)
  /-- FRAME_START_TIMEOUT (R56). No Frame Start arrives within fs_to: the next frame ID is spent as NO_INPUT and FP_CIN_TIMEOUT is raised. -/
  | frameStartTimeout (t : Nat) (p : Fin 16)
  /-- CIN_IMAGE_LINE (R52). An image long packet on a camera port is checked, buffered and written to GDDR6, or damages the open frame. -/
  | cinImageLine (t : Nat) (p : Fin 16) (start : Nat) (data : List Byte) (hd : LineHead) (crcOk full : Bool)
  /-- CIN_EMBEDDED_LINE (R50). A camera embedded-data line is checked and discarded. -/
  | cinEmbeddedLine (t : Nat) (p : Fin 16) (len : Nat) (hd : PktHead) (crcOk : Bool)
  /-- CIN_FRAME_END (R52). A Frame End closes the open frame, checks line count and number, and computes the stuck check. -/
  | cinFrameEnd (t : Nat) (p : Fin 16) (fn : BitVec 16) (hd : PktHead)
  /-- LINE_START_PACKET (R47). A Line Start or Line End short packet is accepted and ignored. -/
  | lineStartPacket (t : Nat) (eport : Bool) (p : Fin 16) (hd : PktHead)
  /-- CIN_DROPPED_PACKET (R49). A packet of an unrecognised data type or on the wrong channel is dropped and counted. -/
  | cinDroppedPacket (t : Nat) (p : Fin 16) (ecc : Ecc)
  /-- SLOT_READY (R61). Once all line write responses of a frame have returned, the slot header is written with ready = 1 and check launches are released. -/
  | slotReady (t : Nat) (p : Fin 16)
  /-- GROUP_COMPLETE (R64). At tick S + skew the member frame group of a multi-camera context is complete. -/
  | groupComplete (t : Nat) (n : Fin 1024)
  /-- FALLBACK_GRAPH_LAUNCH (R139). The fall-back graph is launched at the first tick in which the group is complete and every member slot is ready. -/
  | fallbackGraphLaunch (t : Nat) (n : Fin 1024)
  /-- FORWARD_LINE (R68). A buffered image line is sent on its FWD port; a miss of the latency bound is counted and raises FP_FWD_OVER. -/
  | forwardLine (t : Nat) (p : Fin 16)
  /-- PATCH_LINES (R77). After the image lines the seed patch lines are sent on the FWD port. -/
  | patchLines (t : Nat) (p : Fin 16)
  /-- MON_LINE (R81). A selected stream line is sent on a monitor port, or dropped and counted when the port cannot take it. -/
  | monLine (t : Nat) (m : Fin 2) (p : Fin 16) (taken : Bool)
  /-- EIN_FRAME_START (R88). A Frame Start opens an evidence frame on its virtual channel, damaging any frame already open there. -/
  | einFrameStart (t : Nat) (e : Fin 4) (vc : Fin 16) (fn : BitVec 16) (ecc : Ecc)
  /-- EVIDENCE_PACKET (R89). An evidence or result packet is checked, appended to its stream and decrypted as it arrives. -/
  | evidencePacket (t : Nat) (e : Fin 4) (vc : Fin 16) (result : Bool) (data : List Byte) (ecc : Ecc) (crcOk : Bool)
  /-- EIN_FRAME_END (R88). A Frame End closes an evidence frame, discarding a damaged or late one. -/
  | einFrameEnd (t : Nat) (e : Fin 4) (vc : Fin 16) (fn : BitVec 16) (ecc : Ecc)
  /-- EIN_DROPPED_PACKET (R86). An unaccepted packet on an evidence port is dropped and counted. -/
  | einDroppedPacket (t : Nat) (e : Fin 4) (ecc : Ecc)
  /-- GCM_TAG_VERIFY (R97). Both GCM tags of an evidence frame are verified within 4 µs of its Frame End, failing the frame with EV_AUTH on failure. -/
  | gcmTagVerify (t : Nat) (n : Fin 1024) (key : Fin 3)
  /-- EIN_SILENCE (R108). The evidence port's silence timer expires without a Frame End: counted and EV_SILENT raised. -/
  | einSilence (t : Nat) (e : Fin 4)
  /-- VP2_ENTRY_START (R142). VP2 takes the next decoder or agreement entry from its queue in deadline order and starts it. -/
  | vp2EntryStart (t : Nat)
  /-- RESIDUE_MISMATCH (R180). A DPU residue or duplicate mismatch aborts the tile thread, raises CX_RESIDUE and counts a retry event. -/
  | residueMismatch (t : Nat) (core : Fin 16) (engine : Fin 16) (dpus : BitVec 64)
  /-- G6_BURST_RETRY (R189). A GDDR6 burst failing EDC is retried up to three times, each a retry event against the channel. -/
  | g6BurstRetry (t : Nat) (c : Fin 16) (retries : Fin 4) (addr : BitVec 48) (fate : BurstEnd)
  /-- FLIT_RESEND (R191). A die-to-die flit failing its CRC is resent and counted as a retry event against its lane group. -/
  | flitResend (t : Nat) (group : Fin 48)
  /-- DROOP_STRETCH (R196). A supply droop makes the core stretch its CLK_CORE cycles for up to 1 µs. -/
  | droopStretch (t : Nat) (core : Fin 16) (cycles : Nat)
  /-- DROOP_HOLD (R197). A droop lasting beyond 1 µs holds the engines' clock and raises CX_DROOP_LONG. -/
  | droopHold (t : Nat) (core : Fin 16)
  /-- DROOP_HOLD_END (R197). After the supply has recovered for 100 ns the held clock resumes. -/
  | droopHoldEnd (t : Nat) (core : Fin 16)
  /-- PWR_INTERVAL_END (R199). At each 100 µs interval end the die lowers, raises or holds a class duty against its power cap. -/
  | pwrIntervalEnd (t : Nat) (die : Fin 4) (p : BitVec 16)
  /-- CX_PWR_CAP (R201). A write of the power cap, refused for 61–63, takes effect at the next interval end. -/
  | cxPwrCap (t : Nat) (die : Fin 4) (value : Word)
  /-- GS_LAUNCH (R214). A write of a launch record address enters the intake, or returns ERR_FULL when the intake is full. -/
  | gsLaunch (t : Nat) (die : Fin 4) (addr : BitVec 48)
  /-- INSTANCE_START (R216). A launch leaves its class queue once the instance table and arena pool can serve it. -/
  | instanceStart (t : Nat) (die : Fin 4) (cls : Fin 4)
  /-- NODE_ADMIT (R221). A ready node is admitted to the operation table in priority order and given a command identity. -/
  | nodeAdmit (t : Nat) (die : Fin 4)
  /-- THREAD_ISSUE (R226). The scheduler issues a chunk of tile threads to a core with room, by class priority and duty. -/
  | threadIssue (t : Nat) (core : Fin 16) (n : Fin 65)
  /-- THREAD_SWITCH (R273). An engine switches away from a stalled resident thread, saving its state to the save area. -/
  | threadSwitch (t : Nat) (core : Fin 16) (engine : Fin 16) (park : Fin 16) (stalled : Nat)
  /-- NODE_COMPLETE (R220). A node completes when all its threads have ended and their stores are acknowledged; successors are decremented. -/
  | nodeComplete (t : Nat) (die : Fin 4)
  /-- COMPLETION_MESSAGE (R220). A completion message from another die decrements a successor's remaining count. -/
  | completionMessage (t : Nat) (die : Fin 4)
  /-- NODE_REPLAY (R232). A failed node is readmitted as a whole, after regeneration when its cause was ERR_DATA_LOST. -/
  | nodeReplay (t : Nat) (die : Fin 4)
  /-- INSTANCE_END (R233). Once every thread of an ended instance has stopped, the completion record is written and the interrupt optionally raised. -/
  | instanceEnd (t : Nat) (die : Fin 4)
  /-- GS_STOP (R234). A GS_STOP write stops every live or queued instance with the given context and frame ID. -/
  | gsStop (t : Nat) (die : Fin 4) (ctx : Fin 1024) (fid : Word)
  /-- GS_TRIG_FIRE (R217). A write of GS_TRIG_FIRE fires each selected trigger whose source is 3. -/
  | gsTrigFire (t : Nat) (die : Fin 4) (mask : BitVec 16)
  /-- TRIGGER_PERIOD (R217). A periodic trigger's period expires and it launches its template. -/
  | triggerPeriod (t : Nat) (die : Fin 4) (trig : Fin 16)
  /-- SAFETY_WINDOW_OPEN (R229). A safety window opens and no test slice or known-answer test may begin. -/
  | safetyWindowOpen (t : Nat) (die : Fin 4) (w : Fin 4)
  /-- SAFETY_WINDOW_CLOSE (R229). A safety window closes and deferred tests may begin. -/
  | safetyWindowClose (t : Nat) (die : Fin 4) (w : Fin 4)
  /-- OP (R245). Register-register integer operation selected by fn. -/
  | op (x : Issue) (fn : BitVec 11) (rd ra rb : Fin 32)
  /-- OP32 (R245). 32-bit register-register integer operation selected by fn. -/
  | op32 (x : Issue) (fn : BitVec 11) (rd ra rb : Fin 32)
  /-- ADDI (R246). Add a sign-extended immediate. -/
  | addi (x : Issue) (rd ra : Fin 32) (imm : BitVec 16)
  /-- ADDI32 (R246). 32-bit add of a sign-extended immediate. -/
  | addi32 (x : Issue) (rd ra : Fin 32) (imm : BitVec 16)
  /-- ANDI (R246). AND with a zero-extended immediate. -/
  | andi (x : Issue) (rd ra : Fin 32) (imm : BitVec 16)
  /-- ORI (R246). OR with a zero-extended immediate. -/
  | ori (x : Issue) (rd ra : Fin 32) (imm : BitVec 16)
  /-- XORI (R246). XOR with a zero-extended immediate. -/
  | xori (x : Issue) (rd ra : Fin 32) (imm : BitVec 16)
  /-- SHI (R246). Immediate shift of the selected kind. -/
  | shi (x : Issue) (rd ra : Fin 32) (imm : BitVec 16)
  /-- LIH (R246). Load immediate high. -/
  | lih (x : Issue) (rd ra : Fin 32) (imm : BitVec 16)
  /-- ADDPCH (R246). Add a shifted immediate to pc. -/
  | addpch (x : Issue) (rd ra : Fin 32) (imm : BitVec 16)
  /-- CMP (R247). Compare two registers into a predicate. -/
  | cmp (x : Issue) (fn : BitVec 11) (pd ra rb : Fin 32)
  /-- CMPI (R247). Compare a register with an immediate into a predicate. -/
  | cmpi (x : Issue) (cc : Fin 16) (pd ra : Fin 32) (imm : BitVec 12)
  /-- PRED (R248). Predicate logic or transfer between predicate and general registers. -/
  | pred (x : Issue) (fn : BitVec 11) (rd ra rb : Fin 32)
  /-- BR (R249). Conditional pc-relative branch on a predicate. -/
  | br (x : Issue) (p : Fin 8) (n : Bool) (off : BitVec 22)
  /-- JAL (R249). Jump and link, pc-relative. -/
  | jal (x : Issue) (rd : Fin 32) (off : BitVec 21)
  /-- JALR (R249). Jump and link to a register target. -/
  | jalr (x : Issue) (rd ra : Fin 32) (imm : BitVec 16)
  /-- LB (R250). Load a sign-extended byte. -/
  | lb (x : Issue) (rd ra : Fin 32) (imm : BitVec 16) (det : Fin 3)
  /-- LBU (R250). Load a zero-extended byte. -/
  | lbu (x : Issue) (rd ra : Fin 32) (imm : BitVec 16) (det : Fin 3)
  /-- LH (R250). Load a sign-extended halfword. -/
  | lh (x : Issue) (rd ra : Fin 32) (imm : BitVec 16) (det : Fin 3)
  /-- LHU (R250). Load a zero-extended halfword. -/
  | lhu (x : Issue) (rd ra : Fin 32) (imm : BitVec 16) (det : Fin 3)
  /-- LW (R250). Load a sign-extended word. -/
  | lw (x : Issue) (rd ra : Fin 32) (imm : BitVec 16) (det : Fin 3)
  /-- LWU (R250). Load a zero-extended word. -/
  | lwu (x : Issue) (rd ra : Fin 32) (imm : BitVec 16) (det : Fin 3)
  /-- LD (R250). Load a doubleword. -/
  | ld (x : Issue) (rd ra : Fin 32) (imm : BitVec 16) (det : Fin 3)
  /-- SB (R250). Store a byte. -/
  | sb (x : Issue) (rs ra : Fin 32) (imm : BitVec 16)
  /-- SH (R250). Store a halfword. -/
  | sh (x : Issue) (rs ra : Fin 32) (imm : BitVec 16)
  /-- SW (R250). Store a word. -/
  | sw (x : Issue) (rs ra : Fin 32) (imm : BitVec 16)
  /-- SD (R250). Store a doubleword. -/
  | sd (x : Issue) (rs ra : Fin 32) (imm : BitVec 16)
  /-- STORE_ERROR (R252). A store's error write response arrives and ERR_STORE is raised at the next instruction boundary. -/
  | storeError (t : Nat) (h : Fin 0x300)
  /-- AMO (R253). Indivisible read-modify-write of the selected operation. -/
  | amo (x : Issue) (fn : BitVec 11) (rd ra rb : Fin 32) (det : Fin 3)
  /-- BARRIER (R254). Order the selected access classes at the selected scope. -/
  | barrier (x : Issue) (rd ra : Fin 32) (imm : BitVec 16)
  /-- NOP (R255). No operation. -/
  | nop (x : Issue) (rd ra rb : Fin 32)
  /-- TEXIT (R255). End the task run or tile thread normally. -/
  | texit (x : Issue) (rd ra rb : Fin 32)
  /-- TRAP (R255). Hand control back from task mode with a trap code. -/
  | trap (x : Issue) (rd ra rb : Fin 32)
  /-- TRET (R259). Return from a trap, restoring mode, ie and ben. -/
  | tret (x : Issue) (rd ra rb : Fin 32)
  /-- IDLE (R255). Wait until an enabled interrupt is pending or a non-maskable trap arrives. -/
  | idle (x : Issue) (rd ra rb : Fin 32)
  /-- BREAK (R255). Raise ST_BREAK. -/
  | brk (x : Issue) (rd ra rb : Fin 32)
  /-- NTRET (R260). Return from a non-maskable trap. -/
  | ntret (x : Issue) (rd ra rb : Fin 32)
  /-- CTL_RD (R256). Read a CSR. -/
  | ctlRd (x : Issue) (rd ra : Fin 32) (csr : BitVec 12)
  /-- CTL_WR (R256). Write a CSR. -/
  | ctlWr (x : Issue) (rd ra : Fin 32) (csr : BitVec 12)
  /-- CTL_SET (R256). Set CSR bits. -/
  | ctlSet (x : Issue) (rd ra : Fin 32) (csr : BitVec 12)
  /-- CTL_CLR (R256). Clear CSR bits. -/
  | ctlClr (x : Issue) (rd ra : Fin 32) (csr : BitVec 12)
  /-- CTL_XWR (R256). Exchange a CSR with a register. -/
  | ctlXwr (x : Issue) (rd ra : Fin 32) (csr : BitVec 12)
  /-- CTL_XSET (R256). Read a CSR and set bits indivisibly. -/
  | ctlXset (x : Issue) (rd ra : Fin 32) (csr : BitVec 12)
  /-- CTL_XCLR (R256). Read a CSR and clear bits indivisibly. -/
  | ctlXclr (x : Issue) (rd ra : Fin 32) (csr : BitVec 12)
  /-- EVSEND (R257). Set event bits in SYS_EVT of selected control processors on the die. -/
  | evsend (x : Issue) (rd ra rb : Fin 32)
  /-- EVWAIT (R257). Wait for selected events or a tick count. -/
  | evwait (x : Issue) (rd ra rb : Fin 32)
  /-- EVWAIT_WAKE (R257). A waiting EVWAIT resumes when a selected event bit is set. -/
  | evwaitWake (t : Nat) (h : Fin 0x300)
  /-- EVWAIT_TIMEOUT (R257). An EVWAIT's tick count expires with no event, returning 0. -/
  | evwaitTimeout (t : Nat) (h : Fin 0x300)
  /-- INTERRUPT_ENTRY (R261). A pending enabled maskable interrupt is taken through trap slot 3. -/
  | interruptEntry (t : Nat) (h : Fin 0x300)
  /-- ALARM_DUE (R261). TIME reaches ALARM and the alarm interrupt becomes pending. -/
  | alarmDue (t : Nat) (h : Fin 0x300)
  /-- NMI_ENTRY (R260). A non-maskable trap is taken at the next instruction boundary. -/
  | nmiEntry (t : Nat) (h : Fin 0x300)
  /-- VI (R281). Integer lane operation selected by fn. -/
  | vi (x : Issue) (fn : Fin 32) (vd va vb : Fin 64) (p : Fin 8)
  /-- VF (R282). FP32 lane operation selected by fn. -/
  | vf (x : Issue) (fn : Fin 32) (vd va vb : Fin 64) (p : Fin 8)
  /-- VC (R283). Narrowing or widening lane conversion. -/
  | vc (x : Issue) (fn : Fin 32) (vd va vb : Fin 64) (p : Fin 8)
  /-- VACT (R286). Apply an FP32 activation function to each lane. -/
  | vact (x : Issue) (vd va vb : Fin 64) (p : Fin 8)
  /-- VRED (R287). Reduce selected lanes into lane 0. -/
  | vred (x : Issue) (vd va vb : Fin 64) (p : Fin 8)
  /-- VBCAST (R285). Broadcast a general register into selected lanes. -/
  | vbcast (x : Issue) (vd va vb : Fin 64) (p : Fin 8)
  /-- VEXT (R285). Extract a lane into a general register. -/
  | vext (x : Issue) (vd va vb : Fin 64) (p : Fin 8)
  /-- VINS (R285). Insert a general register into a lane. -/
  | vins (x : Issue) (vd va vb : Fin 64) (p : Fin 8)
  /-- VCMP (R285). Integer lane compare into a predicate. -/
  | vcmp (x : Issue) (vd va vb : Fin 64) (p : Fin 8)
  /-- VFCMP (R285). FP32 lane compare into a predicate. -/
  | vfcmp (x : Issue) (vd va vb : Fin 64) (p : Fin 8)
  /-- VSELV (R285). Select lanes by predicate. -/
  | vselv (x : Issue) (vd va vb : Fin 64) (p : Fin 8)
  /-- VPERM (R285). Permute lanes. -/
  | vperm (x : Issue) (vd va vb : Fin 64) (p : Fin 8)
  /-- VIDX (R285). Write lane indices. -/
  | vidx (x : Issue) (vd va vb : Fin 64) (p : Fin 8)
  /-- VMOV (R285). Copy selected lanes. -/
  | vmov (x : Issue) (vd va vb : Fin 64) (p : Fin 8)
  /-- TLD_R (R288). Tile load of packed codes into a vector register. -/
  | tldR (x : Issue) (v : Fin 64) (t : Fin 16) (ga gb : Fin 32) (det : Fin 3)
  /-- TLD_W (R288). Tile load widened into 32-bit lanes. -/
  | tldW (x : Issue) (v : Fin 64) (t : Fin 16) (ga gb : Fin 32) (det : Fin 3)
  /-- TLDE (R288). Tile load of BX8 block exponents. -/
  | tlde (x : Issue) (v : Fin 64) (t : Fin 16) (ga gb : Fin 32) (det : Fin 3)
  /-- TST_R (R288). Tile store of packed codes. -/
  | tstR (x : Issue) (v : Fin 64) (t : Fin 16) (ga gb : Fin 32)
  /-- TST_F (R289). Tile store of FP32 lanes narrowed to the tensor format. -/
  | tstF (x : Issue) (v : Fin 64) (t : Fin 16) (ga gb : Fin 32)
  /-- TST_I (R288). Tile store of INT32 lanes narrowed to an integer format. -/
  | tstI (x : Issue) (v : Fin 64) (t : Fin 16) (ga gb : Fin 32)
  /-- TSTA_I (R290). Atomic accumulate of INT32 lanes into the tensor. -/
  | tstaI (x : Issue) (v : Fin 64) (t : Fin 16) (ga gb : Fin 32) (det : Fin 3)
  /-- TSTA_F (R290). Atomic accumulate of FP32 lanes into the tensor. -/
  | tstaF (x : Issue) (v : Fin 64) (t : Fin 16) (ga gb : Fin 32) (det : Fin 3)
  /-- TGET (R291). Read a tile descriptor field. -/
  | tget (x : Issue) (r : Fin 64) (t t2 : Fin 16) (field : Fin 64)
  /-- TSET (R291). Set a descriptor cursor field. -/
  | tset (x : Issue) (r : Fin 64) (t t2 : Fin 16) (field : Fin 64)
  /-- TADV (R291). Advance a descriptor cursor field. -/
  | tadv (x : Issue) (r : Fin 64) (t t2 : Fin 16) (field : Fin 64)
  /-- TMOV (R291). Copy a tile descriptor. -/
  | tmov (x : Issue) (r : Fin 64) (t t2 : Fin 16) (field : Fin 64)
  /-- TACLR (R291). Clear and tag selected accumulator banks. -/
  | taclr (x : Issue) (r : Fin 64) (t t2 : Fin 16) (field : Fin 64)
  /-- TARD (R291). Read an accumulator bank into a vector register. -/
  | tard (x : Issue) (r : Fin 64) (t t2 : Fin 16) (field : Fin 64)
  /-- TAWR (R291). Write a vector register into an accumulator bank. -/
  | tawr (x : Issue) (r : Fin 64) (t t2 : Fin 16) (field : Fin 64)
  /-- TMMA (R293). Issue n dot-product steps to all 64 DPUs into consecutive banks. -/
  | tmma (x : Issue) (fn : BitVec 8) (vB : Fin 64) (tA bank0 n1 : Fin 16) (vE : Fin 64) (ga : Fin 32) (fb : Fin 16) (au ub : Bool) (low : BitVec 9) (det : Fin 3)
  /-- GLEANER_WRITE (R304). The gleaner writes a finished trace record from a die queue into the trace buffer per the buffer mode. -/
  | gleanerWrite (t : Nat)
  /-- TRIGGER_MARKER (R307). Once every die queue has passed the trigger tick the marker record is written. -/
  | triggerMarker (t : Nat)
  /-- CT_ARM (R309). A write of CT_CLR.arm empties the trace buffer and clears trigger and sampling state. -/
  | ctArm (t : Nat)
  /-- CT_CLR_CNT (R312). A write of CT_CLR.cnt clears CT_DROP, wrap and sat. -/
  | ctClrCnt (t : Nat)
  /-- CT_TRIG_FIRE (R307). A write of CT_TRIG_FIRE.fire fires a software trigger. -/
  | ctTrigFire (t : Nat) (value : Word)
  /-- VP_MISMATCH (R316). A lockstep comparator flags a difference: the pair halts, VP_MISMATCH is raised and a retry event charged. -/
  | vpMismatch (t : Nat) (pair : Fin 4) (group : Fin 5)
  /-- PAIR_RESTART_DONE (R316). A restarted pair passes difference injection and resumes its roles from their checkpoints. -/
  | pairRestartDone (t : Nat) (pair : Fin 4) (failed : BitVec 5)
  /-- ROLE_RESUME (R319). The receiving pair starts a moved role from its checkpoint. -/
  | roleResume (t : Nat) (role : Fin 4)
  /-- MAILBOX_REQUEST (R327). A mailbox request frame arrives on I3CT or Ethernet and is checked for CRC, length, busy and session before execution. -/
  | mailboxRequest (t : Nat) (via : Fin 3) (frame : List Byte)
  /-- PING (R328). Return service level and cause. -/
  | ping (t : Nat) (via : Fin 3) (tag : Byte)
  /-- STATUS (R328). Return pair, role, service and fault status. -/
  | status (t : Nat) (via : Fin 3) (tag : Byte)
  /-- READ_REG (R330). Read up to 60 register words in ascending address order. -/
  | readReg (t : Nat) (via : Fin 3) (tag : Byte) (addr : DWord) (count : Byte)
  /-- WRITE_REG (R330). Write up to 60 register words, stopping at a bus error or a sentinel restriction. -/
  | writeReg (t : Nat) (via : Fin 3) (tag : Byte) (addr : DWord) (words : List Word)
  /-- VD_COMMAND (R328). Issue a VD_CMD value and return VD_CMD_STATUS. -/
  | vdCommand (t : Nat) (via : Fin 3) (tag : Byte) (value : Word)
  /-- READ_RETAINED (R328). Read bytes of the retained block. -/
  | readRetained (t : Nat) (via : Fin 3) (tag : Byte) (offset : BitVec 16) (len : Byte)
  /-- CLEAR_RETAINED (R328). Clear the retained counts, fault records or last cause selected by the mask. -/
  | clearRetained (t : Nat) (via : Fin 3) (tag : Byte) (mask : Byte)
  /-- ATTEST (R463). Start a new attestation report or return part of the held report. -/
  | attest (t : Nat) (via : Fin 3) (tag : Byte) (nonce : BitVec 256) (offset : Word)
  /-- ATTEST_REPORT_READY (R463). The signed attestation report of a snapshot is ready. -/
  | attestReportReady (t : Nat)
  /-- CONFIRM_SPS (R493). Confirm the committed Safety Parameter Set by its check value. -/
  | confirmSps (t : Nat) (via : Fin 3) (tag : Byte) (value : Word)
  /-- FALLOW_LIST (R328). Return entries of the fallow list. -/
  | fallowList (t : Nat) (via : Fin 3) (tag : Byte) (start : BitVec 16)
  /-- RETURN_TO_SERVICE (R354). Return a fallow item to service, clearing its history and removing it from the fallow list. -/
  | returnToService (t : Nat) (via : Fin 3) (tag : Byte) (kind : Byte) (num : BitVec 16)
  /-- RESET (R331). Answer, then request a warden warm, partial or chip reset. -/
  | reset (t : Nat) (via : Fin 3) (tag : Byte) (target : Byte)
  /-- RESET_DELAY_EXPIRE (R331). The reset begins 100 µs after the RESET response has left the port. -/
  | resetDelayExpire (t : Nat)
  /-- SESSION_CHALLENGE (R467). SESSION op 0x01 returns a fresh challenge. -/
  | sessionChallenge (t : Nat) (via : Fin 3) (tag : Byte)
  /-- SESSION_OPEN (R467). SESSION op 0x02 opens a host session on a correct HMAC response. -/
  | sessionOpen (t : Nat) (via : Fin 3) (tag : Byte) (answer : BitVec 256)
  /-- SESSION_CLOSE (R467). SESSION op 0x03 closes the host session. -/
  | sessionClose (t : Nat) (via : Fin 3) (tag : Byte)
  /-- SESSION_IDLE_TIMEOUT (R468). A session closes after idle_s seconds without a control command. -/
  | sessionIdleTimeout (t : Nat)
  /-- SENTINEL_ENTRY (R335). Within 1 ms of a cause the device enters sentinel service, raises SYS_SENTINEL and holds outputs safe. -/
  | sentinelEntry (t : Nat) (cause : Fin 8)
  /-- CHIP_RESET_START (R340). A chip reset starts 2 µs after a raise with the chip reaction. -/
  | chipResetStart (t : Nat)
  /-- FC_ACK (R343). A write of FC_ACK.ack releases the held capture. -/
  | fcAck (t : Nat) (value : Word)
  /-- FC_CLR_REC (R357). Clear FC_REC. -/
  | fcClrRec (t : Nat)
  /-- FC_CLR_IRQ (R357). Clear FC_STATUS.irq. -/
  | fcClrIrq (t : Nat)
  /-- FC_CLR_CNT (R357). Clear every FC_CNT_n. -/
  | fcClrCnt (t : Nat)
  /-- FC_RAISE (R338). A write raises a firmware source 320–383 with a detail word. -/
  | fcRaise (t : Nat) (value : Word)
  /-- FC_INJ (R355). A write arms or cancels check-bit injections of one checker class. -/
  | fcInj (t : Nat) (value : Word)
  /-- QUIET_PERIOD_END (R345). A quiet period passes with no qualifying raise and the fault state ends. -/
  | quietPeriodEnd (t : Nat)
  /-- FLASH_RECORD_WRITE (R489). A change to the persisted records is written to the older flash copy. -/
  | flashRecordWrite (t : Nat)
  /-- KEY_A (R360). A KEY_A write makes a watchdog key pending for 64 ticks. -/
  | keyA (t : Nat) (w : Fin 9) (master : Nat)
  /-- KEY_B (R360). A KEY_B write completes a pending service, accepted in the open window. -/
  | keyB (t : Nat) (w : Fin 9) (master : Nat)
  /-- BAD_KEY (R360). A bad key write clears any pending key and is counted. -/
  | badKey (t : Nat) (w : Fin 9) (master : Nat) (key : BitVec 16)
  /-- KEY_LAPSE (R360). A pending key reaches its 64th tick without KEY_B and lapses. -/
  | keyLapse (t : Nat) (w : Fin 9)
  /-- WATCHDOG_EXPIRE (R363). A watchdog's deadline tick passes without service; it raises WD_EXPIRE and takes its action. -/
  | watchdogExpire (t : Nat) (w : Fin 9)
  /-- WATCHDOG_RESET_START (R363). A watchdog's warm or chip reset starts 2 µs after the expiry tick. -/
  | watchdogResetStart (t : Nat)
  /-- WD_CLR (R377). A write of WD_CLR.all clears watchdog and self-test counts. -/
  | wdClr (t : Nat) (value : Word)
  /-- SLICE_SLOT_START (R368). A slice slot begins on the next engine, or is deferred past a safety window. -/
  | sliceSlotStart (t : Nat) (core : Fin 16)
  /-- LOGIC_TEST_START (R369). The logic test starts once any atomic thread on the engine has ended. -/
  | logicTestStart (t : Nat) (core : Fin 16)
  /-- SLICE_ABANDON (R369). The atomic thread has not ended 200 µs into the slot, so the slice is abandoned. -/
  | sliceAbandon (t : Nat) (core : Fin 16)
  /-- SLICE_END (R371). A logic-test slice ends; a failure raises ST_LOGIC and keeps the engine out of service. -/
  | sliceEnd (t : Nat) (core : Fin 16) (fails : Bool)
  /-- KAT_START (R372). A due known-answer test begins on the core's engines. -/
  | katStart (t : Nat) (core : Fin 16)
  /-- KAT_END (R373). A known-answer test ends; a failure raises ST_KAT and starts a repeat test. -/
  | katEnd (t : Nat) (core : Fin 16) (failed : Option (Fin 16))
  /-- ST_LAPSE (R374). An item's test age comes within one slot of its coverage deadline without its test begun. -/
  | stLapse (t : Nat) (core : Fin 16) (kat : Bool) (engine : Fin 16)
  /-- SCRUBBER_LOST_WORD (R381). A scrubber finds a lost word and starts recovery or raises the memory's source. -/
  | scrubberLostWord (t : Nat) (at_ : ScrubbedWord)
  /-- DMA_REGEN_REQ (R385). A write queues the regeneration unit holding the address. -/
  | dmaRegenReq (t : Nat) (addr : BitVec 48)
  /-- REGEN_UNIT_START (R385). The regeneration channel starts reading the unit at the head of its queue from XSPI0, suspending any erase. -/
  | regenUnitStart (t : Nat)
  /-- REGEN_UNIT_DONE (R385). A unit's CRC matches and it is copied to its destination, or a second mismatch fails the region. -/
  | regenUnitDone (t : Nat) (bad1 bad2 : Bool)
  /-- DMA_CH_NEXT (R396). A write of the shadow starts, arms, stores or is refused per the shadow table. -/
  | dmaChNext (t : Nat) (k : Fin 64) (high : Word)
  /-- DMA_REQUEST (R390). A pacing request from a peripheral allows one burst or waits in pend. -/
  | dmaRequest (t : Nat) (req : BitVec 7)
  /-- DMA_CH_CTRL_REQ (R390). A write of DMA_CH_CTRL_k.req is one software request. -/
  | dmaChCtrlReq (t : Nat) (k : Fin 64)
  /-- DESCRIPTOR_FETCH (R389). A descriptor is fetched and checked, or the transfer ends with ERR_DESC. -/
  | descriptorFetch (t : Nat) (k : Fin 55) (det : Fin 3)
  /-- DMA_BURST (R391). A burst is read and written when arbitration and buffer room allow. -/
  | dmaBurst (t : Nat) (det : BurstDet)
  /-- DMA_WRITE_RESPONSE (R393). A burst's write response returns, possibly marking its descriptor bad. -/
  | dmaWriteResponse (t : Nat) (k : Fin 64) (n : Nat) (status : Fin 6)
  /-- DMA_END_OF_COUNT (R393). The count is zero and all responses have returned: eoc, interrupt, triggers and shadow hand-over. -/
  | dmaEndOfCount (t : Nat) (k : Fin 55)
  /-- DMA_ABORT (R397). A write of abort stops bursts, awaits responses and ends the transfer with ERR_ABORT. -/
  | dmaAbort (t : Nat) (k : Fin 64)
  /-- DMA_MODE_CHANGE (R391). A change between shared and run-to-completion mode takes effect once in-flight bursts are written. -/
  | dmaModeChange (t : Nat)
  /-- DMA_CLR (R403). A write of DMA_CLR.all clears DMA counts. -/
  | dmaClr (t : Nat) (value : Word)
  /-- CRC_SCAN_GO (R399). A go write starts a range or region scan job. -/
  | crcScanGo (t : Nat) (u : Fin 12) (value : Word)
  /-- CRC_SCAN_END (R399). A scan job ends with its result, mismatches queued for regeneration. -/
  | crcScanEnd (t : Nat) (u : Fin 12) (det : Fin 3)
  /-- CRC_CLR (R404). A write of CRC_CLR.all clears mismatch counts. -/
  | crcClr (t : Nat) (value : Word)
  /-- TM_STEP (R415). A high-word write adds a signed step to the time base at the end of the tick. -/
  | tmStep (t : Nat) (high : Word)
  /-- TM_OFS (R416). A high-word write delivers a servo sample that updates lock, integral and rate. -/
  | tmOfs (t : Nat) (high : Word)
  /-- TM_RATE (R419). A write of the rate, refused while the servo runs or out of range. -/
  | tmRate (t : Nat) (rate : Word)
  /-- SERVO_LOSS (R417). loss_ms passes with no sample: holdover is set and TM_GM_LOSS raised. -/
  | servoLoss (t : Nat)
  /-- REPLICA_SYNC (R408). Each millisecond replicas compare with the time base and reload when off by more than 4 ns. -/
  | replicaSync (t : Nat)
  /-- ETS_READ (R414). A read of TM_ETS_ID_x removes the oldest stamp entry and latches its stamp. -/
  | etsRead (t : Nat) (x : Fin 4)
  /-- TM_CLR (R419). A write of TM_CLR.all clears time counts and flags. -/
  | tmClr (t : Nat) (value : Word)
  /-- ETH_LINK_DOWN (R420). The PHY reports link loss: ETH_LINK raised and a retry event charged. -/
  | ethLinkDown (t : Nat) (x : Fin 2)
  /-- ETH_LINK_UP (R420). The PHY reports link at or above the minimum rate. -/
  | ethLinkUp (t : Nat) (x : Fin 2) (rate : Fin 4)
  /-- ETH_RATE_CHANGE (R420). A rate change while up is counted and compensation rewritten. -/
  | ethRateChange (t : Nat) (x : Fin 2) (rate : Fin 4)
  /-- ETH_FRAME_RECEIVE (R421). A received Ethernet frame is checked and dropped or passed to its EtherType handler. -/
  | ethFrameReceive (t : Nat) (x : Fin 2) (fcsOk : Bool) (frame : List Byte)
  /-- COMPARE_TIMEOUT (R426). No second copy arrives within C ticks, so the first copy is delivered single. -/
  | compareTimeout (t : Nat) (peer : Fin 8) (seq : Word)
  /-- ETH_TXLATE (R424). A datagram the safety queue cannot take within 20 µs is withheld with its later fragments and ETH_TXLATE raised. -/
  | ethTxlate (t : Nat) (x : Fin 2) (n : Nat)
  /-- BULK_DATA (R427). A management bulk-data frame is stored to the staging area and acknowledged. -/
  | bulkData (t : Nat) (x : Fin 2) (tag : BitVec 16) (offset : Word) (data : List Byte)
  /-- ETH_CLR (R436). A write of ETH_CLR.all clears Ethernet counts. -/
  | ethClr (t : Nat) (value : Word)
  /-- I3C_PRIVATE_READ (R430). A private read returns the mailbox response, or is NACKed before it is ready. -/
  | i3cPrivateRead (t : Nat) (hdr : Bool) (len : Nat)
  /-- IBI_RETRY (R430). A pending IBI is raised again at the next Bus Available condition. -/
  | ibiRetry (t : Nat) (acked : Bool)
  /-- ENEC (R429). Enable target interrupts. -/
  | enec (t : Nat) (events : BitVec 8)
  /-- DISEC (R429). Disable target interrupts. -/
  | disec (t : Nat) (events : BitVec 8)
  /-- ENTAS (R429). Activity state CCC, accepted and ignored. -/
  | entas (t : Nat) (n : Fin 4)
  /-- RSTDAA (R429). Reset the dynamic address. -/
  | rstdaa (t : Nat)
  /-- ENTDAA (R428). Dynamic address assignment. -/
  | entdaa (t : Nat) (addr : BitVec 7)
  /-- SETDASA (R428). Set dynamic address from static address. -/
  | setdasa (t : Nat) (sa addr : BitVec 7)
  /-- SETNEWDA (R429). Set a new dynamic address. -/
  | setnewda (t : Nat) (addr : BitVec 7)
  /-- SETMWL (R429). Set maximum write length, accepted and ignored. -/
  | setmwl (t : Nat) (len : BitVec 16)
  /-- SETMRL (R429). Set maximum read length, accepted and ignored. -/
  | setmrl (t : Nat) (len : BitVec 16)
  /-- GETMWL (R429). Return maximum write length 256. -/
  | getmwl (t : Nat)
  /-- GETMRL (R429). Return maximum read length 256. -/
  | getmrl (t : Nat)
  /-- GETPID (R429). Return the provisional ID. -/
  | getpid (t : Nat)
  /-- GETBCR (R429). Return BCR. -/
  | getbcr (t : Nat)
  /-- GETDCR (R429). Return DCR. -/
  | getdcr (t : Nat)
  /-- GETSTATUS (R429). Return pending IBIs, protocol error and service level. -/
  | getstatus (t : Nat)
  /-- GETMXDS (R429). Return no read turnaround limit. -/
  | getmxds (t : Nat)
  /-- GETCAPS (R429). Return version and HDR-DDR capability. -/
  | getcaps (t : Nat)
  /-- ENTHDR0 (R429). Enter HDR-DDR mode. -/
  | enthdr0 (t : Nat)
  /-- RSTACT (R429). Reset action; only I3C port reset actions are taken. -/
  | rstact (t : Nat) (action : BitVec 8)
  /-- I3C_C_CMD (R431). A write starts one controller transfer, refused while one runs. -/
  | i3cCCmd (t : Nat) (value : Word)
  /-- I3C_C_TRANSFER_END (R431). A controller transfer completes with its status and data. -/
  | i3cCTransferEnd (t : Nat) (st : Fin 3) (data : List Byte)
  /-- I3C_C_IBI_RECEIVE (R431). A target IBI is accepted into the FIFO or NACKed when full. -/
  | i3cCIbiReceive (t : Nat) (addr : BitVec 7) (payload : List Byte)
  /-- I3C_C_IBI (R437). A read of I3C_C_IBI removes the oldest IBI entry. -/
  | i3cCIbi (t : Nat)
  /-- XSP_READ (R432). Start an xSPI device read command. -/
  | xspRead (t : Nat) (x : Fin 2) (op : BitVec 8) (cs : Fin 2)
  /-- XSP_PROGRAM (R432). Start an xSPI device program command. -/
  | xspProgram (t : Nat) (x : Fin 2) (op : BitVec 8) (cs : Fin 2)
  /-- XSP_ERASE (R432). Start an xSPI device erase command. -/
  | xspErase (t : Nat) (x : Fin 2) (op : BitVec 8) (cs : Fin 2)
  /-- XSP_REGISTER_ACCESS (R432). Start an xSPI device register access. -/
  | xspRegisterAccess (t : Nat) (x : Fin 2) (op : BitVec 8) (cs : Fin 2)
  /-- XSP_CMD_DONE (R432). An xSPI command completes, reporting program, erase or ECC errors. -/
  | xspCmdDone (t : Nat) (x : Fin 2) (fails : Bool) (data : List Byte)
  /-- XSP_BUSY_TIMEOUT (R432). The device stays busy past tmo_ms: ERR_TIMEOUT and XSP_ERR. -/
  | xspBusyTimeout (t : Nat) (x : Fin 2)
  /-- XSP_CLR (R438). A write of XSP_CLR.all clears xSPI counts. -/
  | xspClr (t : Nat) (value : Word)
  /-- PARTNER_FAULT (R440). PARTNER_FAULT_N holds low for 2 ticks: PARTNER_FAULT raised and pfn set. -/
  | partnerFault (t : Nat)
  /-- HEARTBEAT (R449). A partner HEARTBEAT frame arrives, clearing hb_lost and measuring round-trip time. -/
  | heartbeat (t : Nat) (h : MlHdr) (echo : Word) (arrived : DWord)
  /-- DECISION (R444). A mirrored decision is applied on the secondary and its held fall-back result released. -/
  | decision (t : Nat) (h : MlHdr) (n : Fin 1024) (fid state : Word) (causes : BitVec 16) (hist : DWord) (doubt : DecCounts) (nofb noinput : Bool)
  /-- STATE (R444). A mirrored non-decision state change is applied. -/
  | state (t : Nat) (h : MlHdr) (x : MlState)
  /-- KEYS (R444). A mirrored admission counter and key epoch are applied. -/
  | keys (t : Nat) (h : MlHdr) (n : Fin 1024) (admitCtr : Word) (epoch : BitVec 16)
  /-- TIME (R446). A TIME frame gives the secondary a servo sample. -/
  | time (t : Nat) (h : MlHdr) (ns : DWord)
  /-- FRAME (R445). The secondary aligns its frame IDs to the primary's accepted Frame Start. -/
  | frame (t : Nat) (h : MlHdr) (p : Fin 16) (fid : Word) (stamp : DWord)
  /-- LOG (R444). A partner fault record, watchdog count or fallow entry is stored in the mirror area. -/
  | log (t : Nat) (h : MlHdr) (x : MlLog)
  /-- HAND_OVER (R450). A HAND_OVER frame is applied and the secondary takes over. -/
  | handOver (t : Nat) (h : MlHdr) (last : List (Nat × Nat))
  /-- ACK (R442). An acknowledgement of received frame sequences. -/
  | ack (t : Nat) (h : MlHdr) (seqs : List Nat)
  /-- BULK (R441). A Melhan BULK frame carries firmware data. -/
  | bulk (t : Nat) (h : MlHdr) (offset : BitVec 20) (data : List Byte)
  /-- ML_RESEND (R442). An unacknowledged frame is resent after 500 ns; after the second resend the link is down. -/
  | mlResend (t : Nat) (seq : Word)
  /-- ML_LINK_UP (R442). A trained link sets link = 1 and the primary sends the full mirrored copy. -/
  | mlLinkUp (t : Nat) (h : MlHdr)
  /-- HEARTBEAT_SEND (R449). A HEARTBEAT is sent every 100 µs. -/
  | heartbeatSend (t : Nat)
  /-- HEARTBEAT_MISS (R449). 25,000 ticks pass without a heartbeat; the third miss sets hb_lost and raises ML_HB. -/
  | heartbeatMiss (t : Nat)
  /-- TIME_SEND (R444). A TIME frame is sent every 1 ms. -/
  | timeSend (t : Nat)
  /-- ARBITRATION_WAIT_EXPIRE (R448). wait_ms passes without a link and the strap decides the role. -/
  | arbitrationWaitExpire (t : Nat)
  /-- ML_CMD_HAND_OVER (R454). ML_CMD HAND_OVER sends a hand-over frame after the current tick's decisions. -/
  | mlCmdHandOver (t : Nat)
  /-- HAND_OVER_TIMEOUT (R454). A hand-over frame not acknowledged within 10 µs leaves the primary in role with ERR_STATE. -/
  | handOverTimeout (t : Nat)
  /-- RESYNC (R456). ML_CMD RESYNC makes the primary resend the full mirrored copy. -/
  | resync (t : Nat)
  /-- ML_CLR (R456). A write of ML_CLR.all clears Melhan counts and lag. -/
  | mlClr (t : Nat) (value : Word)
  /-- PROGRAM (R459). Program a fuse field from SEC_PROV_DATA in MANUF. -/
  | program (t : Nat) (field : BitVec 8)
  /-- PROV_ID (R459). Draw and program the identity seed. -/
  | provId (t : Nat)
  /-- LOCK (R459). Move the lifecycle to FIELD when every required field is programmed. -/
  | lock (t : Nat)
  /-- CHALLENGE (R480). Draw a RETURN challenge into the SEC_AJOB_ADDR buffer. -/
  | challenge (t : Nat)
  /-- RETURN (R480). Verify a signed token and move the lifecycle to RETURN, followed by a chip reset. -/
  | returnToken (t : Nat) (sigOk : Bool)
  /-- KEY_EPOCH (R470). Request a job-epoch change for one context or all. -/
  | keyEpoch (t : Nat) (all : Bool) (n : Fin 1024)
  /-- VERDICT_EPOCH (R472). Increment the device verdict epoch. -/
  | verdictEpoch (t : Nat)
  /-- ROTATE (R476). Move the archive key to the old slot and make the next epoch current. -/
  | rotate (t : Nat)
  /-- SWEEP_DONE (R477). End the re-encryption sweep. -/
  | sweepDone (t : Nat)
  /-- PAGE_JOB_START (R475). A go write starts an archive page encrypt or decrypt job. -/
  | pageJobStart (t : Nat) (decrypt : Bool)
  /-- PAGE_JOB_END (R475). A page job ends with its status. -/
  | pageJobEnd (t : Nat) (det : Fin 3)
  /-- RNG_HEALTH_FAIL (R479). A failed entropy health test raises SEC_RNG and reseeding stops. -/
  | rngHealthFail (t : Nat)
  /-- DRBG_RESEED (R478). The DRBG reseeds each second, or retries the source every 1 ms after a failure. -/
  | drbgReseed (t : Nat)
  /-- DRBG_STOP (R479). After 2^32 requests without reseed the DRBG stops. -/
  | drbgStop (t : Nat)
  /-- SEC_CLR (R481). A write of SEC_CLR.all clears security counts. -/
  | secClr (t : Nat) (value : Word)
  /-- PORST_N_RELEASE (R482). Release of PORST_N samples the straps and starts the boot chain. -/
  | porstNRelease (t : Nat) (pairRole tmode : Bool)
  /-- BOOT_STAGE_END (R482). A boot stage completes and the next begins, or the chain stops into sentinel service. -/
  | bootStageEnd (t : Nat) (stop : Fin 8) (diff : BitVec 20) (auth : BitVec 4) (granFails : Bool)
  /-- COMMIT (R491). Verify the Safety Parameter Set image, reset RWL fields, write its records and run every commit check. -/
  | commit (t : Nat) (sigOk : Bool)
  /-- SPS_FLASH_WRITE_DONE (R492). The committed set has been written to both flash copies. -/
  | spsFlashWriteDone (t : Nat)
  /-- BEGIN (R494). Start an update into the inactive slot and begin erasing it. -/
  | updBegin (t : Nat)
  /-- SECTOR_ERASE_DONE (R494). A target sector finishes erasing and erase_next advances. -/
  | sectorEraseDone (t : Nat)
  /-- VERIFY (R494). Verify every image of the target slot. -/
  | updVerify (t : Nat) (sigOk : Bool)
  /-- ACTIVATE (R494). Write a boot descriptor making the target active on trial. -/
  | updActivate (t : Nat)
  /-- CONFIRM (R494). Confirm the running trial slot and raise minver. -/
  | updConfirm (t : Nat)
  /-- ABORT (R494). Abandon the update and restore the previous slot. -/
  | updAbort (t : Nat)
  /-- SYS_RST_CMD (R498). A keyed write requests a warden warm, partial or chip reset. -/
  | sysRstCmd (t : Nat) (value : Word)
  /-- PARTIAL_RESET_DONE (R497). A die's partial reset completes with firmware reloaded and tests passed. -/
  | partialResetDone (t : Nat) (die : Fin 4)
  /-- SIN_LEVEL_CHANGE (R499). A safety input channel's filtered level changes and the input state is updated. -/
  | sinLevelChange (t : Nat) (k : Fin 8) (chanB : Bool) (level : Bool)
  /-- DISCREPANCY_EXPIRE (R500). The discrepancy timer expires in PENDING; the input latches and SIO_DISC is raised. -/
  | discrepancyExpire (t : Nat) (k : Fin 8)
  /-- TEST_PULSE_START (R504). A test pulse drives a high safe output low every tp_ms. -/
  | testPulseStart (t : Nat) (o : Fin 4)
  /-- TEST_PULSE_END (R504). The pulse ends and the output rises if allowed. -/
  | testPulseEnd (t : Nat) (o : Fin 4)
  /-- READBACK_MISMATCH (R505). SRB differs from the driven level outside the settle time: latch, drive low, raise SIO_READBACK. -/
  | readbackMismatch (t : Nat) (o : Fin 4) (level : Bool)
  /-- READBACK_RELEASE (R505). A rel write clears the readback latch only while SRB reads low. -/
  | readbackRelease (t : Nat) (o : Fin 4)
  /-- POWER_UP (R506). Drive ACC_PWREN high, then ACC_RST_N high after settle_ms. -/
  | powerUp (t : Nat) (a : Fin 4)
  /-- POWER_DOWN (R506). Drive ACC_RST_N and then ACC_PWREN low. -/
  | powerDown (t : Nat) (a : Fin 4)
  /-- RELEASE (R506). Drive ACC_RST_N high for a powered accelerator. -/
  | releaseAcc (t : Nat) (a : Fin 4)
  /-- ACC_PAD_MISMATCH (R507). A control ball's pad level differs for more than 10 µs and SIO_ACC is raised. -/
  | accPadMismatch (t : Nat) (a : Fin 4) (ball : Bool) (level : Bool)
  /-- SIO_CLR (R509). A write of SIO_CLR.all clears SIO counts. -/
  | sioClr (t : Nat) (value : Word)
  /-- LB_GO (R512). Start the loop-back test described in SYS_LB_CFG. -/
  | lbGo (t : Nat)
  /-- LB_ABORT (R513). End the running loop-back with ERR_ABORT. -/
  | lbAbort (t : Nat)
  /-- LOOPBACK_LOCK (R514). The loop-back path locks and the run begins. -/
  | loopbackLock (t : Nat)
  /-- LOOPBACK_LOCK_TIMEOUT (R514). Lock is not reached within 10 ms and the test ends with ERR_LINK. -/
  | loopbackLockTimeout (t : Nat)
  /-- LOOPBACK_END (R514). The run time or march ends and the result is recorded. -/
  | loopbackEnd (t : Nat) (count : BitVec 48) (errs : Nat) (first : DWord) (moved : List (Fin 0x5C × Word))
  /-- BYPASS (R518). JTAG BYPASS instruction. -/
  | bypass (t : Nat)
  /-- IDCODE (R518). JTAG IDCODE instruction. -/
  | idcode (t : Nat)
  /-- SAMPLE_PRELOAD (R518). JTAG SAMPLE/PRELOAD instruction. -/
  | samplePreload (t : Nat) (scan : Nat)
  /-- EXTEST (R519). JTAG EXTEST instruction; balls follow the boundary register. -/
  | extest (t : Nat) (scan : Nat)
  /-- CLAMP (R519). JTAG CLAMP instruction. -/
  | clamp (t : Nat)
  /-- HIGHZ (R519). JTAG HIGHZ instruction. -/
  | highz (t : Nat)
  /-- DBG_ACCESS (R518). JTAG aligned 32-bit access to the address map as a warden-mode master. -/
  | dbgAccess (t : Nat) (write : Bool) (addr : BitVec 48) (value : Word)
  /-- PORST_N_ASSERT (R534). PORST_N held low resets the whole device. -/
  | porstNAssert (t : Nat) (ns : Nat)
  /-- WRST_N (R534). WRST_N held low takes a warden warm reset. -/
  | wrstN (t : Nat) (ns : Nat)
  /-- RAIL_OUT_OF_WINDOW (R531). A rail stays outside its monitor window for more than 2 µs and SYS_VMON is raised. -/
  | railOutOfWindow (t : Nat) (k : Fin 10)
  /-- RAIL_BELOW_THRESHOLD (R531). A rail below its reset threshold holds the device in reset. -/
  | railBelowThreshold (t : Nat) (k : Fin 10)
  /-- RESET_HOLD_END (R531). The reset hold ends 1 ms after every rail is back in tolerance. -/
  | resetHoldEnd (t : Nat)
  /-- PLL_LOCK_LOSS (R406). A root PLL loses lock, raising SYS_PLL with a chip reset. -/
  | pllLockLoss (t : Nat) (die : Fin 5)
  /-- TEMP_SAMPLE (R536). Each die's temperature is read every 1 ms. -/
  | tempSample (t : Nat) (w c0 c1 c2 c3 : BitVec 8)
  /-- AVS_STEP (R528). Every 100 µs the firmware steps a die's regulator toward fuse_mv. -/
  | avsStep (t : Nat) (die : Fin 4)
  /-- SYS_AVS (R528). A write of set_mv, refused below fuse_mv or outside 650–850 mV. -/
  | sysAvs (t : Nat) (die : Fin 4) (value : Word)
  /-- FP_CLR (R85). A write clears the counts of the selected CIN, FWD and MON ports. -/
  | fpClr (t : Nat) (value : Word)
  /-- EV_CLR_CTX (R110). A write of EV_CLR.ctx clears every context's evidence counts. -/
  | evClrCtx (t : Nat) (value : Word)
  /-- EV_CLR_EIN (R110). A write clears the counts of the selected EIN ports. -/
  | evClrEin (t : Nat) (value : Word)
  /-- CK_CLR (R135). A write of CK_CLR.all clears every per-context check count. -/
  | ckClr (t : Nat) (value : Word)
  /-- CX_CLR (R202). A write of CX_CLR.all clears compute-die counts. -/
  | cxClr (t : Nat) (die : Fin 4) (value : Word)
  /-- GS_CLR (R237). A write of GS_CLR.all clears scheduler counts. -/
  | gsClr (t : Nat) (die : Fin 4) (value : Word)
  /-- PEER_TIMEOUT (R425). A peer sends nothing for ETH_PEER_k.tmo_ms and is restarted, so that its next datagram is a first copy that sets H. -/
  | peerTimeout (t : Nat) (k : Fin 8)
  /-- RAIL_IN_WINDOW (R531). A rail returns inside its monitor window; its SYS_PWR_STAT.out bit clears and the SYS_VMON standing condition ends. -/
  | railInWindow (t : Nat) (k : Fin 10)
  /-- PARTNER_FAULT_RELEASE (R440). PARTNER_FAULT_N holds high for 2 ticks and ML_STATUS.pfn clears. -/
  | partnerFaultRelease (t : Nat)
  /-- I3C_PROTOCOL_ERROR (R430). A TE0–TE6 protocol error on the I3C target bus is handled per the specification, counted in I3C_T_ERR.proto and raises I3C_ERR. -/
  | i3cProtocolError (t : Nat) (te : Fin 7)
  /-- ETH_FRAME_TRANSMIT (R414). A queued frame's start-frame delimiter leaves the USXGMII boundary; a gPTP frame takes its transmit stamp into its ETS queue. -/
  | ethFrameTransmit (t : Nat) (x : Fin 2) (ptp : Option (List Byte)) (dst : BitVec 48)
  /-- LINK_TRAINING_DONE (R354). A lane group returned to service passes link training and is used again. -/
  | linkTrainingDone (t : Nat) (num : Fin 48)
  /-- BLOCK_RESET_DONE (R340). A block reset of a port receiver, transmitter, MAC, link, unit, pair or control processor completes and the block resumes. -/
  | blockResetDone (t : Nat) (src : Fin 384)
  /-- UPDATE_COMMAND_DONE (R494). A running SYS_UPD_CMD command (VERIFY, ACTIVATE, CONFIRM or ABORT) completes, sets the update state and clears SYS_UPD_STAT.busy. -/
  | updateCommandDone (t : Nat)
  /-- FC_SELF_DIFFERENCE (R347). The duplicated fault-collector logic differs; FC_SELF is raised as a standing source and FAULT_N is driven low directly. -/
  | fcSelfDifference (t : Nat)
  /-- G6_TEMPERATURE_REPORT (R189). A GDDR6 device reports a temperature crossing 85 °C, and the refresh rate is doubled or restored. -/
  | g6TemperatureReport (t : Nat) (ch : Fin 16) (hot : Bool)
  /-- LIFECYCLE_RETURN_RESET (R480). 2 µs after a successful RETURN, a chip reset starts with last_cause 0x23. -/
  | lifecycleReturnReset (t : Nat)
  deriving DecidableEq, Repr

end Sys2Proof
end

