-- ==== Sys2Proof/Decode.lean ====
section
/-! DEFINITION. The commands of the opcode table that carry bits.  No row of the table gives a command any
bits, so no word spells one. -/

namespace Sys2Proof

/-- The command that a word spells by the opcode table's bits: none, as no row gives bits. -/
def decodeTableWord (_nbits _w : Nat) : Option Instr := none

end Sys2Proof
end

