-- ==== Sys2Proof/Config.lean ====
section
/-! DEFINITION. What the spec leaves open: free values, contents that no rule states, and the
cryptographic functions, whose values the model never computes.  Each is a constant with no body, so a
proof holds for every value it could have. -/

namespace Sys2Proof.Config

/-- The free value with number `k`: the model draws a fresh number for every value the spec leaves open
(log 2). -/
opaque free : Nat → Nat

/-- The bytes of the boot ROM, which the spec does not print (log 3). -/
opaque bootRom : Nat → Byte

/-- The `n` low bytes of a number, least significant first. -/
def lowBytes : Nat → Nat → List Byte
  | 0, _ => []
  | n + 1, v => BitVec.ofNat 8 v :: lowBytes n (v / 256)

/-- The bytes of a value, most significant first. -/
def bytesOf {w : Nat} (n : Nat) (v : BitVec w) : List Byte := (lowBytes n v.toNat).reverse

/-- AES-256-GCM tag: key, initialisation vector, associated data, ciphertext (log 4). -/
opaque gcmValue : List Byte → List Byte → List Byte → List Byte → BitVec 128

/-- Its 16 bytes. -/
def gcmTag (key iv aad text : List Byte) : List Byte := bytesOf 16 (gcmValue key iv aad text)

/-- Byte `i` of the AES-256-GCM keystream of a key and an initialisation vector (log 4). -/
opaque gcmStream : List Byte → List Byte → Nat → Byte

/-- HKDF-SHA-256 with the salt of R469: a key from a secret and an info string (log 4). -/
opaque hkdfValue : List Byte → List Byte → BitVec 256

/-- Its 32 bytes. -/
def hkdf (secret info : List Byte) : List Byte := bytesOf 32 (hkdfValue secret info)

/-- HMAC-SHA-256 of a message under a key (log 4). -/
opaque hmacValue : List Byte → List Byte → BitVec 256

/-- Its 32 bytes. -/
def hmac (key message : List Byte) : List Byte := bytesOf 32 (hmacValue key message)

/-- SHA-256 of a byte string (log 4). -/
opaque sha256Value : List Byte → BitVec 256

/-- Its 32 bytes. -/
def sha256 (l : List Byte) : List Byte := bytesOf 32 (sha256Value l)

/-- The SLH-DSA-SHA2-128f signature of a message under an identity seed (R462, log 4). -/
opaque identitySign : List Byte → List Byte → List Byte

/-- The public key of an identity seed (R462, log 4). -/
opaque identityKey : List Byte → List Byte

/-- The grade of the device: 0 ZW16-AQ, 1 ZW16-IX, from fuses outside the table of R457 (R536, R539, log 21). -/
opaque grade : Fin 2

/-- The fused operating voltage of a compute die in mV (R528, R539, log 21). -/
opaque fuseMv : Nat → Nat

end Sys2Proof.Config
end

