-- ==== Sys2Proof/Machine/RegMap.lean ====
section
/-! DEFINITION. The register map: every register of the spec's register tables, its place, its reset
value and the access code of its bits (R5, R6, R10, and the register rule of each chapter).

`A.X` is the address of register X, `F.X_f` its field f.  The rows are written from the register tables
of the chapters; the reset values that depend on the instance stand in `specialReset`. -/

namespace Sys2Proof.Machine

/-- A field of a register word: the word's address, its lowest bit and its width. -/
structure Field where
  addr : Nat
  lo : Nat
  width : Nat
  deriving DecidableEq, Repr

/-- One row of the register map: offset in its block, distance and number of instances, 64 bits wide or
not, reset value, and the masks of the access codes RW, RWL, W1C and WO; every other bit is RO. -/
structure RegRow where
  name : String
  off : Nat
  stride : Nat
  count : Nat
  wide : Bool
  reset : Nat
  rw : Nat
  rwl : Nat
  w1c : Nat
  wo : Nat
  deriving DecidableEq, Repr

/-- The rows of block FC. -/
def rowsFC : List RegRow := [
  ⟨"FC_STATUS", 0x0, 0, 1, false, 0x80000000, 0, 0, 0, 0⟩,
  ⟨"FC_QUIET", 0x4, 0, 1, false, 0x403e8, 0, 0x7ffff, 0, 0⟩,
  ⟨"FC_REC", 0x8, 0, 1, false, 0x0, 0, 0, 0, 0⟩,
  ⟨"FC_ACK", 0xc, 0, 1, false, 0x0, 0, 0, 0, 0x1⟩,
  ⟨"FC_CLR", 0x10, 0, 1, false, 0x0, 0, 0, 0, 0x7⟩,
  ⟨"FC_RAISE", 0x14, 0, 1, false, 0x0, 0, 0, 0, 0xffff01ff⟩,
  ⟨"FC_INJ", 0x18, 0, 1, false, 0x0, 0xcfffff00, 0, 0, 0⟩,
  ⟨"FC_RETIRE_LAST", 0x1c, 0, 1, false, 0x0, 0, 0, 0, 0⟩,
  ⟨"FC_RETRY_k", 0x40, 4, 7, false, 0x303e8, 0, 0xfffff, 0, 0⟩,
  ⟨"FC_PEND_k", 0x80, 4, 12, false, 0x0, 0, 0, 0xffffffff, 0⟩,
  ⟨"FC_CAP", 0x100, 4, 16, false, 0x0, 0, 0, 0, 0⟩,
  ⟨"FC_SEV_n", 0x1000, 4, 384, false, 0x60, 0, 0xe000007f, 0, 0⟩,
  ⟨"FC_CNT_n", 0x2000, 4, 384, false, 0x0, 0, 0, 0, 0⟩]

/-- The rows of block WD. -/
def rowsWD : List RegRow := [
  ⟨"WD_KEY_w", 0x0, 32, 9, false, 0x0, 0, 0, 0, 0xffff⟩,
  ⟨"WD_CFG_w", 0x4, 32, 9, false, 0x5, 0, 0x7, 0, 0⟩,
  ⟨"WD_TIME_w", 0x8, 32, 9, false, 0x1388, 0, 0xffffffff, 0, 0⟩,
  ⟨"WD_STAT_w", 0xc, 32, 9, false, 0x60000000, 0, 0, 0, 0⟩,
  ⟨"WD_REF_w", 0x10, 32, 9, true, 0x0, 0, 0, 0, 0⟩,
  ⟨"WD_ST_CFG", 0x200, 0, 1, false, 0x6414000, 0, 0xfffff000, 0, 0⟩,
  ⟨"WD_CLR", 0x204, 0, 1, false, 0x0, 0, 0, 0, 0x1⟩,
  ⟨"WD_STATUS", 0x208, 0, 1, false, 0x0, 0, 0, 0, 0⟩,
  ⟨"WD_ST_AGE_d", 0x210, 16, 4, false, 0x0, 0, 0, 0, 0⟩,
  ⟨"WD_ST_CNT_d", 0x214, 16, 4, false, 0x0, 0, 0, 0, 0⟩]

/-- The rows of block TM. -/
def rowsTM : List RegRow := [
  ⟨"TM_CTRL", 0x0, 0, 1, false, 0x0, 0x7, 0, 0, 0⟩,
  ⟨"TM_STATUS", 0x4, 0, 1, false, 0x0, 0, 0, 0, 0⟩,
  ⟨"TM_CLR", 0x8, 0, 1, false, 0x0, 0, 0, 0, 0x1⟩,
  ⟨"TM_TIME", 0x10, 0, 1, true, 0x0, 0, 0, 0, 0⟩,
  ⟨"TM_FRAC", 0x18, 0, 1, false, 0x0, 0, 0, 0, 0⟩,
  ⟨"TM_STEP", 0x20, 0, 1, true, 0x0, 0, 0, 0, 0xffffffffffffffff⟩,
  ⟨"TM_RATE", 0x28, 0, 1, false, 0x0, 0xffffffff, 0, 0, 0⟩,
  ⟨"TM_OFS", 0x30, 0, 1, true, 0x0, 0, 0, 0, 0xffffffffffffffff⟩,
  ⟨"TM_SERVO", 0x38, 0, 1, false, 0x450002, 0xffffffff, 0, 0, 0⟩,
  ⟨"TM_LIMIT", 0x3c, 0, 1, false, 0xa0641f4, 0xffffffff, 0, 0, 0⟩,
  ⟨"TM_SERVO_I", 0x40, 0, 1, true, 0x0, 0, 0, 0, 0⟩,
  ⟨"TM_SERVO_E", 0x48, 0, 1, true, 0x0, 0, 0, 0, 0⟩,
  ⟨"TM_CNT", 0x50, 0, 1, false, 0x0, 0, 0, 0, 0⟩,
  ⟨"TM_ETH_COMP_x", 0x60, 4, 4, false, 0x0, 0xffff, 0, 0, 0⟩,
  ⟨"TM_ETS_ID_x", 0x80, 16, 4, false, 0x0, 0, 0, 0, 0⟩,
  ⟨"TM_ETS_TS_x", 0x88, 16, 4, true, 0x0, 0, 0, 0, 0⟩,
  ⟨"TM_CSI_COMP_p", 0x100, 4, 16, false, 0x0, 0xffff, 0, 0, 0⟩]

/-- The rows of block DMA. -/
def rowsDMA : List RegRow := [
  ⟨"DMA_CTRL", 0x0, 0, 1, false, 0x1, 0x3, 0, 0, 0⟩,
  ⟨"DMA_STATUS", 0x4, 0, 1, false, 0x2, 0, 0, 0, 0⟩,
  ⟨"DMA_CLR", 0x8, 0, 1, false, 0x0, 0, 0, 0, 0x1⟩,
  ⟨"DMA_IRQ_i", 0x10, 4, 2, false, 0x0, 0, 0, 0xffffffff, 0⟩,
  ⟨"DMA_REGEN_SCR", 0x20, 0, 1, true, 0x0, 0, 0xffffffff0000, 0, 0⟩,
  ⟨"DMA_REGEN_REQ", 0x28, 0, 1, true, 0x0, 0, 0, 0, 0xffffffffffff⟩,
  ⟨"DMA_REGEN_STAT", 0x30, 0, 1, false, 0x0, 0, 0, 0, 0⟩,
  ⟨"DMA_CH_CFG_k", 0x1000, 64, 64, false, 0xe0060000, 0xe307007f, 0, 0, 0⟩,
  ⟨"DMA_CH_CTRL_k", 0x1004, 64, 64, false, 0x0, 0, 0, 0, 0x3⟩,
  ⟨"DMA_CH_STAT_k", 0x1008, 64, 64, false, 0x0, 0, 0, 0, 0⟩,
  ⟨"DMA_CH_ERR_k", 0x100c, 64, 64, false, 0x0, 0, 0, 0, 0⟩,
  ⟨"DMA_CH_NEXT_k", 0x1010, 64, 64, true, 0x0, 0xffffffffffe1, 0, 0, 0⟩,
  ⟨"DMA_CH_CUR_k", 0x1018, 64, 64, true, 0x0, 0, 0, 0, 0⟩,
  ⟨"DMA_CH_CNT_k", 0x1020, 64, 64, false, 0x0, 0, 0, 0, 0⟩,
  ⟨"DMA_REGEN_DST_r", 0x3000, 32, 64, true, 0x0, 0, 0xffffffff0000, 0, 0⟩,
  ⟨"DMA_REGEN_SRC_r", 0x3008, 32, 64, false, 0x0, 0, 0xffffffff, 0, 0⟩,
  ⟨"DMA_REGEN_LEN_r", 0x300c, 32, 64, false, 0x0, 0, 0x80ffffff, 0, 0⟩,
  ⟨"DMA_REGEN_LIST_r", 0x3010, 32, 64, true, 0x0, 0, 0xfffffffffffc, 0, 0⟩,
  ⟨"DMA_REGEN_ST_r", 0x3018, 32, 64, false, 0x0, 0, 0, 0, 0⟩]

/-- The rows of block CRC. -/
def rowsCRC : List RegRow := [
  ⟨"CRC_STATUS", 0x0, 0, 1, false, 0x0, 0, 0, 0, 0⟩,
  ⟨"CRC_CLR", 0x4, 0, 1, false, 0x0, 0, 0, 0, 0x1⟩,
  ⟨"CRC_SCAN_CTRL_u", 0x100, 32, 12, false, 0x0, 0xe03f0000, 0, 0, 0⟩,
  ⟨"CRC_SCAN_STAT_u", 0x104, 32, 12, false, 0x0, 0, 0, 0, 0⟩,
  ⟨"CRC_SCAN_ADDR_u", 0x108, 32, 12, true, 0x0, 0xffffffffffff, 0, 0, 0⟩,
  ⟨"CRC_SCAN_LEN_u", 0x110, 32, 12, false, 0x0, 0xffffffff, 0, 0, 0⟩,
  ⟨"CRC_SCAN_EXP_u", 0x114, 32, 12, false, 0x0, 0xffffffff, 0, 0, 0⟩,
  ⟨"CRC_SCAN_RES_u", 0x118, 32, 12, false, 0x0, 0, 0, 0, 0⟩,
  ⟨"CRC_SNP_CFG_s", 0x400, 64, 8, false, 0xe0200000, 0xf07f0000, 0, 0, 0⟩,
  ⟨"CRC_SNP_STAT_s", 0x404, 64, 8, false, 0x0, 0, 0, 0, 0⟩,
  ⟨"CRC_SNP_POLY_s", 0x408, 64, 8, true, 0x1edc6f41, 0xffffffffffffffff, 0, 0, 0⟩,
  ⟨"CRC_SNP_INIT_s", 0x410, 64, 8, true, 0xffffffff, 0xffffffffffffffff, 0, 0, 0⟩,
  ⟨"CRC_SNP_RES_s", 0x418, 64, 8, true, 0x0, 0, 0, 0, 0⟩]

/-- The rows of block FP. -/
def rowsFP : List RegRow := [
  ⟨"FP_CTRL", 0x0, 0, 1, false, 0x0, 0, 0x3, 0, 0⟩,
  ⟨"FP_STATUS", 0x4, 0, 1, false, 0x0, 0, 0, 0, 0⟩,
  ⟨"FP_CLR", 0x8, 0, 1, false, 0x0, 0, 0, 0, 0x3ffffff⟩,
  ⟨"FP_PLIB_BASE", 0x10, 0, 1, true, 0x0, 0, 0xfffffffc0000, 0, 0⟩,
  ⟨"FP_PLIB_CNT", 0x18, 0, 1, false, 0x0, 0, 0x1fff, 0, 0⟩,
  ⟨"FP_CIN_CFG_p", 0x1000, 64, 16, false, 0x22c00000, 0, 0xf3ffff80, 0, 0⟩,
  ⟨"FP_CIN_GEOM_p", 0x1004, 64, 16, false, 0x0, 0, 0x7fff7fff, 0, 0⟩,
  ⟨"FP_CIN_PHY_p", 0x1008, 64, 16, false, 0x5dc, 0, 0x1fff, 0, 0⟩,
  ⟨"FP_CIN_TIME_p", 0x100c, 64, 16, false, 0x1f41f42, 0, 0xffffffff, 0, 0⟩,
  ⟨"FP_CIN_RING_p", 0x1010, 64, 16, false, 0x8, 0, 0xfffff1f, 0, 0⟩,
  ⟨"FP_CIN_RING_BASE_p", 0x1018, 64, 16, true, 0x0, 0, 0xfffffffff000, 0, 0⟩,
  ⟨"FP_CIN_FN_p", 0x1020, 64, 16, false, 0x0, 0, 0, 0, 0⟩,
  ⟨"FP_CIN_ERR0_p", 0x1024, 64, 16, false, 0x0, 0, 0, 0, 0⟩,
  ⟨"FP_CIN_ERR1_p", 0x1028, 64, 16, false, 0x0, 0, 0, 0, 0⟩,
  ⟨"FP_CIN_ERR2_p", 0x102c, 64, 16, false, 0x0, 0, 0, 0, 0⟩,
  ⟨"FP_CIN_ERR3_p", 0x1030, 64, 16, false, 0x0, 0, 0, 0, 0⟩,
  ⟨"FP_CIN_STAT_p", 0x1034, 64, 16, false, 0x0, 0, 0, 0, 0⟩,
  ⟨"FP_FWD_CFG_f", 0x2000, 32, 8, false, 0x202005dc, 0, 0xfcff1fff, 0, 0⟩,
  ⟨"FP_FWD_STAT_f", 0x2004, 32, 8, false, 0x0, 0, 0, 0, 0⟩,
  ⟨"FP_FWD_PDEF_f", 0x2008, 32, 8, false, 0x0, 0, 0, 0, 0⟩,
  ⟨"FP_MON_CFG_m", 0x2200, 32, 2, false, 0x28000000, 0, 0xf800ffff, 0, 0⟩,
  ⟨"FP_MON_STAT_m", 0x2204, 32, 2, false, 0x0, 0, 0, 0, 0⟩,
  ⟨"FP_MON_PHY_m", 0x2208, 32, 2, false, 0x5dc, 0, 0x1fff, 0, 0⟩,
  ⟨"FP_CTXM_n", 0x4000, 4, 1024, false, 0x0, 0, 0xffff, 0, 0⟩]

/-- The rows of block EV. -/
def rowsEV : List RegRow := [
  ⟨"EV_CTRL", 0x0, 0, 1, false, 0x0, 0, 0x1, 0, 0⟩,
  ⟨"EV_STATUS", 0x4, 0, 1, false, 0x0, 0, 0, 0, 0⟩,
  ⟨"EV_CLR", 0x8, 0, 1, false, 0x0, 0, 0, 0, 0x8000000f⟩,
  ⟨"EV_EIN_CFG_e", 0x1000, 64, 4, false, 0x20000064, 0, 0xf000ffff, 0, 0⟩,
  ⟨"EV_EIN_PHY_e", 0x1004, 64, 4, false, 0x5dc, 0, 0x1fff, 0, 0⟩,
  ⟨"EV_EIN_RING_e", 0x1008, 64, 4, false, 0x28018, 0, 0xfffff7f, 0, 0⟩,
  ⟨"EV_EIN_RING_BASE_e", 0x1010, 64, 4, true, 0x0, 0, 0xfffffffff000, 0, 0⟩,
  ⟨"EV_EIN_ERR0_e", 0x1018, 64, 4, false, 0x0, 0, 0, 0, 0⟩,
  ⟨"EV_EIN_ERR1_e", 0x101c, 64, 4, false, 0x0, 0, 0, 0, 0⟩,
  ⟨"EV_EIN_ERR2_e", 0x1020, 64, 4, false, 0x0, 0, 0, 0, 0⟩,
  ⟨"EV_EIN_ERR3_e", 0x1024, 64, 4, false, 0x0, 0, 0, 0, 0⟩,
  ⟨"EV_EIN_STAT_e", 0x1028, 64, 4, false, 0x0, 0, 0, 0, 0⟩,
  ⟨"EV_CTX_PLAN_n", 0x4000, 16, 1024, false, 0x0, 0, 0xffffffff, 0, 0⟩,
  ⟨"EV_CTX_KEY_n", 0x4004, 16, 1024, false, 0x0, 0, 0, 0, 0⟩,
  ⟨"EV_CTX_ERR_n", 0x4008, 16, 1024, false, 0x0, 0, 0, 0, 0⟩,
  ⟨"EV_CTX_SEQ_n", 0x400c, 16, 1024, false, 0x0, 0, 0, 0, 0⟩]

/-- The rows of block CK. -/
def rowsCK : List RegRow := [
  ⟨"CK_CTRL", 0x0, 0, 1, false, 0x0, 0, 0x1, 0, 0⟩,
  ⟨"CK_STATUS", 0x4, 0, 1, false, 0x0, 0, 0, 0, 0⟩,
  ⟨"CK_CLR", 0x8, 0, 1, false, 0x0, 0, 0, 0, 0x1⟩,
  ⟨"CK_AG_DIR_BASE", 0x10, 0, 1, true, 0x0, 0, 0xffffffffffc0, 0, 0⟩,
  ⟨"CK_AG_DIR_CNT", 0x18, 0, 1, false, 0x0, 0, 0x1fff, 0, 0⟩,
  ⟨"CK_AG_PARAM_BASE", 0x20, 0, 1, true, 0x0, 0, 0xffffffffffc0, 0, 0⟩,
  ⟨"CK_AG_STATUS", 0x28, 0, 1, false, 0x0, 0, 0, 0, 0⟩,
  ⟨"CK_AG_AREA_BASE", 0x30, 0, 1, true, 0x0, 0, 0xfffffffff000, 0, 0⟩,
  ⟨"CK_CTX_CFG_n", 0x1000, 32, 1024, false, 0x70000001, 0, 0xf0000007, 0, 0⟩,
  ⟨"CK_CTX_PLAN_BASE_n", 0x1008, 32, 1024, true, 0x0, 0, 0xffffffffffc0, 0, 0⟩,
  ⟨"CK_CTX_LAST_n", 0x1010, 32, 1024, false, 0x0, 0, 0, 0, 0⟩,
  ⟨"CK_CTX_CNT0_n", 0x1014, 32, 1024, false, 0x0, 0, 0, 0, 0⟩,
  ⟨"CK_CTX_CNT1_n", 0x1018, 32, 1024, false, 0x0, 0, 0, 0, 0⟩,
  ⟨"CK_CTX_CNT2_n", 0x101c, 32, 1024, false, 0x0, 0, 0, 0, 0⟩,
  ⟨"CK_FB_GRAPH_n", 0x9000, 16, 1024, false, 0x0, 0, 0xffffffff, 0, 0⟩,
  ⟨"CK_AG_CFG_n", 0x9004, 16, 1024, false, 0x400000, 0, 0xffffffff, 0, 0⟩,
  ⟨"CK_AG_BUDGET_n", 0x9008, 16, 1024, false, 0x10000, 0, 0xffffffff, 0, 0⟩,
  ⟨"CK_AG_CNT_n", 0x900c, 16, 1024, false, 0x0, 0, 0, 0, 0⟩]

/-- The rows of block VD. -/
def rowsVD : List RegRow := [
  ⟨"VD_CTRL", 0x0, 0, 1, false, 0x80000000, 0, 0x1, 0, 0⟩,
  ⟨"VD_STATUS", 0x4, 0, 1, false, 0x0, 0, 0, 0, 0⟩,
  ⟨"VD_CMD", 0x8, 0, 1, false, 0x0, 0, 0, 0, 0xf00003ff⟩,
  ⟨"VD_CMD_STATUS", 0xc, 0, 1, false, 0x0, 0, 0, 0, 0⟩,
  ⟨"VD_RETRY", 0x14, 0, 1, false, 0x300003c, 0, 0xff00ffff, 0, 0⟩,
  ⟨"VD_ACC_RST_a", 0x20, 8, 4, false, 0x3e8, 0, 0xffff, 0, 0⟩,
  ⟨"VD_ACC_PWR_a", 0x24, 8, 4, false, 0x6401f4, 0, 0xffffffff, 0, 0⟩,
  ⟨"VD_ACC_STAT_a", 0x40, 4, 4, false, 0x0, 0, 0, 0, 0⟩,
  ⟨"VD_BELIEVED_k", 0x80, 4, 32, false, 0x0, 0, 0, 0, 0⟩,
  ⟨"VD_FALLOW_k", 0x100, 4, 32, false, 0x0, 0, 0, 0, 0⟩,
  ⟨"VD_CTX_CFG_n", 0x1000, 32, 1024, false, 0x0, 0, 0xbf000000, 0, 0⟩,
  ⟨"VD_CTX_THR_n", 0x1004, 32, 1024, false, 0x10010310, 0, 0xffffff7f, 0, 0⟩,
  ⟨"VD_CTX_TIME_n", 0x1008, 32, 1024, false, 0x190, 0, 0xffffffff, 0, 0⟩,
  ⟨"VD_CTX_REACT_n", 0x100c, 32, 1024, false, 0x80e001f4, 0, 0xcfe0ffff, 0, 0⟩,
  ⟨"VD_CTX_STATE_n", 0x1010, 32, 1024, false, 0x0, 0, 0, 0, 0⟩,
  ⟨"VD_CTX_CAUSE_n", 0x1014, 32, 1024, false, 0x0, 0, 0, 0xffff, 0⟩,
  ⟨"VD_CTX_HIST_n", 0x1018, 32, 1024, true, 0x0, 0, 0, 0, 0⟩,
  ⟨"VD_DOUBT_n", 0x9000, 16, 1024, false, 0x0, 0, 0, 0, 0⟩,
  ⟨"VD_LATE_n", 0x9004, 16, 1024, false, 0x0, 0, 0, 0, 0⟩,
  ⟨"VD_GAP_n", 0x9008, 16, 1024, false, 0x0, 0, 0, 0, 0⟩,
  ⟨"VD_REJ_n", 0x900c, 16, 1024, false, 0x0, 0, 0, 0, 0⟩,
  ⟨"VD_ADMIT_n", 0xd000, 4, 1024, false, 0x0, 0, 0, 0, 0⟩]

/-- The rows of block CT. -/
def rowsCT : List RegRow := [
  ⟨"CT_CTRL", 0x0, 0, 1, false, 0x0, 0x7, 0, 0, 0⟩,
  ⟨"CT_STATUS", 0x4, 0, 1, false, 0x0, 0, 0, 0, 0⟩,
  ⟨"CT_CLR", 0x8, 0, 1, false, 0x0, 0, 0, 0, 0x3⟩,
  ⟨"CT_FILT", 0xc, 0, 1, false, 0xff, 0x83ff0fff, 0, 0, 0⟩,
  ⟨"CT_SEL0", 0x10, 0, 1, false, 0xa4a3a1a0, 0xffffffff, 0, 0, 0⟩,
  ⟨"CT_SEL1", 0x14, 0, 1, false, 0xa6a5, 0xffff, 0, 0, 0⟩,
  ⟨"CT_TRIG", 0x18, 0, 1, false, 0x4000008, 0xe700001f, 0, 0, 0⟩,
  ⟨"CT_TRIG_FIRE", 0x1c, 0, 1, false, 0x0, 0, 0, 0, 0x1⟩,
  ⟨"CT_WP", 0x20, 0, 1, false, 0x0, 0, 0, 0, 0⟩,
  ⟨"CT_TRIG_POS", 0x24, 0, 1, false, 0x0, 0, 0, 0, 0⟩,
  ⟨"CT_DROP", 0x28, 0, 1, false, 0x0, 0, 0, 0, 0⟩,
  ⟨"CT_WIN", 0x2c, 0, 1, false, 0x0, 0x7f, 0, 0, 0⟩,
  ⟨"CT_TOTAL", 0x30, 0, 1, true, 0x0, 0, 0, 0, 0⟩,
  ⟨"CT_CSEL", 0x38, 0, 1, false, 0x0, 0x3ff, 0, 0, 0⟩,
  ⟨"CT_CVAL", 0x40, 0, 1, true, 0x0, 0, 0, 0, 0⟩,
  ⟨"CT_REC_r", 0x1000, 4, 8192, false, 0x0, 0, 0, 0, 0⟩]

/-- The rows of block SIO. -/
def rowsSIO : List RegRow := [
  ⟨"SIO_STATUS", 0x0, 0, 1, false, 0x0, 0, 0, 0, 0⟩,
  ⟨"SIO_CLR", 0x4, 0, 1, false, 0x0, 0, 0, 0, 0x1⟩,
  ⟨"SIO_IN_CFG_i", 0x100, 8, 8, false, 0x64, 0, 0xcf0f07ff, 0, 0⟩,
  ⟨"SIO_IN_STAT_i", 0x104, 8, 8, false, 0x0, 0, 0, 0, 0⟩,
  ⟨"SIO_OUT_CFG_o", 0x200, 16, 4, false, 0x43232064, 0, 0xefffffff, 0, 0⟩,
  ⟨"SIO_OUT_CTRL_o", 0x204, 16, 4, false, 0x0, 0x1, 0, 0, 0x2⟩,
  ⟨"SIO_OUT_STAT_o", 0x208, 16, 4, false, 0x0, 0, 0, 0, 0⟩,
  ⟨"SIO_ACC_CMD_a", 0x300, 8, 4, false, 0x0, 0, 0, 0, 0x3⟩,
  ⟨"SIO_ACC_STAT_a", 0x304, 8, 4, false, 0x0, 0, 0, 0, 0⟩]

/-- The rows of block ETH. -/
def rowsETH : List RegRow := [
  ⟨"ETH_CTRL", 0x0, 0, 1, false, 0x0, 0, 0x3, 0, 0⟩,
  ⟨"ETH_STATUS", 0x4, 0, 1, false, 0x0, 0, 0, 0, 0⟩,
  ⟨"ETH_CLR", 0x8, 0, 1, false, 0x0, 0, 0, 0, 0x1⟩,
  ⟨"ETH_SRC", 0xc, 0, 1, false, 0x0, 0, 0xffff, 0, 0⟩,
  ⟨"ETH_DA", 0x10, 0, 1, true, 0x0, 0, 0xffffffffffff, 0, 0⟩,
  ⟨"ETH_VLAN", 0x18, 0, 1, false, 0x40006001, 0, 0xc0007fff, 0, 0⟩,
  ⟨"ETH_TXSEQ", 0x1c, 0, 1, false, 0x0, 0, 0, 0, 0⟩,
  ⟨"ETH_RXCFG", 0x20, 0, 1, false, 0xc80006, 0, 0xffff000f, 0, 0⟩,
  ⟨"ETH_RXRING", 0x28, 0, 1, true, 0x0, 0, 0xfffffffff800, 0, 0⟩,
  ⟨"ETH_RXCNT", 0x30, 0, 1, false, 0x0, 0, 0, 0, 0⟩,
  ⟨"ETH_RXRD", 0x34, 0, 1, false, 0x0, 0xfff, 0, 0, 0⟩,
  ⟨"ETH_CMPCNT", 0x38, 0, 1, false, 0x0, 0, 0, 0, 0⟩,
  ⟨"ETH_MAC_x", 0x100, 32, 2, true, 0x0, 0, 0xffffffffffff, 0, 0⟩,
  ⟨"ETH_CFG_x", 0x108, 32, 2, false, 0x0, 0, 0x3, 0, 0⟩,
  ⟨"ETH_STAT_x", 0x10c, 32, 2, false, 0x0, 0, 0, 0, 0⟩,
  ⟨"ETH_ERR0_x", 0x110, 32, 2, false, 0x0, 0, 0, 0, 0⟩,
  ⟨"ETH_ERR1_x", 0x114, 32, 2, false, 0x0, 0, 0, 0, 0⟩,
  ⟨"ETH_PEER_k", 0x200, 4, 8, false, 0x640000, 0, 0x8fffffff, 0, 0⟩]

/-- The rows of block I3C. -/
def rowsI3C : List RegRow := [
  ⟨"I3C_T_CFG", 0x0, 0, 1, false, 0xc0000000, 0, 0xc000007f, 0, 0⟩,
  ⟨"I3C_T_STAT", 0x4, 0, 1, false, 0x800000, 0, 0, 0, 0⟩,
  ⟨"I3C_T_ERR", 0x8, 0, 1, false, 0x0, 0, 0, 0, 0⟩,
  ⟨"I3C_PID", 0x10, 0, 1, true, 0x0, 0, 0, 0, 0⟩,
  ⟨"I3C_C_CFG", 0x20, 0, 1, false, 0x4, 0xc000000f, 0, 0, 0⟩,
  ⟨"I3C_C_CMD", 0x24, 0, 1, false, 0x0, 0, 0, 0, 0xffc07f7f⟩,
  ⟨"I3C_C_STAT", 0x28, 0, 1, false, 0x0, 0, 0, 0, 0⟩,
  ⟨"I3C_C_IBI", 0x30, 0, 1, false, 0x0, 0, 0, 0, 0⟩,
  ⟨"I3C_C_DATA", 0x40, 4, 16, false, 0x0, 0xffffffff, 0, 0, 0⟩]

/-- The rows of block XSP. -/
def rowsXSP : List RegRow := [
  ⟨"XSP_STRIPE", 0x0, 0, 1, false, 0x0, 0, 0x80000000, 0, 0⟩,
  ⟨"XSP_STATUS", 0x4, 0, 1, false, 0x0, 0, 0, 0, 0⟩,
  ⟨"XSP_CLR", 0x8, 0, 1, false, 0x0, 0, 0, 0, 0x1⟩,
  ⟨"XSP_NAND", 0x10, 0, 1, false, 0x6000000, 0, 0xf00ffff, 0, 0⟩,
  ⟨"XSP_CFG_x", 0x100, 32, 2, false, 0x400bb8, 0, 0xe7f8ffff, 0, 0⟩,
  ⟨"XSP_CMD_x", 0x108, 32, 2, true, 0x0, 0, 0, 0, 0xffe00000ffffffff⟩,
  ⟨"XSP_LEN_x", 0x110, 32, 2, false, 0x0, 0xffffffff, 0, 0, 0⟩,
  ⟨"XSP_STAT_x", 0x114, 32, 2, false, 0x0, 0, 0, 0, 0⟩,
  ⟨"XSP_ERR_x", 0x118, 32, 2, false, 0x0, 0, 0, 0, 0⟩]

/-- The rows of block ML. -/
def rowsML : List RegRow := [
  ⟨"ML_CTRL", 0x0, 0, 1, false, 0x0, 0, 0x1, 0, 0⟩,
  ⟨"ML_STATUS", 0x4, 0, 1, false, 0x0, 0, 0, 0, 0⟩,
  ⟨"ML_CLR", 0x8, 0, 1, false, 0x0, 0, 0, 0, 0x1⟩,
  ⟨"ML_CMD", 0xc, 0, 1, false, 0x0, 0, 0, 0, 0xf⟩,
  ⟨"ML_CFG", 0x10, 0, 1, false, 0x800007d0, 0, 0x8000ffff, 0, 0⟩,
  ⟨"ML_RTT", 0x14, 0, 1, false, 0x0, 0, 0, 0, 0⟩,
  ⟨"ML_CNT0", 0x18, 0, 1, false, 0x0, 0, 0, 0, 0⟩,
  ⟨"ML_CNT1", 0x1c, 0, 1, false, 0x0, 0, 0, 0, 0⟩,
  ⟨"ML_MIR_BASE", 0x20, 0, 1, true, 0x0, 0, 0xfffffff00000, 0, 0⟩,
  ⟨"ML_PARTNER", 0x28, 0, 1, false, 0x0, 0, 0, 0, 0⟩]

/-- The rows of block SEC. -/
def rowsSEC : List RegRow := [
  ⟨"SEC_STATUS", 0x0, 0, 1, false, 0x0, 0, 0, 0, 0⟩,
  ⟨"SEC_CLR", 0x4, 0, 1, false, 0x0, 0, 0, 0, 0x1⟩,
  ⟨"SEC_KCFG", 0x8, 0, 1, false, 0x0, 0, 0xffff, 0, 0⟩,
  ⟨"SEC_KCMD", 0xc, 0, 1, false, 0x0, 0, 0, 0, 0xf80003ff⟩,
  ⟨"SEC_KSTAT", 0x10, 0, 1, false, 0x0, 0, 0, 0, 0⟩,
  ⟨"SEC_VEPOCH", 0x14, 0, 1, false, 0x0, 0, 0, 0, 0⟩,
  ⟨"SEC_SESS", 0x18, 0, 1, false, 0x12c, 0, 0xffff, 0, 0⟩,
  ⟨"SEC_ACMD", 0x20, 0, 1, false, 0x0, 0, 0, 0, 0xf⟩,
  ⟨"SEC_ASTAT", 0x24, 0, 1, false, 0x0, 0, 0, 0, 0⟩,
  ⟨"SEC_AJOB_ADDR", 0x28, 0, 1, true, 0x0, 0xffffffffffc0, 0, 0, 0⟩,
  ⟨"SEC_AJOB", 0x30, 0, 1, false, 0x0, 0xc0000000, 0, 0, 0⟩,
  ⟨"SEC_PROV_CMD", 0x40, 0, 1, false, 0x0, 0, 0, 0, 0xf00000ff⟩,
  ⟨"SEC_PROV_STAT", 0x44, 0, 1, false, 0x0, 0, 0, 0, 0⟩,
  ⟨"SEC_PROV_DATA", 0x80, 4, 16, false, 0x0, 0, 0, 0, 0xffffffff⟩]

/-- The rows of block SYS. -/
def rowsSYS : List RegRow := [
  ⟨"SYS_BOOT", 0x0, 0, 1, false, 0x10000000, 0, 0, 0, 0⟩,
  ⟨"SYS_RST_CMD", 0x4, 0, 1, false, 0x0, 0, 0, 0, 0xff000007⟩,
  ⟨"SYS_DIE_d", 0x10, 4, 4, false, 0x20000000, 0, 0, 0, 0⟩,
  ⟨"SYS_SPS_ADDR", 0x20, 0, 1, true, 0x0, 0xffffffffffc0, 0, 0, 0⟩,
  ⟨"SYS_SPS_CMD", 0x28, 0, 1, false, 0x0, 0, 0, 0, 0xf⟩,
  ⟨"SYS_SPS_STAT", 0x2c, 0, 1, false, 0x0, 0, 0, 0, 0⟩,
  ⟨"SYS_SPS_CHK", 0x30, 0, 1, false, 0x0, 0, 0, 0, 0⟩,
  ⟨"SYS_SPS_CONF", 0x34, 0, 1, false, 0x0, 0, 0, 0, 0⟩,
  ⟨"SYS_UPD_CMD", 0x40, 0, 1, false, 0x0, 0, 0, 0, 0xf⟩,
  ⟨"SYS_UPD_STAT", 0x44, 0, 1, false, 0x0, 0, 0, 0, 0⟩,
  ⟨"SYS_UPD_ACK", 0x48, 0, 1, false, 0x0, 0, 0, 0, 0⟩,
  ⟨"SYS_VP_STAT_v", 0x400, 4, 4, false, 0x10000000, 0, 0, 0, 0⟩,
  ⟨"SYS_VP_ROLE", 0x410, 0, 1, false, 0xba98, 0, 0, 0, 0⟩,
  ⟨"SYS_CMP_STAT", 0x414, 0, 1, false, 0x0, 0, 0, 0, 0⟩,
  ⟨"SYS_CMP_LAST", 0x418, 0, 1, false, 0x0, 0, 0, 0, 0⟩,
  ⟨"SYS_CMP_TIME", 0x420, 0, 1, true, 0x0, 0, 0, 0, 0⟩,
  ⟨"SYS_SVC", 0x430, 0, 1, false, 0x0, 0, 0, 0, 0⟩,
  ⟨"SYS_MBX_STAT", 0x434, 0, 1, false, 0x0, 0, 0, 0, 0⟩,
  ⟨"SYS_LB_CMD", 0x500, 0, 1, false, 0x0, 0, 0, 0, 0xf⟩,
  ⟨"SYS_LB_CFG", 0x504, 0, 1, false, 0x0, 0xffffffff, 0, 0, 0⟩,
  ⟨"SYS_LB_STAT", 0x508, 0, 1, false, 0x0, 0, 0, 0, 0⟩,
  ⟨"SYS_LB_BITS", 0x510, 0, 1, true, 0x0, 0, 0, 0, 0⟩,
  ⟨"SYS_LB_ERRS", 0x518, 0, 1, false, 0x0, 0, 0, 0, 0⟩,
  ⟨"SYS_LB_FIRST", 0x520, 0, 1, true, 0x0, 0, 0, 0, 0⟩,
  ⟨"SYS_PWR_STAT", 0x600, 0, 1, false, 0x0, 0, 0, 0x3ff0000, 0⟩,
  ⟨"SYS_TJ_d", 0x610, 4, 5, false, 0x0, 0, 0, 0, 0⟩,
  ⟨"SYS_AVS_d", 0x630, 4, 4, false, 0x2ee0, 0xfff0, 0, 0, 0⟩,
  ⟨"SYS_STRAP", 0x640, 0, 1, false, 0x0, 0, 0, 0, 0⟩]

/-- The rows of block CX. -/
def rowsCX : List RegRow := [
  ⟨"CX_STATUS", 0x0, 0, 1, false, 0x0, 0, 0, 0, 0⟩,
  ⟨"CX_CLR", 0x4, 0, 1, false, 0x0, 0, 0, 0, 0x1⟩,
  ⟨"CX_PWR_CAP", 0x10, 0, 1, false, 0x0, 0x3f, 0, 0, 0⟩,
  ⟨"CX_PWR_MEAS", 0x14, 0, 1, false, 0x0, 0, 0, 0, 0⟩,
  ⟨"CX_PWR_DUTY", 0x18, 0, 1, false, 0x8888, 0, 0, 0, 0⟩,
  ⟨"CX_PWR_STAT", 0x1c, 0, 1, false, 0x0, 0, 0, 0, 0⟩,
  ⟨"CX_CORE_c", 0x20, 4, 4, false, 0x100000, 0, 0, 0, 0⟩,
  ⟨"CX_RES_CNT_c", 0x30, 4, 4, false, 0x0, 0, 0, 0, 0⟩,
  ⟨"CX_DROOP_c", 0x40, 4, 4, false, 0x0, 0, 0, 0, 0⟩,
  ⟨"CX_RES_LAST", 0x50, 0, 1, true, 0x0, 0, 0, 0, 0⟩,
  ⟨"CX_G6_ch", 0x60, 4, 4, false, 0x0, 0, 0, 0, 0⟩,
  ⟨"CX_LINK", 0x70, 0, 1, false, 0x0, 0, 0, 0, 0⟩,
  ⟨"CX_NP_k", 0x100, 8, 64, true, 0x1000000020, 0, 0x8000001f00003fff, 0, 0⟩,
  ⟨"CX_NP_CTX_n", 0x1000, 4, 1024, false, 0x0, 0, 0x3f3f, 0, 0⟩]

/-- The rows of block GS. -/
def rowsGS : List RegRow := [
  ⟨"GS_CTRL", 0x0, 0, 1, false, 0x800, 0, 0x1f01, 0, 0⟩,
  ⟨"GS_STATUS", 0x4, 0, 1, false, 0x0, 0, 0, 0, 0⟩,
  ⟨"GS_CLR", 0x8, 0, 1, false, 0x0, 0, 0, 0, 0x1⟩,
  ⟨"GS_DIR_BASE", 0x10, 0, 1, true, 0x0, 0, 0xffffffffffc0, 0, 0⟩,
  ⟨"GS_DIR_CNT", 0x18, 0, 1, false, 0x0, 0, 0xffff, 0, 0⟩,
  ⟨"GS_POOL_BASE", 0x20, 0, 1, true, 0x0, 0, 0xffffffff0000, 0, 0⟩,
  ⟨"GS_POOL_SIZE", 0x28, 0, 1, false, 0x0, 0, 0xfff, 0, 0⟩,
  ⟨"GS_LAUNCH", 0x30, 0, 1, true, 0x0, 0, 0, 0, 0xffffffffffc0⟩,
  ⟨"GS_STOP", 0x38, 0, 1, true, 0x0, 0, 0, 0, 0xffffffff000003ff⟩,
  ⟨"GS_SEQ", 0x40, 0, 1, false, 0x0, 0, 0, 0, 0⟩,
  ⟨"GS_EPOCH", 0x44, 0, 1, false, 0x0, 0, 0, 0, 0⟩,
  ⟨"GS_OCC", 0x48, 0, 1, false, 0x0, 0, 0, 0, 0⟩,
  ⟨"GS_ERR", 0x4c, 0, 1, false, 0x0, 0, 0, 0, 0⟩,
  ⟨"GS_WCFG", 0x50, 0, 1, false, 0x2710, 0, 0xcf0fffff, 0, 0⟩,
  ⟨"GS_WIN_w", 0x60, 4, 4, false, 0x0, 0, 0xffffffff, 0, 0⟩,
  ⟨"GS_TRIG_FIRE", 0x70, 0, 1, false, 0x0, 0, 0, 0, 0xffff⟩,
  ⟨"GS_TRIG_t", 0x80, 16, 16, false, 0x0, 0, 0xb3ffffff, 0, 0⟩,
  ⟨"GS_TRIG_STAT_t", 0x84, 16, 16, false, 0x0, 0, 0, 0, 0⟩,
  ⟨"GS_TRIG_TMPL_t", 0x88, 16, 16, true, 0x0, 0, 0xffffffffffc0, 0, 0⟩,
  ⟨"GS_CORE_c", 0x200, 4, 4, false, 0x0, 0, 0, 0, 0⟩]

/-- The rows of warden register block `b` (R10). -/
def wardenRows (b : Nat) : List RegRow :=
  match b with
  | 0 => rowsFC | 1 => rowsWD | 2 => rowsTM | 3 => rowsDMA | 4 => rowsCRC | 5 => rowsFP
  | 6 => rowsEV | 7 => rowsCK | 8 => rowsVD | 9 => rowsCT | 10 => rowsSIO | 11 => rowsETH
  | 12 => rowsI3C | 13 => rowsXSP | 14 => rowsML | 15 => rowsSEC | 16 => rowsSYS
  | _ => []

namespace A

/-- Address of VD_CTRL (01 R43). -/
def VD_CTRL : Nat := 0x20080000
/-- Address of VD_STATUS (01 R43). -/
def VD_STATUS : Nat := 0x20080004
/-- Address of VD_CMD (01 R43). -/
def VD_CMD : Nat := 0x20080008
/-- Address of VD_CMD_STATUS (01 R43). -/
def VD_CMD_STATUS : Nat := 0x2008000c
/-- Address of VD_RETRY (01 R43). -/
def VD_RETRY : Nat := 0x20080014
/-- Address of VD_ACC_RST_a (01 R43). -/
def VD_ACC_RST (n : Nat) : Nat := 0x20080020 + 0x8 * n
/-- Address of VD_ACC_PWR_a (01 R43). -/
def VD_ACC_PWR (n : Nat) : Nat := 0x20080024 + 0x8 * n
/-- Address of VD_ACC_STAT_a (01 R43). -/
def VD_ACC_STAT (n : Nat) : Nat := 0x20080040 + 0x4 * n
/-- Address of VD_BELIEVED_k (01 R43). -/
def VD_BELIEVED (n : Nat) : Nat := 0x20080080 + 0x4 * n
/-- Address of VD_FALLOW_k (01 R43). -/
def VD_FALLOW (n : Nat) : Nat := 0x20080100 + 0x4 * n
/-- Address of VD_CTX_CFG_n (01 R43). -/
def VD_CTX_CFG (n : Nat) : Nat := 0x20081000 + 0x20 * n
/-- Address of VD_CTX_THR_n (01 R43). -/
def VD_CTX_THR (n : Nat) : Nat := 0x20081004 + 0x20 * n
/-- Address of VD_CTX_TIME_n (01 R43). -/
def VD_CTX_TIME (n : Nat) : Nat := 0x20081008 + 0x20 * n
/-- Address of VD_CTX_REACT_n (01 R43). -/
def VD_CTX_REACT (n : Nat) : Nat := 0x2008100c + 0x20 * n
/-- Address of VD_CTX_STATE_n (01 R43). -/
def VD_CTX_STATE (n : Nat) : Nat := 0x20081010 + 0x20 * n
/-- Address of VD_CTX_CAUSE_n (01 R43). -/
def VD_CTX_CAUSE (n : Nat) : Nat := 0x20081014 + 0x20 * n
/-- Address of VD_CTX_HIST_n (01 R43). -/
def VD_CTX_HIST (n : Nat) : Nat := 0x20081018 + 0x20 * n
/-- Address of VD_DOUBT_n (01 R43). -/
def VD_DOUBT (n : Nat) : Nat := 0x20089000 + 0x10 * n
/-- Address of VD_LATE_n (01 R43). -/
def VD_LATE (n : Nat) : Nat := 0x20089004 + 0x10 * n
/-- Address of VD_GAP_n (01 R43). -/
def VD_GAP (n : Nat) : Nat := 0x20089008 + 0x10 * n
/-- Address of VD_REJ_n (01 R43). -/
def VD_REJ (n : Nat) : Nat := 0x2008900c + 0x10 * n
/-- Address of VD_ADMIT_n (01 R43). -/
def VD_ADMIT (n : Nat) : Nat := 0x2008d000 + 0x4 * n
/-- Address of FP_CTRL (02 R85). -/
def FP_CTRL : Nat := 0x20050000
/-- Address of FP_STATUS (02 R85). -/
def FP_STATUS : Nat := 0x20050004
/-- Address of FP_CLR (02 R85). -/
def FP_CLR : Nat := 0x20050008
/-- Address of FP_PLIB_BASE (02 R85). -/
def FP_PLIB_BASE : Nat := 0x20050010
/-- Address of FP_PLIB_CNT (02 R85). -/
def FP_PLIB_CNT : Nat := 0x20050018
/-- Address of FP_CIN_CFG_p (02 R85). -/
def FP_CIN_CFG (n : Nat) : Nat := 0x20051000 + 0x40 * n
/-- Address of FP_CIN_GEOM_p (02 R85). -/
def FP_CIN_GEOM (n : Nat) : Nat := 0x20051004 + 0x40 * n
/-- Address of FP_CIN_PHY_p (02 R85). -/
def FP_CIN_PHY (n : Nat) : Nat := 0x20051008 + 0x40 * n
/-- Address of FP_CIN_TIME_p (02 R85). -/
def FP_CIN_TIME (n : Nat) : Nat := 0x2005100c + 0x40 * n
/-- Address of FP_CIN_RING_p (02 R85). -/
def FP_CIN_RING (n : Nat) : Nat := 0x20051010 + 0x40 * n
/-- Address of FP_CIN_RING_BASE_p (02 R85). -/
def FP_CIN_RING_BASE (n : Nat) : Nat := 0x20051018 + 0x40 * n
/-- Address of FP_CIN_FN_p (02 R85). -/
def FP_CIN_FN (n : Nat) : Nat := 0x20051020 + 0x40 * n
/-- Address of FP_CIN_ERR0_p (02 R85). -/
def FP_CIN_ERR0 (n : Nat) : Nat := 0x20051024 + 0x40 * n
/-- Address of FP_CIN_ERR1_p (02 R85). -/
def FP_CIN_ERR1 (n : Nat) : Nat := 0x20051028 + 0x40 * n
/-- Address of FP_CIN_ERR2_p (02 R85). -/
def FP_CIN_ERR2 (n : Nat) : Nat := 0x2005102c + 0x40 * n
/-- Address of FP_CIN_ERR3_p (02 R85). -/
def FP_CIN_ERR3 (n : Nat) : Nat := 0x20051030 + 0x40 * n
/-- Address of FP_CIN_STAT_p (02 R85). -/
def FP_CIN_STAT (n : Nat) : Nat := 0x20051034 + 0x40 * n
/-- Address of FP_FWD_CFG_f (02 R85). -/
def FP_FWD_CFG (n : Nat) : Nat := 0x20052000 + 0x20 * n
/-- Address of FP_FWD_STAT_f (02 R85). -/
def FP_FWD_STAT (n : Nat) : Nat := 0x20052004 + 0x20 * n
/-- Address of FP_FWD_PDEF_f (02 R85). -/
def FP_FWD_PDEF (n : Nat) : Nat := 0x20052008 + 0x20 * n
/-- Address of FP_MON_CFG_m (02 R85). -/
def FP_MON_CFG (n : Nat) : Nat := 0x20052200 + 0x20 * n
/-- Address of FP_MON_STAT_m (02 R85). -/
def FP_MON_STAT (n : Nat) : Nat := 0x20052204 + 0x20 * n
/-- Address of FP_MON_PHY_m (02 R85). -/
def FP_MON_PHY (n : Nat) : Nat := 0x20052208 + 0x20 * n
/-- Address of FP_CTXM_n (02 R85). -/
def FP_CTXM (n : Nat) : Nat := 0x20054000 + 0x4 * n
/-- Address of EV_CTRL (03 R110). -/
def EV_CTRL : Nat := 0x20060000
/-- Address of EV_STATUS (03 R110). -/
def EV_STATUS : Nat := 0x20060004
/-- Address of EV_CLR (03 R110). -/
def EV_CLR : Nat := 0x20060008
/-- Address of EV_EIN_CFG_e (03 R110). -/
def EV_EIN_CFG (n : Nat) : Nat := 0x20061000 + 0x40 * n
/-- Address of EV_EIN_PHY_e (03 R110). -/
def EV_EIN_PHY (n : Nat) : Nat := 0x20061004 + 0x40 * n
/-- Address of EV_EIN_RING_e (03 R110). -/
def EV_EIN_RING (n : Nat) : Nat := 0x20061008 + 0x40 * n
/-- Address of EV_EIN_RING_BASE_e (03 R110). -/
def EV_EIN_RING_BASE (n : Nat) : Nat := 0x20061010 + 0x40 * n
/-- Address of EV_EIN_ERR0_e (03 R110). -/
def EV_EIN_ERR0 (n : Nat) : Nat := 0x20061018 + 0x40 * n
/-- Address of EV_EIN_ERR1_e (03 R110). -/
def EV_EIN_ERR1 (n : Nat) : Nat := 0x2006101c + 0x40 * n
/-- Address of EV_EIN_ERR2_e (03 R110). -/
def EV_EIN_ERR2 (n : Nat) : Nat := 0x20061020 + 0x40 * n
/-- Address of EV_EIN_ERR3_e (03 R110). -/
def EV_EIN_ERR3 (n : Nat) : Nat := 0x20061024 + 0x40 * n
/-- Address of EV_EIN_STAT_e (03 R110). -/
def EV_EIN_STAT (n : Nat) : Nat := 0x20061028 + 0x40 * n
/-- Address of EV_CTX_PLAN_n (03 R110). -/
def EV_CTX_PLAN (n : Nat) : Nat := 0x20064000 + 0x10 * n
/-- Address of EV_CTX_KEY_n (03 R110). -/
def EV_CTX_KEY (n : Nat) : Nat := 0x20064004 + 0x10 * n
/-- Address of EV_CTX_ERR_n (03 R110). -/
def EV_CTX_ERR (n : Nat) : Nat := 0x20064008 + 0x10 * n
/-- Address of EV_CTX_SEQ_n (03 R110). -/
def EV_CTX_SEQ (n : Nat) : Nat := 0x2006400c + 0x10 * n
/-- Address of CK_CTRL (04 R135). -/
def CK_CTRL : Nat := 0x20070000
/-- Address of CK_STATUS (04 R135). -/
def CK_STATUS : Nat := 0x20070004
/-- Address of CK_CLR (04 R135). -/
def CK_CLR : Nat := 0x20070008
/-- Address of CK_AG_DIR_BASE (05 R164). -/
def CK_AG_DIR_BASE : Nat := 0x20070010
/-- Address of CK_AG_DIR_CNT (05 R164). -/
def CK_AG_DIR_CNT : Nat := 0x20070018
/-- Address of CK_AG_PARAM_BASE (05 R164). -/
def CK_AG_PARAM_BASE : Nat := 0x20070020
/-- Address of CK_AG_STATUS (05 R164). -/
def CK_AG_STATUS : Nat := 0x20070028
/-- Address of CK_AG_AREA_BASE (05 R164). -/
def CK_AG_AREA_BASE : Nat := 0x20070030
/-- Address of CK_CTX_CFG_n (04 R135). -/
def CK_CTX_CFG (n : Nat) : Nat := 0x20071000 + 0x20 * n
/-- Address of CK_CTX_PLAN_BASE_n (04 R135). -/
def CK_CTX_PLAN_BASE (n : Nat) : Nat := 0x20071008 + 0x20 * n
/-- Address of CK_CTX_LAST_n (04 R135). -/
def CK_CTX_LAST (n : Nat) : Nat := 0x20071010 + 0x20 * n
/-- Address of CK_CTX_CNT0_n (04 R135). -/
def CK_CTX_CNT0 (n : Nat) : Nat := 0x20071014 + 0x20 * n
/-- Address of CK_CTX_CNT1_n (04 R135). -/
def CK_CTX_CNT1 (n : Nat) : Nat := 0x20071018 + 0x20 * n
/-- Address of CK_CTX_CNT2_n (04 R135). -/
def CK_CTX_CNT2 (n : Nat) : Nat := 0x2007101c + 0x20 * n
/-- Address of CK_FB_GRAPH_n (05 R164). -/
def CK_FB_GRAPH (n : Nat) : Nat := 0x20079000 + 0x10 * n
/-- Address of CK_AG_CFG_n (05 R164). -/
def CK_AG_CFG (n : Nat) : Nat := 0x20079004 + 0x10 * n
/-- Address of CK_AG_BUDGET_n (05 R164). -/
def CK_AG_BUDGET (n : Nat) : Nat := 0x20079008 + 0x10 * n
/-- Address of CK_AG_CNT_n (05 R164). -/
def CK_AG_CNT (n : Nat) : Nat := 0x2007900c + 0x10 * n
/-- Address of CX_STATUS (06 R202). -/
def CX_STATUS (d : Nat) : Nat := 0x1000000000 + 0x400000000 * d + 0x300000000
/-- Address of CX_CLR (06 R202). -/
def CX_CLR (d : Nat) : Nat := 0x1000000000 + 0x400000000 * d + 0x300000004
/-- Address of CX_PWR_CAP (06 R202). -/
def CX_PWR_CAP (d : Nat) : Nat := 0x1000000000 + 0x400000000 * d + 0x300000010
/-- Address of CX_PWR_MEAS (06 R202). -/
def CX_PWR_MEAS (d : Nat) : Nat := 0x1000000000 + 0x400000000 * d + 0x300000014
/-- Address of CX_PWR_DUTY (06 R202). -/
def CX_PWR_DUTY (d : Nat) : Nat := 0x1000000000 + 0x400000000 * d + 0x300000018
/-- Address of CX_PWR_STAT (06 R202). -/
def CX_PWR_STAT (d : Nat) : Nat := 0x1000000000 + 0x400000000 * d + 0x30000001c
/-- Address of CX_CORE_c (06 R202). -/
def CX_CORE (d : Nat) (n : Nat) : Nat := 0x1000000000 + 0x400000000 * d + 0x300000020 + 0x4 * n
/-- Address of CX_RES_CNT_c (06 R202). -/
def CX_RES_CNT (d : Nat) (n : Nat) : Nat := 0x1000000000 + 0x400000000 * d + 0x300000030 + 0x4 * n
/-- Address of CX_DROOP_c (06 R202). -/
def CX_DROOP (d : Nat) (n : Nat) : Nat := 0x1000000000 + 0x400000000 * d + 0x300000040 + 0x4 * n
/-- Address of CX_RES_LAST (06 R202). -/
def CX_RES_LAST (d : Nat) : Nat := 0x1000000000 + 0x400000000 * d + 0x300000050
/-- Address of CX_G6_ch (06 R202). -/
def CX_G6 (d : Nat) (n : Nat) : Nat := 0x1000000000 + 0x400000000 * d + 0x300000060 + 0x4 * n
/-- Address of CX_LINK (06 R202). -/
def CX_LINK (d : Nat) : Nat := 0x1000000000 + 0x400000000 * d + 0x300000070
/-- Address of CX_NP_k (06 R202). -/
def CX_NP (d : Nat) (n : Nat) : Nat := 0x1000000000 + 0x400000000 * d + 0x300000100 + 0x8 * n
/-- Address of CX_NP_CTX_n (06 R202). -/
def CX_NP_CTX (d : Nat) (n : Nat) : Nat := 0x1000000000 + 0x400000000 * d + 0x300001000 + 0x4 * n
/-- Address of GS_CTRL (07 R237). -/
def GS_CTRL (d : Nat) : Nat := 0x1000000000 + 0x400000000 * d + 0x300010000
/-- Address of GS_STATUS (07 R237). -/
def GS_STATUS (d : Nat) : Nat := 0x1000000000 + 0x400000000 * d + 0x300010004
/-- Address of GS_CLR (07 R237). -/
def GS_CLR (d : Nat) : Nat := 0x1000000000 + 0x400000000 * d + 0x300010008
/-- Address of GS_DIR_BASE (07 R237). -/
def GS_DIR_BASE (d : Nat) : Nat := 0x1000000000 + 0x400000000 * d + 0x300010010
/-- Address of GS_DIR_CNT (07 R237). -/
def GS_DIR_CNT (d : Nat) : Nat := 0x1000000000 + 0x400000000 * d + 0x300010018
/-- Address of GS_POOL_BASE (07 R237). -/
def GS_POOL_BASE (d : Nat) : Nat := 0x1000000000 + 0x400000000 * d + 0x300010020
/-- Address of GS_POOL_SIZE (07 R237). -/
def GS_POOL_SIZE (d : Nat) : Nat := 0x1000000000 + 0x400000000 * d + 0x300010028
/-- Address of GS_LAUNCH (07 R237). -/
def GS_LAUNCH (d : Nat) : Nat := 0x1000000000 + 0x400000000 * d + 0x300010030
/-- Address of GS_STOP (07 R237). -/
def GS_STOP (d : Nat) : Nat := 0x1000000000 + 0x400000000 * d + 0x300010038
/-- Address of GS_SEQ (07 R237). -/
def GS_SEQ (d : Nat) : Nat := 0x1000000000 + 0x400000000 * d + 0x300010040
/-- Address of GS_EPOCH (07 R237). -/
def GS_EPOCH (d : Nat) : Nat := 0x1000000000 + 0x400000000 * d + 0x300010044
/-- Address of GS_OCC (07 R237). -/
def GS_OCC (d : Nat) : Nat := 0x1000000000 + 0x400000000 * d + 0x300010048
/-- Address of GS_ERR (07 R237). -/
def GS_ERR (d : Nat) : Nat := 0x1000000000 + 0x400000000 * d + 0x30001004c
/-- Address of GS_WCFG (07 R237). -/
def GS_WCFG (d : Nat) : Nat := 0x1000000000 + 0x400000000 * d + 0x300010050
/-- Address of GS_WIN_w (07 R237). -/
def GS_WIN (d : Nat) (n : Nat) : Nat := 0x1000000000 + 0x400000000 * d + 0x300010060 + 0x4 * n
/-- Address of GS_TRIG_FIRE (07 R237). -/
def GS_TRIG_FIRE (d : Nat) : Nat := 0x1000000000 + 0x400000000 * d + 0x300010070
/-- Address of GS_TRIG_t (07 R237). -/
def GS_TRIG (d : Nat) (n : Nat) : Nat := 0x1000000000 + 0x400000000 * d + 0x300010080 + 0x10 * n
/-- Address of GS_TRIG_STAT_t (07 R237). -/
def GS_TRIG_STAT (d : Nat) (n : Nat) : Nat := 0x1000000000 + 0x400000000 * d + 0x300010084 + 0x10 * n
/-- Address of GS_TRIG_TMPL_t (07 R237). -/
def GS_TRIG_TMPL (d : Nat) (n : Nat) : Nat := 0x1000000000 + 0x400000000 * d + 0x300010088 + 0x10 * n
/-- Address of GS_CORE_c (07 R237). -/
def GS_CORE (d : Nat) (n : Nat) : Nat := 0x1000000000 + 0x400000000 * d + 0x300010200 + 0x4 * n
/-- Address of CT_CTRL (10 R312). -/
def CT_CTRL : Nat := 0x20090000
/-- Address of CT_STATUS (10 R312). -/
def CT_STATUS : Nat := 0x20090004
/-- Address of CT_CLR (10 R312). -/
def CT_CLR : Nat := 0x20090008
/-- Address of CT_FILT (10 R312). -/
def CT_FILT : Nat := 0x2009000c
/-- Address of CT_SEL0 (10 R312). -/
def CT_SEL0 : Nat := 0x20090010
/-- Address of CT_SEL1 (10 R312). -/
def CT_SEL1 : Nat := 0x20090014
/-- Address of CT_TRIG (10 R312). -/
def CT_TRIG : Nat := 0x20090018
/-- Address of CT_TRIG_FIRE (10 R312). -/
def CT_TRIG_FIRE : Nat := 0x2009001c
/-- Address of CT_WP (10 R312). -/
def CT_WP : Nat := 0x20090020
/-- Address of CT_TRIG_POS (10 R312). -/
def CT_TRIG_POS : Nat := 0x20090024
/-- Address of CT_DROP (10 R312). -/
def CT_DROP : Nat := 0x20090028
/-- Address of CT_WIN (10 R312). -/
def CT_WIN : Nat := 0x2009002c
/-- Address of CT_TOTAL (10 R312). -/
def CT_TOTAL : Nat := 0x20090030
/-- Address of CT_CSEL (10 R312). -/
def CT_CSEL : Nat := 0x20090038
/-- Address of CT_CVAL (10 R312). -/
def CT_CVAL : Nat := 0x20090040
/-- Address of CT_REC_r (10 R312). -/
def CT_REC (n : Nat) : Nat := 0x20091000 + 0x4 * n
/-- Address of SYS_BOOT (19 R498). -/
def SYS_BOOT : Nat := 0x20100000
/-- Address of SYS_RST_CMD (19 R498). -/
def SYS_RST_CMD : Nat := 0x20100004
/-- Address of SYS_DIE_d (19 R498). -/
def SYS_DIE (n : Nat) : Nat := 0x20100010 + 0x4 * n
/-- Address of SYS_SPS_ADDR (19 R498). -/
def SYS_SPS_ADDR : Nat := 0x20100020
/-- Address of SYS_SPS_CMD (19 R498). -/
def SYS_SPS_CMD : Nat := 0x20100028
/-- Address of SYS_SPS_STAT (19 R498). -/
def SYS_SPS_STAT : Nat := 0x2010002c
/-- Address of SYS_SPS_CHK (19 R498). -/
def SYS_SPS_CHK : Nat := 0x20100030
/-- Address of SYS_SPS_CONF (19 R498). -/
def SYS_SPS_CONF : Nat := 0x20100034
/-- Address of SYS_UPD_CMD (19 R498). -/
def SYS_UPD_CMD : Nat := 0x20100040
/-- Address of SYS_UPD_STAT (19 R498). -/
def SYS_UPD_STAT : Nat := 0x20100044
/-- Address of SYS_UPD_ACK (19 R498). -/
def SYS_UPD_ACK : Nat := 0x20100048
/-- Address of SYS_VP_STAT_v (11 R336). -/
def SYS_VP_STAT (n : Nat) : Nat := 0x20100400 + 0x4 * n
/-- Address of SYS_VP_ROLE (11 R336). -/
def SYS_VP_ROLE : Nat := 0x20100410
/-- Address of SYS_CMP_STAT (11 R336). -/
def SYS_CMP_STAT : Nat := 0x20100414
/-- Address of SYS_CMP_LAST (11 R336). -/
def SYS_CMP_LAST : Nat := 0x20100418
/-- Address of SYS_CMP_TIME (11 R336). -/
def SYS_CMP_TIME : Nat := 0x20100420
/-- Address of SYS_SVC (11 R336). -/
def SYS_SVC : Nat := 0x20100430
/-- Address of SYS_MBX_STAT (11 R336). -/
def SYS_MBX_STAT : Nat := 0x20100434
/-- Address of SYS_LB_CMD (21 R520). -/
def SYS_LB_CMD : Nat := 0x20100500
/-- Address of SYS_LB_CFG (21 R520). -/
def SYS_LB_CFG : Nat := 0x20100504
/-- Address of SYS_LB_STAT (21 R520). -/
def SYS_LB_STAT : Nat := 0x20100508
/-- Address of SYS_LB_BITS (21 R520). -/
def SYS_LB_BITS : Nat := 0x20100510
/-- Address of SYS_LB_ERRS (21 R520). -/
def SYS_LB_ERRS : Nat := 0x20100518
/-- Address of SYS_LB_FIRST (21 R520). -/
def SYS_LB_FIRST : Nat := 0x20100520
/-- Address of SYS_PWR_STAT (22 R539). -/
def SYS_PWR_STAT : Nat := 0x20100600
/-- Address of SYS_TJ_d (22 R539). -/
def SYS_TJ (n : Nat) : Nat := 0x20100610 + 0x4 * n
/-- Address of SYS_AVS_d (22 R539). -/
def SYS_AVS (n : Nat) : Nat := 0x20100630 + 0x4 * n
/-- Address of SYS_STRAP (22 R539). -/
def SYS_STRAP : Nat := 0x20100640
/-- Address of FC_STATUS (12 R357). -/
def FC_STATUS : Nat := 0x20000000
/-- Address of FC_QUIET (12 R357). -/
def FC_QUIET : Nat := 0x20000004
/-- Address of FC_REC (12 R357). -/
def FC_REC : Nat := 0x20000008
/-- Address of FC_ACK (12 R357). -/
def FC_ACK : Nat := 0x2000000c
/-- Address of FC_CLR (12 R357). -/
def FC_CLR : Nat := 0x20000010
/-- Address of FC_RAISE (12 R357). -/
def FC_RAISE : Nat := 0x20000014
/-- Address of FC_INJ (12 R357). -/
def FC_INJ : Nat := 0x20000018
/-- Address of FC_RETIRE_LAST (12 R357). -/
def FC_RETIRE_LAST : Nat := 0x2000001c
/-- Address of FC_RETRY_k (12 R357). -/
def FC_RETRY (n : Nat) : Nat := 0x20000040 + 0x4 * n
/-- Address of FC_PEND_k (12 R357). -/
def FC_PEND (n : Nat) : Nat := 0x20000080 + 0x4 * n
/-- Address of FC_CAP (12 R357). -/
def FC_CAP (n : Nat) : Nat := 0x20000100 + 0x4 * n
/-- Address of FC_SEV_n (12 R357). -/
def FC_SEV (n : Nat) : Nat := 0x20001000 + 0x4 * n
/-- Address of FC_CNT_n (12 R357). -/
def FC_CNT (n : Nat) : Nat := 0x20002000 + 0x4 * n
/-- Address of WD_KEY_w (13 R377). -/
def WD_KEY (n : Nat) : Nat := 0x20010000 + 0x20 * n
/-- Address of WD_CFG_w (13 R377). -/
def WD_CFG (n : Nat) : Nat := 0x20010004 + 0x20 * n
/-- Address of WD_TIME_w (13 R377). -/
def WD_TIME (n : Nat) : Nat := 0x20010008 + 0x20 * n
/-- Address of WD_STAT_w (13 R377). -/
def WD_STAT (n : Nat) : Nat := 0x2001000c + 0x20 * n
/-- Address of WD_REF_w (13 R377). -/
def WD_REF (n : Nat) : Nat := 0x20010010 + 0x20 * n
/-- Address of WD_ST_CFG (13 R377). -/
def WD_ST_CFG : Nat := 0x20010200
/-- Address of WD_CLR (13 R377). -/
def WD_CLR : Nat := 0x20010204
/-- Address of WD_STATUS (13 R377). -/
def WD_STATUS : Nat := 0x20010208
/-- Address of WD_ST_AGE_d (13 R377). -/
def WD_ST_AGE (n : Nat) : Nat := 0x20010210 + 0x10 * n
/-- Address of WD_ST_CNT_d (13 R377). -/
def WD_ST_CNT (n : Nat) : Nat := 0x20010214 + 0x10 * n
/-- Address of DMA_CTRL (14 R403). -/
def DMA_CTRL : Nat := 0x20030000
/-- Address of DMA_STATUS (14 R403). -/
def DMA_STATUS : Nat := 0x20030004
/-- Address of DMA_CLR (14 R403). -/
def DMA_CLR : Nat := 0x20030008
/-- Address of DMA_IRQ_i (14 R403). -/
def DMA_IRQ (n : Nat) : Nat := 0x20030010 + 0x4 * n
/-- Address of DMA_REGEN_SCR (14 R403). -/
def DMA_REGEN_SCR : Nat := 0x20030020
/-- Address of DMA_REGEN_REQ (14 R403). -/
def DMA_REGEN_REQ : Nat := 0x20030028
/-- Address of DMA_REGEN_STAT (14 R403). -/
def DMA_REGEN_STAT : Nat := 0x20030030
/-- Address of DMA_CH_CFG_k (14 R403). -/
def DMA_CH_CFG (n : Nat) : Nat := 0x20031000 + 0x40 * n
/-- Address of DMA_CH_CTRL_k (14 R403). -/
def DMA_CH_CTRL (n : Nat) : Nat := 0x20031004 + 0x40 * n
/-- Address of DMA_CH_STAT_k (14 R403). -/
def DMA_CH_STAT (n : Nat) : Nat := 0x20031008 + 0x40 * n
/-- Address of DMA_CH_ERR_k (14 R403). -/
def DMA_CH_ERR (n : Nat) : Nat := 0x2003100c + 0x40 * n
/-- Address of DMA_CH_NEXT_k (14 R403). -/
def DMA_CH_NEXT (n : Nat) : Nat := 0x20031010 + 0x40 * n
/-- Address of DMA_CH_CUR_k (14 R403). -/
def DMA_CH_CUR (n : Nat) : Nat := 0x20031018 + 0x40 * n
/-- Address of DMA_CH_CNT_k (14 R403). -/
def DMA_CH_CNT (n : Nat) : Nat := 0x20031020 + 0x40 * n
/-- Address of DMA_REGEN_DST_r (14 R403). -/
def DMA_REGEN_DST (n : Nat) : Nat := 0x20033000 + 0x20 * n
/-- Address of DMA_REGEN_SRC_r (14 R403). -/
def DMA_REGEN_SRC (n : Nat) : Nat := 0x20033008 + 0x20 * n
/-- Address of DMA_REGEN_LEN_r (14 R403). -/
def DMA_REGEN_LEN (n : Nat) : Nat := 0x2003300c + 0x20 * n
/-- Address of DMA_REGEN_LIST_r (14 R403). -/
def DMA_REGEN_LIST (n : Nat) : Nat := 0x20033010 + 0x20 * n
/-- Address of DMA_REGEN_ST_r (14 R403). -/
def DMA_REGEN_ST (n : Nat) : Nat := 0x20033018 + 0x20 * n
/-- Address of CRC_STATUS (14 R404). -/
def CRC_STATUS : Nat := 0x20040000
/-- Address of CRC_CLR (14 R404). -/
def CRC_CLR : Nat := 0x20040004
/-- Address of CRC_SCAN_CTRL_u (14 R404). -/
def CRC_SCAN_CTRL (n : Nat) : Nat := 0x20040100 + 0x20 * n
/-- Address of CRC_SCAN_STAT_u (14 R404). -/
def CRC_SCAN_STAT (n : Nat) : Nat := 0x20040104 + 0x20 * n
/-- Address of CRC_SCAN_ADDR_u (14 R404). -/
def CRC_SCAN_ADDR (n : Nat) : Nat := 0x20040108 + 0x20 * n
/-- Address of CRC_SCAN_LEN_u (14 R404). -/
def CRC_SCAN_LEN (n : Nat) : Nat := 0x20040110 + 0x20 * n
/-- Address of CRC_SCAN_EXP_u (14 R404). -/
def CRC_SCAN_EXP (n : Nat) : Nat := 0x20040114 + 0x20 * n
/-- Address of CRC_SCAN_RES_u (14 R404). -/
def CRC_SCAN_RES (n : Nat) : Nat := 0x20040118 + 0x20 * n
/-- Address of CRC_SNP_CFG_s (14 R404). -/
def CRC_SNP_CFG (n : Nat) : Nat := 0x20040400 + 0x40 * n
/-- Address of CRC_SNP_STAT_s (14 R404). -/
def CRC_SNP_STAT (n : Nat) : Nat := 0x20040404 + 0x40 * n
/-- Address of CRC_SNP_POLY_s (14 R404). -/
def CRC_SNP_POLY (n : Nat) : Nat := 0x20040408 + 0x40 * n
/-- Address of CRC_SNP_INIT_s (14 R404). -/
def CRC_SNP_INIT (n : Nat) : Nat := 0x20040410 + 0x40 * n
/-- Address of CRC_SNP_RES_s (14 R404). -/
def CRC_SNP_RES (n : Nat) : Nat := 0x20040418 + 0x40 * n
/-- Address of TM_CTRL (15 R419). -/
def TM_CTRL : Nat := 0x20020000
/-- Address of TM_STATUS (15 R419). -/
def TM_STATUS : Nat := 0x20020004
/-- Address of TM_CLR (15 R419). -/
def TM_CLR : Nat := 0x20020008
/-- Address of TM_TIME (15 R419). -/
def TM_TIME : Nat := 0x20020010
/-- Address of TM_FRAC (15 R419). -/
def TM_FRAC : Nat := 0x20020018
/-- Address of TM_STEP (15 R419). -/
def TM_STEP : Nat := 0x20020020
/-- Address of TM_RATE (15 R419). -/
def TM_RATE : Nat := 0x20020028
/-- Address of TM_OFS (15 R419). -/
def TM_OFS : Nat := 0x20020030
/-- Address of TM_SERVO (15 R419). -/
def TM_SERVO : Nat := 0x20020038
/-- Address of TM_LIMIT (15 R419). -/
def TM_LIMIT : Nat := 0x2002003c
/-- Address of TM_SERVO_I (15 R419). -/
def TM_SERVO_I : Nat := 0x20020040
/-- Address of TM_SERVO_E (15 R419). -/
def TM_SERVO_E : Nat := 0x20020048
/-- Address of TM_CNT (15 R419). -/
def TM_CNT : Nat := 0x20020050
/-- Address of TM_ETH_COMP_x (15 R419). -/
def TM_ETH_COMP (n : Nat) : Nat := 0x20020060 + 0x4 * n
/-- Address of TM_ETS_ID_x (15 R419). -/
def TM_ETS_ID (n : Nat) : Nat := 0x20020080 + 0x10 * n
/-- Address of TM_ETS_TS_x (15 R419). -/
def TM_ETS_TS (n : Nat) : Nat := 0x20020088 + 0x10 * n
/-- Address of TM_CSI_COMP_p (15 R419). -/
def TM_CSI_COMP (n : Nat) : Nat := 0x20020100 + 0x4 * n
/-- Address of ETH_CTRL (16 R436). -/
def ETH_CTRL : Nat := 0x200b0000
/-- Address of ETH_STATUS (16 R436). -/
def ETH_STATUS : Nat := 0x200b0004
/-- Address of ETH_CLR (16 R436). -/
def ETH_CLR : Nat := 0x200b0008
/-- Address of ETH_SRC (16 R436). -/
def ETH_SRC : Nat := 0x200b000c
/-- Address of ETH_DA (16 R436). -/
def ETH_DA : Nat := 0x200b0010
/-- Address of ETH_VLAN (16 R436). -/
def ETH_VLAN : Nat := 0x200b0018
/-- Address of ETH_TXSEQ (16 R436). -/
def ETH_TXSEQ : Nat := 0x200b001c
/-- Address of ETH_RXCFG (16 R436). -/
def ETH_RXCFG : Nat := 0x200b0020
/-- Address of ETH_RXRING (16 R436). -/
def ETH_RXRING : Nat := 0x200b0028
/-- Address of ETH_RXCNT (16 R436). -/
def ETH_RXCNT : Nat := 0x200b0030
/-- Address of ETH_RXRD (16 R436). -/
def ETH_RXRD : Nat := 0x200b0034
/-- Address of ETH_CMPCNT (16 R436). -/
def ETH_CMPCNT : Nat := 0x200b0038
/-- Address of ETH_MAC_x (16 R436). -/
def ETH_MAC (n : Nat) : Nat := 0x200b0100 + 0x20 * n
/-- Address of ETH_CFG_x (16 R436). -/
def ETH_CFG (n : Nat) : Nat := 0x200b0108 + 0x20 * n
/-- Address of ETH_STAT_x (16 R436). -/
def ETH_STAT (n : Nat) : Nat := 0x200b010c + 0x20 * n
/-- Address of ETH_ERR0_x (16 R436). -/
def ETH_ERR0 (n : Nat) : Nat := 0x200b0110 + 0x20 * n
/-- Address of ETH_ERR1_x (16 R436). -/
def ETH_ERR1 (n : Nat) : Nat := 0x200b0114 + 0x20 * n
/-- Address of ETH_PEER_k (16 R436). -/
def ETH_PEER (n : Nat) : Nat := 0x200b0200 + 0x4 * n
/-- Address of I3C_T_CFG (16 R437). -/
def I3C_T_CFG : Nat := 0x200c0000
/-- Address of I3C_T_STAT (16 R437). -/
def I3C_T_STAT : Nat := 0x200c0004
/-- Address of I3C_T_ERR (16 R437). -/
def I3C_T_ERR : Nat := 0x200c0008
/-- Address of I3C_PID (16 R437). -/
def I3C_PID : Nat := 0x200c0010
/-- Address of I3C_C_CFG (16 R437). -/
def I3C_C_CFG : Nat := 0x200c0020
/-- Address of I3C_C_CMD (16 R437). -/
def I3C_C_CMD : Nat := 0x200c0024
/-- Address of I3C_C_STAT (16 R437). -/
def I3C_C_STAT : Nat := 0x200c0028
/-- Address of I3C_C_IBI (16 R437). -/
def I3C_C_IBI : Nat := 0x200c0030
/-- Address of I3C_C_DATA (16 R437). -/
def I3C_C_DATA (n : Nat) : Nat := 0x200c0040 + 0x4 * n
/-- Address of XSP_STRIPE (16 R438). -/
def XSP_STRIPE : Nat := 0x200d0000
/-- Address of XSP_STATUS (16 R438). -/
def XSP_STATUS : Nat := 0x200d0004
/-- Address of XSP_CLR (16 R438). -/
def XSP_CLR : Nat := 0x200d0008
/-- Address of XSP_NAND (16 R438). -/
def XSP_NAND : Nat := 0x200d0010
/-- Address of XSP_CFG_x (16 R438). -/
def XSP_CFG (n : Nat) : Nat := 0x200d0100 + 0x20 * n
/-- Address of XSP_CMD_x (16 R438). -/
def XSP_CMD (n : Nat) : Nat := 0x200d0108 + 0x20 * n
/-- Address of XSP_LEN_x (16 R438). -/
def XSP_LEN (n : Nat) : Nat := 0x200d0110 + 0x20 * n
/-- Address of XSP_STAT_x (16 R438). -/
def XSP_STAT (n : Nat) : Nat := 0x200d0114 + 0x20 * n
/-- Address of XSP_ERR_x (16 R438). -/
def XSP_ERR (n : Nat) : Nat := 0x200d0118 + 0x20 * n
/-- Address of ML_CTRL (17 R456). -/
def ML_CTRL : Nat := 0x200e0000
/-- Address of ML_STATUS (17 R456). -/
def ML_STATUS : Nat := 0x200e0004
/-- Address of ML_CLR (17 R456). -/
def ML_CLR : Nat := 0x200e0008
/-- Address of ML_CMD (17 R456). -/
def ML_CMD : Nat := 0x200e000c
/-- Address of ML_CFG (17 R456). -/
def ML_CFG : Nat := 0x200e0010
/-- Address of ML_RTT (17 R456). -/
def ML_RTT : Nat := 0x200e0014
/-- Address of ML_CNT0 (17 R456). -/
def ML_CNT0 : Nat := 0x200e0018
/-- Address of ML_CNT1 (17 R456). -/
def ML_CNT1 : Nat := 0x200e001c
/-- Address of ML_MIR_BASE (17 R456). -/
def ML_MIR_BASE : Nat := 0x200e0020
/-- Address of ML_PARTNER (17 R456). -/
def ML_PARTNER : Nat := 0x200e0028
/-- Address of SEC_STATUS (18 R481). -/
def SEC_STATUS : Nat := 0x200f0000
/-- Address of SEC_CLR (18 R481). -/
def SEC_CLR : Nat := 0x200f0004
/-- Address of SEC_KCFG (18 R481). -/
def SEC_KCFG : Nat := 0x200f0008
/-- Address of SEC_KCMD (18 R481). -/
def SEC_KCMD : Nat := 0x200f000c
/-- Address of SEC_KSTAT (18 R481). -/
def SEC_KSTAT : Nat := 0x200f0010
/-- Address of SEC_VEPOCH (18 R481). -/
def SEC_VEPOCH : Nat := 0x200f0014
/-- Address of SEC_SESS (18 R481). -/
def SEC_SESS : Nat := 0x200f0018
/-- Address of SEC_ACMD (18 R481). -/
def SEC_ACMD : Nat := 0x200f0020
/-- Address of SEC_ASTAT (18 R481). -/
def SEC_ASTAT : Nat := 0x200f0024
/-- Address of SEC_AJOB_ADDR (18 R481). -/
def SEC_AJOB_ADDR : Nat := 0x200f0028
/-- Address of SEC_AJOB (18 R481). -/
def SEC_AJOB : Nat := 0x200f0030
/-- Address of SEC_PROV_CMD (18 R481). -/
def SEC_PROV_CMD : Nat := 0x200f0040
/-- Address of SEC_PROV_STAT (18 R481). -/
def SEC_PROV_STAT : Nat := 0x200f0044
/-- Address of SEC_PROV_DATA (18 R481). -/
def SEC_PROV_DATA (n : Nat) : Nat := 0x200f0080 + 0x4 * n
/-- Address of SIO_STATUS (20 R509). -/
def SIO_STATUS : Nat := 0x200a0000
/-- Address of SIO_CLR (20 R509). -/
def SIO_CLR : Nat := 0x200a0004
/-- Address of SIO_IN_CFG_i (20 R509). -/
def SIO_IN_CFG (n : Nat) : Nat := 0x200a0100 + 0x8 * n
/-- Address of SIO_IN_STAT_i (20 R509). -/
def SIO_IN_STAT (n : Nat) : Nat := 0x200a0104 + 0x8 * n
/-- Address of SIO_OUT_CFG_o (20 R509). -/
def SIO_OUT_CFG (n : Nat) : Nat := 0x200a0200 + 0x10 * n
/-- Address of SIO_OUT_CTRL_o (20 R509). -/
def SIO_OUT_CTRL (n : Nat) : Nat := 0x200a0204 + 0x10 * n
/-- Address of SIO_OUT_STAT_o (20 R509). -/
def SIO_OUT_STAT (n : Nat) : Nat := 0x200a0208 + 0x10 * n
/-- Address of SIO_ACC_CMD_a (20 R509). -/
def SIO_ACC_CMD (n : Nat) : Nat := 0x200a0300 + 0x8 * n
/-- Address of SIO_ACC_STAT_a (20 R509). -/
def SIO_ACC_STAT (n : Nat) : Nat := 0x200a0304 + 0x8 * n

end A

namespace F

/-- Field unconf of VD_CTRL, bits 31:31 (R43). -/
def VD_CTRL_unconf : Field := ⟨0x20080000, 31, 1⟩
/-- Field sentinel of VD_CTRL, bits 30:30 (R43). -/
def VD_CTRL_sentinel : Field := ⟨0x20080000, 30, 1⟩
/-- Field en of VD_CTRL, bits 0:0 (R43). -/
def VD_CTRL_en : Field := ⟨0x20080000, 0, 1⟩
/-- Field sat of VD_STATUS, bits 2:2 (R43). -/
def VD_STATUS_sat : Field := ⟨0x20080004, 2, 1⟩
/-- Field fallow_any of VD_STATUS, bits 1:1 (R43). -/
def VD_STATUS_fallow_any : Field := ⟨0x20080004, 1, 1⟩
/-- Field rej_any of VD_STATUS, bits 0:0 (R43). -/
def VD_STATUS_rej_any : Field := ⟨0x20080004, 0, 1⟩
/-- Field op of VD_CMD, bits 31:28 (R43). -/
def VD_CMD_op : Field := ⟨0x20080008, 28, 4⟩
/-- Field ctx of VD_CMD, bits 9:0 (R43). -/
def VD_CMD_ctx : Field := ⟨0x20080008, 0, 10⟩
/-- Field last_op of VD_CMD_STATUS, bits 31:28 (R43). -/
def VD_CMD_STATUS_last_op : Field := ⟨0x2008000c, 28, 4⟩
/-- Field st of VD_CMD_STATUS, bits 7:0 (R43). -/
def VD_CMD_STATUS_st : Field := ⟨0x2008000c, 0, 8⟩
/-- Field budget of VD_RETRY, bits 31:24 (R43). -/
def VD_RETRY_budget : Field := ⟨0x20080014, 24, 8⟩
/-- Field window_s of VD_RETRY, bits 15:0 (R43). -/
def VD_RETRY_window_s : Field := ⟨0x20080014, 0, 16⟩
/-- Field width_us of VD_ACC_RST_a, bits 15:0 (R43). -/
def VD_ACC_RST_width_us (n : Nat) : Field := ⟨0x20080020 + 0x8 * n, 0, 16⟩
/-- Field settle_ms of VD_ACC_PWR_a, bits 31:16 (R43). -/
def VD_ACC_PWR_settle_ms (n : Nat) : Field := ⟨0x20080024 + 0x8 * n, 16, 16⟩
/-- Field off_ms of VD_ACC_PWR_a, bits 15:0 (R43). -/
def VD_ACC_PWR_off_ms (n : Nat) : Field := ⟨0x20080024 + 0x8 * n, 0, 16⟩
/-- Field resets of VD_ACC_STAT_a, bits 31:16 (R43). -/
def VD_ACC_STAT_resets (n : Nat) : Field := ⟨0x20080040 + 0x4 * n, 16, 16⟩
/-- Field pwrc of VD_ACC_STAT_a, bits 15:8 (R43). -/
def VD_ACC_STAT_pwrc (n : Nat) : Field := ⟨0x20080040 + 0x4 * n, 8, 8⟩
/-- Field pend of VD_ACC_STAT_a, bits 1:1 (R43). -/
def VD_ACC_STAT_pend (n : Nat) : Field := ⟨0x20080040 + 0x4 * n, 1, 1⟩
/-- Field busy of VD_ACC_STAT_a, bits 0:0 (R43). -/
def VD_ACC_STAT_busy (n : Nat) : Field := ⟨0x20080040 + 0x4 * n, 0, 1⟩
/-- Field bits of VD_BELIEVED_k, bits 31:0 (R43). -/
def VD_BELIEVED_bits (n : Nat) : Field := ⟨0x20080080 + 0x4 * n, 0, 32⟩
/-- Field bits of VD_FALLOW_k, bits 31:0 (R43). -/
def VD_FALLOW_bits (n : Nat) : Field := ⟨0x20080100 + 0x4 * n, 0, 32⟩
/-- Field en of VD_CTX_CFG_n, bits 31:31 (R43). -/
def VD_CTX_CFG_en (n : Nat) : Field := ⟨0x20081000 + 0x20 * n, 31, 1⟩
/-- Field acc of VD_CTX_CFG_n, bits 29:28 (R43). -/
def VD_CTX_CFG_acc (n : Nat) : Field := ⟨0x20081000 + 0x20 * n, 28, 2⟩
/-- Field anchor of VD_CTX_CFG_n, bits 27:24 (R43). -/
def VD_CTX_CFG_anchor (n : Nat) : Field := ⟨0x20081000 + 0x20 * n, 24, 4⟩
/-- Field adm_k of VD_CTX_THR_n, bits 31:24 (R43). -/
def VD_CTX_THR_adm_k (n : Nat) : Field := ⟨0x20081004 + 0x20 * n, 24, 8⟩
/-- Field clr_k of VD_CTX_THR_n, bits 23:16 (R43). -/
def VD_CTX_THR_clr_k (n : Nat) : Field := ⟨0x20081004 + 0x20 * n, 16, 8⟩
/-- Field m of VD_CTX_THR_n, bits 15:8 (R43). -/
def VD_CTX_THR_m (n : Nat) : Field := ⟨0x20081004 + 0x20 * n, 8, 8⟩
/-- Field n of VD_CTX_THR_n, bits 6:0 (R43). -/
def VD_CTX_THR_n (n : Nat) : Field := ⟨0x20081004 + 0x20 * n, 0, 7⟩
/-- Field ev_dl of VD_CTX_TIME_n, bits 31:12 (R43). -/
def VD_CTX_TIME_ev_dl (n : Nat) : Field := ⟨0x20081008 + 0x20 * n, 12, 20⟩
/-- Field chk of VD_CTX_TIME_n, bits 11:0 (R43). -/
def VD_CTX_TIME_chk (n : Nat) : Field := ⟨0x20081008 + 0x20 * n, 0, 12⟩
/-- Field rst of VD_CTX_REACT_n, bits 31:31 (R43). -/
def VD_CTX_REACT_rst (n : Nat) : Field := ⟨0x2008100c + 0x20 * n, 31, 1⟩
/-- Field pwr of VD_CTX_REACT_n, bits 30:30 (R43). -/
def VD_CTX_REACT_pwr (n : Nat) : Field := ⟨0x2008100c + 0x20 * n, 30, 1⟩
/-- Field sout of VD_CTX_REACT_n, bits 27:24 (R43). -/
def VD_CTX_REACT_sout (n : Nat) : Field := ⟨0x2008100c + 0x20 * n, 24, 4⟩
/-- Field fault of VD_CTX_REACT_n, bits 23:23 (R43). -/
def VD_CTX_REACT_fault (n : Nat) : Field := ⟨0x2008100c + 0x20 * n, 23, 1⟩
/-- Field irq of VD_CTX_REACT_n, bits 22:22 (R43). -/
def VD_CTX_REACT_irq (n : Nat) : Field := ⟨0x2008100c + 0x20 * n, 22, 1⟩
/-- Field auto of VD_CTX_REACT_n, bits 21:21 (R43). -/
def VD_CTX_REACT_auto (n : Nat) : Field := ⟨0x2008100c + 0x20 * n, 21, 1⟩
/-- Field readmit_ms of VD_CTX_REACT_n, bits 15:0 (R43). -/
def VD_CTX_REACT_readmit_ms (n : Nat) : Field := ⟨0x2008100c + 0x20 * n, 0, 16⟩
/-- Field state of VD_CTX_STATE_n, bits 31:29 (R43). -/
def VD_CTX_STATE_state (n : Nat) : Field := ⟨0x20081010 + 0x20 * n, 29, 3⟩
/-- Field inflight of VD_CTX_STATE_n, bits 28:26 (R43). -/
def VD_CTX_STATE_inflight (n : Nat) : Field := ⟨0x20081010 + 0x20 * n, 26, 3⟩
/-- Field wfail of VD_CTX_STATE_n, bits 25:19 (R43). -/
def VD_CTX_STATE_wfail (n : Nat) : Field := ⟨0x20081010 + 0x20 * n, 19, 7⟩
/-- Field clean of VD_CTX_STATE_n, bits 15:8 (R43). -/
def VD_CTX_STATE_clean (n : Nat) : Field := ⟨0x20081010 + 0x20 * n, 8, 8⟩
/-- Field sat of VD_CTX_STATE_n, bits 7:7 (R43). -/
def VD_CTX_STATE_sat (n : Nat) : Field := ⟨0x20081010 + 0x20 * n, 7, 1⟩
/-- Field kind of VD_CTX_STATE_n, bits 1:0 (R43). -/
def VD_CTX_STATE_kind (n : Nat) : Field := ⟨0x20081010 + 0x20 * n, 0, 2⟩
/-- Field last of VD_CTX_CAUSE_n, bits 31:16 (R43). -/
def VD_CTX_CAUSE_last (n : Nat) : Field := ⟨0x20081014 + 0x20 * n, 16, 16⟩
/-- Field sticky of VD_CTX_CAUSE_n, bits 15:0 (R43). -/
def VD_CTX_CAUSE_sticky (n : Nat) : Field := ⟨0x20081014 + 0x20 * n, 0, 16⟩
/-- Field count of VD_DOUBT_n, bits 31:0 (R43). -/
def VD_DOUBT_count (n : Nat) : Field := ⟨0x20089000 + 0x10 * n, 0, 32⟩
/-- Field count of VD_LATE_n, bits 31:0 (R43). -/
def VD_LATE_count (n : Nat) : Field := ⟨0x20089004 + 0x10 * n, 0, 32⟩
/-- Field nofb of VD_GAP_n, bits 31:16 (R43). -/
def VD_GAP_nofb (n : Nat) : Field := ⟨0x20089008 + 0x10 * n, 16, 16⟩
/-- Field noinput of VD_GAP_n, bits 15:0 (R43). -/
def VD_GAP_noinput (n : Nat) : Field := ⟨0x20089008 + 0x10 * n, 0, 16⟩
/-- Field rej of VD_REJ_n, bits 31:16 (R43). -/
def VD_REJ_rej (n : Nat) : Field := ⟨0x2008900c + 0x10 * n, 16, 16⟩
/-- Field inwin of VD_REJ_n, bits 15:8 (R43). -/
def VD_REJ_inwin (n : Nat) : Field := ⟨0x2008900c + 0x10 * n, 8, 8⟩
/-- Field count of VD_ADMIT_n, bits 31:0 (R43). -/
def VD_ADMIT_count (n : Nat) : Field := ⟨0x2008d000 + 0x4 * n, 0, 32⟩
/-- Field pass of FP_CTRL, bits 1:1 (R85). -/
def FP_CTRL_pass : Field := ⟨0x20050000, 1, 1⟩
/-- Field en of FP_CTRL, bits 0:0 (R85). -/
def FP_CTRL_en : Field := ⟨0x20050000, 0, 1⟩
/-- Field sat of FP_STATUS, bits 1:1 (R85). -/
def FP_STATUS_sat : Field := ⟨0x20050004, 1, 1⟩
/-- Field fallow_any of FP_STATUS, bits 0:0 (R85). -/
def FP_STATUS_fallow_any : Field := ⟨0x20050004, 0, 1⟩
/-- Field mon of FP_CLR, bits 25:24 (R85). -/
def FP_CLR_mon : Field := ⟨0x20050008, 24, 2⟩
/-- Field fwd of FP_CLR, bits 23:16 (R85). -/
def FP_CLR_fwd : Field := ⟨0x20050008, 16, 8⟩
/-- Field cin of FP_CLR, bits 15:0 (R85). -/
def FP_CLR_cin : Field := ⟨0x20050008, 0, 16⟩
/-- Field count of FP_PLIB_CNT, bits 12:0 (R85). -/
def FP_PLIB_CNT_count : Field := ⟨0x20050018, 0, 13⟩
/-- Field en of FP_CIN_CFG_p, bits 31:31 (R85). -/
def FP_CIN_CFG_en (n : Nat) : Field := ⟨0x20051000 + 0x40 * n, 31, 1⟩
/-- Field phy of FP_CIN_CFG_p, bits 30:30 (R85). -/
def FP_CIN_CFG_phy (n : Nat) : Field := ⟨0x20051000 + 0x40 * n, 30, 1⟩
/-- Field lanes of FP_CIN_CFG_p, bits 29:28 (R85). -/
def FP_CIN_CFG_lanes (n : Nat) : Field := ⟨0x20051000 + 0x40 * n, 28, 2⟩
/-- Field dt of FP_CIN_CFG_p, bits 25:20 (R85). -/
def FP_CIN_CFG_dt (n : Nat) : Field := ⟨0x20051000 + 0x40 * n, 20, 6⟩
/-- Field vc of FP_CIN_CFG_p, bits 19:16 (R85). -/
def FP_CIN_CFG_vc (n : Nat) : Field := ⟨0x20051000 + 0x40 * n, 16, 4⟩
/-- Field fwd_en of FP_CIN_CFG_p, bits 15:15 (R85). -/
def FP_CIN_CFG_fwd_en (n : Nat) : Field := ⟨0x20051000 + 0x40 * n, 15, 1⟩
/-- Field fwd of FP_CIN_CFG_p, bits 14:12 (R85). -/
def FP_CIN_CFG_fwd (n : Nat) : Field := ⟨0x20051000 + 0x40 * n, 12, 3⟩
/-- Field vc_out of FP_CIN_CFG_p, bits 11:8 (R85). -/
def FP_CIN_CFG_vc_out (n : Nat) : Field := ⟨0x20051000 + 0x40 * n, 8, 4⟩
/-- Field fn_mode of FP_CIN_CFG_p, bits 7:7 (R85). -/
def FP_CIN_CFG_fn_mode (n : Nat) : Field := ⟨0x20051000 + 0x40 * n, 7, 1⟩
/-- Field width of FP_CIN_GEOM_p, bits 30:16 (R85). -/
def FP_CIN_GEOM_width (n : Nat) : Field := ⟨0x20051004 + 0x40 * n, 16, 15⟩
/-- Field lines of FP_CIN_GEOM_p, bits 14:0 (R85). -/
def FP_CIN_GEOM_lines (n : Nat) : Field := ⟨0x20051004 + 0x40 * n, 0, 15⟩
/-- Field rate of FP_CIN_PHY_p, bits 12:0 (R85). -/
def FP_CIN_PHY_rate (n : Nat) : Field := ⟨0x20051008 + 0x40 * n, 0, 13⟩
/-- Field fs_to of FP_CIN_TIME_p, bits 31:16 (R85). -/
def FP_CIN_TIME_fs_to (n : Nat) : Field := ⟨0x2005100c + 0x40 * n, 16, 16⟩
/-- Field skew of FP_CIN_TIME_p, bits 15:4 (R85). -/
def FP_CIN_TIME_skew (n : Nat) : Field := ⟨0x2005100c + 0x40 * n, 4, 12⟩
/-- Field stuck_k of FP_CIN_TIME_p, bits 3:0 (R85). -/
def FP_CIN_TIME_stuck_k (n : Nat) : Field := ⟨0x2005100c + 0x40 * n, 0, 4⟩
/-- Field slot_kib of FP_CIN_RING_p, bits 27:8 (R85). -/
def FP_CIN_RING_slot_kib (n : Nat) : Field := ⟨0x20051010 + 0x40 * n, 8, 20⟩
/-- Field slots of FP_CIN_RING_p, bits 4:0 (R85). -/
def FP_CIN_RING_slots (n : Nat) : Field := ⟨0x20051010 + 0x40 * n, 0, 5⟩
/-- Field id of FP_CIN_FN_p, bits 31:0 (R85). -/
def FP_CIN_FN_id (n : Nat) : Field := ⟨0x20051020 + 0x40 * n, 0, 32⟩
/-- Field ecc1 of FP_CIN_ERR0_p, bits 31:16 (R85). -/
def FP_CIN_ERR0_ecc1 (n : Nat) : Field := ⟨0x20051024 + 0x40 * n, 16, 16⟩
/-- Field hdr of FP_CIN_ERR0_p, bits 15:0 (R85). -/
def FP_CIN_ERR0_hdr (n : Nat) : Field := ⟨0x20051024 + 0x40 * n, 0, 16⟩
/-- Field crc of FP_CIN_ERR1_p, bits 31:16 (R85). -/
def FP_CIN_ERR1_crc (n : Nat) : Field := ⟨0x20051028 + 0x40 * n, 16, 16⟩
/-- Field size of FP_CIN_ERR1_p, bits 15:0 (R85). -/
def FP_CIN_ERR1_size (n : Nat) : Field := ⟨0x20051028 + 0x40 * n, 0, 16⟩
/-- Field gap of FP_CIN_ERR2_p, bits 31:24 (R85). -/
def FP_CIN_ERR2_gap (n : Nat) : Field := ⟨0x2005102c + 0x40 * n, 24, 8⟩
/-- Field tmo of FP_CIN_ERR2_p, bits 23:16 (R85). -/
def FP_CIN_ERR2_tmo (n : Nat) : Field := ⟨0x2005102c + 0x40 * n, 16, 8⟩
/-- Field stuck of FP_CIN_ERR2_p, bits 15:8 (R85). -/
def FP_CIN_ERR2_stuck (n : Nat) : Field := ⟨0x2005102c + 0x40 * n, 8, 8⟩
/-- Field ring of FP_CIN_ERR2_p, bits 7:0 (R85). -/
def FP_CIN_ERR2_ring (n : Nat) : Field := ⟨0x2005102c + 0x40 * n, 0, 8⟩
/-- Field drop of FP_CIN_ERR3_p, bits 31:16 (R85). -/
def FP_CIN_ERR3_drop (n : Nat) : Field := ⟨0x20051030 + 0x40 * n, 16, 16⟩
/-- Field late of FP_CIN_ERR3_p, bits 15:8 (R85). -/
def FP_CIN_ERR3_late (n : Nat) : Field := ⟨0x20051030 + 0x40 * n, 8, 8⟩
/-- Field resync of FP_CIN_ERR3_p, bits 7:0 (R85). -/
def FP_CIN_ERR3_resync (n : Nat) : Field := ⟨0x20051030 + 0x40 * n, 0, 8⟩
/-- Field fallow of FP_CIN_STAT_p, bits 31:31 (R85). -/
def FP_CIN_STAT_fallow (n : Nat) : Field := ⟨0x20051034 + 0x40 * n, 31, 1⟩
/-- Field stuck of FP_CIN_STAT_p, bits 30:30 (R85). -/
def FP_CIN_STAT_stuck (n : Nat) : Field := ⟨0x20051034 + 0x40 * n, 30, 1⟩
/-- Field open of FP_CIN_STAT_p, bits 29:29 (R85). -/
def FP_CIN_STAT_open (n : Nat) : Field := ⟨0x20051034 + 0x40 * n, 29, 1⟩
/-- Field lines of FP_CIN_STAT_p, bits 14:0 (R85). -/
def FP_CIN_STAT_lines (n : Nat) : Field := ⟨0x20051034 + 0x40 * n, 0, 15⟩
/-- Field en of FP_FWD_CFG_f, bits 31:31 (R85). -/
def FP_FWD_CFG_en (n : Nat) : Field := ⟨0x20052000 + 0x20 * n, 31, 1⟩
/-- Field phy of FP_FWD_CFG_f, bits 30:30 (R85). -/
def FP_FWD_CFG_phy (n : Nat) : Field := ⟨0x20052000 + 0x20 * n, 30, 1⟩
/-- Field lanes of FP_FWD_CFG_f, bits 29:28 (R85). -/
def FP_FWD_CFG_lanes (n : Nat) : Field := ⟨0x20052000 + 0x20 * n, 28, 2⟩
/-- Field acc of FP_FWD_CFG_f, bits 27:26 (R85). -/
def FP_FWD_CFG_acc (n : Nat) : Field := ⟨0x20052000 + 0x20 * n, 26, 2⟩
/-- Field strip of FP_FWD_CFG_f, bits 23:16 (R85). -/
def FP_FWD_CFG_strip (n : Nat) : Field := ⟨0x20052000 + 0x20 * n, 16, 8⟩
/-- Field rate of FP_FWD_CFG_f, bits 12:0 (R85). -/
def FP_FWD_CFG_rate (n : Nat) : Field := ⟨0x20052000 + 0x20 * n, 0, 13⟩
/-- Field fail of FP_FWD_STAT_f, bits 31:16 (R85). -/
def FP_FWD_STAT_fail (n : Nat) : Field := ⟨0x20052004 + 0x20 * n, 16, 16⟩
/-- Field lat of FP_FWD_STAT_f, bits 15:0 (R85). -/
def FP_FWD_STAT_lat (n : Nat) : Field := ⟨0x20052004 + 0x20 * n, 0, 16⟩
/-- Field def of FP_FWD_PDEF_f, bits 31:16 (R85). -/
def FP_FWD_PDEF_def (n : Nat) : Field := ⟨0x20052008 + 0x20 * n, 16, 16⟩
/-- Field bad of FP_FWD_PDEF_f, bits 15:0 (R85). -/
def FP_FWD_PDEF_bad (n : Nat) : Field := ⟨0x20052008 + 0x20 * n, 0, 16⟩
/-- Field en of FP_MON_CFG_m, bits 31:31 (R85). -/
def FP_MON_CFG_en (n : Nat) : Field := ⟨0x20052200 + 0x20 * n, 31, 1⟩
/-- Field phy of FP_MON_CFG_m, bits 30:30 (R85). -/
def FP_MON_CFG_phy (n : Nat) : Field := ⟨0x20052200 + 0x20 * n, 30, 1⟩
/-- Field lanes of FP_MON_CFG_m, bits 29:28 (R85). -/
def FP_MON_CFG_lanes (n : Nat) : Field := ⟨0x20052200 + 0x20 * n, 28, 2⟩
/-- Field tag of FP_MON_CFG_m, bits 27:27 (R85). -/
def FP_MON_CFG_tag (n : Nat) : Field := ⟨0x20052200 + 0x20 * n, 27, 1⟩
/-- Field src of FP_MON_CFG_m, bits 15:0 (R85). -/
def FP_MON_CFG_src (n : Nat) : Field := ⟨0x20052200 + 0x20 * n, 0, 16⟩
/-- Field drop of FP_MON_STAT_m, bits 31:0 (R85). -/
def FP_MON_STAT_drop (n : Nat) : Field := ⟨0x20052204 + 0x20 * n, 0, 32⟩
/-- Field rate of FP_MON_PHY_m, bits 12:0 (R85). -/
def FP_MON_PHY_rate (n : Nat) : Field := ⟨0x20052208 + 0x20 * n, 0, 13⟩
/-- Field ports of FP_CTXM_n, bits 15:0 (R85). -/
def FP_CTXM_ports (n : Nat) : Field := ⟨0x20054000 + 0x4 * n, 0, 16⟩
/-- Field en of EV_CTRL, bits 0:0 (R110). -/
def EV_CTRL_en : Field := ⟨0x20060000, 0, 1⟩
/-- Field sat of EV_STATUS, bits 1:1 (R110). -/
def EV_STATUS_sat : Field := ⟨0x20060004, 1, 1⟩
/-- Field fallow_any of EV_STATUS, bits 0:0 (R110). -/
def EV_STATUS_fallow_any : Field := ⟨0x20060004, 0, 1⟩
/-- Field ctx of EV_CLR, bits 31:31 (R110). -/
def EV_CLR_ctx : Field := ⟨0x20060008, 31, 1⟩
/-- Field ein of EV_CLR, bits 3:0 (R110). -/
def EV_CLR_ein : Field := ⟨0x20060008, 0, 4⟩
/-- Field en of EV_EIN_CFG_e, bits 31:31 (R110). -/
def EV_EIN_CFG_en (n : Nat) : Field := ⟨0x20061000 + 0x40 * n, 31, 1⟩
/-- Field phy of EV_EIN_CFG_e, bits 30:30 (R110). -/
def EV_EIN_CFG_phy (n : Nat) : Field := ⟨0x20061000 + 0x40 * n, 30, 1⟩
/-- Field lanes of EV_EIN_CFG_e, bits 29:28 (R110). -/
def EV_EIN_CFG_lanes (n : Nat) : Field := ⟨0x20061000 + 0x40 * n, 28, 2⟩
/-- Field hb_ms of EV_EIN_CFG_e, bits 15:0 (R110). -/
def EV_EIN_CFG_hb_ms (n : Nat) : Field := ⟨0x20061000 + 0x40 * n, 0, 16⟩
/-- Field rate of EV_EIN_PHY_e, bits 12:0 (R110). -/
def EV_EIN_PHY_rate (n : Nat) : Field := ⟨0x20061004 + 0x40 * n, 0, 13⟩
/-- Field slot_kib of EV_EIN_RING_e, bits 27:8 (R110). -/
def EV_EIN_RING_slot_kib (n : Nat) : Field := ⟨0x20061008 + 0x40 * n, 8, 20⟩
/-- Field slots of EV_EIN_RING_e, bits 6:0 (R110). -/
def EV_EIN_RING_slots (n : Nat) : Field := ⟨0x20061008 + 0x40 * n, 0, 7⟩
/-- Field ecc1 of EV_EIN_ERR0_e, bits 31:16 (R110). -/
def EV_EIN_ERR0_ecc1 (n : Nat) : Field := ⟨0x20061018 + 0x40 * n, 16, 16⟩
/-- Field hdr of EV_EIN_ERR0_e, bits 15:0 (R110). -/
def EV_EIN_ERR0_hdr (n : Nat) : Field := ⟨0x20061018 + 0x40 * n, 0, 16⟩
/-- Field crc of EV_EIN_ERR1_e, bits 31:16 (R110). -/
def EV_EIN_ERR1_crc (n : Nat) : Field := ⟨0x2006101c + 0x40 * n, 16, 16⟩
/-- Field size of EV_EIN_ERR1_e, bits 15:0 (R110). -/
def EV_EIN_ERR1_size (n : Nat) : Field := ⟨0x2006101c + 0x40 * n, 0, 16⟩
/-- Field orphan of EV_EIN_ERR2_e, bits 31:16 (R110). -/
def EV_EIN_ERR2_orphan (n : Nat) : Field := ⟨0x20061020 + 0x40 * n, 16, 16⟩
/-- Field ring of EV_EIN_ERR2_e, bits 15:0 (R110). -/
def EV_EIN_ERR2_ring (n : Nat) : Field := ⟨0x20061020 + 0x40 * n, 0, 16⟩
/-- Field drop of EV_EIN_ERR3_e, bits 31:16 (R110). -/
def EV_EIN_ERR3_drop (n : Nat) : Field := ⟨0x20061024 + 0x40 * n, 16, 16⟩
/-- Field silent of EV_EIN_ERR3_e, bits 15:0 (R110). -/
def EV_EIN_ERR3_silent (n : Nat) : Field := ⟨0x20061024 + 0x40 * n, 0, 16⟩
/-- Field fallow of EV_EIN_STAT_e, bits 31:31 (R110). -/
def EV_EIN_STAT_fallow (n : Nat) : Field := ⟨0x20061028 + 0x40 * n, 31, 1⟩
/-- Field used of EV_EIN_STAT_e, bits 22:16 (R110). -/
def EV_EIN_STAT_used (n : Nat) : Field := ⟨0x20061028 + 0x40 * n, 16, 7⟩
/-- Field open of EV_EIN_STAT_e, bits 15:0 (R110). -/
def EV_EIN_STAT_open (n : Nat) : Field := ⟨0x20061028 + 0x40 * n, 0, 16⟩
/-- Field plan of EV_CTX_PLAN_n, bits 31:0 (R110). -/
def EV_CTX_PLAN_plan (n : Nat) : Field := ⟨0x20064000 + 0x10 * n, 0, 32⟩
/-- Field epoch of EV_CTX_KEY_n, bits 31:16 (R110). -/
def EV_CTX_KEY_epoch (n : Nat) : Field := ⟨0x20064004 + 0x10 * n, 16, 16⟩
/-- Field old_valid of EV_CTX_KEY_n, bits 15:15 (R110). -/
def EV_CTX_KEY_old_valid (n : Nat) : Field := ⟨0x20064004 + 0x10 * n, 15, 1⟩
/-- Field old_kind of EV_CTX_KEY_n, bits 14:14 (R110). -/
def EV_CTX_KEY_old_kind (n : Nat) : Field := ⟨0x20064004 + 0x10 * n, 14, 1⟩
/-- Field held of EV_CTX_KEY_n, bits 13:13 (R110). -/
def EV_CTX_KEY_held (n : Nat) : Field := ⟨0x20064004 + 0x10 * n, 13, 1⟩
/-- Field grace of EV_CTX_KEY_n, bits 1:0 (R110). -/
def EV_CTX_KEY_grace (n : Nat) : Field := ⟨0x20064004 + 0x10 * n, 0, 2⟩
/-- Field auth of EV_CTX_ERR_n, bits 31:16 (R110). -/
def EV_CTX_ERR_auth (n : Nat) : Field := ⟨0x20064008 + 0x10 * n, 16, 16⟩
/-- Field format of EV_CTX_ERR_n, bits 15:0 (R110). -/
def EV_CTX_ERR_format (n : Nat) : Field := ⟨0x20064008 + 0x10 * n, 0, 16⟩
/-- Field gap of EV_CTX_SEQ_n, bits 31:16 (R110). -/
def EV_CTX_SEQ_gap (n : Nat) : Field := ⟨0x2006400c + 0x10 * n, 16, 16⟩
/-- Field dup of EV_CTX_SEQ_n, bits 15:0 (R110). -/
def EV_CTX_SEQ_dup (n : Nat) : Field := ⟨0x2006400c + 0x10 * n, 0, 16⟩
/-- Field en of CK_CTRL, bits 0:0 (R135). -/
def CK_CTRL_en : Field := ⟨0x20070000, 0, 1⟩
/-- Field sat of CK_STATUS, bits 1:1 (R135). -/
def CK_STATUS_sat : Field := ⟨0x20070004, 1, 1⟩
/-- Field internal of CK_STATUS, bits 0:0 (R135). -/
def CK_STATUS_internal : Field := ⟨0x20070004, 0, 1⟩
/-- Field all of CK_CLR, bits 0:0 (R135). -/
def CK_CLR_all : Field := ⟨0x20070008, 0, 1⟩
/-- Field count of CK_AG_DIR_CNT, bits 12:0 (R164). -/
def CK_AG_DIR_CNT_count : Field := ⟨0x20070018, 0, 13⟩
/-- Field hwm of CK_AG_STATUS, bits 29:16 (R164). -/
def CK_AG_STATUS_hwm : Field := ⟨0x20070028, 16, 14⟩
/-- Field depth of CK_AG_STATUS, bits 13:0 (R164). -/
def CK_AG_STATUS_depth : Field := ⟨0x20070028, 0, 14⟩
/-- Field mode of CK_CTX_CFG_n, bits 31:31 (R135). -/
def CK_CTX_CFG_mode (n : Nat) : Field := ⟨0x20071000 + 0x20 * n, 31, 1⟩
/-- Field furrow of CK_CTX_CFG_n, bits 30:30 (R135). -/
def CK_CTX_CFG_furrow (n : Nat) : Field := ⟨0x20071000 + 0x20 * n, 30, 1⟩
/-- Field envelope of CK_CTX_CFG_n, bits 29:29 (R135). -/
def CK_CTX_CFG_envelope (n : Nat) : Field := ⟨0x20071000 + 0x20 * n, 29, 1⟩
/-- Field head of CK_CTX_CFG_n, bits 28:28 (R135). -/
def CK_CTX_CFG_head (n : Nat) : Field := ⟨0x20071000 + 0x20 * n, 28, 1⟩
/-- Field seeds of CK_CTX_CFG_n, bits 2:0 (R135). -/
def CK_CTX_CFG_seeds (n : Nat) : Field := ⟨0x20071000 + 0x20 * n, 0, 3⟩
/-- Field kind of CK_CTX_LAST_n, bits 31:29 (R135). -/
def CK_CTX_LAST_kind (n : Nat) : Field := ⟨0x20071010 + 0x20 * n, 29, 3⟩
/-- Field fails of CK_CTX_LAST_n, bits 27:16 (R135). -/
def CK_CTX_LAST_fails (n : Nat) : Field := ⟨0x20071010 + 0x20 * n, 16, 12⟩
/-- Field id of CK_CTX_LAST_n, bits 15:0 (R135). -/
def CK_CTX_LAST_id (n : Nat) : Field := ⟨0x20071010 + 0x20 * n, 0, 16⟩
/-- Field furrow of CK_CTX_CNT0_n, bits 31:16 (R135). -/
def CK_CTX_CNT0_furrow (n : Nat) : Field := ⟨0x20071014 + 0x20 * n, 16, 16⟩
/-- Field envelope of CK_CTX_CNT0_n, bits 15:0 (R135). -/
def CK_CTX_CNT0_envelope (n : Nat) : Field := ⟨0x20071014 + 0x20 * n, 0, 16⟩
/-- Field head of CK_CTX_CNT1_n, bits 31:16 (R135). -/
def CK_CTX_CNT1_head (n : Nat) : Field := ⟨0x20071018 + 0x20 * n, 16, 16⟩
/-- Field seed of CK_CTX_CNT1_n, bits 15:0 (R135). -/
def CK_CTX_CNT1_seed (n : Nat) : Field := ⟨0x20071018 + 0x20 * n, 0, 16⟩
/-- Field late of CK_CTX_CNT2_n, bits 31:20 (R135). -/
def CK_CTX_CNT2_late (n : Nat) : Field := ⟨0x2007101c + 0x20 * n, 20, 12⟩
/-- Field internal of CK_CTX_CNT2_n, bits 19:8 (R135). -/
def CK_CTX_CNT2_internal (n : Nat) : Field := ⟨0x2007101c + 0x20 * n, 8, 12⟩
/-- Field skip of CK_CTX_CNT2_n, bits 7:0 (R135). -/
def CK_CTX_CNT2_skip (n : Nat) : Field := ⟨0x2007101c + 0x20 * n, 0, 8⟩
/-- Field ref of CK_FB_GRAPH_n, bits 31:0 (R164). -/
def CK_FB_GRAPH_ref (n : Nat) : Field := ⟨0x20079000 + 0x10 * n, 0, 32⟩
/-- Field form of CK_AG_CFG_n, bits 31:29 (R164). -/
def CK_AG_CFG_form (n : Nat) : Field := ⟨0x20079004 + 0x10 * n, 29, 3⟩
/-- Field frag of CK_AG_CFG_n, bits 28:22 (R164). -/
def CK_AG_CFG_frag (n : Nat) : Field := ⟨0x20079004 + 0x10 * n, 22, 7⟩
/-- Field param of CK_AG_CFG_n, bits 21:12 (R164). -/
def CK_AG_CFG_param (n : Nat) : Field := ⟨0x20079004 + 0x10 * n, 12, 10⟩
/-- Field prog of CK_AG_CFG_n, bits 11:0 (R164). -/
def CK_AG_CFG_prog (n : Nat) : Field := ⟨0x20079004 + 0x10 * n, 0, 12⟩
/-- Field budget of CK_AG_BUDGET_n, bits 31:0 (R164). -/
def CK_AG_BUDGET_budget (n : Nat) : Field := ⟨0x20079008 + 0x10 * n, 0, 32⟩
/-- Field fail of CK_AG_CNT_n, bits 31:16 (R164). -/
def CK_AG_CNT_fail (n : Nat) : Field := ⟨0x2007900c + 0x10 * n, 16, 16⟩
/-- Field budget of CK_AG_CNT_n, bits 15:8 (R164). -/
def CK_AG_CNT_budget (n : Nat) : Field := ⟨0x2007900c + 0x10 * n, 8, 8⟩
/-- Field late of CK_AG_CNT_n, bits 7:0 (R164). -/
def CK_AG_CNT_late (n : Nat) : Field := ⟨0x2007900c + 0x10 * n, 0, 8⟩
/-- Field die_fallow of CX_STATUS, bits 31:31 (R202). -/
def CX_STATUS_die_fallow (d : Nat) : Field := ⟨0x1000000000 + 0x400000000 * d + 0x300000000, 31, 1⟩
/-- Field sat of CX_STATUS, bits 1:1 (R202). -/
def CX_STATUS_sat (d : Nat) : Field := ⟨0x1000000000 + 0x400000000 * d + 0x300000000, 1, 1⟩
/-- Field safety_thr of CX_STATUS, bits 0:0 (R202). -/
def CX_STATUS_safety_thr (d : Nat) : Field := ⟨0x1000000000 + 0x400000000 * d + 0x300000000, 0, 1⟩
/-- Field all of CX_CLR, bits 0:0 (R202). -/
def CX_CLR_all (d : Nat) : Field := ⟨0x1000000000 + 0x400000000 * d + 0x300000004, 0, 1⟩
/-- Field cap_w of CX_PWR_CAP, bits 5:0 (R202). -/
def CX_PWR_CAP_cap_w (d : Nat) : Field := ⟨0x1000000000 + 0x400000000 * d + 0x300000010, 0, 6⟩
/-- Field p of CX_PWR_MEAS, bits 15:0 (R202). -/
def CX_PWR_MEAS_p (d : Nat) : Field := ⟨0x1000000000 + 0x400000000 * d + 0x300000014, 0, 16⟩
/-- Field safety of CX_PWR_DUTY, bits 15:12 (R202). -/
def CX_PWR_DUTY_safety (d : Nat) : Field := ⟨0x1000000000 + 0x400000000 * d + 0x300000018, 12, 4⟩
/-- Field check of CX_PWR_DUTY, bits 11:8 (R202). -/
def CX_PWR_DUTY_check (d : Nat) : Field := ⟨0x1000000000 + 0x400000000 * d + 0x300000018, 8, 4⟩
/-- Field shadow of CX_PWR_DUTY, bits 7:4 (R202). -/
def CX_PWR_DUTY_shadow (d : Nat) : Field := ⟨0x1000000000 + 0x400000000 * d + 0x300000018, 4, 4⟩
/-- Field bulk of CX_PWR_DUTY, bits 3:0 (R202). -/
def CX_PWR_DUTY_bulk (d : Nat) : Field := ⟨0x1000000000 + 0x400000000 * d + 0x300000018, 0, 4⟩
/-- Field steps of CX_PWR_STAT, bits 31:16 (R202). -/
def CX_PWR_STAT_steps (d : Nat) : Field := ⟨0x1000000000 + 0x400000000 * d + 0x30000001c, 16, 16⟩
/-- Field safety of CX_PWR_STAT, bits 15:0 (R202). -/
def CX_PWR_STAT_safety (d : Nat) : Field := ⟨0x1000000000 + 0x400000000 * d + 0x30000001c, 0, 16⟩
/-- Field fallow of CX_CORE_c, bits 31:31 (R202). -/
def CX_CORE_fallow (d : Nat) (n : Nat) : Field := ⟨0x1000000000 + 0x400000000 * d + 0x300000020 + 0x4 * n, 31, 1⟩
/-- Field test of CX_CORE_c, bits 20:16 (R202). -/
def CX_CORE_test (d : Nat) (n : Nat) : Field := ⟨0x1000000000 + 0x400000000 * d + 0x300000020 + 0x4 * n, 16, 5⟩
/-- Field eng_fallow of CX_CORE_c, bits 15:0 (R202). -/
def CX_CORE_eng_fallow (d : Nat) (n : Nat) : Field := ⟨0x1000000000 + 0x400000000 * d + 0x300000020 + 0x4 * n, 0, 16⟩
/-- Field count of CX_RES_CNT_c, bits 31:0 (R202). -/
def CX_RES_CNT_count (d : Nat) (n : Nat) : Field := ⟨0x1000000000 + 0x400000000 * d + 0x300000030 + 0x4 * n, 0, 32⟩
/-- Field stop of CX_DROOP_c, bits 31:16 (R202). -/
def CX_DROOP_stop (d : Nat) (n : Nat) : Field := ⟨0x1000000000 + 0x400000000 * d + 0x300000040 + 0x4 * n, 16, 16⟩
/-- Field stretch of CX_DROOP_c, bits 15:0 (R202). -/
def CX_DROOP_stretch (d : Nat) (n : Nat) : Field := ⟨0x1000000000 + 0x400000000 * d + 0x300000040 + 0x4 * n, 0, 16⟩
/-- Field core of CX_RES_LAST, bits 63:62 (R202). -/
def CX_RES_LAST_core (d : Nat) : Field := ⟨0x1000000000 + 0x400000000 * d + 0x300000050 + 4, 30, 2⟩
/-- Field engine of CX_RES_LAST, bits 61:58 (R202). -/
def CX_RES_LAST_engine (d : Nat) : Field := ⟨0x1000000000 + 0x400000000 * d + 0x300000050 + 4, 26, 4⟩
/-- Field dpu of CX_RES_LAST, bits 57:52 (R202). -/
def CX_RES_LAST_dpu (d : Nat) : Field := ⟨0x1000000000 + 0x400000000 * d + 0x300000050 + 4, 20, 6⟩
/-- Field attempt of CX_RES_LAST, bits 51:50 (R202). -/
def CX_RES_LAST_attempt (d : Nat) : Field := ⟨0x1000000000 + 0x400000000 * d + 0x300000050 + 4, 18, 2⟩
/-- Field ctx of CX_RES_LAST, bits 41:32 (R202). -/
def CX_RES_LAST_ctx (d : Nat) : Field := ⟨0x1000000000 + 0x400000000 * d + 0x300000050 + 4, 0, 10⟩
/-- Field seq of CX_RES_LAST, bits 31:0 (R202). -/
def CX_RES_LAST_seq (d : Nat) : Field := ⟨0x1000000000 + 0x400000000 * d + 0x300000050, 0, 32⟩
/-- Field link of CX_G6_ch, bits 31:16 (R202). -/
def CX_G6_link (d : Nat) (n : Nat) : Field := ⟨0x1000000000 + 0x400000000 * d + 0x300000060 + 0x4 * n, 16, 16⟩
/-- Field chk of CX_G6_ch, bits 15:8 (R202). -/
def CX_G6_chk (d : Nat) (n : Nat) : Field := ⟨0x1000000000 + 0x400000000 * d + 0x300000060 + 0x4 * n, 8, 8⟩
/-- Field fallow of CX_G6_ch, bits 7:7 (R202). -/
def CX_G6_fallow (d : Nat) (n : Nat) : Field := ⟨0x1000000000 + 0x400000000 * d + 0x300000060 + 0x4 * n, 7, 1⟩
/-- Field retries of CX_LINK, bits 31:16 (R202). -/
def CX_LINK_retries (d : Nat) : Field := ⟨0x1000000000 + 0x400000000 * d + 0x300000070, 16, 16⟩
/-- Field up_fallow of CX_LINK, bits 15:8 (R202). -/
def CX_LINK_up_fallow (d : Nat) : Field := ⟨0x1000000000 + 0x400000000 * d + 0x300000070, 8, 8⟩
/-- Field wl_fallow of CX_LINK, bits 3:0 (R202). -/
def CX_LINK_wl_fallow (d : Nat) : Field := ⟨0x1000000000 + 0x400000000 * d + 0x300000070, 0, 4⟩
/-- Field valid of CX_NP_k, bits 63:63 (R202). -/
def CX_NP_valid (d : Nat) (n : Nat) : Field := ⟨0x1000000000 + 0x400000000 * d + 0x300000100 + 0x8 * n + 4, 31, 1⟩
/-- Field sr_bits of CX_NP_k, bits 36:32 (R202). -/
def CX_NP_sr_bits (d : Nat) (n : Nat) : Field := ⟨0x1000000000 + 0x400000000 * d + 0x300000100 + 0x8 * n + 4, 0, 5⟩
/-- Field fsum of CX_NP_k, bits 13:13 (R202). -/
def CX_NP_fsum (d : Nat) (n : Nat) : Field := ⟨0x1000000000 + 0x400000000 * d + 0x300000100 + 0x8 * n, 13, 1⟩
/-- Field facc of CX_NP_k, bits 12:11 (R202). -/
def CX_NP_facc (d : Nat) (n : Nat) : Field := ⟨0x1000000000 + 0x400000000 * d + 0x300000100 + 0x8 * n, 11, 2⟩
/-- Field iacc of CX_NP_k, bits 10:10 (R202). -/
def CX_NP_iacc (d : Nat) (n : Nat) : Field := ⟨0x1000000000 + 0x400000000 * d + 0x300000100 + 0x8 * n, 10, 1⟩
/-- Field acc_w of CX_NP_k, bits 9:8 (R202). -/
def CX_NP_acc_w (d : Nat) (n : Nat) : Field := ⟨0x1000000000 + 0x400000000 * d + 0x300000100 + 0x8 * n, 8, 2⟩
/-- Field sub_out of CX_NP_k, bits 7:7 (R202). -/
def CX_NP_sub_out (d : Nat) (n : Nat) : Field := ⟨0x1000000000 + 0x400000000 * d + 0x300000100 + 0x8 * n, 7, 1⟩
/-- Field sub_in of CX_NP_k, bits 6:6 (R202). -/
def CX_NP_sub_in (d : Nat) (n : Nat) : Field := ⟨0x1000000000 + 0x400000000 * d + 0x300000100 + 0x8 * n, 6, 1⟩
/-- Field isat of CX_NP_k, bits 5:5 (R202). -/
def CX_NP_isat (d : Nat) (n : Nat) : Field := ⟨0x1000000000 + 0x400000000 * d + 0x300000100 + 0x8 * n, 5, 1⟩
/-- Field fsat of CX_NP_k, bits 4:4 (R202). -/
def CX_NP_fsat (d : Nat) (n : Nat) : Field := ⟨0x1000000000 + 0x400000000 * d + 0x300000100 + 0x8 * n, 4, 1⟩
/-- Field stoch of CX_NP_k, bits 3:3 (R202). -/
def CX_NP_stoch (d : Nat) (n : Nat) : Field := ⟨0x1000000000 + 0x400000000 * d + 0x300000100 + 0x8 * n, 3, 1⟩
/-- Field rnd of CX_NP_k, bits 2:0 (R202). -/
def CX_NP_rnd (d : Nat) (n : Nat) : Field := ⟨0x1000000000 + 0x400000000 * d + 0x300000100 + 0x8 * n, 0, 3⟩
/-- Field shd of CX_NP_CTX_n, bits 13:8 (R202). -/
def CX_NP_CTX_shd (d : Nat) (n : Nat) : Field := ⟨0x1000000000 + 0x400000000 * d + 0x300001000 + 0x4 * n, 8, 6⟩
/-- Field chk of CX_NP_CTX_n, bits 5:0 (R202). -/
def CX_NP_CTX_chk (d : Nat) (n : Nat) : Field := ⟨0x1000000000 + 0x400000000 * d + 0x300001000 + 0x4 * n, 0, 6⟩
/-- Field scratch of GS_CTRL, bits 12:8 (R237). -/
def GS_CTRL_scratch (d : Nat) : Field := ⟨0x1000000000 + 0x400000000 * d + 0x300010000, 8, 5⟩
/-- Field en of GS_CTRL, bits 0:0 (R237). -/
def GS_CTRL_en (d : Nat) : Field := ⟨0x1000000000 + 0x400000000 * d + 0x300010000, 0, 1⟩
/-- Field sat of GS_STATUS, bits 2:2 (R237). -/
def GS_STATUS_sat (d : Nat) : Field := ⟨0x1000000000 + 0x400000000 * d + 0x300010004, 2, 1⟩
/-- Field arena_wait of GS_STATUS, bits 1:1 (R237). -/
def GS_STATUS_arena_wait (d : Nat) : Field := ⟨0x1000000000 + 0x400000000 * d + 0x300010004, 1, 1⟩
/-- Field epoch_wrap of GS_STATUS, bits 0:0 (R237). -/
def GS_STATUS_epoch_wrap (d : Nat) : Field := ⟨0x1000000000 + 0x400000000 * d + 0x300010004, 0, 1⟩
/-- Field all of GS_CLR, bits 0:0 (R237). -/
def GS_CLR_all (d : Nat) : Field := ⟨0x1000000000 + 0x400000000 * d + 0x300010008, 0, 1⟩
/-- Field count of GS_DIR_CNT, bits 15:0 (R237). -/
def GS_DIR_CNT_count (d : Nat) : Field := ⟨0x1000000000 + 0x400000000 * d + 0x300010018, 0, 16⟩
/-- Field mib of GS_POOL_SIZE, bits 11:0 (R237). -/
def GS_POOL_SIZE_mib (d : Nat) : Field := ⟨0x1000000000 + 0x400000000 * d + 0x300010028, 0, 12⟩
/-- Field frame of GS_STOP, bits 63:32 (R237). -/
def GS_STOP_frame (d : Nat) : Field := ⟨0x1000000000 + 0x400000000 * d + 0x300010038 + 4, 0, 32⟩
/-- Field ctx of GS_STOP, bits 9:0 (R237). -/
def GS_STOP_ctx (d : Nat) : Field := ⟨0x1000000000 + 0x400000000 * d + 0x300010038, 0, 10⟩
/-- Field seq of GS_SEQ, bits 31:0 (R237). -/
def GS_SEQ_seq (d : Nat) : Field := ⟨0x1000000000 + 0x400000000 * d + 0x300010040, 0, 32⟩
/-- Field epoch of GS_EPOCH, bits 15:0 (R237). -/
def GS_EPOCH_epoch (d : Nat) : Field := ⟨0x1000000000 + 0x400000000 * d + 0x300010044, 0, 16⟩
/-- Field ops of GS_OCC, bits 28:16 (R237). -/
def GS_OCC_ops (d : Nat) : Field := ⟨0x1000000000 + 0x400000000 * d + 0x300010048, 16, 13⟩
/-- Field inst of GS_OCC, bits 10:0 (R237). -/
def GS_OCC_inst (d : Nat) : Field := ⟨0x1000000000 + 0x400000000 * d + 0x300010048, 0, 11⟩
/-- Field replay of GS_ERR, bits 31:16 (R237). -/
def GS_ERR_replay (d : Nat) : Field := ⟨0x1000000000 + 0x400000000 * d + 0x30001004c, 16, 16⟩
/-- Field node of GS_ERR, bits 15:8 (R237). -/
def GS_ERR_node (d : Nat) : Field := ⟨0x1000000000 + 0x400000000 * d + 0x30001004c, 8, 8⟩
/-- Field full of GS_ERR, bits 7:0 (R237). -/
def GS_ERR_full (d : Nat) : Field := ⟨0x1000000000 + 0x400000000 * d + 0x30001004c, 0, 8⟩
/-- Field en of GS_WCFG, bits 31:31 (R237). -/
def GS_WCFG_en (d : Nat) : Field := ⟨0x1000000000 + 0x400000000 * d + 0x300010050, 31, 1⟩
/-- Field mode of GS_WCFG, bits 30:30 (R237). -/
def GS_WCFG_mode (d : Nat) : Field := ⟨0x1000000000 + 0x400000000 * d + 0x300010050, 30, 1⟩
/-- Field port of GS_WCFG, bits 27:24 (R237). -/
def GS_WCFG_port (d : Nat) : Field := ⟨0x1000000000 + 0x400000000 * d + 0x300010050, 24, 4⟩
/-- Field period of GS_WCFG, bits 19:0 (R237). -/
def GS_WCFG_period (d : Nat) : Field := ⟨0x1000000000 + 0x400000000 * d + 0x300010050, 0, 20⟩
/-- Field off of GS_WIN_w, bits 31:16 (R237). -/
def GS_WIN_off (d : Nat) (n : Nat) : Field := ⟨0x1000000000 + 0x400000000 * d + 0x300010060 + 0x4 * n, 16, 16⟩
/-- Field len of GS_WIN_w, bits 15:0 (R237). -/
def GS_WIN_len (d : Nat) (n : Nat) : Field := ⟨0x1000000000 + 0x400000000 * d + 0x300010060 + 0x4 * n, 0, 16⟩
/-- Field fire of GS_TRIG_FIRE, bits 15:0 (R237). -/
def GS_TRIG_FIRE_fire (d : Nat) : Field := ⟨0x1000000000 + 0x400000000 * d + 0x300010070, 0, 16⟩
/-- Field en of GS_TRIG_t, bits 31:31 (R237). -/
def GS_TRIG_en (d : Nat) (n : Nat) : Field := ⟨0x1000000000 + 0x400000000 * d + 0x300010080 + 0x10 * n, 31, 1⟩
/-- Field src of GS_TRIG_t, bits 29:28 (R237). -/
def GS_TRIG_src (d : Nat) (n : Nat) : Field := ⟨0x1000000000 + 0x400000000 * d + 0x300010080 + 0x10 * n, 28, 2⟩
/-- Field sel of GS_TRIG_t, bits 25:20 (R237). -/
def GS_TRIG_sel (d : Nat) (n : Nat) : Field := ⟨0x1000000000 + 0x400000000 * d + 0x300010080 + 0x10 * n, 20, 6⟩
/-- Field period of GS_TRIG_t, bits 19:0 (R237). -/
def GS_TRIG_period (d : Nat) (n : Nat) : Field := ⟨0x1000000000 + 0x400000000 * d + 0x300010080 + 0x10 * n, 0, 20⟩
/-- Field fired of GS_TRIG_STAT_t, bits 31:16 (R237). -/
def GS_TRIG_STAT_fired (d : Nat) (n : Nat) : Field := ⟨0x1000000000 + 0x400000000 * d + 0x300010084 + 0x10 * n, 16, 16⟩
/-- Field overrun of GS_TRIG_STAT_t, bits 15:0 (R237). -/
def GS_TRIG_STAT_overrun (d : Nat) (n : Nat) : Field := ⟨0x1000000000 + 0x400000000 * d + 0x300010084 + 0x10 * n, 0, 16⟩
/-- Field live of GS_CORE_c, bits 18:0 (R237). -/
def GS_CORE_live (d : Nat) (n : Nat) : Field := ⟨0x1000000000 + 0x400000000 * d + 0x300010200 + 0x4 * n, 0, 19⟩
/-- Field mode of CT_CTRL, bits 2:1 (R312). -/
def CT_CTRL_mode : Field := ⟨0x20090000, 1, 2⟩
/-- Field en of CT_CTRL, bits 0:0 (R312). -/
def CT_CTRL_en : Field := ⟨0x20090000, 0, 1⟩
/-- Field ringwrap of CT_STATUS, bits 4:4 (R312). -/
def CT_STATUS_ringwrap : Field := ⟨0x20090004, 4, 1⟩
/-- Field sat of CT_STATUS, bits 3:3 (R312). -/
def CT_STATUS_sat : Field := ⟨0x20090004, 3, 1⟩
/-- Field wrap of CT_STATUS, bits 2:2 (R312). -/
def CT_STATUS_wrap : Field := ⟨0x20090004, 2, 1⟩
/-- Field trig of CT_STATUS, bits 1:1 (R312). -/
def CT_STATUS_trig : Field := ⟨0x20090004, 1, 1⟩
/-- Field full of CT_STATUS, bits 0:0 (R312). -/
def CT_STATUS_full : Field := ⟨0x20090004, 0, 1⟩
/-- Field arm of CT_CLR, bits 1:1 (R312). -/
def CT_CLR_arm : Field := ⟨0x20090008, 1, 1⟩
/-- Field cnt of CT_CLR, bits 0:0 (R312). -/
def CT_CLR_cnt : Field := ⟨0x20090008, 0, 1⟩
/-- Field ctx_en of CT_FILT, bits 31:31 (R312). -/
def CT_FILT_ctx_en : Field := ⟨0x2009000c, 31, 1⟩
/-- Field ctx of CT_FILT, bits 25:16 (R312). -/
def CT_FILT_ctx : Field := ⟨0x2009000c, 16, 10⟩
/-- Field shift of CT_FILT, bits 11:8 (R312). -/
def CT_FILT_shift : Field := ⟨0x2009000c, 8, 4⟩
/-- Field die of CT_FILT, bits 7:4 (R312). -/
def CT_FILT_die : Field := ⟨0x2009000c, 4, 4⟩
/-- Field class of CT_FILT, bits 3:0 (R312). -/
def CT_FILT_class : Field := ⟨0x2009000c, 0, 4⟩
/-- Field slot3 of CT_SEL0, bits 31:24 (R312). -/
def CT_SEL0_slot3 : Field := ⟨0x20090010, 24, 8⟩
/-- Field slot2 of CT_SEL0, bits 23:16 (R312). -/
def CT_SEL0_slot2 : Field := ⟨0x20090010, 16, 8⟩
/-- Field slot1 of CT_SEL0, bits 15:8 (R312). -/
def CT_SEL0_slot1 : Field := ⟨0x20090010, 8, 8⟩
/-- Field slot0 of CT_SEL0, bits 7:0 (R312). -/
def CT_SEL0_slot0 : Field := ⟨0x20090010, 0, 8⟩
/-- Field slot5 of CT_SEL1, bits 15:8 (R312). -/
def CT_SEL1_slot5 : Field := ⟨0x20090014, 8, 8⟩
/-- Field slot4 of CT_SEL1, bits 7:0 (R312). -/
def CT_SEL1_slot4 : Field := ⟨0x20090014, 0, 8⟩
/-- Field fault of CT_TRIG, bits 31:31 (R312). -/
def CT_TRIG_fault : Field := ⟨0x20090018, 31, 1⟩
/-- Field rej of CT_TRIG, bits 30:30 (R312). -/
def CT_TRIG_rej : Field := ⟨0x20090018, 30, 1⟩
/-- Field sw of CT_TRIG, bits 29:29 (R312). -/
def CT_TRIG_sw : Field := ⟨0x20090018, 29, 1⟩
/-- Field sev of CT_TRIG, bits 26:24 (R312). -/
def CT_TRIG_sev : Field := ⟨0x20090018, 24, 3⟩
/-- Field pre of CT_TRIG, bits 4:0 (R312). -/
def CT_TRIG_pre : Field := ⟨0x20090018, 0, 5⟩
/-- Field fire of CT_TRIG_FIRE, bits 0:0 (R312). -/
def CT_TRIG_FIRE_fire : Field := ⟨0x2009001c, 0, 1⟩
/-- Field held of CT_WP, bits 31:16 (R312). -/
def CT_WP_held : Field := ⟨0x20090020, 16, 16⟩
/-- Field next of CT_WP, bits 14:0 (R312). -/
def CT_WP_next : Field := ⟨0x20090020, 0, 15⟩
/-- Field valid of CT_TRIG_POS, bits 31:31 (R312). -/
def CT_TRIG_POS_valid : Field := ⟨0x20090024, 31, 1⟩
/-- Field more of CT_TRIG_POS, bits 23:16 (R312). -/
def CT_TRIG_POS_more : Field := ⟨0x20090024, 16, 8⟩
/-- Field pos of CT_TRIG_POS, bits 14:0 (R312). -/
def CT_TRIG_POS_pos : Field := ⟨0x20090024, 0, 15⟩
/-- Field full of CT_DROP, bits 31:16 (R312). -/
def CT_DROP_full : Field := ⟨0x20090028, 16, 16⟩
/-- Field q of CT_DROP, bits 15:0 (R312). -/
def CT_DROP_q : Field := ⟨0x20090028, 0, 16⟩
/-- Field page of CT_WIN, bits 6:0 (R312). -/
def CT_WIN_page : Field := ⟨0x2009002c, 0, 7⟩
/-- Field die of CT_CSEL, bits 9:8 (R312). -/
def CT_CSEL_die : Field := ⟨0x20090038, 8, 2⟩
/-- Field code of CT_CSEL, bits 7:0 (R312). -/
def CT_CSEL_code : Field := ⟨0x20090038, 0, 8⟩
/-- Field word of CT_REC_r, bits 31:0 (R312). -/
def CT_REC_word (n : Nat) : Field := ⟨0x20091000 + 0x4 * n, 0, 32⟩
/-- Field stage of SYS_BOOT, bits 31:28 (R498). -/
def SYS_BOOT_stage : Field := ⟨0x20100000, 28, 4⟩
/-- Field slot of SYS_BOOT, bits 27:27 (R498). -/
def SYS_BOOT_slot : Field := ⟨0x20100000, 27, 1⟩
/-- Field trial of SYS_BOOT, bits 26:26 (R498). -/
def SYS_BOOT_trial : Field := ⟨0x20100000, 26, 1⟩
/-- Field stripe of SYS_BOOT, bits 25:25 (R498). -/
def SYS_BOOT_stripe : Field := ⟨0x20100000, 25, 1⟩
/-- Field att of SYS_BOOT, bits 7:0 (R498). -/
def SYS_BOOT_att : Field := ⟨0x20100000, 0, 8⟩
/-- Field key of SYS_RST_CMD, bits 31:24 (R498). -/
def SYS_RST_CMD_key : Field := ⟨0x20100004, 24, 8⟩
/-- Field target of SYS_RST_CMD, bits 2:0 (R498). -/
def SYS_RST_CMD_target : Field := ⟨0x20100004, 0, 3⟩
/-- Field state of SYS_DIE_d, bits 31:29 (R498). -/
def SYS_DIE_state (n : Nat) : Field := ⟨0x20100010 + 0x4 * n, 29, 3⟩
/-- Field resets of SYS_DIE_d, bits 15:0 (R498). -/
def SYS_DIE_resets (n : Nat) : Field := ⟨0x20100010 + 0x4 * n, 0, 16⟩
/-- Field op of SYS_SPS_CMD, bits 3:0 (R498). -/
def SYS_SPS_CMD_op : Field := ⟨0x20100028, 0, 4⟩
/-- Field busy of SYS_SPS_STAT, bits 31:31 (R498). -/
def SYS_SPS_STAT_busy : Field := ⟨0x2010002c, 31, 1⟩
/-- Field conf of SYS_SPS_STAT, bits 30:30 (R498). -/
def SYS_SPS_STAT_conf : Field := ⟨0x2010002c, 30, 1⟩
/-- Field index of SYS_SPS_STAT, bits 23:8 (R498). -/
def SYS_SPS_STAT_index : Field := ⟨0x2010002c, 8, 16⟩
/-- Field st of SYS_SPS_STAT, bits 7:0 (R498). -/
def SYS_SPS_STAT_st : Field := ⟨0x2010002c, 0, 8⟩
/-- Field chk of SYS_SPS_CHK, bits 31:0 (R498). -/
def SYS_SPS_CHK_chk : Field := ⟨0x20100030, 0, 32⟩
/-- Field chk of SYS_SPS_CONF, bits 31:0 (R498). -/
def SYS_SPS_CONF_chk : Field := ⟨0x20100034, 0, 32⟩
/-- Field op of SYS_UPD_CMD, bits 3:0 (R498). -/
def SYS_UPD_CMD_op : Field := ⟨0x20100040, 0, 4⟩
/-- Field state of SYS_UPD_STAT, bits 31:28 (R498). -/
def SYS_UPD_STAT_state : Field := ⟨0x20100044, 28, 4⟩
/-- Field slot of SYS_UPD_STAT, bits 27:27 (R498). -/
def SYS_UPD_STAT_slot : Field := ⟨0x20100044, 27, 1⟩
/-- Field mirror of SYS_UPD_STAT, bits 26:26 (R498). -/
def SYS_UPD_STAT_mirror : Field := ⟨0x20100044, 26, 1⟩
/-- Field busy of SYS_UPD_STAT, bits 25:25 (R498). -/
def SYS_UPD_STAT_busy : Field := ⟨0x20100044, 25, 1⟩
/-- Field st of SYS_UPD_STAT, bits 23:16 (R498). -/
def SYS_UPD_STAT_st : Field := ⟨0x20100044, 16, 8⟩
/-- Field erase_next of SYS_UPD_STAT, bits 15:0 (R498). -/
def SYS_UPD_STAT_erase_next : Field := ⟨0x20100044, 0, 16⟩
/-- Field acked of SYS_UPD_ACK, bits 31:0 (R498). -/
def SYS_UPD_ACK_acked : Field := ⟨0x20100048, 0, 32⟩
/-- Field fallow of SYS_VP_STAT_v, bits 31:31 (R336). -/
def SYS_VP_STAT_fallow (n : Nat) : Field := ⟨0x20100400 + 0x4 * n, 31, 1⟩
/-- Field state of SYS_VP_STAT_v, bits 30:28 (R336). -/
def SYS_VP_STAT_state (n : Nat) : Field := ⟨0x20100400 + 0x4 * n, 28, 3⟩
/-- Field roles of SYS_VP_STAT_v, bits 23:20 (R336). -/
def SYS_VP_STAT_roles (n : Nat) : Field := ⟨0x20100400 + 0x4 * n, 20, 4⟩
/-- Field retries of SYS_VP_STAT_v, bits 19:16 (R336). -/
def SYS_VP_STAT_retries (n : Nat) : Field := ⟨0x20100400 + 0x4 * n, 16, 4⟩
/-- Field mism of SYS_VP_STAT_v, bits 15:0 (R336). -/
def SYS_VP_STAT_mism (n : Nat) : Field := ⟨0x20100400 + 0x4 * n, 0, 16⟩
/-- Field role3 of SYS_VP_ROLE, bits 15:12 (R336). -/
def SYS_VP_ROLE_role3 : Field := ⟨0x20100410, 12, 4⟩
/-- Field role2 of SYS_VP_ROLE, bits 11:8 (R336). -/
def SYS_VP_ROLE_role2 : Field := ⟨0x20100410, 8, 4⟩
/-- Field role1 of SYS_VP_ROLE, bits 7:4 (R336). -/
def SYS_VP_ROLE_role1 : Field := ⟨0x20100410, 4, 4⟩
/-- Field role0 of SYS_VP_ROLE, bits 3:0 (R336). -/
def SYS_VP_ROLE_role0 : Field := ⟨0x20100410, 0, 4⟩
/-- Field fail of SYS_CMP_STAT, bits 19:0 (R336). -/
def SYS_CMP_STAT_fail : Field := ⟨0x20100414, 0, 20⟩
/-- Field pair of SYS_CMP_LAST, bits 31:30 (R336). -/
def SYS_CMP_LAST_pair : Field := ⟨0x20100418, 30, 2⟩
/-- Field group of SYS_CMP_LAST, bits 29:27 (R336). -/
def SYS_CMP_LAST_group : Field := ⟨0x20100418, 27, 3⟩
/-- Field level of SYS_SVC, bits 31:30 (R336). -/
def SYS_SVC_level : Field := ⟨0x20100430, 30, 2⟩
/-- Field cold of SYS_SVC, bits 29:29 (R336). -/
def SYS_SVC_cold : Field := ⟨0x20100430, 29, 1⟩
/-- Field cause of SYS_SVC, bits 7:0 (R336). -/
def SYS_SVC_cause : Field := ⟨0x20100430, 0, 8⟩
/-- Field session of SYS_MBX_STAT, bits 31:31 (R336). -/
def SYS_MBX_STAT_session : Field := ⟨0x20100434, 31, 1⟩
/-- Field busy of SYS_MBX_STAT, bits 30:30 (R336). -/
def SYS_MBX_STAT_busy : Field := ⟨0x20100434, 30, 1⟩
/-- Field crc of SYS_MBX_STAT, bits 23:16 (R336). -/
def SYS_MBX_STAT_crc : Field := ⟨0x20100434, 16, 8⟩
/-- Field req of SYS_MBX_STAT, bits 15:0 (R336). -/
def SYS_MBX_STAT_req : Field := ⟨0x20100434, 0, 16⟩
/-- Field op of SYS_LB_CMD, bits 3:0 (R520). -/
def SYS_LB_CMD_op : Field := ⟨0x20100500, 0, 4⟩
/-- Field iface of SYS_LB_CFG, bits 31:28 (R520). -/
def SYS_LB_CFG_iface : Field := ⟨0x20100504, 28, 4⟩
/-- Field depth of SYS_LB_CFG, bits 27:26 (R520). -/
def SYS_LB_CFG_depth : Field := ⟨0x20100504, 26, 2⟩
/-- Field src of SYS_LB_CFG, bits 25:23 (R520). -/
def SYS_LB_CFG_src : Field := ⟨0x20100504, 23, 3⟩
/-- Field num of SYS_LB_CFG, bits 22:16 (R520). -/
def SYS_LB_CFG_num : Field := ⟨0x20100504, 16, 7⟩
/-- Field ms of SYS_LB_CFG, bits 15:0 (R520). -/
def SYS_LB_CFG_ms : Field := ⟨0x20100504, 0, 16⟩
/-- Field busy of SYS_LB_STAT, bits 31:31 (R520). -/
def SYS_LB_STAT_busy : Field := ⟨0x20100508, 31, 1⟩
/-- Field lock of SYS_LB_STAT, bits 30:30 (R520). -/
def SYS_LB_STAT_lock : Field := ⟨0x20100508, 30, 1⟩
/-- Field st of SYS_LB_STAT, bits 7:0 (R520). -/
def SYS_LB_STAT_st : Field := ⟨0x20100508, 0, 8⟩
/-- Field count of SYS_LB_BITS, bits 63:48 (R520). -/
def SYS_LB_BITS_count : Field := ⟨0x20100510 + 4, 16, 16⟩
/-- Field errs of SYS_LB_ERRS, bits 31:0 (R520). -/
def SYS_LB_ERRS_errs : Field := ⟨0x20100518, 0, 32⟩
/-- Field seen of SYS_PWR_STAT, bits 25:16 (R539). -/
def SYS_PWR_STAT_seen : Field := ⟨0x20100600, 16, 10⟩
/-- Field out of SYS_PWR_STAT, bits 9:0 (R539). -/
def SYS_PWR_STAT_out : Field := ⟨0x20100600, 0, 10⟩
/-- Field max of SYS_TJ_d, bits 31:24 (R539). -/
def SYS_TJ_max (n : Nat) : Field := ⟨0x20100610 + 0x4 * n, 24, 8⟩
/-- Field now of SYS_TJ_d, bits 23:16 (R539). -/
def SYS_TJ_now (n : Nat) : Field := ⟨0x20100610 + 0x4 * n, 16, 8⟩
/-- Field over of SYS_TJ_d, bits 7:0 (R539). -/
def SYS_TJ_over (n : Nat) : Field := ⟨0x20100610 + 0x4 * n, 0, 8⟩
/-- Field fuse_mv of SYS_AVS_d, bits 31:20 (R539). -/
def SYS_AVS_fuse_mv (n : Nat) : Field := ⟨0x20100630 + 0x4 * n, 20, 12⟩
/-- Field set_mv of SYS_AVS_d, bits 15:4 (R539). -/
def SYS_AVS_set_mv (n : Nat) : Field := ⟨0x20100630 + 0x4 * n, 4, 12⟩
/-- Field grade of SYS_STRAP, bits 2:2 (R539). -/
def SYS_STRAP_grade : Field := ⟨0x20100640, 2, 1⟩
/-- Field pair_role of SYS_STRAP, bits 1:1 (R539). -/
def SYS_STRAP_pair_role : Field := ⟨0x20100640, 1, 1⟩
/-- Field tmode of SYS_STRAP, bits 0:0 (R539). -/
def SYS_STRAP_tmode : Field := ⟨0x20100640, 0, 1⟩
/-- Field fstate of FC_STATUS, bits 31:31 (R357). -/
def FC_STATUS_fstate : Field := ⟨0x20000000, 31, 1⟩
/-- Field cap of FC_STATUS, bits 30:30 (R357). -/
def FC_STATUS_cap : Field := ⟨0x20000000, 30, 1⟩
/-- Field standing of FC_STATUS, bits 29:29 (R357). -/
def FC_STATUS_standing : Field := ⟨0x20000000, 29, 1⟩
/-- Field inj of FC_STATUS, bits 28:28 (R357). -/
def FC_STATUS_inj : Field := ⟨0x20000000, 28, 1⟩
/-- Field sat of FC_STATUS, bits 27:27 (R357). -/
def FC_STATUS_sat : Field := ⟨0x20000000, 27, 1⟩
/-- Field irq of FC_STATUS, bits 26:26 (R357). -/
def FC_STATUS_irq : Field := ⟨0x20000000, 26, 1⟩
/-- Field maxsev of FC_STATUS, bits 10:8 (R357). -/
def FC_STATUS_maxsev : Field := ⟨0x20000000, 8, 3⟩
/-- Field sev of FC_QUIET, bits 18:16 (R357). -/
def FC_QUIET_sev : Field := ⟨0x20000004, 16, 3⟩
/-- Field ms of FC_QUIET, bits 15:0 (R357). -/
def FC_QUIET_ms : Field := ⟨0x20000004, 0, 16⟩
/-- Field count of FC_REC, bits 15:0 (R357). -/
def FC_REC_count : Field := ⟨0x20000008, 0, 16⟩
/-- Field ack of FC_ACK, bits 0:0 (R357). -/
def FC_ACK_ack : Field := ⟨0x2000000c, 0, 1⟩
/-- Field rec of FC_CLR, bits 2:2 (R357). -/
def FC_CLR_rec : Field := ⟨0x20000010, 2, 1⟩
/-- Field irq of FC_CLR, bits 1:1 (R357). -/
def FC_CLR_irq : Field := ⟨0x20000010, 1, 1⟩
/-- Field cnt of FC_CLR, bits 0:0 (R357). -/
def FC_CLR_cnt : Field := ⟨0x20000010, 0, 1⟩
/-- Field detail of FC_RAISE, bits 31:16 (R357). -/
def FC_RAISE_detail : Field := ⟨0x20000014, 16, 16⟩
/-- Field src of FC_RAISE, bits 8:0 (R357). -/
def FC_RAISE_src : Field := ⟨0x20000014, 0, 9⟩
/-- Field arm of FC_INJ, bits 31:31 (R357). -/
def FC_INJ_arm : Field := ⟨0x20000018, 31, 1⟩
/-- Field react of FC_INJ, bits 30:30 (R357). -/
def FC_INJ_react : Field := ⟨0x20000018, 30, 1⟩
/-- Field cls of FC_INJ, bits 27:24 (R357). -/
def FC_INJ_cls : Field := ⟨0x20000018, 24, 4⟩
/-- Field inst of FC_INJ, bits 23:16 (R357). -/
def FC_INJ_inst : Field := ⟨0x20000018, 16, 8⟩
/-- Field count of FC_INJ, bits 15:8 (R357). -/
def FC_INJ_count : Field := ⟨0x20000018, 8, 8⟩
/-- Field done of FC_INJ, bits 7:0 (R357). -/
def FC_INJ_done : Field := ⟨0x20000018, 0, 8⟩
/-- Field kind of FC_RETIRE_LAST, bits 31:28 (R357). -/
def FC_RETIRE_LAST_kind : Field := ⟨0x2000001c, 28, 4⟩
/-- Field number of FC_RETIRE_LAST, bits 23:16 (R357). -/
def FC_RETIRE_LAST_number : Field := ⟨0x2000001c, 16, 8⟩
/-- Field count of FC_RETIRE_LAST, bits 15:0 (R357). -/
def FC_RETIRE_LAST_count : Field := ⟨0x2000001c, 0, 16⟩
/-- Field budget of FC_RETRY_k, bits 19:16 (R357). -/
def FC_RETRY_budget (n : Nat) : Field := ⟨0x20000040 + 0x4 * n, 16, 4⟩
/-- Field window_ms of FC_RETRY_k, bits 15:0 (R357). -/
def FC_RETRY_window_ms (n : Nat) : Field := ⟨0x20000040 + 0x4 * n, 0, 16⟩
/-- Field pend of FC_PEND_k, bits 31:0 (R357). -/
def FC_PEND_pend (n : Nat) : Field := ⟨0x20000080 + 0x4 * n, 0, 32⟩
/-- Field word of FC_CAP, bits 31:0 (R357). -/
def FC_CAP_word (n : Nat) : Field := ⟨0x20000100 + 0x4 * n, 0, 32⟩
/-- Field level of FC_SEV_n, bits 31:29 (R357). -/
def FC_SEV_level (n : Nat) : Field := ⟨0x20001000 + 0x4 * n, 29, 3⟩
/-- Field tgt of FC_SEV_n, bits 6:5 (R357). -/
def FC_SEV_tgt (n : Nat) : Field := ⟨0x20001000 + 0x4 * n, 5, 2⟩
/-- Field fn of FC_SEV_n, bits 4:4 (R357). -/
def FC_SEV_fn (n : Nat) : Field := ⟨0x20001000 + 0x4 * n, 4, 1⟩
/-- Field chip of FC_SEV_n, bits 3:3 (R357). -/
def FC_SEV_chip (n : Nat) : Field := ⟨0x20001000 + 0x4 * n, 3, 1⟩
/-- Field block of FC_SEV_n, bits 2:2 (R357). -/
def FC_SEV_block (n : Nat) : Field := ⟨0x20001000 + 0x4 * n, 2, 1⟩
/-- Field nmi of FC_SEV_n, bits 1:1 (R357). -/
def FC_SEV_nmi (n : Nat) : Field := ⟨0x20001000 + 0x4 * n, 1, 1⟩
/-- Field irq of FC_SEV_n, bits 0:0 (R357). -/
def FC_SEV_irq (n : Nat) : Field := ⟨0x20001000 + 0x4 * n, 0, 1⟩
/-- Field count of FC_CNT_n, bits 31:16 (R357). -/
def FC_CNT_count (n : Nat) : Field := ⟨0x20002000 + 0x4 * n, 16, 16⟩
/-- Field last of FC_CNT_n, bits 15:0 (R357). -/
def FC_CNT_last (n : Nat) : Field := ⟨0x20002000 + 0x4 * n, 0, 16⟩
/-- Field key of WD_KEY_w, bits 15:0 (R377). -/
def WD_KEY_key (n : Nat) : Field := ⟨0x20010000 + 0x20 * n, 0, 16⟩
/-- Field early of WD_CFG_w, bits 2:2 (R377). -/
def WD_CFG_early (n : Nat) : Field := ⟨0x20010004 + 0x20 * n, 2, 1⟩
/-- Field act of WD_CFG_w, bits 1:0 (R377). -/
def WD_CFG_act (n : Nat) : Field := ⟨0x20010004 + 0x20 * n, 0, 2⟩
/-- Field closed of WD_TIME_w, bits 31:16 (R377). -/
def WD_TIME_closed (n : Nat) : Field := ⟨0x20010008 + 0x20 * n, 16, 16⟩
/-- Field open of WD_TIME_w, bits 15:0 (R377). -/
def WD_TIME_open (n : Nat) : Field := ⟨0x20010008 + 0x20 * n, 0, 16⟩
/-- Field state of WD_STAT_w, bits 31:29 (R377). -/
def WD_STAT_state (n : Nat) : Field := ⟨0x2001000c + 0x20 * n, 29, 3⟩
/-- Field pend of WD_STAT_w, bits 28:28 (R377). -/
def WD_STAT_pend (n : Nat) : Field := ⟨0x2001000c + 0x20 * n, 28, 1⟩
/-- Field early of WD_STAT_w, bits 23:16 (R377). -/
def WD_STAT_early (n : Nat) : Field := ⟨0x2001000c + 0x20 * n, 16, 8⟩
/-- Field bad of WD_STAT_w, bits 15:8 (R377). -/
def WD_STAT_bad (n : Nat) : Field := ⟨0x2001000c + 0x20 * n, 8, 8⟩
/-- Field expire of WD_STAT_w, bits 7:0 (R377). -/
def WD_STAT_expire (n : Nat) : Field := ⟨0x2001000c + 0x20 * n, 0, 8⟩
/-- Field logic_ms of WD_ST_CFG, bits 31:20 (R377). -/
def WD_ST_CFG_logic_ms : Field := ⟨0x20010200, 20, 12⟩
/-- Field kat_ms of WD_ST_CFG, bits 19:12 (R377). -/
def WD_ST_CFG_kat_ms : Field := ⟨0x20010200, 12, 8⟩
/-- Field all of WD_CLR, bits 0:0 (R377). -/
def WD_CLR_all : Field := ⟨0x20010204, 0, 1⟩
/-- Field sat of WD_STATUS, bits 0:0 (R377). -/
def WD_STATUS_sat : Field := ⟨0x20010208, 0, 1⟩
/-- Field logic of WD_ST_AGE_d, bits 31:16 (R377). -/
def WD_ST_AGE_logic (n : Nat) : Field := ⟨0x20010210 + 0x10 * n, 16, 16⟩
/-- Field kat of WD_ST_AGE_d, bits 15:0 (R377). -/
def WD_ST_AGE_kat (n : Nat) : Field := ⟨0x20010210 + 0x10 * n, 0, 16⟩
/-- Field abandon of WD_ST_CNT_d, bits 31:24 (R377). -/
def WD_ST_CNT_abandon (n : Nat) : Field := ⟨0x20010214 + 0x10 * n, 24, 8⟩
/-- Field lapse of WD_ST_CNT_d, bits 23:16 (R377). -/
def WD_ST_CNT_lapse (n : Nat) : Field := ⟨0x20010214 + 0x10 * n, 16, 8⟩
/-- Field fail of WD_ST_CNT_d, bits 15:8 (R377). -/
def WD_ST_CNT_fail (n : Nat) : Field := ⟨0x20010214 + 0x10 * n, 8, 8⟩
/-- Field kfail of WD_ST_CNT_d, bits 7:0 (R377). -/
def WD_ST_CNT_kfail (n : Nat) : Field := ⟨0x20010214 + 0x10 * n, 0, 8⟩
/-- Field rtc of DMA_CTRL, bits 1:1 (R403). -/
def DMA_CTRL_rtc : Field := ⟨0x20030000, 1, 1⟩
/-- Field en of DMA_CTRL, bits 0:0 (R403). -/
def DMA_CTRL_en : Field := ⟨0x20030000, 0, 1⟩
/-- Field sat of DMA_STATUS, bits 2:2 (R403). -/
def DMA_STATUS_sat : Field := ⟨0x20030004, 2, 1⟩
/-- Field rtc_act of DMA_STATUS, bits 1:1 (R403). -/
def DMA_STATUS_rtc_act : Field := ⟨0x20030004, 1, 1⟩
/-- Field regen of DMA_STATUS, bits 0:0 (R403). -/
def DMA_STATUS_regen : Field := ⟨0x20030004, 0, 1⟩
/-- Field all of DMA_CLR, bits 0:0 (R403). -/
def DMA_CLR_all : Field := ⟨0x20030008, 0, 1⟩
/-- Field irq of DMA_IRQ_i, bits 31:0 (R403). -/
def DMA_IRQ_irq (n : Nat) : Field := ⟨0x20030010 + 0x4 * n, 0, 32⟩
/-- Field busy of DMA_REGEN_STAT, bits 31:31 (R403). -/
def DMA_REGEN_STAT_busy : Field := ⟨0x20030030, 31, 1⟩
/-- Field depth of DMA_REGEN_STAT, bits 20:16 (R403). -/
def DMA_REGEN_STAT_depth : Field := ⟨0x20030030, 16, 5⟩
/-- Field ovf of DMA_REGEN_STAT, bits 15:8 (R403). -/
def DMA_REGEN_STAT_ovf : Field := ⟨0x20030030, 8, 8⟩
/-- Field fails of DMA_REGEN_STAT, bits 7:0 (R403). -/
def DMA_REGEN_STAT_fails : Field := ⟨0x20030030, 0, 8⟩
/-- Field vp of DMA_CH_CFG_k, bits 31:30 (R403). -/
def DMA_CH_CFG_vp (n : Nat) : Field := ⟨0x20031000 + 0x40 * n, 30, 2⟩
/-- Field irq of DMA_CH_CFG_k, bits 29:29 (R403). -/
def DMA_CH_CFG_irq (n : Nat) : Field := ⟨0x20031000 + 0x40 * n, 29, 1⟩
/-- Field prio of DMA_CH_CFG_k, bits 25:24 (R403). -/
def DMA_CH_CFG_prio (n : Nat) : Field := ⟨0x20031000 + 0x40 * n, 24, 2⟩
/-- Field bsz of DMA_CH_CFG_k, bits 18:16 (R403). -/
def DMA_CH_CFG_bsz (n : Nat) : Field := ⟨0x20031000 + 0x40 * n, 16, 3⟩
/-- Field req of DMA_CH_CFG_k, bits 6:0 (R403). -/
def DMA_CH_CFG_req (n : Nat) : Field := ⟨0x20031000 + 0x40 * n, 0, 7⟩
/-- Field abort of DMA_CH_CTRL_k, bits 1:1 (R403). -/
def DMA_CH_CTRL_abort (n : Nat) : Field := ⟨0x20031004 + 0x40 * n, 1, 1⟩
/-- Field req of DMA_CH_CTRL_k, bits 0:0 (R403). -/
def DMA_CH_CTRL_req (n : Nat) : Field := ⟨0x20031004 + 0x40 * n, 0, 1⟩
/-- Field active of DMA_CH_STAT_k, bits 31:31 (R403). -/
def DMA_CH_STAT_active (n : Nat) : Field := ⟨0x20031008 + 0x40 * n, 31, 1⟩
/-- Field armed of DMA_CH_STAT_k, bits 30:30 (R403). -/
def DMA_CH_STAT_armed (n : Nat) : Field := ⟨0x20031008 + 0x40 * n, 30, 1⟩
/-- Field eoc of DMA_CH_STAT_k, bits 29:29 (R403). -/
def DMA_CH_STAT_eoc (n : Nat) : Field := ⟨0x20031008 + 0x40 * n, 29, 1⟩
/-- Field err of DMA_CH_STAT_k, bits 28:28 (R403). -/
def DMA_CH_STAT_err (n : Nat) : Field := ⟨0x20031008 + 0x40 * n, 28, 1⟩
/-- Field swait of DMA_CH_STAT_k, bits 27:27 (R403). -/
def DMA_CH_STAT_swait (n : Nat) : Field := ⟨0x20031008 + 0x40 * n, 27, 1⟩
/-- Field wst of DMA_CH_STAT_k, bits 25:24 (R403). -/
def DMA_CH_STAT_wst (n : Nat) : Field := ⟨0x20031008 + 0x40 * n, 24, 2⟩
/-- Field pend of DMA_CH_STAT_k, bits 19:16 (R403). -/
def DMA_CH_STAT_pend (n : Nat) : Field := ⟨0x20031008 + 0x40 * n, 16, 4⟩
/-- Field ovf of DMA_CH_STAT_k, bits 15:8 (R403). -/
def DMA_CH_STAT_ovf (n : Nat) : Field := ⟨0x20031008 + 0x40 * n, 8, 8⟩
/-- Field errs of DMA_CH_STAT_k, bits 7:0 (R403). -/
def DMA_CH_STAT_errs (n : Nat) : Field := ⟨0x20031008 + 0x40 * n, 0, 8⟩
/-- Field status of DMA_CH_ERR_k, bits 31:24 (R403). -/
def DMA_CH_ERR_status (n : Nat) : Field := ⟨0x2003100c + 0x40 * n, 24, 8⟩
/-- Field index of DMA_CH_ERR_k, bits 15:0 (R403). -/
def DMA_CH_ERR_index (n : Nat) : Field := ⟨0x2003100c + 0x40 * n, 0, 16⟩
/-- Field arm of DMA_CH_NEXT_k, bits 0:0 (R403). -/
def DMA_CH_NEXT_arm (n : Nat) : Field := ⟨0x20031010 + 0x40 * n, 0, 1⟩
/-- Field index of DMA_CH_CUR_k, bits 63:48 (R403). -/
def DMA_CH_CUR_index (n : Nat) : Field := ⟨0x20031018 + 0x40 * n + 4, 16, 16⟩
/-- Field count of DMA_CH_CNT_k, bits 31:0 (R403). -/
def DMA_CH_CNT_count (n : Nat) : Field := ⟨0x20031020 + 0x40 * n, 0, 32⟩
/-- Field off of DMA_REGEN_SRC_r, bits 31:0 (R403). -/
def DMA_REGEN_SRC_off (n : Nat) : Field := ⟨0x20033008 + 0x20 * n, 0, 32⟩
/-- Field valid of DMA_REGEN_LEN_r, bits 31:31 (R403). -/
def DMA_REGEN_LEN_valid (n : Nat) : Field := ⟨0x2003300c + 0x20 * n, 31, 1⟩
/-- Field len of DMA_REGEN_LEN_r, bits 23:0 (R403). -/
def DMA_REGEN_LEN_len (n : Nat) : Field := ⟨0x2003300c + 0x20 * n, 0, 24⟩
/-- Field fail of DMA_REGEN_ST_r, bits 31:31 (R403). -/
def DMA_REGEN_ST_fail (n : Nat) : Field := ⟨0x20033018 + 0x20 * n, 31, 1⟩
/-- Field units of DMA_REGEN_ST_r, bits 15:0 (R403). -/
def DMA_REGEN_ST_units (n : Nat) : Field := ⟨0x20033018 + 0x20 * n, 0, 16⟩
/-- Field sat of CRC_STATUS, bits 0:0 (R404). -/
def CRC_STATUS_sat : Field := ⟨0x20040000, 0, 1⟩
/-- Field all of CRC_CLR, bits 0:0 (R404). -/
def CRC_CLR_all : Field := ⟨0x20040004, 0, 1⟩
/-- Field go of CRC_SCAN_CTRL_u, bits 31:31 (R404). -/
def CRC_SCAN_CTRL_go (n : Nat) : Field := ⟨0x20040100 + 0x20 * n, 31, 1⟩
/-- Field mode of CRC_SCAN_CTRL_u, bits 30:30 (R404). -/
def CRC_SCAN_CTRL_mode (n : Nat) : Field := ⟨0x20040100 + 0x20 * n, 30, 1⟩
/-- Field cmp of CRC_SCAN_CTRL_u, bits 29:29 (R404). -/
def CRC_SCAN_CTRL_cmp (n : Nat) : Field := ⟨0x20040100 + 0x20 * n, 29, 1⟩
/-- Field entry of CRC_SCAN_CTRL_u, bits 21:16 (R404). -/
def CRC_SCAN_CTRL_entry (n : Nat) : Field := ⟨0x20040100 + 0x20 * n, 16, 6⟩
/-- Field busy of CRC_SCAN_STAT_u, bits 31:31 (R404). -/
def CRC_SCAN_STAT_busy (n : Nat) : Field := ⟨0x20040104 + 0x20 * n, 31, 1⟩
/-- Field wst of CRC_SCAN_STAT_u, bits 30:30 (R404). -/
def CRC_SCAN_STAT_wst (n : Nat) : Field := ⟨0x20040104 + 0x20 * n, 30, 1⟩
/-- Field st of CRC_SCAN_STAT_u, bits 23:16 (R404). -/
def CRC_SCAN_STAT_st (n : Nat) : Field := ⟨0x20040104 + 0x20 * n, 16, 8⟩
/-- Field mism of CRC_SCAN_STAT_u, bits 15:0 (R404). -/
def CRC_SCAN_STAT_mism (n : Nat) : Field := ⟨0x20040104 + 0x20 * n, 0, 16⟩
/-- Field len of CRC_SCAN_LEN_u, bits 31:0 (R404). -/
def CRC_SCAN_LEN_len (n : Nat) : Field := ⟨0x20040110 + 0x20 * n, 0, 32⟩
/-- Field exp of CRC_SCAN_EXP_u, bits 31:0 (R404). -/
def CRC_SCAN_EXP_exp (n : Nat) : Field := ⟨0x20040114 + 0x20 * n, 0, 32⟩
/-- Field res of CRC_SCAN_RES_u, bits 31:0 (R404). -/
def CRC_SCAN_RES_res (n : Nat) : Field := ⟨0x20040118 + 0x20 * n, 0, 32⟩
/-- Field refin of CRC_SNP_CFG_s, bits 31:31 (R404). -/
def CRC_SNP_CFG_refin (n : Nat) : Field := ⟨0x20040400 + 0x40 * n, 31, 1⟩
/-- Field refout of CRC_SNP_CFG_s, bits 30:30 (R404). -/
def CRC_SNP_CFG_refout (n : Nat) : Field := ⟨0x20040400 + 0x40 * n, 30, 1⟩
/-- Field inv of CRC_SNP_CFG_s, bits 29:29 (R404). -/
def CRC_SNP_CFG_inv (n : Nat) : Field := ⟨0x20040400 + 0x40 * n, 29, 1⟩
/-- Field ord of CRC_SNP_CFG_s, bits 28:28 (R404). -/
def CRC_SNP_CFG_ord (n : Nat) : Field := ⟨0x20040400 + 0x40 * n, 28, 1⟩
/-- Field w of CRC_SNP_CFG_s, bits 22:16 (R404). -/
def CRC_SNP_CFG_w (n : Nat) : Field := ⟨0x20040400 + 0x40 * n, 16, 7⟩
/-- Field busy of CRC_SNP_STAT_s, bits 31:31 (R404). -/
def CRC_SNP_STAT_busy (n : Nat) : Field := ⟨0x20040404 + 0x40 * n, 31, 1⟩
/-- Field wst of CRC_SNP_STAT_s, bits 30:30 (R404). -/
def CRC_SNP_STAT_wst (n : Nat) : Field := ⟨0x20040404 + 0x40 * n, 30, 1⟩
/-- Field match of CRC_SNP_STAT_s, bits 29:29 (R404). -/
def CRC_SNP_STAT_match (n : Nat) : Field := ⟨0x20040404 + 0x40 * n, 29, 1⟩
/-- Field ch of CRC_SNP_STAT_s, bits 21:16 (R404). -/
def CRC_SNP_STAT_ch (n : Nat) : Field := ⟨0x20040404 + 0x40 * n, 16, 6⟩
/-- Field mism of CRC_SNP_STAT_s, bits 15:0 (R404). -/
def CRC_SNP_STAT_mism (n : Nat) : Field := ⟨0x20040404 + 0x40 * n, 0, 16⟩
/-- Field gm of TM_CTRL, bits 2:2 (R419). -/
def TM_CTRL_gm : Field := ⟨0x20020000, 2, 1⟩
/-- Field back of TM_CTRL, bits 1:1 (R419). -/
def TM_CTRL_back : Field := ⟨0x20020000, 1, 1⟩
/-- Field servo_en of TM_CTRL, bits 0:0 (R419). -/
def TM_CTRL_servo_en : Field := ⟨0x20020000, 0, 1⟩
/-- Field lock of TM_STATUS, bits 31:31 (R419). -/
def TM_STATUS_lock : Field := ⟨0x20020004, 31, 1⟩
/-- Field holdover of TM_STATUS, bits 30:30 (R419). -/
def TM_STATUS_holdover : Field := ⟨0x20020004, 30, 1⟩
/-- Field big of TM_STATUS, bits 29:29 (R419). -/
def TM_STATUS_big : Field := ⟨0x20020004, 29, 1⟩
/-- Field clamp of TM_STATUS, bits 28:28 (R419). -/
def TM_STATUS_clamp : Field := ⟨0x20020004, 28, 1⟩
/-- Field stepped of TM_STATUS, bits 27:27 (R419). -/
def TM_STATUS_stepped : Field := ⟨0x20020004, 27, 1⟩
/-- Field sat of TM_STATUS, bits 26:26 (R419). -/
def TM_STATUS_sat : Field := ⟨0x20020004, 26, 1⟩
/-- Field ets of TM_STATUS, bits 3:0 (R419). -/
def TM_STATUS_ets : Field := ⟨0x20020004, 0, 4⟩
/-- Field all of TM_CLR, bits 0:0 (R419). -/
def TM_CLR_all : Field := ⟨0x20020008, 0, 1⟩
/-- Field frac of TM_FRAC, bits 31:0 (R419). -/
def TM_FRAC_frac : Field := ⟨0x20020018, 0, 32⟩
/-- Field rate of TM_RATE, bits 31:0 (R419). -/
def TM_RATE_rate : Field := ⟨0x20020028, 0, 32⟩
/-- Field kp of TM_SERVO, bits 31:16 (R419). -/
def TM_SERVO_kp : Field := ⟨0x20020038, 16, 16⟩
/-- Field ki of TM_SERVO, bits 15:0 (R419). -/
def TM_SERVO_ki : Field := ⟨0x20020038, 0, 16⟩
/-- Field big_us of TM_LIMIT, bits 31:24 (R419). -/
def TM_LIMIT_big_us : Field := ⟨0x2002003c, 24, 8⟩
/-- Field lock_ns of TM_LIMIT, bits 23:12 (R419). -/
def TM_LIMIT_lock_ns : Field := ⟨0x2002003c, 12, 12⟩
/-- Field loss_ms of TM_LIMIT, bits 11:0 (R419). -/
def TM_LIMIT_loss_ms : Field := ⟨0x2002003c, 0, 12⟩
/-- Field steps of TM_CNT, bits 31:24 (R419). -/
def TM_CNT_steps : Field := ⟨0x20020050, 24, 8⟩
/-- Field big of TM_CNT, bits 23:16 (R419). -/
def TM_CNT_big : Field := ⟨0x20020050, 16, 8⟩
/-- Field loss of TM_CNT, bits 15:8 (R419). -/
def TM_CNT_loss : Field := ⟨0x20020050, 8, 8⟩
/-- Field resync of TM_CNT, bits 7:0 (R419). -/
def TM_CNT_resync : Field := ⟨0x20020050, 0, 8⟩
/-- Field ns of TM_ETH_COMP_x, bits 15:0 (R419). -/
def TM_ETH_COMP_ns (n : Nat) : Field := ⟨0x20020060 + 0x4 * n, 0, 16⟩
/-- Field valid of TM_ETS_ID_x, bits 31:31 (R419). -/
def TM_ETS_ID_valid (n : Nat) : Field := ⟨0x20020080 + 0x10 * n, 31, 1⟩
/-- Field msg of TM_ETS_ID_x, bits 27:24 (R419). -/
def TM_ETS_ID_msg (n : Nat) : Field := ⟨0x20020080 + 0x10 * n, 24, 4⟩
/-- Field ovf of TM_ETS_ID_x, bits 23:16 (R419). -/
def TM_ETS_ID_ovf (n : Nat) : Field := ⟨0x20020080 + 0x10 * n, 16, 8⟩
/-- Field seq of TM_ETS_ID_x, bits 15:0 (R419). -/
def TM_ETS_ID_seq (n : Nat) : Field := ⟨0x20020080 + 0x10 * n, 0, 16⟩
/-- Field ns of TM_CSI_COMP_p, bits 15:0 (R419). -/
def TM_CSI_COMP_ns (n : Nat) : Field := ⟨0x20020100 + 0x4 * n, 0, 16⟩
/-- Field enb of ETH_CTRL, bits 1:1 (R436). -/
def ETH_CTRL_enb : Field := ⟨0x200b0000, 1, 1⟩
/-- Field ena of ETH_CTRL, bits 0:0 (R436). -/
def ETH_CTRL_ena : Field := ⟨0x200b0000, 0, 1⟩
/-- Field sat of ETH_STATUS, bits 2:2 (R436). -/
def ETH_STATUS_sat : Field := ⟨0x200b0004, 2, 1⟩
/-- Field upb of ETH_STATUS, bits 1:1 (R436). -/
def ETH_STATUS_upb : Field := ⟨0x200b0004, 1, 1⟩
/-- Field upa of ETH_STATUS, bits 0:0 (R436). -/
def ETH_STATUS_upa : Field := ⟨0x200b0004, 0, 1⟩
/-- Field all of ETH_CLR, bits 0:0 (R436). -/
def ETH_CLR_all : Field := ⟨0x200b0008, 0, 1⟩
/-- Field id of ETH_SRC, bits 15:0 (R436). -/
def ETH_SRC_id : Field := ⟨0x200b000c, 0, 16⟩
/-- Field tag of ETH_VLAN, bits 31:31 (R436). -/
def ETH_VLAN_tag : Field := ⟨0x200b0018, 31, 1⟩
/-- Field untag of ETH_VLAN, bits 30:30 (R436). -/
def ETH_VLAN_untag : Field := ⟨0x200b0018, 30, 1⟩
/-- Field pcp of ETH_VLAN, bits 14:12 (R436). -/
def ETH_VLAN_pcp : Field := ⟨0x200b0018, 12, 3⟩
/-- Field vid of ETH_VLAN, bits 11:0 (R436). -/
def ETH_VLAN_vid : Field := ⟨0x200b0018, 0, 12⟩
/-- Field seq of ETH_TXSEQ, bits 31:0 (R436). -/
def ETH_TXSEQ_seq : Field := ⟨0x200b001c, 0, 32⟩
/-- Field cmp_us of ETH_RXCFG, bits 31:16 (R436). -/
def ETH_RXCFG_cmp_us : Field := ⟨0x200b0020, 16, 16⟩
/-- Field size of ETH_RXCFG, bits 3:0 (R436). -/
def ETH_RXCFG_size : Field := ⟨0x200b0020, 0, 4⟩
/-- Field wr of ETH_RXCNT, bits 11:0 (R436). -/
def ETH_RXCNT_wr : Field := ⟨0x200b0030, 0, 12⟩
/-- Field rd of ETH_RXRD, bits 11:0 (R436). -/
def ETH_RXRD_rd : Field := ⟨0x200b0034, 0, 12⟩
/-- Field mism of ETH_CMPCNT, bits 31:24 (R436). -/
def ETH_CMPCNT_mism : Field := ⟨0x200b0038, 24, 8⟩
/-- Field single of ETH_CMPCNT, bits 23:16 (R436). -/
def ETH_CMPCNT_single : Field := ⟨0x200b0038, 16, 8⟩
/-- Field stale of ETH_CMPCNT, bits 15:8 (R436). -/
def ETH_CMPCNT_stale : Field := ⟨0x200b0038, 8, 8⟩
/-- Field ovf of ETH_CMPCNT, bits 7:0 (R436). -/
def ETH_CMPCNT_ovf : Field := ⟨0x200b0038, 0, 8⟩
/-- Field min of ETH_CFG_x, bits 1:0 (R436). -/
def ETH_CFG_min (n : Nat) : Field := ⟨0x200b0108 + 0x20 * n, 0, 2⟩
/-- Field up of ETH_STAT_x, bits 31:31 (R436). -/
def ETH_STAT_up (n : Nat) : Field := ⟨0x200b010c + 0x20 * n, 31, 1⟩
/-- Field rate of ETH_STAT_x, bits 30:29 (R436). -/
def ETH_STAT_rate (n : Nat) : Field := ⟨0x200b010c + 0x20 * n, 29, 2⟩
/-- Field rchg of ETH_STAT_x, bits 15:0 (R436). -/
def ETH_STAT_rchg (n : Nat) : Field := ⟨0x200b010c + 0x20 * n, 0, 16⟩
/-- Field fcs of ETH_ERR0_x, bits 31:16 (R436). -/
def ETH_ERR0_fcs (n : Nat) : Field := ⟨0x200b0110 + 0x20 * n, 16, 16⟩
/-- Field drop of ETH_ERR0_x, bits 15:0 (R436). -/
def ETH_ERR0_drop (n : Nat) : Field := ⟨0x200b0110 + 0x20 * n, 0, 16⟩
/-- Field late of ETH_ERR1_x, bits 31:24 (R436). -/
def ETH_ERR1_late (n : Nat) : Field := ⟨0x200b0114 + 0x20 * n, 24, 8⟩
/-- Field txdown of ETH_ERR1_x, bits 23:16 (R436). -/
def ETH_ERR1_txdown (n : Nat) : Field := ⟨0x200b0114 + 0x20 * n, 16, 8⟩
/-- Field mdrop of ETH_ERR1_x, bits 15:8 (R436). -/
def ETH_ERR1_mdrop (n : Nat) : Field := ⟨0x200b0114 + 0x20 * n, 8, 8⟩
/-- Field loss of ETH_ERR1_x, bits 7:0 (R436). -/
def ETH_ERR1_loss (n : Nat) : Field := ⟨0x200b0114 + 0x20 * n, 0, 8⟩
/-- Field en of ETH_PEER_k, bits 31:31 (R436). -/
def ETH_PEER_en (n : Nat) : Field := ⟨0x200b0200 + 0x4 * n, 31, 1⟩
/-- Field tmo_ms of ETH_PEER_k, bits 27:16 (R436). -/
def ETH_PEER_tmo_ms (n : Nat) : Field := ⟨0x200b0200 + 0x4 * n, 16, 12⟩
/-- Field id of ETH_PEER_k, bits 15:0 (R436). -/
def ETH_PEER_id (n : Nat) : Field := ⟨0x200b0200 + 0x4 * n, 0, 16⟩
/-- Field en of I3C_T_CFG, bits 31:31 (R437). -/
def I3C_T_CFG_en : Field := ⟨0x200c0000, 31, 1⟩
/-- Field ddr of I3C_T_CFG, bits 30:30 (R437). -/
def I3C_T_CFG_ddr : Field := ⟨0x200c0000, 30, 1⟩
/-- Field sa of I3C_T_CFG, bits 6:0 (R437). -/
def I3C_T_CFG_sa : Field := ⟨0x200c0000, 0, 7⟩
/-- Field dav of I3C_T_STAT, bits 31:31 (R437). -/
def I3C_T_STAT_dav : Field := ⟨0x200c0004, 31, 1⟩
/-- Field da of I3C_T_STAT, bits 30:24 (R437). -/
def I3C_T_STAT_da : Field := ⟨0x200c0004, 24, 7⟩
/-- Field ibien of I3C_T_STAT, bits 23:23 (R437). -/
def I3C_T_STAT_ibien : Field := ⟨0x200c0004, 23, 1⟩
/-- Field mdb of I3C_T_STAT, bits 7:0 (R437). -/
def I3C_T_STAT_mdb : Field := ⟨0x200c0004, 0, 8⟩
/-- Field proto of I3C_T_ERR, bits 31:16 (R437). -/
def I3C_T_ERR_proto : Field := ⟨0x200c0008, 16, 16⟩
/-- Field ibinack of I3C_T_ERR, bits 15:0 (R437). -/
def I3C_T_ERR_ibinack : Field := ⟨0x200c0008, 0, 16⟩
/-- Field en of I3C_C_CFG, bits 31:31 (R437). -/
def I3C_C_CFG_en : Field := ⟨0x200c0020, 31, 1⟩
/-- Field fm of I3C_C_CFG, bits 30:30 (R437). -/
def I3C_C_CFG_fm : Field := ⟨0x200c0020, 30, 1⟩
/-- Field sdr of I3C_C_CFG, bits 3:0 (R437). -/
def I3C_C_CFG_sdr : Field := ⟨0x200c0020, 0, 4⟩
/-- Field ccc of I3C_C_CMD, bits 31:24 (R437). -/
def I3C_C_CMD_ccc : Field := ⟨0x200c0024, 24, 8⟩
/-- Field pcc of I3C_C_CMD, bits 23:23 (R437). -/
def I3C_C_CMD_pcc : Field := ⟨0x200c0024, 23, 1⟩
/-- Field rd of I3C_C_CMD, bits 22:22 (R437). -/
def I3C_C_CMD_rd : Field := ⟨0x200c0024, 22, 1⟩
/-- Field len of I3C_C_CMD, bits 14:8 (R437). -/
def I3C_C_CMD_len : Field := ⟨0x200c0024, 8, 7⟩
/-- Field addr of I3C_C_CMD, bits 6:0 (R437). -/
def I3C_C_CMD_addr : Field := ⟨0x200c0024, 0, 7⟩
/-- Field busy of I3C_C_STAT, bits 31:31 (R437). -/
def I3C_C_STAT_busy : Field := ⟨0x200c0028, 31, 1⟩
/-- Field st of I3C_C_STAT, bits 23:16 (R437). -/
def I3C_C_STAT_st : Field := ⟨0x200c0028, 16, 8⟩
/-- Field ibi of I3C_C_STAT, bits 15:8 (R437). -/
def I3C_C_STAT_ibi : Field := ⟨0x200c0028, 8, 8⟩
/-- Field rxlen of I3C_C_STAT, bits 7:0 (R437). -/
def I3C_C_STAT_rxlen : Field := ⟨0x200c0028, 0, 8⟩
/-- Field valid of I3C_C_IBI, bits 31:31 (R437). -/
def I3C_C_IBI_valid : Field := ⟨0x200c0030, 31, 1⟩
/-- Field addr of I3C_C_IBI, bits 30:24 (R437). -/
def I3C_C_IBI_addr : Field := ⟨0x200c0030, 24, 7⟩
/-- Field data of I3C_C_IBI, bits 23:0 (R437). -/
def I3C_C_IBI_data : Field := ⟨0x200c0030, 0, 24⟩
/-- Field data of I3C_C_DATA, bits 31:0 (R437). -/
def I3C_C_DATA_data (n : Nat) : Field := ⟨0x200c0040 + 0x4 * n, 0, 32⟩
/-- Field en of XSP_STRIPE, bits 31:31 (R438). -/
def XSP_STRIPE_en : Field := ⟨0x200d0000, 31, 1⟩
/-- Field nostripe of XSP_STATUS, bits 31:31 (R438). -/
def XSP_STATUS_nostripe : Field := ⟨0x200d0004, 31, 1⟩
/-- Field sat of XSP_STATUS, bits 0:0 (R438). -/
def XSP_STATUS_sat : Field := ⟨0x200d0004, 0, 1⟩
/-- Field all of XSP_CLR, bits 0:0 (R438). -/
def XSP_CLR_all : Field := ⟨0x200d0008, 0, 1⟩
/-- Field ppb of XSP_NAND, bits 27:24 (R438). -/
def XSP_NAND_ppb : Field := ⟨0x200d0010, 24, 4⟩
/-- Field blocks of XSP_NAND, bits 15:0 (R438). -/
def XSP_NAND_blocks : Field := ⟨0x200d0010, 0, 16⟩
/-- Field en of XSP_CFG_x, bits 31:31 (R438). -/
def XSP_CFG_en (n : Nat) : Field := ⟨0x200d0100 + 0x20 * n, 31, 1⟩
/-- Field mode of XSP_CFG_x, bits 30:30 (R438). -/
def XSP_CFG_mode (n : Nat) : Field := ⟨0x200d0100 + 0x20 * n, 30, 1⟩
/-- Field cs1 of XSP_CFG_x, bits 29:29 (R438). -/
def XSP_CFG_cs1 (n : Nat) : Field := ⟨0x200d0100 + 0x20 * n, 29, 1⟩
/-- Field freq of XSP_CFG_x, bits 26:24 (R438). -/
def XSP_CFG_freq (n : Nat) : Field := ⟨0x200d0100 + 0x20 * n, 24, 3⟩
/-- Field dummy of XSP_CFG_x, bits 23:19 (R438). -/
def XSP_CFG_dummy (n : Nat) : Field := ⟨0x200d0100 + 0x20 * n, 19, 5⟩
/-- Field tmo_ms of XSP_CFG_x, bits 15:0 (R438). -/
def XSP_CFG_tmo_ms (n : Nat) : Field := ⟨0x200d0100 + 0x20 * n, 0, 16⟩
/-- Field op of XSP_CMD_x, bits 63:56 (R438). -/
def XSP_CMD_op (n : Nat) : Field := ⟨0x200d0108 + 0x20 * n + 4, 24, 8⟩
/-- Field kind of XSP_CMD_x, bits 55:54 (R438). -/
def XSP_CMD_kind (n : Nat) : Field := ⟨0x200d0108 + 0x20 * n + 4, 22, 2⟩
/-- Field cs of XSP_CMD_x, bits 53:53 (R438). -/
def XSP_CMD_cs (n : Nat) : Field := ⟨0x200d0108 + 0x20 * n + 4, 21, 1⟩
/-- Field addr of XSP_CMD_x, bits 31:0 (R438). -/
def XSP_CMD_addr (n : Nat) : Field := ⟨0x200d0108 + 0x20 * n, 0, 32⟩
/-- Field len of XSP_LEN_x, bits 31:0 (R438). -/
def XSP_LEN_len (n : Nat) : Field := ⟨0x200d0110 + 0x20 * n, 0, 32⟩
/-- Field busy of XSP_STAT_x, bits 31:31 (R438). -/
def XSP_STAT_busy (n : Nat) : Field := ⟨0x200d0114 + 0x20 * n, 31, 1⟩
/-- Field st of XSP_STAT_x, bits 23:16 (R438). -/
def XSP_STAT_st (n : Nat) : Field := ⟨0x200d0114 + 0x20 * n, 16, 8⟩
/-- Field bad of XSP_STAT_x, bits 15:0 (R438). -/
def XSP_STAT_bad (n : Nat) : Field := ⟨0x200d0114 + 0x20 * n, 0, 16⟩
/-- Field tmo of XSP_ERR_x, bits 31:24 (R438). -/
def XSP_ERR_tmo (n : Nat) : Field := ⟨0x200d0118 + 0x20 * n, 24, 8⟩
/-- Field prog of XSP_ERR_x, bits 23:16 (R438). -/
def XSP_ERR_prog (n : Nat) : Field := ⟨0x200d0118 + 0x20 * n, 16, 8⟩
/-- Field erase of XSP_ERR_x, bits 15:8 (R438). -/
def XSP_ERR_erase (n : Nat) : Field := ⟨0x200d0118 + 0x20 * n, 8, 8⟩
/-- Field ecc of XSP_ERR_x, bits 7:0 (R438). -/
def XSP_ERR_ecc (n : Nat) : Field := ⟨0x200d0118 + 0x20 * n, 0, 8⟩
/-- Field en of ML_CTRL, bits 0:0 (R456). -/
def ML_CTRL_en : Field := ⟨0x200e0000, 0, 1⟩
/-- Field role of ML_STATUS, bits 31:30 (R456). -/
def ML_STATUS_role : Field := ⟨0x200e0004, 30, 2⟩
/-- Field link of ML_STATUS, bits 29:29 (R456). -/
def ML_STATUS_link : Field := ⟨0x200e0004, 29, 1⟩
/-- Field sync of ML_STATUS, bits 28:28 (R456). -/
def ML_STATUS_sync : Field := ⟨0x200e0004, 28, 1⟩
/-- Field hb_lost of ML_STATUS, bits 27:27 (R456). -/
def ML_STATUS_hb_lost : Field := ⟨0x200e0004, 27, 1⟩
/-- Field pfn of ML_STATUS, bits 26:26 (R456). -/
def ML_STATUS_pfn : Field := ⟨0x200e0004, 26, 1⟩
/-- Field conflict of ML_STATUS, bits 25:25 (R456). -/
def ML_STATUS_conflict : Field := ⟨0x200e0004, 25, 1⟩
/-- Field lag of ML_STATUS, bits 24:24 (R456). -/
def ML_STATUS_lag : Field := ⟨0x200e0004, 24, 1⟩
/-- Field sat of ML_STATUS, bits 23:23 (R456). -/
def ML_STATUS_sat : Field := ⟨0x200e0004, 23, 1⟩
/-- Field st of ML_STATUS, bits 7:0 (R456). -/
def ML_STATUS_st : Field := ⟨0x200e0004, 0, 8⟩
/-- Field all of ML_CLR, bits 0:0 (R456). -/
def ML_CLR_all : Field := ⟨0x200e0008, 0, 1⟩
/-- Field op of ML_CMD, bits 3:0 (R456). -/
def ML_CMD_op : Field := ⟨0x200e000c, 0, 4⟩
/-- Field tsrc of ML_CFG, bits 31:31 (R456). -/
def ML_CFG_tsrc : Field := ⟨0x200e0010, 31, 1⟩
/-- Field wait_ms of ML_CFG, bits 15:0 (R456). -/
def ML_CFG_wait_ms : Field := ⟨0x200e0010, 0, 16⟩
/-- Field ns of ML_RTT, bits 15:0 (R456). -/
def ML_RTT_ns : Field := ⟨0x200e0014, 0, 16⟩
/-- Field resend of ML_CNT0, bits 31:16 (R456). -/
def ML_CNT0_resend : Field := ⟨0x200e0018, 16, 16⟩
/-- Field crc of ML_CNT0, bits 15:0 (R456). -/
def ML_CNT0_crc : Field := ⟨0x200e0018, 0, 16⟩
/-- Field takeover of ML_CNT1, bits 31:24 (R456). -/
def ML_CNT1_takeover : Field := ⟨0x200e001c, 24, 8⟩
/-- Field handover of ML_CNT1, bits 23:16 (R456). -/
def ML_CNT1_handover : Field := ⟨0x200e001c, 16, 8⟩
/-- Field align of ML_CNT1, bits 15:8 (R456). -/
def ML_CNT1_align : Field := ⟨0x200e001c, 8, 8⟩
/-- Field hbmiss of ML_CNT1, bits 7:0 (R456). -/
def ML_CNT1_hbmiss : Field := ⟨0x200e001c, 0, 8⟩
/-- Field level of ML_PARTNER, bits 31:30 (R456). -/
def ML_PARTNER_level : Field := ⟨0x200e0028, 30, 2⟩
/-- Field role of ML_PARTNER, bits 29:28 (R456). -/
def ML_PARTNER_role : Field := ⟨0x200e0028, 28, 2⟩
/-- Field strap of ML_PARTNER, bits 27:27 (R456). -/
def ML_PARTNER_strap : Field := ⟨0x200e0028, 27, 1⟩
/-- Field id of ML_PARTNER, bits 15:0 (R456). -/
def ML_PARTNER_id : Field := ⟨0x200e0028, 0, 16⟩
/-- Field life of SEC_STATUS, bits 31:24 (R481). -/
def SEC_STATUS_life : Field := ⟨0x200f0000, 24, 8⟩
/-- Field rng of SEC_STATUS, bits 23:22 (R481). -/
def SEC_STATUS_rng : Field := ⟨0x200f0000, 22, 2⟩
/-- Field sat of SEC_STATUS, bits 21:21 (R481). -/
def SEC_STATUS_sat : Field := ⟨0x200f0000, 21, 1⟩
/-- Field all of SEC_CLR, bits 0:0 (R481). -/
def SEC_CLR_all : Field := ⟨0x200f0004, 0, 1⟩
/-- Field frames of SEC_KCFG, bits 15:0 (R481). -/
def SEC_KCFG_frames : Field := ⟨0x200f0008, 0, 16⟩
/-- Field op of SEC_KCMD, bits 31:28 (R481). -/
def SEC_KCMD_op : Field := ⟨0x200f000c, 28, 4⟩
/-- Field all of SEC_KCMD, bits 27:27 (R481). -/
def SEC_KCMD_all : Field := ⟨0x200f000c, 27, 1⟩
/-- Field ctx of SEC_KCMD, bits 9:0 (R481). -/
def SEC_KCMD_ctx : Field := ⟨0x200f000c, 0, 10⟩
/-- Field st of SEC_KSTAT, bits 31:24 (R481). -/
def SEC_KSTAT_st : Field := ⟨0x200f0010, 24, 8⟩
/-- Field vwrap of SEC_KSTAT, bits 23:16 (R481). -/
def SEC_KSTAT_vwrap : Field := ⟨0x200f0010, 16, 8⟩
/-- Field exh of SEC_KSTAT, bits 15:8 (R481). -/
def SEC_KSTAT_exh : Field := ⟨0x200f0010, 8, 8⟩
/-- Field kerr of SEC_KSTAT, bits 7:0 (R481). -/
def SEC_KSTAT_kerr : Field := ⟨0x200f0010, 0, 8⟩
/-- Field epoch of SEC_VEPOCH, bits 15:0 (R481). -/
def SEC_VEPOCH_epoch : Field := ⟨0x200f0014, 0, 16⟩
/-- Field idle_s of SEC_SESS, bits 15:0 (R481). -/
def SEC_SESS_idle_s : Field := ⟨0x200f0018, 0, 16⟩
/-- Field op of SEC_ACMD, bits 3:0 (R481). -/
def SEC_ACMD_op : Field := ⟨0x200f0020, 0, 4⟩
/-- Field epoch of SEC_ASTAT, bits 31:16 (R481). -/
def SEC_ASTAT_epoch : Field := ⟨0x200f0024, 16, 16⟩
/-- Field old_valid of SEC_ASTAT, bits 15:15 (R481). -/
def SEC_ASTAT_old_valid : Field := ⟨0x200f0024, 15, 1⟩
/-- Field sweep of SEC_ASTAT, bits 14:14 (R481). -/
def SEC_ASTAT_sweep : Field := ⟨0x200f0024, 14, 1⟩
/-- Field reads of SEC_ASTAT, bits 7:0 (R481). -/
def SEC_ASTAT_reads : Field := ⟨0x200f0024, 0, 8⟩
/-- Field go of SEC_AJOB, bits 31:31 (R481). -/
def SEC_AJOB_go : Field := ⟨0x200f0030, 31, 1⟩
/-- Field dir of SEC_AJOB, bits 30:30 (R481). -/
def SEC_AJOB_dir : Field := ⟨0x200f0030, 30, 1⟩
/-- Field st of SEC_AJOB, bits 7:0 (R481). -/
def SEC_AJOB_st : Field := ⟨0x200f0030, 0, 8⟩
/-- Field op of SEC_PROV_CMD, bits 31:28 (R481). -/
def SEC_PROV_CMD_op : Field := ⟨0x200f0040, 28, 4⟩
/-- Field field of SEC_PROV_CMD, bits 7:0 (R481). -/
def SEC_PROV_CMD_field : Field := ⟨0x200f0040, 0, 8⟩
/-- Field st of SEC_PROV_STAT, bits 31:24 (R481). -/
def SEC_PROV_STAT_st : Field := ⟨0x200f0044, 24, 8⟩
/-- Field data of SEC_PROV_DATA, bits 31:0 (R481). -/
def SEC_PROV_DATA_data (n : Nat) : Field := ⟨0x200f0080 + 0x4 * n, 0, 32⟩
/-- Field sat of SIO_STATUS, bits 0:0 (R509). -/
def SIO_STATUS_sat : Field := ⟨0x200a0000, 0, 1⟩
/-- Field all of SIO_CLR, bits 0:0 (R509). -/
def SIO_CLR_all : Field := ⟨0x200a0004, 0, 1⟩
/-- Field en of SIO_IN_CFG_i, bits 31:31 (R509). -/
def SIO_IN_CFG_en (n : Nat) : Field := ⟨0x200a0100 + 0x8 * n, 31, 1⟩
/-- Field mode of SIO_IN_CFG_i, bits 30:30 (R509). -/
def SIO_IN_CFG_mode (n : Nat) : Field := ⟨0x200a0100 + 0x8 * n, 30, 1⟩
/-- Field sout of SIO_IN_CFG_i, bits 27:24 (R509). -/
def SIO_IN_CFG_sout (n : Nat) : Field := ⟨0x200a0100 + 0x8 * n, 24, 4⟩
/-- Field filt of SIO_IN_CFG_i, bits 19:16 (R509). -/
def SIO_IN_CFG_filt (n : Nat) : Field := ⟨0x200a0100 + 0x8 * n, 16, 4⟩
/-- Field disc_ms of SIO_IN_CFG_i, bits 10:0 (R509). -/
def SIO_IN_CFG_disc_ms (n : Nat) : Field := ⟨0x200a0100 + 0x8 * n, 0, 11⟩
/-- Field a of SIO_IN_STAT_i, bits 31:31 (R509). -/
def SIO_IN_STAT_a (n : Nat) : Field := ⟨0x200a0104 + 0x8 * n, 31, 1⟩
/-- Field b of SIO_IN_STAT_i, bits 30:30 (R509). -/
def SIO_IN_STAT_b (n : Nat) : Field := ⟨0x200a0104 + 0x8 * n, 30, 1⟩
/-- Field state of SIO_IN_STAT_i, bits 29:28 (R509). -/
def SIO_IN_STAT_state (n : Nat) : Field := ⟨0x200a0104 + 0x8 * n, 28, 2⟩
/-- Field disc of SIO_IN_STAT_i, bits 15:0 (R509). -/
def SIO_IN_STAT_disc (n : Nat) : Field := ⟨0x200a0104 + 0x8 * n, 0, 16⟩
/-- Field en of SIO_OUT_CFG_o, bits 31:31 (R509). -/
def SIO_OUT_CFG_en (n : Nat) : Field := ⟨0x200a0200 + 0x10 * n, 31, 1⟩
/-- Field fsafe of SIO_OUT_CFG_o, bits 30:30 (R509). -/
def SIO_OUT_CFG_fsafe (n : Nat) : Field := ⟨0x200a0200 + 0x10 * n, 30, 1⟩
/-- Field comm of SIO_OUT_CFG_o, bits 29:29 (R509). -/
def SIO_OUT_CFG_comm (n : Nat) : Field := ⟨0x200a0200 + 0x10 * n, 29, 1⟩
/-- Field tp_us of SIO_OUT_CFG_o, bits 27:19 (R509). -/
def SIO_OUT_CFG_tp_us (n : Nat) : Field := ⟨0x200a0200 + 0x10 * n, 19, 9⟩
/-- Field rb_us of SIO_OUT_CFG_o, bits 18:12 (R509). -/
def SIO_OUT_CFG_rb_us (n : Nat) : Field := ⟨0x200a0200 + 0x10 * n, 12, 7⟩
/-- Field tp_ms of SIO_OUT_CFG_o, bits 11:0 (R509). -/
def SIO_OUT_CFG_tp_ms (n : Nat) : Field := ⟨0x200a0200 + 0x10 * n, 0, 12⟩
/-- Field rel of SIO_OUT_CTRL_o, bits 1:1 (R509). -/
def SIO_OUT_CTRL_rel (n : Nat) : Field := ⟨0x200a0204 + 0x10 * n, 1, 1⟩
/-- Field on of SIO_OUT_CTRL_o, bits 0:0 (R509). -/
def SIO_OUT_CTRL_on (n : Nat) : Field := ⟨0x200a0204 + 0x10 * n, 0, 1⟩
/-- Field drive of SIO_OUT_STAT_o, bits 31:31 (R509). -/
def SIO_OUT_STAT_drive (n : Nat) : Field := ⟨0x200a0208 + 0x10 * n, 31, 1⟩
/-- Field rb of SIO_OUT_STAT_o, bits 30:30 (R509). -/
def SIO_OUT_STAT_rb (n : Nat) : Field := ⟨0x200a0208 + 0x10 * n, 30, 1⟩
/-- Field latch of SIO_OUT_STAT_o, bits 29:29 (R509). -/
def SIO_OUT_STAT_latch (n : Nat) : Field := ⟨0x200a0208 + 0x10 * n, 29, 1⟩
/-- Field pulse of SIO_OUT_STAT_o, bits 28:28 (R509). -/
def SIO_OUT_STAT_pulse (n : Nat) : Field := ⟨0x200a0208 + 0x10 * n, 28, 1⟩
/-- Field hold of SIO_OUT_STAT_o, bits 27:24 (R509). -/
def SIO_OUT_STAT_hold (n : Nat) : Field := ⟨0x200a0208 + 0x10 * n, 24, 4⟩
/-- Field mism of SIO_OUT_STAT_o, bits 15:0 (R509). -/
def SIO_OUT_STAT_mism (n : Nat) : Field := ⟨0x200a0208 + 0x10 * n, 0, 16⟩
/-- Field op of SIO_ACC_CMD_a, bits 1:0 (R509). -/
def SIO_ACC_CMD_op (n : Nat) : Field := ⟨0x200a0300 + 0x8 * n, 0, 2⟩
/-- Field rst of SIO_ACC_STAT_a, bits 31:31 (R509). -/
def SIO_ACC_STAT_rst (n : Nat) : Field := ⟨0x200a0304 + 0x8 * n, 31, 1⟩
/-- Field pwr of SIO_ACC_STAT_a, bits 30:30 (R509). -/
def SIO_ACC_STAT_pwr (n : Nat) : Field := ⟨0x200a0304 + 0x8 * n, 30, 1⟩
/-- Field rrst of SIO_ACC_STAT_a, bits 29:29 (R509). -/
def SIO_ACC_STAT_rrst (n : Nat) : Field := ⟨0x200a0304 + 0x8 * n, 29, 1⟩
/-- Field rpwr of SIO_ACC_STAT_a, bits 28:28 (R509). -/
def SIO_ACC_STAT_rpwr (n : Nat) : Field := ⟨0x200a0304 + 0x8 * n, 28, 1⟩
/-- Field st of SIO_ACC_STAT_a, bits 27:24 (R509). -/
def SIO_ACC_STAT_st (n : Nat) : Field := ⟨0x200a0304 + 0x8 * n, 24, 4⟩
/-- Field mism of SIO_ACC_STAT_a, bits 7:0 (R509). -/
def SIO_ACC_STAT_mism (n : Nat) : Field := ⟨0x200a0304 + 0x8 * n, 0, 8⟩

end F

/-- A group of fault sources (R338): first and last number, name, default severity, reactions irq, block,
chip and FAULT_N by default, FAULT_N fixed (F*), a block reset target exists, standing. -/
structure SourceRow where
  first : Nat
  last : Nat
  name : String
  sev : Nat
  irq : Bool
  block : Bool
  chip : Bool
  fn : Bool
  fixed : Bool
  target : Bool
  standing : Bool
  deriving DecidableEq, Repr

/-- The sources of R338. -/
def sourceRows : List SourceRow := [
  ⟨0, 0, "BUS_DECODE", 3, true, false, false, false, false, false, false⟩,
  ⟨1, 1, "BUS_ALIGN", 3, true, false, false, false, false, false, false⟩,
  ⟨2, 2, "BUS_LOCKED", 4, true, false, false, false, false, false, false⟩,
  ⟨3, 3, "BUS_FALLOW", 4, true, false, false, false, false, false, false⟩,
  ⟨4, 4, "CORE_DOUBLE", 6, true, false, false, true, false, true, false⟩,
  ⟨5, 5, "SYS_SENTINEL", 7, false, false, false, true, true, false, true⟩,
  ⟨6, 6, "SYS_RET_ERR", 3, true, false, false, false, false, false, false⟩,
  ⟨7, 7, "SYS_PLL", 7, false, false, true, true, true, false, true⟩,
  ⟨8, 8, "SYS_THERM", 6, true, false, false, true, false, false, true⟩,
  ⟨9, 9, "SYS_VMON", 7, false, false, false, true, true, false, true⟩,
  ⟨10, 10, "FC_SELF", 7, false, false, false, true, true, false, true⟩,
  ⟨11, 11, "FC_RETIRE", 5, true, false, false, true, false, false, false⟩,
  ⟨16, 19, "VP_MISMATCH", 6, true, true, false, true, false, true, false⟩,
  ⟨20, 23, "CORE_REPLAY", 1, false, false, false, false, false, false, false⟩,
  ⟨24, 27, "CORE_REPLAY", 1, false, false, false, false, false, false, false⟩,
  ⟨28, 28, "WSRAM_DET", 4, true, false, false, false, false, false, false⟩,
  ⟨29, 29, "WROM_DET", 6, true, false, false, true, false, false, false⟩,
  ⟨30, 30, "TRACE_DET", 2, false, false, false, false, false, false, false⟩,
  ⟨32, 35, "CX_MEM_DET", 4, true, false, false, false, false, false, false⟩,
  ⟨36, 51, "G6_CHECK", 4, true, false, false, false, false, false, false⟩,
  ⟨52, 67, "G6_LINK", 2, false, false, false, false, false, false, false⟩,
  ⟨68, 71, "CX_RESIDUE", 2, false, false, false, false, false, false, false⟩,
  ⟨72, 75, "CX_DROOP_LONG", 4, true, false, false, false, false, false, false⟩,
  ⟨76, 79, "CX_PWR_SAFETY", 5, true, false, false, true, false, false, false⟩,
  ⟨80, 83, "D2D_WL", 2, false, false, false, false, false, false, false⟩,
  ⟨84, 87, "D2D_RING", 2, false, false, false, false, false, false, false⟩,
  ⟨88, 91, "CX_UNREACH", 7, true, false, false, true, true, false, true⟩,
  ⟨92, 95, "GS_NODE", 3, true, false, false, false, false, false, false⟩,
  ⟨96, 111, "FP_CIN_DAMAGE", 2, false, false, false, false, false, true, false⟩,
  ⟨112, 127, "FP_CIN_TIMEOUT", 4, true, false, false, false, false, true, false⟩] ++ [
  ⟨128, 143, "FP_STUCK", 5, true, false, false, true, false, true, false⟩,
  ⟨144, 159, "FP_RING", 4, true, false, false, false, false, false, false⟩,
  ⟨160, 167, "FP_FWD_OVER", 2, false, false, false, false, false, false, false⟩,
  ⟨168, 175, "FP_FWD_FAIL", 4, true, false, false, false, false, true, false⟩,
  ⟨180, 183, "EV_EIN_DAMAGE", 2, false, false, false, false, false, true, false⟩,
  ⟨184, 187, "EV_ORPHAN", 3, true, false, false, false, false, false, false⟩,
  ⟨188, 191, "EV_RING", 4, true, false, false, false, false, false, false⟩,
  ⟨192, 195, "EV_SILENT", 4, true, false, false, false, false, false, false⟩,
  ⟨196, 196, "VD_REJECT", 5, true, false, false, true, false, false, false⟩,
  ⟨197, 197, "CK_LATE", 4, true, false, false, false, false, false, false⟩,
  ⟨198, 198, "FB_MISSING", 5, true, false, false, true, false, false, false⟩,
  ⟨199, 199, "CK_INTERNAL", 4, true, false, false, false, false, false, false⟩,
  ⟨200, 208, "WD_EXPIRE", 7, true, false, false, true, false, false, false⟩,
  ⟨209, 217, "WD_EARLY", 6, true, false, false, true, false, false, false⟩,
  ⟨218, 233, "ST_LOGIC", 4, true, false, false, false, false, false, false⟩,
  ⟨234, 249, "ST_KAT", 5, true, false, false, false, false, false, false⟩,
  ⟨250, 253, "ST_LAPSE", 5, true, false, false, true, false, false, false⟩,
  ⟨256, 263, "DMA_POSTED", 4, true, false, false, false, false, false, false⟩,
  ⟨264, 264, "DMA_BUS", 3, true, false, false, false, false, false, false⟩,
  ⟨265, 276, "CRC_SCAN", 4, true, false, false, false, false, true, false⟩,
  ⟨277, 284, "CRC_SNOOP", 3, true, false, false, false, false, true, false⟩,
  ⟨285, 286, "ETH_LINK", 4, true, false, false, false, false, true, false⟩,
  ⟨287, 287, "ETH_CMP", 4, true, false, false, false, false, false, false⟩,
  ⟨288, 289, "ETH_TXLATE", 5, true, false, false, true, false, true, false⟩,
  ⟨290, 290, "I3C_ERR", 2, false, false, false, false, false, true, false⟩,
  ⟨291, 292, "XSP_ERR", 4, true, false, false, false, false, true, false⟩,
  ⟨293, 293, "ML_LINK", 4, true, false, false, false, false, true, false⟩,
  ⟨294, 294, "ML_HB", 5, true, false, false, true, false, false, false⟩,
  ⟨295, 295, "PARTNER_FAULT", 5, true, false, false, false, false, false, false⟩,
  ⟨296, 303, "SIO_DISC", 5, true, false, false, true, false, false, false⟩] ++ [
  ⟨304, 307, "SIO_READBACK", 6, true, false, false, true, false, false, false⟩,
  ⟨308, 311, "SIO_ACC", 5, true, false, false, true, false, false, false⟩,
  ⟨312, 312, "TM_SERVO", 3, true, false, false, false, false, false, false⟩,
  ⟨313, 313, "TM_GM_LOSS", 3, true, false, false, false, false, false, false⟩,
  ⟨314, 314, "SEC_AUTH", 5, true, false, false, true, false, false, false⟩,
  ⟨315, 315, "SEC_RNG", 6, true, false, false, true, false, false, false⟩,
  ⟨316, 316, "SEC_KEY", 6, true, false, false, true, false, false, false⟩,
  ⟨320, 383, "FW_n", 0, false, false, false, false, false, false, false⟩]

namespace Src

/-- Source BUS_DECODE (R338). -/
def BUS_DECODE : Nat := 0
/-- Source BUS_ALIGN (R338). -/
def BUS_ALIGN : Nat := 1
/-- Source BUS_LOCKED (R338). -/
def BUS_LOCKED : Nat := 2
/-- Source BUS_FALLOW (R338). -/
def BUS_FALLOW : Nat := 3
/-- Source CORE_DOUBLE (R338). -/
def CORE_DOUBLE : Nat := 4
/-- Source SYS_SENTINEL (R338). -/
def SYS_SENTINEL : Nat := 5
/-- Source SYS_RET_ERR (R338). -/
def SYS_RET_ERR : Nat := 6
/-- Source SYS_PLL (R338). -/
def SYS_PLL : Nat := 7
/-- Source SYS_THERM (R338). -/
def SYS_THERM : Nat := 8
/-- Source SYS_VMON (R338). -/
def SYS_VMON : Nat := 9
/-- Source FC_SELF (R338). -/
def FC_SELF : Nat := 10
/-- Source FC_RETIRE (R338). -/
def FC_RETIRE : Nat := 11
/-- Source VP_MISMATCH of instance `i` (R338). -/
def VP_MISMATCH (i : Nat) : Nat := 16 + i
/-- Source CORE_REPLAY of instance `i` (R338). -/
def CORE_REPLAY (i : Nat) : Nat := 20 + i
/-- Source WSRAM_DET (R338). -/
def WSRAM_DET : Nat := 28
/-- Source WROM_DET (R338). -/
def WROM_DET : Nat := 29
/-- Source TRACE_DET (R338). -/
def TRACE_DET : Nat := 30
/-- Source CX_MEM_DET of instance `i` (R338). -/
def CX_MEM_DET (i : Nat) : Nat := 32 + i
/-- Source G6_CHECK of instance `i` (R338). -/
def G6_CHECK (i : Nat) : Nat := 36 + i
/-- Source G6_LINK of instance `i` (R338). -/
def G6_LINK (i : Nat) : Nat := 52 + i
/-- Source CX_RESIDUE of instance `i` (R338). -/
def CX_RESIDUE (i : Nat) : Nat := 68 + i
/-- Source CX_DROOP_LONG of instance `i` (R338). -/
def CX_DROOP_LONG (i : Nat) : Nat := 72 + i
/-- Source CX_PWR_SAFETY of instance `i` (R338). -/
def CX_PWR_SAFETY (i : Nat) : Nat := 76 + i
/-- Source D2D_WL of instance `i` (R338). -/
def D2D_WL (i : Nat) : Nat := 80 + i
/-- Source D2D_RING of instance `i` (R338). -/
def D2D_RING (i : Nat) : Nat := 84 + i
/-- Source CX_UNREACH of instance `i` (R338). -/
def CX_UNREACH (i : Nat) : Nat := 88 + i
/-- Source GS_NODE of instance `i` (R338). -/
def GS_NODE (i : Nat) : Nat := 92 + i
/-- Source FP_CIN_DAMAGE of instance `i` (R338). -/
def FP_CIN_DAMAGE (i : Nat) : Nat := 96 + i
/-- Source FP_CIN_TIMEOUT of instance `i` (R338). -/
def FP_CIN_TIMEOUT (i : Nat) : Nat := 112 + i
/-- Source FP_STUCK of instance `i` (R338). -/
def FP_STUCK (i : Nat) : Nat := 128 + i
/-- Source FP_RING of instance `i` (R338). -/
def FP_RING (i : Nat) : Nat := 144 + i
/-- Source FP_FWD_OVER of instance `i` (R338). -/
def FP_FWD_OVER (i : Nat) : Nat := 160 + i
/-- Source FP_FWD_FAIL of instance `i` (R338). -/
def FP_FWD_FAIL (i : Nat) : Nat := 168 + i
/-- Source EV_EIN_DAMAGE of instance `i` (R338). -/
def EV_EIN_DAMAGE (i : Nat) : Nat := 180 + i
/-- Source EV_ORPHAN of instance `i` (R338). -/
def EV_ORPHAN (i : Nat) : Nat := 184 + i
/-- Source EV_RING of instance `i` (R338). -/
def EV_RING (i : Nat) : Nat := 188 + i
/-- Source EV_SILENT of instance `i` (R338). -/
def EV_SILENT (i : Nat) : Nat := 192 + i
/-- Source VD_REJECT (R338). -/
def VD_REJECT : Nat := 196
/-- Source CK_LATE (R338). -/
def CK_LATE : Nat := 197
/-- Source FB_MISSING (R338). -/
def FB_MISSING : Nat := 198
/-- Source CK_INTERNAL (R338). -/
def CK_INTERNAL : Nat := 199
/-- Source WD_EXPIRE of instance `i` (R338). -/
def WD_EXPIRE (i : Nat) : Nat := 200 + i
/-- Source WD_EARLY of instance `i` (R338). -/
def WD_EARLY (i : Nat) : Nat := 209 + i
/-- Source ST_LOGIC of instance `i` (R338). -/
def ST_LOGIC (i : Nat) : Nat := 218 + i
/-- Source ST_KAT of instance `i` (R338). -/
def ST_KAT (i : Nat) : Nat := 234 + i
/-- Source ST_LAPSE of instance `i` (R338). -/
def ST_LAPSE (i : Nat) : Nat := 250 + i
/-- Source DMA_POSTED of instance `i` (R338). -/
def DMA_POSTED (i : Nat) : Nat := 256 + i
/-- Source DMA_BUS (R338). -/
def DMA_BUS : Nat := 264
/-- Source CRC_SCAN of instance `i` (R338). -/
def CRC_SCAN (i : Nat) : Nat := 265 + i
/-- Source CRC_SNOOP of instance `i` (R338). -/
def CRC_SNOOP (i : Nat) : Nat := 277 + i
/-- Source ETH_LINK of instance `i` (R338). -/
def ETH_LINK (i : Nat) : Nat := 285 + i
/-- Source ETH_CMP (R338). -/
def ETH_CMP : Nat := 287
/-- Source ETH_TXLATE of instance `i` (R338). -/
def ETH_TXLATE (i : Nat) : Nat := 288 + i
/-- Source I3C_ERR (R338). -/
def I3C_ERR : Nat := 290
/-- Source XSP_ERR of instance `i` (R338). -/
def XSP_ERR (i : Nat) : Nat := 291 + i
/-- Source ML_LINK (R338). -/
def ML_LINK : Nat := 293
/-- Source ML_HB (R338). -/
def ML_HB : Nat := 294
/-- Source PARTNER_FAULT (R338). -/
def PARTNER_FAULT : Nat := 295
/-- Source SIO_DISC of instance `i` (R338). -/
def SIO_DISC (i : Nat) : Nat := 296 + i
/-- Source SIO_READBACK of instance `i` (R338). -/
def SIO_READBACK (i : Nat) : Nat := 304 + i
/-- Source SIO_ACC of instance `i` (R338). -/
def SIO_ACC (i : Nat) : Nat := 308 + i
/-- Source TM_SERVO (R338). -/
def TM_SERVO : Nat := 312
/-- Source TM_GM_LOSS (R338). -/
def TM_GM_LOSS : Nat := 313
/-- Source SEC_AUTH (R338). -/
def SEC_AUTH : Nat := 314
/-- Source SEC_RNG (R338). -/
def SEC_RNG : Nat := 315
/-- Source SEC_KEY (R338). -/
def SEC_KEY : Nat := 316
/-- Source FW of instance `i` (R338). -/
def FW (i : Nat) : Nat := 320 + i

end Src

/-- The row of source `n`; a reserved source has none. -/
def sourceRow (n : Nat) : Option SourceRow := sourceRows.find? (fun r => r.first ≤ n && n ≤ r.last)

/-- One bit as a number. -/
def bit (b : Bool) : Nat := if b then 1 else 0

/-- The reset value of FC_SEV_n (R338, R357): the default non-maskable trap target is VP3. -/
def sevReset (n : Nat) : Nat :=
  match sourceRow n with
  | none => 0x60
  | some r => r.sev * 0x20000000 + 0x60 + bit r.fn * 16 + bit r.chip * 8 + bit r.block * 4 + bit r.irq

/-- Whether offset `off` of a block lies in the row, and if so at which instance and which word. -/
def rowHit (r : RegRow) (off : Nat) : Option (Nat × Nat) :=
  let size := if r.wide then 8 else 4
  if off < r.off then none
  else if r.stride = 0 then
    if off - r.off < size then some (0, (off - r.off) / 4) else none
  else
    let i := (off - r.off) / r.stride
    let w := (off - r.off) % r.stride
    if i < r.count ∧ w < size then some (i, w / 4) else none

/-- The row, instance and word number of offset `off` among `rows`. -/
def findRow : List RegRow → Nat → Option (RegRow × Nat × Nat)
  | [], _ => none
  | r :: rs, off =>
    match rowHit r off with
    | some (i, w) => some (r, i, w)
    | none => findRow rs off

/-- Reset values that depend on the instance: FC_SEV_n (R338), WD_CFG_w and WD_TIME_w (R377), XSP_CFG_x
(R438) and CX_NP_k (R202). -/
def specialReset (a v : Nat) : Nat :=
  if 0x20001000 ≤ a ∧ a < 0x20001600 then sevReset ((a - 0x20001000) / 4)
  else if a = 0x20010084 then v + 2
  else if a = 0x20010008 ∨ a = 0x20010028 ∨ a = 0x20010048 ∨ a = 0x20010068 then v - 0x1388 + 0x03E8
  else if a = 0x20010088 then v - 0x1388 + 0x4E20
  else if a = 0x200D0100 then v + 0x80000000
  else if 0x1000000000 ≤ a ∧ (a - 0x1000000000) % 0x400000000 = 0x300000104 then v + 0x80000000
  else v

/-- The register word at byte address `a`, if a register lies there: its row, instance and word. -/
def regAt (a : Nat) : Option (RegRow × Nat × Nat) :=
  if a < 0x20000000 then none
  else if a < 0x20110000 then findRow (wardenRows ((a - 0x20000000) / 0x10000)) (a % 0x10000)
  else if a < 0x1000000000 ∨ 0x2000000000 ≤ a then none
  else
    let off := (a - 0x1000000000) % 0x400000000
    if 0x300000000 ≤ off ∧ off < 0x300010000 then findRow rowsCX (off - 0x300000000)
    else if 0x300010000 ≤ off ∧ off < 0x300020000 then findRow rowsGS (off - 0x300010000)
    else none

/-- Address of FC_CAP, 16 words (R341, R357). -/
def A.FC_CAP0 : Nat := 0x20000100

/-- Offset of the retained block in the address map (R323). -/
def retBase : Nat := 0x20108000

/-- The value a retained word takes when the block is cleared (R324). -/
def retReset (off : Nat) : Nat := if off = 0 then 0x5452575A else if off = 4 then 1 else 0

/-- The reset value of the register word at address `a`; a word that no register holds reads zero (R8). -/
def regReset (a : Nat) : Word :=
  if retBase ≤ a ∧ a < retBase + 0x1000 then BitVec.ofNat 32 (retReset (a - retBase))
  else
    match regAt a with
    | none => 0
    | some (r, _, w) => BitVec.ofNat 32 (specialReset a ((r.reset >>> (32 * w)) % 0x100000000))

end Sys2Proof.Machine
end

