-- ==== Sys2Proof/Machine/State.lean ====
section
/-! DEFINITION. The machine's state as plain data: every register of the register map, device memory, the
processors, and what the spec gives each block beside its registers; and the state right after reset.

Registers live in `State.regs`, one home for each word; everything below is state that no register
holds.  The docstrings name the rules. -/

namespace Sys2Proof.Machine

/-- The response a master receives to its latest access or command (R5, R6, R11, R251, R326). -/
inductive Resp where
  | ok | errDecode | errAlign | errLocked | errState | errParam | errFull | errChFallow | errData
  | errBus | errCrc | errDenied | errAuth | stBusy | stRetry | nack
  deriving DecidableEq, Repr

/-- Why a run stops.  The spec gives every command of the table an effect, so there is no such reason. -/
inductive Fault where
  deriving DecidableEq, Repr

/-- Why the model declines a command. -/
inductive Refusal where
  /-- Raised by an arm of `exec` whose command has no meaning yet; safe. -/
  | notModelled (mnemonic : String)
  deriving DecidableEq, Repr

/-- What a graph instance was launched for (R119, R127, R131, R139). -/
inductive Purpose where
  /-- The fall-back graph of the frame. -/
  | fallback
  /-- Link `i` (from 1) of root number `k`, whose output is the sample with index `sample` (R119). -/
  | link (k i sample : Nat)
  /-- Head `h` on the sample with index `sample` (R127). -/
  | head (h sample : Nat)
  /-- The shadow graph (R131). -/
  | shadow
  deriving DecidableEq, Repr

/-- A job of the ZW16's own: context, key of the anchor frame, purpose. -/
structure Job where
  ctx : Nat
  ord : Nat
  purpose : Purpose
  deriving DecidableEq, Repr

/-- How far the evidence of a frame has come (R22, R91, R97). -/
inductive EvSt where
  /-- No header has been attributed. -/
  | none
  /-- Attributed; reception goes on. -/
  | receiving
  /-- The Frame End passed on time; the tags are not verified yet. -/
  | onTime
  /-- Both tags verified and the records kept their rules. -/
  | authentic
  /-- Missing, failed or not wanted: no evidence takes part. -/
  | failed
  deriving DecidableEq, Repr

/-- The fall-back result of a frame (R139, R140). -/
inductive FbSt where
  | waiting
  | running
  | ready
  | missing
  deriving DecidableEq, Repr

/-- The agreement program of a frame (R141). -/
inductive AgSt where
  | waiting
  | queued
  | running
  | complete
  deriving DecidableEq, Repr

/-- A failed check (R133): the tick it was found in, kind code, identifier, failing elements. -/
structure CheckFail where
  tick : Nat
  kind : Nat
  id : Nat
  count : Nat
  deriving DecidableEq, Repr

/-- What a check graph left (R119, R127, R131): for each element the integer code, 0 in a floating format, and the
bits of its real value in FP32. -/
structure Out where
  purpose : Purpose
  els : List (Int × Nat)
  deriving DecidableEq, Repr

/-- A seed patch of a tag line (R76, R78): its context, seed table entry, library index, edge, start pixel,
the plan it was drawn under, and whether it was skipped under R80. -/
structure Patch where
  ctx : Nat
  entry : Nat
  lib : Nat
  edge : Nat
  start : Nat
  plan : Nat
  /-- The CRC-32C of that plan (R112), which tells it from another plan at the same address. -/
  planCrc : Nat
  skipped : Bool
  deriving DecidableEq, Repr

/-- An undecided frame of a context. -/
structure Frm where
  /-- The key of the anchor frame, 16 × its ordinal on its anchor port + the port, which a commit may change (R16, R55); its
  frame ID, and its stamp as a time-base value and as a tick (R14). -/
  ord : Nat
  fid : Nat
  stampNs : Nat
  stampTick : Nat
  /-- Admission counter in force at the stamp (R162). -/
  admitCtr : Nat
  /-- The evidence deadline tick and the verdict deadline tick (R22, R24). -/
  evDl : Nat
  vDl : Nat
  /-- Causes recorded so far, bits per R17. -/
  causes : Nat
  /-- Member ports and skew in µs at the stamp, the member frames found (port, ordinal), group complete (R64). -/
  ports : Nat
  skew : Nat
  members : List (Nat × Nat)
  groupDone : Bool
  /-- Evidence: state, header bytes, decrypted streams, slot in the port's pool (R89, R107). -/
  ev : EvSt
  /-- An evidence frame has been opened for it (R91). -/
  opened : Bool
  hdr : List Byte
  evText : List Byte
  resText : List Byte
  evSlot : Option Nat
  /-- EV_CTX_PLAN_n at the stamp, and the two GCM tags received (R90, R93). -/
  planId : Nat
  evTag : List Byte
  resTag : List Byte
  /-- The anchor frame's pepper and the patches its tag line carries (R72, R76). -/
  pepper : List Byte
  patches : List Patch
  /-- Bindings in force at the stamp (R118, R137): plan base, CK_CTX_CFG, CK_FB_GRAPH, CK_AG_CFG,
  CK_AG_BUDGET, and the parameter record. -/
  plan : Nat
  /-- The bytes of the plan, and CK_CTRL.en, at the stamp (R118). -/
  planImg : List Byte
  ckEn : Bool
  ckCfg : Nat
  fbRef : Nat
  agCfg : Nat
  agBudget : Nat
  agParam : List Byte
  /-- What the directories named at the stamp (R137): image address and length by graph reference, and by agreement directory
  index. -/
  images : List (Nat × Nat × Nat)
  programs : List (Nat × Nat × Nat)
  /-- Check graphs still to be launched, and those launched that have not ended (R132). -/
  todo : List Purpose
  running : List Purpose
  /-- Outputs held until both tags have verified (R97, R132). -/
  outs : List Out
  /-- The head graphs have ended and the decoder entry is due, queued, or over (R142). -/
  vp2Due : Bool
  vp2Queued : Bool
  /-- Failed checks found so far; they count once both tags have verified (R97, R133). -/
  fails : List CheckFail
  /-- The checks of the evidence have ended without a result: nothing of it is compared any more (R134, R383). -/
  gone : Bool
  /-- Fall-back result (R140), and the decoded result of the decoder entry (R127). -/
  fb : FbSt
  fbBytes : List Byte
  decoded : List Byte
  /-- Agreement program (R141, R147). -/
  ag : AgSt
  detail : Nat
  margin : Nat
  deriving DecidableEq, Repr

/-- The old key slot of a context (R94 to R96): its admission counter and epoch, whether it is the grace of an
epoch change (with the key of F0) or the key of the previous admission counter (with the tick of the increment); or the
grace is over, and the key is zeroized in the tick after the one named. -/
inductive OldKey where
  | none
  | spent (tick : Nat)
  | grace (admitCtr epoch f0 : Nat)
  | prior (admitCtr epoch tick : Nat)
  deriving DecidableEq, Repr

/-- A job-epoch change of a context (R95, R470): none, made in a tick and not yet in effect, or held. -/
inductive EpochChange where
  | none
  | made (tick : Nat)
  | held
  deriving DecidableEq, Repr

/-- A new admission counter that waits for its context's reservation (R490), and what follows it: nothing, a move to
ADMITTING that keeps the window (R36), or an entry to ADMITTING (R31). -/
inductive AdmitWait where
  | none
  | renew
  | move
  | enter
  deriving DecidableEq, Repr

/-- A context's state beside its registers. -/
structure Ctx where
  /-- Undecided frames, oldest first (R26). -/
  frames : List Frm
  /-- A FORCE_DOUBT request waits (R40). -/
  force : Bool
  /-- Ticks of every entry to REJECTED or FALLOW since reset or CLEAR_FALLOW, oldest first (R38, R39). -/
  rejTicks : List Nat
  /-- REJECTED: the tick in which the reaction was complete; none while it runs (R34). -/
  reactDone : Option Nat
  /-- First and latest ordinal of the anchor frames taken since the last entry from OFF, by anchor port (R16, R91). -/
  taken : Table (Option (Nat × Nat))
  /-- A commit changed acc, anchor or members: a new counter at the next anchor Frame Start (R16). -/
  rebind : Bool
  /-- The context moved to ADMITTING under a running accelerator sequence (R36), and the latest tick in which
  such a sequence completed. -/
  resetting : Bool
  resetEnd : Option Nat
  /-- Keys (R94 to R96, R470). -/
  old : OldKey
  change : EpochChange
  /-- Anchor frames since the last epoch change (R470). -/
  epochFrames : Nat
  /-- Last authenticated job sequence of an admission counter (R99): pairs of counter and sequence. -/
  jobSeq : List (Nat × Nat)
  /-- Which of the two carry buffers holds the contents kept (R149). -/
  carrySel : Bool
  /-- The admission reservation stored in flash, and the new counter that waits for it (R490). -/
  reserve : Nat
  waitAdmit : AdmitWait
  /-- Retired until reset or CLEAR_FALLOW, on the fallow list or not for want of room there (R39, R489). -/
  retired : Bool
  deriving DecidableEq, Repr

/-- A context at reset. -/
def Ctx.reset : Ctx :=
  { frames := [], force := false, rejTicks := [], reactDone := none, taken := [], rebind := false,
    resetting := false, resetEnd := none, old := .none, change := .none, epochFrames := 0, jobSeq := [],
    carrySel := false, reserve := 0,
    waitAdmit := .none, retired := false }

/-- The control sequence of an accelerator (R34, R35). -/
inductive SeqPhase where
  | idle
  /-- ACC_RST_N is low for the reset pulse, until the tick. -/
  | pulse (due : Nat)
  /-- ACC_PWREN is low, until the tick. -/
  | off (due : Nat)
  /-- ACC_PWREN is high and settles, until the tick. -/
  | settle (due : Nat)
  deriving DecidableEq, Repr

/-- An accelerator's sequence and the contexts whose reaction completes at its final rise (R34, R35). -/
structure AccSeq where
  phase : SeqPhase
  who : List Nat
  deriving DecidableEq, Repr

/-- One verdict handed to Ethernet or kept by the Verdict Unit (R160): header bytes 0 to 29 and 40 to 53 as
fields, and the plaintext result. -/
structure Verdict where
  ctx : Nat
  kind : Nat
  fid : Nat
  causes : Nat
  state : Nat
  stampNs : Nat
  timeNs : Nat
  admitCtr : Nat
  epoch : Nat
  detail : Nat
  margin : Nat
  result : List Byte
  deriving DecidableEq, Repr

/-- How a frame is being forwarded (R67, R69). -/
inductive FwdSt where
  /-- Not forwarded. -/
  | none
  /-- Frame Start and tag line sent; image lines follow. -/
  | sending
  /-- Abandoned: the Frame End was sent at once. -/
  | abandoned
  /-- The Frame End was sent. -/
  | ended
  deriving DecidableEq, Repr

/-- The settings a port works under (R82): FP_CIN_CFG, GEOM, TIME, RING, RING_BASE. -/
structure CinSet where
  cfg : Nat
  geom : Nat
  time : Nat
  ring : Nat
  base : Nat
  deriving DecidableEq, Repr

/-- A camera frame from its Frame Start until its slot is ready. -/
structure CinFrame where
  /-- The settings it is received, stored and sent under (R82), the strip of its FWD port (R71), and the base of the seed patch
  library (R79, R82). -/
  set : CinSet
  strip : Nat
  plib : Nat
  ord : Nat
  fid : Nat
  /-- The Frame Start's own number (R52). -/
  fn : Nat
  stampNs : Nat
  stampTick : Nat
  lines : Nat
  /-- Ticks in which the lines started, oldest first (R68). -/
  lineStarts : List Nat
  /-- The running CRC-32C of the image payload (R58). -/
  crc : Nat
  /-- Damaged at ingress (R52), or only by a posted write (R53). -/
  damaged : Bool
  postedBad : Bool
  stuck : Bool
  /-- Slot of the port's ring; none in sentinel service (R83). -/
  slot : Option Nat
  pepper : List Byte
  fwd : FwdSt
  /-- Image lines forwarded, and the received ones that the line buffer holds for the FWD port (R62). -/
  sent : Nat
  buf : List (List Byte)
  /-- The line received last, which the monitors send, and the monitors that send the frame, as a mask (R81). -/
  last : List Byte
  mons : Nat
  /-- The line buffer could not take a line for the GDDR6 write (R52, R85). -/
  overrun : Bool
  /-- The frame could not be forwarded (R84, R479). -/
  fwdFail : Bool
  /-- The bytes of the tag line sent after the forwarded Frame Start (R73). -/
  tagLine : List Byte
  patches : List Patch
  /-- Patch lines sent. -/
  patchDone : Bool
  /-- The slot header has been written with ready = 1 (R61). -/
  ready : Bool
  deriving DecidableEq, Repr

/-- A camera ingress port's state beside its registers. -/
structure CinPort where
  /-- The ordinal of the last accepted frame and the highest ordinal issued, −1 before the first (R55). -/
  a : Int
  t : Int
  lastfn : Nat
  /-- No frame has been accepted since reset, enabling or return to service (R55). -/
  fresh : Bool
  /-- The tick of the last Frame Start stamp or timeout (R56). -/
  timer : Nat
  set : CinSet
  /-- The open frame (R52). -/
  cur : Option CinFrame
  /-- Packets are discarded without count up to the Frame End (R52). -/
  discard : Bool
  /-- Ended frames whose line writes have not all returned, oldest first (R61). -/
  closing : List CinFrame
  /-- The CRC of the last accepted frame and the identical run (R58). -/
  prevCrc : Option Nat
  run : Nat
  /-- The next slot of the ring (R63). -/
  next : Nat
  /-- Patches deferred to the next frame (R78). -/
  deferred : List Patch
  /-- Accepted frames: ordinal, stamp tick, marks (bit 0 lost, bit 1 not forwarded), stamp in ns (R64, R84, R445); the newest 20,
  newest first. -/
  recent : List (Nat × Nat × Nat × Nat)
  deriving DecidableEq, Repr

/-- A port at reset (R55). -/
def CinPort.reset : CinPort :=
  { a := -1, t := -1, lastfn := 0, fresh := true, timer := 0, set := ⟨0, 0, 0, 0, 0⟩, cur := none,
    discard := false, closing := [], prevCrc := none, run := 0, next := 0, deferred := [], recent := [] }

/-- A slot of a port's ring in which a frame has been stored: its address and length, the frame's ordinal and stamp, ready,
damaged (R59, R60, R63). -/
structure Slot where
  addr : Nat
  len : Nat
  ord : Nat
  stampNs : Nat
  ready : Bool
  bad : Bool
  deriving DecidableEq, Repr

/-- A packet that a transmit port sends (R66, R67, R81): FWD0 to FWD7 are ports 0 to 7, MON0 and MON1 ports 8 and 9; virtual
channel, data type (0x00 Frame Start, 0x01 Frame End), the number of a short packet, the payload of a long one. -/
structure TxPkt where
  port : Nat
  vc : Nat
  dt : Nat
  num : Nat
  data : List Byte
  deriving DecidableEq, Repr

/-- An open evidence frame on a virtual channel of an EIN port (R87, R91). -/
structure EvFrame where
  /-- The Frame Start number. -/
  fn : Nat
  /-- The evidence stream and the result stream so far (R89). -/
  ev : List Byte
  res : List Byte
  damaged : Bool
  /-- Discarded to its Frame End without further count (R91). -/
  discard : Bool
  /-- A 0x31 packet of it has come (R88). -/
  seen : Bool
  /-- Context and key of the frame the header was attributed to (R91). -/
  owner : Option (Nat × Nat)
  /-- Its data is kept no longer, for want of a slot or past its declared length, while damage still counts (R88, R92,
  R107). -/
  bad : Bool
  deriving DecidableEq, Repr

/-- What a processor is doing (R255, R257, R259, R316). -/
inductive HartRun where
  /-- It executes instructions. -/
  | run
  /-- IDLE: it waits for an enabled pending interrupt or a non-maskable trap. -/
  | idle
  /-- EVWAIT: destination, mask, and the tick in which the wait expires. -/
  | evwait (rd : Nat) (mask : DWord) (due : Nat)
  /-- It halted: a double fault, a lockstep mismatch or its block's reset. -/
  | stopped
  deriving DecidableEq, Repr

/-- A verdict pair, a control processor or the scalar part of a tile sequencer (R239, R240). -/
structure Hart where
  run : HartRun
  /-- General registers g1 to g31 (R239). -/
  g : Table DWord
  /-- Predicate registers p1 to p7 (R239). -/
  p : Table DWord
  pc : BitVec 48
  /-- Control and status registers by number (R240, R257, R274). -/
  csr : Table DWord
  /-- The latched external interrupt, IRQ_PEND bit 1 (R261, R340). -/
  ext : Bool
  /-- A non-maskable trap waits to be taken (R260). -/
  nmi : Bool
  /-- Effective addresses of failed stores whose response has not been taken yet, oldest first (R252). -/
  storeErrs : List Nat
  /-- An error response of a store has arrived: ERR_STORE is taken at the next instruction boundary (R252). -/
  arrived : Bool
  deriving DecidableEq, Repr

/-- A processor right after reset. -/
def Hart.reset : Hart :=
  { run := .run, g := [], p := [], pc := 0, csr := [], ext := false, nmi := false, storeErrs := [], arrived := false }

/-- An entry of the VP2 queue (R142): context, key of the anchor frame, decoder entry or agreement entry, trust state at queueing. -/
structure VpEntry where
  ctx : Nat
  ord : Nat
  decoder : Bool
  trust : Nat
  deriving DecidableEq, Repr

/-- The entry that VP2 runs (R142, R145, R150). -/
structure VpRun where
  entry : VpEntry
  /-- The agreement area at its start (R137, R149), and the ranges that its windows open: address, bytes, permissions (R148,
  R150). -/
  area : Nat
  regions : List (Nat × Nat × Nat)
  /-- The pair that runs it, and its processor as it stood before the entry. -/
  pair : Nat
  saved : Hart
  /-- A program of the directory runs on the pair (R144); otherwise the hardware runs the entry. -/
  custom : Bool
  /-- Heads whose decoders have not started, by index of the head table. -/
  heads : List Nat
  /-- The running decoder's head. -/
  head : Nat
  /-- Bytes written to the decode buffer so far. -/
  written : Nat
  /-- The ends of the decode buffer of each head that has run: head and end offset. -/
  ends : List (Nat × Nat)
  deriving DecidableEq, Repr

/-- The check work on VP2. -/
structure Vp2 where
  queue : List VpEntry
  run : Option VpRun
  deriving DecidableEq, Repr

/-- A graph launch: the fields of its launch record (R212).  A launch of the ZW16's own logic names its job
(R214), a trigger's launch the trigger (R217). -/
structure Launch where
  /-- Its place in the order of launches, device-wide (R222). -/
  num : Nat
  ref : Nat
  ctx : Nat
  cls : Nat
  /-- Base die 0 to 3, or 4 for the scheduler's choice. -/
  base : Nat
  irq : Bool
  fid : Nat
  stamp : Nat
  deadline : Nat
  compl : Nat
  args : List (Nat × Nat)
  job : Option Job
  trig : Option Nat
  /-- The image that a launch of the ZW16's own is bound to: address and length (R137). -/
  image : Option (Nat × Nat)
  /-- The header breaks R212. -/
  bad : Bool
  deriving DecidableEq, Repr

/-- A live graph instance (R216, R220, R232, R233). -/
structure Inst where
  /-- Its launch's place in the order of launches (R222). -/
  id : Nat
  die : Nat
  l : Launch
  /-- Image address, arena base, and the range of the pool it holds. -/
  image : Nat
  imageLen : Nat
  arena : Nat
  poolAt : Nat
  need : Nat
  /-- Decrements each node has received (R220), nodes admitted, nodes replayed, nodes that wait for their
  replay with their cause. -/
  dec : Table Nat
  admitted : List Nat
  replayed : List Nat
  waiting : List (Nat × Nat)
  /-- Nodes admitted again for a lost block that they wrote (R232, R383). -/
  again : List Nat
  /-- Completion messages under way: target die and node (R220). -/
  msgs : List (Nat × Nat)
  completed : Nat
  replays : Nat
  /-- Its latest failure that is to be replayed: the tick, the node, the cause, the command's number and epoch (R232, R234). -/
  failAt : Option (Nat × Nat × Nat × Nat × Nat)
  /-- How it ended: status, cause, failing node (R233, R235). -/
  fin : Option (Nat × Nat × Nat)
  deriving DecidableEq, Repr

/-- An operation in flight (R221, R230, R300). -/
structure Op where
  die : Nat
  seq : Nat
  epoch : Nat
  inst : Nat
  node : Nat
  cls : Nat
  ctx : Nat
  /-- Next thread number to issue, and the number of threads (R223). -/
  next : Nat
  total : Nat
  startTick : Nat
  startNs : Nat
  replay : Bool
  /-- The gleaner takes this command: codes and readings at its start (R300, R303). -/
  trace : Option (List Nat × List Nat)
  deriving DecidableEq, Repr

/-- A tile thread (R223, R226): its operation, its number, its attempt (R180), the engines it mismatched on by 16 × core +
engine, the engine it is re-issued to (R180), its numerics profile (R176), and its place in the engine's scratch share, in bytes from
its start (R225). -/
structure Thr where
  die : Nat
  seq : Nat
  epoch : Nat
  num : Nat
  attempt : Nat
  tried : List Nat
  want : Option Nat
  profile : Nat
  place : Nat
  /-- It has been re-issued and waits ahead of its class (R180). -/
  redo : Bool
  deriving DecidableEq, Repr

/-- A tile descriptor (R276). -/
structure Desc where
  base : Nat
  fmt : Nat
  rank : Nat
  flags : Nat
  scale : Nat
  zp : Nat
  dims : List Nat
  strides : List Nat
  cur : List (BitVec 32)
  /-- The output of the thread's node that the view describes (R277, R288). -/
  out : Nat
  deriving DecidableEq, Repr

/-- A descriptor with valid = 0. -/
def Desc.none : Desc := ⟨0, 0, 0, 0, 0, 0, [0, 0, 0, 0], [0, 0, 0], [0, 0, 0, 0], 0⟩

/-- The vector and tensor state of a thread (R271, R272, R276): v registers by number, descriptors, accumulator
elements by 64 × bank + DPU, and bank tags (0 untagged, 1 integer, 2 float). -/
structure Tile where
  v : Table (BitVec 2048)
  t : Table Desc
  acc : Table (BitVec 40)
  tag : Table Nat
  /-- The 3-bit residue that each accumulator carries, by 64 × bank + DPU (R179). -/
  res : Table Nat
  deriving DecidableEq, Repr

/-- Vector and tensor state at thread start, before its descriptors are set. -/
def Tile.reset : Tile := ⟨[], [], [], [], []⟩

/-- A resident thread that its engine has switched away from (R273). -/
structure Parked where
  thr : Thr
  hart : Hart
  tile : Tile
  deriving DecidableEq, Repr

/-- An engine: the thread it runs, whose state stands in the processor table and in `tiles`, and the parked ones. -/
structure Engine where
  cur : Option Thr
  parked : List Parked
  deriving DecidableEq, Repr

/-- The graph schedulers and the compute dies beside their registers. -/
structure Gs where
  /-- Intake of each die (R214), and class queues by 4 × die + class. -/
  intake : Table (List Launch)
  queues : Table (List Launch)
  insts : List Inst
  ops : List Op
  /-- Launches made since reset (R222). -/
  nextLaunch : Nat
  /-- Threads waiting in a core's queue for an engine (R226). -/
  queued : Table (List Thr)
  /-- Engines and running tile state by 16 × core + engine. -/
  engines : Table Engine
  tiles : Table Tile
  /-- Jobs that ended and whose result the check logic takes in the same tick: job, status, arguments, image, arena. -/
  ended : List (Job × Nat × Launch × Nat × Nat)
  /-- Graph references committed (R203), and images being regenerated from XSPI0 (R236). -/
  graphs : List Nat
  regen : List Nat
  /-- The previous cap of each die and one more than the tick of its latest write (R201). -/
  capPrev : Table Nat
  capTick : Table Nat
  /-- Cores whose clock is held (R197): one more than the tick the hold began. -/
  hold : Table Nat
  /-- Ticks of the references of the safety windows of each die, newest first, while a window may still follow them (R229);
  windows open by 4 × die + w. -/
  winRef : Table (List Nat)
  winOpen : Table Bool
  /-- Last firing tick of each periodic trigger, by 16 × die + trigger (R217). -/
  trigTick : Table Nat
  /-- The same before the latest commit (R217). -/
  trigWas : Table Nat
  /-- Cores to which no new thread is issued until a repeat test has passed (R373). -/
  noIssue : Table Bool
  /-- Trigger settings before the latest commit, by 16 × die + trigger: GS_TRIG_t and its template (R217). -/
  trigOld : Table (Nat × Nat)
  /-- The seed of each engine's generator, by 16 × core + engine (R177). -/
  gens : Table (List Byte)
  deriving DecidableEq, Repr

/-- The schedulers at reset. -/
def Gs.reset : Gs :=
  { intake := [], queues := [], insts := [], ops := [], nextLaunch := 0, queued := [], engines := [], tiles := [],
    ended := [], graphs := [], regen := [], capPrev := [], capTick := [], hold := [], winRef := [], winOpen := [],
    trigTick := [], trigWas := [], noIssue := [], trigOld := [], gens := [] }

/-- A finished trace record in a die's queue (R301, R304): end tick, sequence number, the 128 bytes. -/
structure TraceRec where
  endTick : Nat
  seq : Nat
  body : List Byte
  deriving DecidableEq, Repr

/-- The gleaner and the activity counters (R297 to R309). -/
structure Ct where
  /-- Activity counters by code 0x00 to 0x9F (R297). -/
  counters : Table DWord
  /-- The queue of finished records of each die, oldest end tick first (R304). -/
  queues : Table (List TraceRec)
  /-- The trace buffer: bytes of record r from 128 × r (R305). -/
  buf : Table Byte
  /-- The mode in force, applied at the latest arm (R309). -/
  mode : Nat
  /-- A trigger taken whose marker is not written yet: tick, fault source or 0xFFFFFFFF, time (R307). -/
  marker : Option (Nat × Nat × Nat)
  /-- Matching commands of each die since the latest arm (R303). -/
  matched : Table Nat
  /-- Records written since the latest arm (R308). -/
  written : Nat
  /-- Records of the post-trigger share written, the marker included (R308). -/
  post : Nat
  /-- The microsecond of the latest record written and the records written in it (R304). -/
  burst : Nat × Nat
  /-- One more than the tick of the latest arm (R309). -/
  armAt : Nat
  /-- CLK_CORE cycles of each core that were not normal: stretched or held (R297). -/
  lost : Table Nat
  /-- CLK_CORE cycles of each core at its latest reset (R240). -/
  cycBase : Table Nat
  /-- The mirror of each die (R298): one more than the tick it was taken in, and its readings by code. -/
  mirror : Table (Nat × List (Nat × Nat))
  /-- One more than the tick of the latest record written, and the records written in that tick (R309). -/
  putTick : Nat × Nat
  /-- Wraps of normal-cycle counters at the latest CT_CLR.cnt (R297). -/
  wrapBase : Nat
  deriving DecidableEq, Repr

/-- The gleaner at chip reset. -/
def Ct.reset : Ct :=
  { counters := [], queues := [], buf := [], mode := 0, marker := none, matched := [], written := 0, post := 0, burst := (0, 0), armAt := 0, lost := [], cycBase := [],
    mirror := [], putTick := (0, 0), wrapBase := 0 }

/-- A verdict pair's state beside SYS_VP_STAT_v (R314 to R319). -/
structure Pair where
  /-- The tick in which the restart must be complete: 2 ms after the mismatch (R316). -/
  restartDue : Nat
  /-- The tick in which the pair last began to run. -/
  runSince : Nat
  /-- The pair was returned to service and takes no role until the next warden reset (R319). -/
  barred : Bool
  deriving DecidableEq, Repr

/-- A role move in progress (R319): the role, the receiving pair, the tick by which it runs. -/
structure RoleMove where
  role : Nat
  pair : Nat
  due : Nat
  deriving DecidableEq, Repr

/-- A mailbox request (R326, R427): the transport it came on, 0 I3CT, 1 ETHA, 2 ETHB, the tag of its management datagram, its
command code and its tag. -/
structure MbxReq where
  via : Nat
  mtag : Nat
  code : Nat
  tag : Nat
  deriving DecidableEq, Repr

/-- The mailbox request in execution, and the response that is ready (R326, R327). -/
structure Mailbox where
  /-- The request in execution. -/
  cur : Option MbxReq
  /-- The response frame that waits to be read. -/
  response : List Byte
  /-- A READ_REG whose next word is held for a regeneration (R330, R386): the words left, its address, its index, and the bytes
  read so far. -/
  held : Option (Nat × Nat × Nat × List Byte)
  /-- A RESET command's target, and the transport that its response has not left yet, with that response (R331). -/
  resetHeld : Option (Nat × Nat × List Byte)
  /-- A RESET command's target and the tick in which it starts (R331). -/
  resetDue : Option (Nat × Nat)
  deriving DecidableEq, Repr

/-- The mailbox after reset. -/
def Mailbox.reset : Mailbox := { cur := none, response := [], held := none, resetHeld := none, resetDue := none }

/-- The fault collector's state beside its registers (R337 to R356). -/
structure Fc where
  /-- For each source, one more than the tick of its latest raise, 0 before the first (R337). -/
  lastRaise : Table Nat
  /-- For each source, the instance whose detail its latest raise carries (R337). -/
  lastInst : Table Nat
  /-- Standing sources in their condition (R337). -/
  standing : BitVec 384
  /-- One more than the tick in which the held capture was made (R341). -/
  capTick : Nat
  /-- The ring index at which the held capture's copy lies in the retained block (R341). -/
  capSlot : Nat
  /-- The tick in which the present quiet period began; none before SYS_SVC.level first becomes 1 (R345, R346). -/
  quietStart : Option Nat
  /-- The tick in which a requested chip reset starts (R340). -/
  chipDue : Option Nat
  /-- Sources whose block reset target is being reset (R340). -/
  blockReset : BitVec 384
  /-- Retry histories: the ticks of the retry events of an item, by item key (R349). -/
  history : Table (List Nat)
  /-- The collector's own compared logic differs (R347). -/
  selfDiff : Bool
  /-- The persisted fallow list: (kind, number), oldest first (R350, R354, R488). -/
  fallow : List (Nat × Nat)
  /-- Fallow bits of FWD and Ethernet ports, which no register shows, by item key (R350, R351). -/
  portFallow : Table Bool
  /-- Items returned to service that are under test or wait for their first use (R354). -/
  returning : List (Nat × Nat)
  /-- Lane groups in training: the tick by which it must have passed, by group; 0 for none (R354). -/
  training : Table Nat
  /-- The raises of one tick merged into a capture made before it (R343): one more than that tick, the record that they would
  make were the capture acknowledged in it, and the merge count and highest severity of the capture before them. -/
  ackTick : Nat
  ackRec : List Byte
  ackOld : Nat × Nat
  /-- Processors whose restart a CORE_DOUBLE asked for (R340). -/
  doubles : List Nat
  deriving DecidableEq, Repr

/-- The collector at power-up. -/
def Fc.reset : Fc :=
  { lastRaise := [], lastInst := [], standing := 0, capTick := 0, capSlot := 0, quietStart := none,
    chipDue := none, blockReset := 0, history := [], selfDiff := false, fallow := [],
    portFallow := [], returning := [], training := [], ackTick := 0, ackRec := [], ackOld := (0, 0), doubles := [] }

/-- A watchdog beside its registers (R360, R361, R366): the reference tick of its latest accepted service or expiry,
one more than the tick of a pending KEY_A, the WD_CFG_w and WD_TIME_w in force, and what those registers held
before the latest commit. -/
structure Watch where
  ref : Nat
  key : Nat
  cfg : Nat
  time : Nat
  oldCfg : Nat
  oldTime : Nat
  /-- One more than the tick in which its settings were written last (R366). -/
  setTick : Nat
  deriving DecidableEq, Repr

/-- The periodic tests of a core (R368 to R374). -/
structure CoreTest where
  /-- The engine that takes the next slot, and the running slot: its engine and first tick (R368). -/
  next : Nat
  slot : Option (Nat × Nat)
  /-- The logic test has started, or the slice was abandoned and its slot runs on without a test (R369). -/
  logic : Bool
  idle : Bool
  /-- Engines out of service until a repeat slice passes (R371). -/
  out : List Nat
  /-- Ticks of the last completed slice of each engine, and of the last completed known-answer test. -/
  sliceDone : Table Nat
  katDone : Nat
  /-- The tick in which the next known-answer test falls due, and the first tick of the running one (R372). -/
  katDue : Nat
  kat : Option Nat
  /-- Engines whose part of the running test waits for an atomic thread to end, while the other parts are over (R372). -/
  katLeft : List Nat
  /-- A repeat test runs or is due at once (R373). -/
  katRepeat : Bool
  /-- Lapses raised since the item's last completed test (R374): engine number, or 16 for the known-answer test. -/
  lapsed : List Nat
  deriving DecidableEq, Repr

/-- A core's tests at reset. -/
def CoreTest.reset : CoreTest :=
  { next := 0, slot := none, logic := false, idle := false, out := [], sliceDone := [], katDone := 0, katDue := 0, kat := none,
    katLeft := [], katRepeat := false, lapsed := [] }

/-- The watchdogs and the periodic tests (R358 to R374). -/
structure Wd where
  watch : Table Watch
  /-- The reset that a watchdog asked for (R363, R366): its start tick, the tick of the expiry, whether it is a chip
  reset, and the watchdog. -/
  resetDue : Option (Nat × Nat × Bool × Nat)
  tests : Table CoreTest
  /-- The tick in which a die ceased to be fallow (R365). -/
  dieBack : Table Nat
  deriving DecidableEq, Repr

/-- Watchdogs and tests at reset. -/
def Wd.reset : Wd := { watch := [], resetDue := none, tests := [], dieBack := [] }

/-- A descriptor that channel `k` moves or has moved and not written back yet (R388, R393): its address and index,
source, destination, count and flag bytes, bytes moved, its outstanding write responses, and its status. -/
structure DmaDesc where
  addr : Nat
  index : Nat
  src : Nat
  dst : Nat
  count : Nat
  flags : Nat
  next : Nat
  moved : Nat
  /-- Responses still to return: the status each carries (0 ST_OK) and the address it answers for. -/
  waiting : List (Nat × Nat)
  status : Nat
  bad : Bool
  issued : Bool
  deriving DecidableEq, Repr

/-- A DMA channel beside its registers (R389 to R397). -/
structure DmaCh where
  /-- DMA_CH_CFG_k in force for the active transfer (R397). -/
  cfg : Nat
  /-- The address the next descriptor is fetched from, when one is due. -/
  fetch : Option Nat
  /-- Descriptors not written back, oldest first; the last one may still move bytes. -/
  open_ : List DmaDesc
  /-- Snoop unit and direction of the transfer (R401): unit + 1, 0 for none; 1 check and strip. -/
  snoop : Nat
  strip : Bool
  /-- The transfer holds its snoop unit. -/
  snooping : Bool
  /-- Some descriptor of the transfer is bad; the count has reached zero; an abort was written. -/
  anyBad : Bool
  zero : Bool
  aborting : Bool
  /-- Descriptors fetched so far. -/
  fetched : Nat
  /-- The latest hand-over at an end of count: one more than its tick, and DMA_CH_STAT, ERR, CUR low, CUR high, CNT before it. -/
  hand : Nat × List Nat
  deriving DecidableEq, Repr

/-- An idle channel. -/
def DmaCh.reset : DmaCh :=
  { cfg := 0, fetch := none, open_ := [], snoop := 0, strip := false, snooping := false, anyBad := false,
    zero := false, aborting := false, fetched := 0, hand := (0, []) }

/-- The DMA engine, regeneration and the CRC units (R384 to R402). -/
structure Dma where
  ch : Table DmaCh
  /-- The channel that owns run-to-completion mode (R391), and one more than the channel last served of each priority. -/
  owner : Option Nat
  last : Table Nat
  /-- Regeneration queue, oldest first: region and unit (R385). -/
  regen : List (Nat × Nat)
  /-- Working CRC of each snoop unit, and the check bytes read so far (R400, R401). -/
  crc : Table Nat
  tail : Table (List Byte)
  deriving DecidableEq, Repr

/-- The engine at reset. -/
def Dma.reset : Dma := { ch := [], owner := none, last := [], regen := [], crc := [], tail := [] }

/-- One stamp in an ETS queue (R414): message type, sequenceId, stamp. -/
structure EtsEntry where
  msg : Nat
  seq : Nat
  ns : DWord
  deriving DecidableEq, Repr

/-- The time block's state beside its registers. -/
structure Tm where
  /-- The rate in force in the present tick, signed, 2^-32 ns (R407; a new TM_RATE applies in the next tick, R416). -/
  rate : Int
  /-- The step that is added at the end of the present tick (R415). -/
  step : Int
  /-- Replica of each compute die less the time base, in 2^-32 ns (R408). -/
  replicas : Table Int
  /-- Dies whose replica is reloaded in the following tick (R408). -/
  reload : List Nat
  /-- Consecutive samples within lock_ns, 0 to 8 (R416). -/
  lockrun : Nat
  /-- The tick in which the running loss timer started (R417). -/
  lossStart : Nat
  /-- A loss has been taken since the timer started (R417). -/
  lossTaken : Bool
  /-- ETS queues 0 to 3, oldest first (R414). -/
  ets : Table (List EtsEntry)
  deriving DecidableEq, Repr

/-- The time block at reset (R409). -/
def Tm.reset : Tm :=
  { rate := 0, step := 0, replicas := [], reload := [], lockrun := 0, lossStart := 0, lossTaken := false, ets := [] }

/-- A safety datagram waiting at a MAC (R424): its bytes, the verdict it belongs to (context and frame ID), its
fragment index, and the tick in which it was handed over. -/
structure TxDgram where
  body : List Byte
  ctx : Nat
  fid : Nat
  frag : Nat
  tick : Nat
  deriving DecidableEq, Repr

/-- A peer's receive state (R425): whether H is set, H, the decided numbers from H − 63 to H, the tick of
the last datagram. -/
structure Peer where
  started : Bool
  high : Nat
  decided : List Nat
  heard : Nat
  deriving DecidableEq, Repr

/-- A first copy held in the compare buffer (R426): peer, sequence, MAC, bytes, tick, receive stamp. -/
structure CmpEntry where
  peer : Nat
  seq : Nat
  mac : Nat
  body : List Byte
  tick : Nat
  stamp : Nat
  deriving DecidableEq, Repr

/-- The Ethernet block's state beside its registers. -/
structure Eth where
  /-- Safety and management transmit queues of each MAC, oldest first (R422); a gPTP frame is sent as it is given. -/
  safety : Table (List TxDgram)
  mgmt : Table (List (List Byte))
  /-- Received management frames each MAC buffers, 16 KiB (R427). -/
  rxMgmt : Table (List (List Byte))
  peers : Table Peer
  cmp : List CmpEntry
  /-- The link and the rate the PHY reports, of each MAC (R420): one more than the rate code, 0 for no link. -/
  phy : Table Nat
  deriving DecidableEq, Repr

/-- The Ethernet block at reset. -/
def Eth.reset : Eth :=
  { safety := [], mgmt := [], rxMgmt := [], peers := [], cmp := [], phy := [] }

/-- The I3C ports beside their registers (R428 to R431). -/
structure I3c where
  /-- A protocol error since the last GETSTATUS (R429); the bus is in HDR-DDR. -/
  proto : Bool
  hdr : Bool
  /-- The controller transfer that runs, as I3C_C_CMD was written, and the queued IBIs, oldest first (R431). -/
  cmd : Option Nat
  ibis : List (Nat × List Byte)
  deriving DecidableEq, Repr

/-- A device command that runs on an xSPI port (R432, R438): its first tick, kind, chip select, op, address and length. -/
structure XspRun where
  start : Nat
  kind : Nat
  cs : Nat
  op : Nat
  addr : Nat
  len : Nat
  deriving DecidableEq, Repr

/-- The xSPI ports beside their registers (R432, R435): the running command of each port and the archive's bad blocks. -/
structure Xsp where
  run : Table (Option XspRun)
  /-- The bad-block table that blocks 0 and 1 of the archive both hold (log 169). -/
  badBlocks : List Nat
  /-- The archive's blocks that carry a factory mark. -/
  factory : List Nat
  deriving DecidableEq, Repr

/-- A Melhan frame that has been sent and not acknowledged (R441, R442): payload, sequence, send time in ns, times sent,
tick of the latest send. -/
structure MlFrame where
  msg : MlMsg
  seq : Nat
  time : Nat
  sends : Nat
  sentTick : Nat
  /-- The sender byte and ETH_SRC.id of its header (R441). -/
  sender : Nat
  id : Nat
  deriving DecidableEq, Repr

/-- A Melhan frame received and not applied yet (R442): sequence, arrival tick, time base at arrival, send time, payload. -/
structure MlIn where
  seq : Nat
  tick : Nat
  arrived : Nat
  sent : Nat
  msg : MlMsg
  deriving DecidableEq, Repr

/-- The Melhan link's state beside its registers. -/
structure Ml where
  nextSeq : Nat
  /-- Frames that wait to be acknowledged, in sequence order. -/
  out : List MlFrame
  /-- The next sequence to be applied, once the first frame after the link came up has set it. -/
  expect : Option Nat
  waiting : List MlIn
  /-- The tick of the last heartbeat received or of the last miss, once one has been received; consecutive misses (R449). -/
  hbTick : Option Nat
  misses : Nat
  /-- The tick of the last heartbeat sent, and the last heartbeats sent: sequence and send time (R446, R449). -/
  hbSent : Nat
  hbLog : List (Nat × Nat)
  /-- The partner's last heartbeat: its sequence and the time base at its arrival (R441). -/
  hbPeer : Nat × Nat
  /-- The tick of the last TIME frame sent (R444). -/
  timeSent : Nat
  /-- The tick in which arbitration began (R448). -/
  arbStart : Option Nat
  /-- A hand-over frame waits for its acknowledgement: the tick it was sent in (R454). -/
  handOver : Option Nat
  /-- The cause of a warden warm reset that waits for that hand-over to end (R454). -/
  resetAfter : Option Nat
  /-- The mirrored sequence of each accelerator on the secondary: 0 idle, 1 reset pulse, 2 power cycle (R444). -/
  mirSeq : Table Nat
  /-- FRAME frames that no own frame matches yet: port, frame ID, stamp (R445). -/
  frames : List (Nat × Nat × Nat)
  deriving DecidableEq, Repr

/-- The link at reset. -/
def Ml.reset : Ml :=
  { nextSeq := 0, out := [], expect := none, waiting := [], hbTick := none, misses := 0, hbSent := 0, hbLog := [],
    hbPeer := (0, 0), timeSent := 0, arbStart := none, handOver := none, resetAfter := none, mirSeq := [],
    frames := [] }

/-- A page job in the crypto block (R475): encrypt or decrypt, the epoch it runs under, its latest end tick. -/
structure PageJob where
  decrypt : Bool
  epoch : Nat
  base : Nat
  due : Nat
  deriving DecidableEq, Repr

/-- A host session (R467, R468): the transport and MAC that opened it, the tick of the last control command. -/
structure Session where
  via : Nat
  last : Nat
  deriving DecidableEq, Repr

/-- Fuses, keys and sessions beside their registers (R457 to R481). -/
structure Sec where
  /-- Fuse fields by their number in the table of R457, both copies; a blank field is empty. -/
  fuses : Table (List Byte)
  fuses2 : Table (List Byte)
  /-- The RETURN challenge that is live (R480). -/
  retChallenge : Option (List Byte)
  job : Option PageJob
  session : Option Session
  /-- The session challenge and the tick it was issued in; ticks of failed opens; end of the lockout. -/
  challenge : Option (List Byte × Nat)
  failed : List Nat
  lockUntil : Nat
  /-- The held attestation report: nonce and bytes; the one being signed: nonce and body (R463, R466). -/
  report : Option (List Byte × List Byte)
  signing : Option (List Byte × List Byte)
  /-- Measurements by kind: slot, state, version, digest (R465). -/
  meas : Table (Nat × Nat × Nat × List Byte)
  /-- A reseed has succeeded since reset; generate requests since the last one (R479). -/
  seeded : Bool
  requests : Nat
  /-- One more than the tick of the latest verdict-epoch increment, and the epoch before that tick (R472). -/
  vepTick : Nat
  vepOld : Nat
  /-- The tick in which the chip reset of a successful RETURN starts (R480). -/
  returnDue : Option Nat
  /-- The tick of the latest reseed or failed try (R478, R479). -/
  reseedTick : Nat
  /-- The archive epoch the old slot's key was derived for (R476). -/
  oldEpoch : Nat
  /-- One more than the tick of the latest ROTATE; the tick from which the old key may be zeroized (R476, R477). -/
  rotTick : Nat
  zeroAt : Nat
  deriving DecidableEq, Repr

/-- The crypto block with blank fuses. -/
def Sec.reset : Sec :=
  { fuses := [], fuses2 := [], retChallenge := none, job := none, session := none, challenge := none,
    failed := [], lockUntil := 0, report := none, signing := none, meas := [], seeded := false, requests := 0,
    vepTick := 0, vepOld := 0, returnDue := none, reseedTick := 0, oldEpoch := 0, rotTick := 0, zeroAt := 0 }

/-- A command of the A/B update that runs (R494): its op, and whether its checks passed. -/
structure UpdRun where
  op : Nat
  ok : Bool
  deriving DecidableEq, Repr

/-- The boot chain, the Safety Parameter Set and the update beside their registers (R482 to R497). -/
structure Boot where
  /-- The chain has stopped: in sentinel service, or in RETURN or production test with no firmware (R458, R483, R538). -/
  stopped : Bool
  /-- A sensor reached the trip level: the chip reset that follows is held (R537). -/
  trip : Bool
  /-- The persisted records have been read in stage 6 (R489). -/
  loaded : Bool
  /-- Slots whose images failed R460 since reset: bit 0 A, bit 1 B (R484). -/
  badSlots : Nat
  /-- The image of the latest commit in service waits to be written to flash (R492): its address and its bytes. -/
  spsWrite : Option (List Byte)
  /-- The running update command (R494). -/
  upd : Option UpdRun
  /-- The slots whose XSPI1 copy is equal: bit 0 A, bit 1 B (R494, R495). -/
  mirrors : Nat
  /-- Bytes of bulk data stored without a gap (R427, R494); SYS_UPD_ACK shows the whole 64 KiB of them. -/
  stored : Nat
  deriving DecidableEq, Repr

/-- The boot chain right after reset. -/
def Boot.reset : Boot := { stopped := false, trip := false, loaded := false, badSlots := 0, spsWrite := none, upd := none, mirrors := 0, stored := 0 }

/-- A safety input's state beside SIO_IN_STAT_i: the tick in which its discrepancy timer started (R500). -/
structure SioIn where
  discStart : Nat
  deriving DecidableEq, Repr

/-- A safe output's state beside its registers (R504, R505). -/
structure SioOut where
  /-- The tick of the latest change of the driven level. -/
  changed : Nat
  /-- The tick from which the pulse period counts: the end of the last pulse or the rise of the output. -/
  periodFrom : Nat
  /-- The tick in which the running test pulse started. -/
  pulseFrom : Nat
  deriving DecidableEq, Repr

/-- A running SIO_ACC_CMD_a command: POWER_UP waits until its due tick (R506). -/
inductive AccCmd where
  | none
  | powerUp (due : Nat)
  deriving DecidableEq, Repr

/-- A running loop-back test (R512 to R514): the tick of GO and the tick of lock. -/
structure LbRun where
  go : Nat
  locked : Option Nat
  deriving DecidableEq, Repr

/-- The state of the ZW16 block.  `pending`, `tick`, `free`, `resp` and `rdata` are the model's own means of
being commanded and observed; every other field is named by the spec. -/
structure State where
  /-- The commands that wait, first in, first out (the block's own queue). -/
  pending : List Instr
  /-- CLK_TIME ticks since power was first applied (R405, R407). -/
  tick : Nat
  /-- The model's own counter of free values drawn (log 2). -/
  free : Nat
  /-- Register words by byte address (R5, R10); an unlisted word holds its reset value. -/
  regs : Table Word
  /-- High words latched by reads of low words (R5), by 2^48 × master + the low word's address (log 36). -/
  latch : Table (Option Word)
  /-- Low words held for the registers that act on their high word (R5). -/
  held : Table Word
  /-- Device memory (R9, R185) by physical byte address, GDDR6 under its interleaved address. -/
  mem : Table Byte
  /-- Memory words known lost (R379, R381) and GDDR6 blocks known lost (R382), by first byte address. -/
  lost : Table Bool
  /-- GDDR6 channels whose refresh rate is doubled (R189). -/
  g6Hot : Table Bool
  /-- The response to the latest access or command. -/
  resp : Resp
  /-- The words or bytes the latest read returned. -/
  rdata : List Nat
  /-- For a word with W1C bits: one more than the tick of its latest hardware event, and the bits it set (R7). -/
  evt : Table (Nat × Nat)
  /-- The VD command that is still being applied, its op and its context (R40, R41): its entry to ADMITTING waits. -/
  vdBusy : Option (Nat × Nat)
  /-- Safe outputs each context holds by a rejection, as a mask (R37). -/
  soutReq : Table Nat
  /-- Contexts committed with en = 1 (R40). -/
  enabled : List Nat
  /-- Contexts by number (R13). -/
  ctxs : Table Ctx
  /-- Accelerator sequences by accelerator (R34). -/
  accSeq : Table AccSeq
  /-- The latest verdict published (R159). -/
  verdict : Option Verdict
  /-- Camera ingress ports. -/
  cin : Table CinPort
  /-- Slots of the camera rings that have held a frame, by port, newest first. -/
  slots : Table (List Slot)
  /-- The packets that the transmit ports have sent in the present command, oldest first (R67, R81). -/
  tx : List TxPkt
  /-- Seed patch library entries marked not valid until regenerated (R80). -/
  plibBad : Table (List (Nat × Nat))
  /-- Open evidence frames by 16 × port + virtual channel. -/
  evOpen : Table (Option EvFrame)
  /-- Evidence slots held, by 64 × port + slot: context and ordinal (R107). -/
  evSlots : Table (Option (Nat × Nat))
  /-- The tick in which a port's silence timer last started (R108). -/
  evTimer : Table Nat
  /-- Whether a port's silence timer runs (R108). -/
  evTimerOn : Table Bool
  /-- Processors by HARTID (R240). -/
  harts : Table Hart
  /-- Instructions retired since the processor's reset, by HARTID, each with its weight (R240, R262). -/
  instret : Table DWord
  /-- The VP2 queue of decoder and agreement entries (R142). -/
  vp2 : Vp2
  /-- Parameter records copied at the latest commit, by index (R153). -/
  agParams : Table (List Byte)
  /-- Graph schedulers, engines and tile threads. -/
  gs : Gs
  /-- The tick of the latest reset of the warden die (key 0) and of each compute die (key 1 + d) (R240, R297). -/
  since : Table Nat
  /-- Activity counters and the gleaner. -/
  ct : Ct
  /-- Verdict pairs. -/
  pairs : Table Pair
  /-- Roles that move or restart. -/
  roleMoves : List RoleMove
  /-- The host mailbox. -/
  mbx : Mailbox
  /-- Retained words flagged by their detection code, by offset (R323, R325). -/
  retFlag : Table Bool
  /-- The fault collector. -/
  fc : Fc
  /-- The watchdogs and the periodic tests. -/
  wd : Wd
  /-- The DMA engine, regeneration and the CRC units. -/
  dma : Dma
  /-- The time base and its servo. -/
  tm : Tm
  /-- Ethernet. -/
  eth : Eth
  /-- Reasons of the in-band interrupt that waits on I3CT, shown in I3C_T_STAT.mdb: bit 0 response, bit 1 fault (R430). -/
  ibi : Nat
  /-- The I3C ports. -/
  i3c : I3c
  /-- The xSPI ports. -/
  xsp : Xsp
  /-- Host interrupts raised: bit 0 the Verdict Unit (R33), bit 1 + d the graph scheduler of die d (R235). -/
  hostIrq : Nat
  /-- The Melhan link. -/
  ml : Ml
  /-- Fuses, keys, sessions and attestation. -/
  sec : Sec
  /-- The boot chain, the parameter set's flash copies and the update. -/
  boot : Boot
  /-- The xSPI devices (R432): byte a of device k under key k × 2^33 + a; device 0 XSPI0 CS0, 1 XSPI0 CS1, 2 XSPI1 CS0, 3 XSPI1 CS1. -/
  flash : Table Byte
  /-- Compute dies in partial reset: one more than the tick in which it started, 0 otherwise (R497). -/
  dieReset : Table Nat
  /-- What holds the device in reset (R344, R531, R534, R537): bit 0 PORST_N, bit 1 a rail below its threshold, bit 2 the thermal trip. -/
  holds : Nat
  /-- Rails that have fallen below their reset threshold in the present hold, one bit a rail (R531). -/
  railsLow : Nat
  /-- A Safety Parameter Set has been committed since reset, so RWL registers are locked (R6, R491). -/
  committed : Bool
  /-- One more than the tick of the latest commit that passed (R366, R491). -/
  spsTick : Nat
  /-- Write-protected ranges of the committed set, start and length: graph images, agreement programs, their directory entries (R144, R206). -/
  protect : List (Nat × Nat)
  /-- Safety inputs. -/
  sioIn : Table SioIn
  /-- Safe outputs. -/
  sioOut : Table SioOut
  /-- Running accelerator commands, by accelerator. -/
  accCmd : Table AccCmd
  /-- The loop-back test that runs (R513); its settings stand in SYS_LB_CFG. -/
  lb : Option LbRun
  /-- The current JTAG instruction (R518): after TAP reset BYPASS (log 25). -/
  jtag : Nat
  /-- The boundary register, one bit a ball on VDDIO_18 (R518). -/
  boundary : Nat
  deriving DecidableEq, Repr

/-- The machine right after reset: every register word at its reset value (none is listed), memory with
nothing listed, every block idle. -/
def State.reset : State :=
  { pending := [],
    tick := 0,
    free := 0,
    regs := [],
    latch := [],
    held := [],
    mem := [],
    lost := [],
    g6Hot := [],
    resp := .ok,
    rdata := [],
    evt := [],
    vdBusy := none,
    soutReq := [],
    enabled := [],
    ctxs := [],
    accSeq := [],
    verdict := none,
    cin := [],
    slots := [],
    tx := [],
    plibBad := [],
    evOpen := [],
    evSlots := [],
    evTimer := [],
    evTimerOn := [],
    harts := [],
    instret := [],
    vp2 := ⟨[], none⟩,
    agParams := [],
    gs := Gs.reset,
    since := [],
    ct := Ct.reset,
    pairs := [],
    roleMoves := [],
    mbx := Mailbox.reset,
    retFlag := [],
    fc := Fc.reset,
    wd := Wd.reset,
    dma := Dma.reset,
    tm := Tm.reset,
    eth := Eth.reset,
    ibi := 0,
    i3c := ⟨false, false, none, []⟩,
    xsp := ⟨[], [], []⟩,
    hostIrq := 0,
    ml := Ml.reset,
    sec := Sec.reset,
    boot := Boot.reset,
    flash := [],
    dieReset := [],
    holds := 0,
    railsLow := 0,
    committed := false,
    spsTick := 0,
    protect := [],
    sioIn := [],
    sioOut := [],
    accCmd := [],
    lb := none,
    jtag := 0xFF,
    boundary := 0 }

end Sys2Proof.Machine
end

