-- ==== Sys2Proof/Machine/Ops.lean ====
section
/-! DEFINITION. The named operations every command is written with: sparse tables, register words and
fields, 64-bit registers, saturating counts, memory by physical byte, free values, the bus response, and
the passing of time. -/

namespace Sys2Proof.Machine

open Sys2Proof

/-! ### One field of the state replaced -/

namespace State

/-- The state with `pending` replaced. -/
def withPending (s : State) (x : List Instr) : State := { s with pending := x }

/-- The state with `tick` replaced. -/
def withTick (s : State) (x : Nat) : State := { s with tick := x }

/-- The state with `free` replaced. -/
def withFree (s : State) (x : Nat) : State := { s with free := x }

/-- The state with `regs` replaced. -/
def withRegs (s : State) (x : Table Word) : State := { s with regs := x }

/-- The state with `latch` replaced. -/
def withLatch (s : State) (x : Table (Option Word)) : State := { s with latch := x }

/-- The state with `held` replaced. -/
def withHeld (s : State) (x : Table Word) : State := { s with held := x }

/-- The state with `mem` replaced. -/
def withMem (s : State) (x : Table Byte) : State := { s with mem := x }

/-- The state with `lost` replaced. -/
def withLost (s : State) (x : Table Bool) : State := { s with lost := x }

/-- The state with `g6Hot` replaced. -/
def withG6Hot (s : State) (x : Table Bool) : State := { s with g6Hot := x }

/-- The state with `resp` replaced. -/
def withResp (s : State) (x : Resp) : State := { s with resp := x }

/-- The state with `rdata` replaced. -/
def withRdata (s : State) (x : List Nat) : State := { s with rdata := x }

/-- The state with `evt` replaced. -/
def withEvt (s : State) (x : Table (Nat × Nat)) : State := { s with evt := x }

/-- The state with `vdBusy` replaced. -/
def withVdBusy (s : State) (x : Option (Nat × Nat)) : State := { s with vdBusy := x }

/-- The state with `soutReq` replaced. -/
def withSoutReq (s : State) (x : Table Nat) : State := { s with soutReq := x }

/-- The state with `enabled` replaced. -/
def withEnabled (s : State) (x : List Nat) : State := { s with enabled := x }

/-- The state with `ctxs` replaced. -/
def withCtxs (s : State) (x : Table Ctx) : State := { s with ctxs := x }

/-- The state with `accSeq` replaced. -/
def withAccSeq (s : State) (x : Table AccSeq) : State := { s with accSeq := x }

/-- The state with `verdict` replaced. -/
def withVerdict (s : State) (x : Option Verdict) : State := { s with verdict := x }

/-- The state with `cin` replaced. -/
def withCin (s : State) (x : Table CinPort) : State := { s with cin := x }

/-- The state with `slots` replaced. -/
def withSlots (s : State) (x : Table (List Slot)) : State := { s with slots := x }

/-- The state with `tx` replaced. -/
def withTx (s : State) (x : List TxPkt) : State := { s with tx := x }

/-- The state with `plibBad` replaced. -/
def withPlibBad (s : State) (x : Table (List (Nat × Nat))) : State := { s with plibBad := x }

/-- The state with `evOpen` replaced. -/
def withEvOpen (s : State) (x : Table (Option EvFrame)) : State := { s with evOpen := x }

/-- The state with `evSlots` replaced. -/
def withEvSlots (s : State) (x : Table (Option (Nat × Nat))) : State := { s with evSlots := x }

/-- The state with `evTimer` replaced. -/
def withEvTimer (s : State) (x : Table Nat) : State := { s with evTimer := x }

/-- The state with `evTimerOn` replaced. -/
def withEvTimerOn (s : State) (x : Table Bool) : State := { s with evTimerOn := x }

/-- The state with `harts` replaced. -/
def withHarts (s : State) (x : Table Hart) : State := { s with harts := x }

/-- The state with `instret` replaced. -/
def withInstret (s : State) (x : Table DWord) : State := { s with instret := x }

/-- The state with `vp2` replaced. -/
def withVp2 (s : State) (x : Vp2) : State := { s with vp2 := x }

/-- The state with `agParams` replaced. -/
def withAgParams (s : State) (x : Table (List Byte)) : State := { s with agParams := x }

/-- The state with `gs` replaced. -/
def withGs (s : State) (x : Gs) : State := { s with gs := x }

/-- The state with `since` replaced. -/
def withSince (s : State) (x : Table Nat) : State := { s with since := x }

/-- The state with `ct` replaced. -/
def withCt (s : State) (x : Ct) : State := { s with ct := x }

/-- The state with `pairs` replaced. -/
def withPairs (s : State) (x : Table Pair) : State := { s with pairs := x }

/-- The state with `roleMoves` replaced. -/
def withRoleMoves (s : State) (x : List RoleMove) : State := { s with roleMoves := x }

/-- The state with `mbx` replaced. -/
def withMbx (s : State) (x : Mailbox) : State := { s with mbx := x }

/-- The state with `retFlag` replaced. -/
def withRetFlag (s : State) (x : Table Bool) : State := { s with retFlag := x }

/-- The state with `fc` replaced. -/
def withFc (s : State) (x : Fc) : State := { s with fc := x }

/-- The state with `wd` replaced. -/
def withWd (s : State) (x : Wd) : State := { s with wd := x }

/-- The state with `dma` replaced. -/
def withDma (s : State) (x : Dma) : State := { s with dma := x }

/-- The state with `tm` replaced. -/
def withTm (s : State) (x : Tm) : State := { s with tm := x }

/-- The state with `eth` replaced. -/
def withEth (s : State) (x : Eth) : State := { s with eth := x }

/-- The state with `ibi` replaced. -/
def withIbi (s : State) (x : Nat) : State := { s with ibi := x }

/-- The state with `i3c` replaced. -/
def withI3c (s : State) (x : I3c) : State := { s with i3c := x }

/-- The state with `xsp` replaced. -/
def withXsp (s : State) (x : Xsp) : State := { s with xsp := x }

/-- The state with `hostIrq` replaced. -/
def withHostIrq (s : State) (x : Nat) : State := { s with hostIrq := x }

/-- The state with `ml` replaced. -/
def withMl (s : State) (x : Ml) : State := { s with ml := x }

/-- The state with `sec` replaced. -/
def withSec (s : State) (x : Sec) : State := { s with sec := x }

/-- The state with `boot` replaced. -/
def withBoot (s : State) (x : Boot) : State := { s with boot := x }

/-- The state with `flash` replaced. -/
def withFlash (s : State) (x : Table Byte) : State := { s with flash := x }

/-- The state with `holds` replaced. -/
def withHolds (s : State) (x : Nat) : State := { s with holds := x }

/-- The state with `railsLow` replaced. -/
def withRailsLow (s : State) (x : Nat) : State := { s with railsLow := x }

/-- The state with `committed` replaced. -/
def withCommitted (s : State) (x : Bool) : State := { s with committed := x }

/-- The state with `spsTick` replaced. -/
def withSpsTick (s : State) (x : Nat) : State := { s with spsTick := x }

/-- The state with `protect` replaced. -/
def withProtect (s : State) (x : List (Nat × Nat)) : State := { s with protect := x }

/-- The state with `sioIn` replaced. -/
def withSioIn (s : State) (x : Table SioIn) : State := { s with sioIn := x }

/-- The state with `sioOut` replaced. -/
def withSioOut (s : State) (x : Table SioOut) : State := { s with sioOut := x }

/-- The state with `accCmd` replaced. -/
def withAccCmd (s : State) (x : Table AccCmd) : State := { s with accCmd := x }

/-- The state with `lb` replaced. -/
def withLb (s : State) (x : Option LbRun) : State := { s with lb := x }

/-- The state with `jtag` replaced. -/
def withJtag (s : State) (x : Nat) : State := { s with jtag := x }

/-- The state with `boundary` replaced. -/
def withBoundary (s : State) (x : Nat) : State := { s with boundary := x }

end State

/-! ### Sparse tables -/

/-- What a table reads at key `k`; `d k` where no pair lists it. -/
def Table.get {α : Type} (d : Nat → α) : Table α → Nat → α
  | [], k => d k
  | (j, v) :: r, k => if j = k then v else Table.get d r k

/-- The table with every pair of key `k` removed. -/
def Table.del {α : Type} : Table α → Nat → Table α
  | [], _ => []
  | (j, v) :: r, k => if j = k then Table.del r k else (j, v) :: Table.del r k

/-- The table with key `k` reading `v`: the pair stands in key order, and a value that an unlisted key
reads as is not listed. -/
def Table.put {α : Type} [DecidableEq α] (d : Nat → α) : Table α → Nat → α → Table α
  | [], k, v => if v = d k then [] else [(k, v)]
  | (j, w) :: r, k, v =>
    if k < j then (if v = d k then Table.del ((j, w) :: r) k else (k, v) :: (j, w) :: r)
    else if k = j then (if v = d k then Table.del r k else (k, v) :: r)
    else (j, w) :: Table.put d r k v

/-- Whether every key of the table lies above `lo`, keys rise strictly, and no pair lists a default. -/
def Table.wfFrom {α : Type} [DecidableEq α] (d : Nat → α) : Option Nat → Table α → Bool
  | _, [] => true
  | lo, (k, v) :: r =>
    (match lo with | none => true | some l => decide (l < k)) && decide (v ≠ d k) && Table.wfFrom d (some k) r

/-- The canonical form of a table. -/
def Table.wf {α : Type} [DecidableEq α] (d : Nat → α) (t : Table α) : Bool := Table.wfFrom d none t

/-! ### Bits -/

/-- Bits `lo + w - 1 : lo` of a number. -/
def bits (v lo w : Nat) : Nat := v / 2 ^ lo % 2 ^ w

/-- The number `v` with bits `lo + w - 1 : lo` replaced by the low `w` bits of `x`. -/
def setBits (v lo w x : Nat) : Nat :=
  v / 2 ^ (lo + w) * 2 ^ (lo + w) + x % 2 ^ w * 2 ^ lo + v % 2 ^ lo

/-- Bit `i` of a number. -/
def bitOf (v i : Nat) : Bool := v / 2 ^ i % 2 = 1

/-- A number read as a signed quantity of `w` bits. -/
def signed (w v : Nat) : Int :=
  let u := v % 2 ^ w
  if 2 * u < 2 ^ w then (u : Int) else (u : Int) - (2 ^ w : Nat)

/-- A signed quantity as a number of `w` bits, wrapping. -/
def unsigned (w : Nat) (i : Int) : Nat := (i % ((2 ^ w : Nat) : Int)).toNat

/-- The little-endian bytes of a number (R4). -/
def leBytes : Nat → Nat → List Byte
  | 0, _ => []
  | n + 1, v => BitVec.ofNat 8 v :: leBytes n (v / 256)

/-- The number that little-endian bytes spell (R4). -/
def leVal : List Byte → Nat
  | [] => 0
  | b :: r => b.toNat + 256 * leVal r

/-- The number that big-endian bytes spell (R4, R326). -/
def beVal (l : List Byte) : Nat := l.foldl (fun a b => a * 256 + b.toNat) 0

/-- The big-endian bytes of a number (R4). -/
def beBytes (n v : Nat) : List Byte := (leBytes n v).reverse

/-! ### Registers -/

namespace State

/-- The register word at byte address `a` (R5). -/
def word (s : State) (a : Nat) : Nat := (Table.get regReset s.regs a).toNat

/-- The state with the register word at `a` holding the low 32 bits of `v`. -/
def setWord (s : State) (a v : Nat) : State :=
  s.withRegs (Table.put regReset s.regs a (BitVec.ofNat 32 v))

/-- A 64-bit register: low word first (R5). -/
def dword (s : State) (a : Nat) : Nat := s.word a + s.word (a + 4) * 2 ^ 32

/-- The state with the 64-bit register at `a` holding `v`. -/
def setDword (s : State) (a v : Nat) : State := (s.setWord a v).setWord (a + 4) (v / 2 ^ 32)

/-- What a register field holds. -/
def f (s : State) (x : Field) : Nat := bits (s.word x.addr) x.lo x.width

/-- Whether a one-bit field is set. -/
def on (s : State) (x : Field) : Bool := s.f x ≠ 0

/-- The state with a register field holding the low bits of `v`. -/
def setF (s : State) (x : Field) (v : Nat) : State :=
  s.setWord x.addr (setBits (s.word x.addr) x.lo x.width v)

/-- The state with a one-bit field set or cleared. -/
def flag (s : State) (x : Field) (b : Bool) : State := s.setF x (bit b)

/-- A count by `n` that stops at its all-ones value and then sets the saturation flag `sat`. -/
def countBy (s : State) (x sat : Field) (n : Nat) : State :=
  let top := 2 ^ x.width - 1
  let v := min (s.f x + n) top
  let s' := s.setF x v
  if v = top then s'.setF sat 1 else s'

/-- A count by one. -/
def count (s : State) (x sat : Field) : State := s.countBy x sat 1

/-- A count by one that stops at its all-ones value and has no saturation flag. -/
def countUp (s : State) (x : Field) : State := s.setF x (min (s.f x + 1) (2 ^ x.width - 1))

/-- Hardware sets W1C bits of the word at `a` in this tick (R7). -/
def hwSet (s : State) (a m : Nat) : State :=
  let (t, b) := Table.get (fun _ => (0, 0)) s.evt a
  let now := if t = s.tick + 1 then b ||| m else m
  if m = 0 then s
  else (s.setWord a (s.word a ||| m)).withEvt (Table.put (fun _ => (0, 0)) s.evt a (s.tick + 1, now))

/-- The state with the response of the latest access or command. -/
def respond (s : State) (r : Resp) : State := s.withResp r

/-- The state with the words an access returned. -/
def returned (s : State) (l : List Nat) : State := s.withRdata l

/-- A free value of `w` bits and the state after drawing it (log 2). -/
def draw (s : State) (w : Nat) : Nat × State := (Config.free s.free % 2 ^ w, (s.withFree (s.free + 1)))

/-! ### Block state in tables -/

/-- The processor with number `h` (R240). -/
def hart (s : State) (h : Nat) : Hart := Table.get (fun _ => Hart.reset) s.harts h

/-- The state with processor `h` replaced. -/
def setHart (s : State) (h : Nat) (x : Hart) : State :=
  s.withHarts (Table.put (fun _ => Hart.reset) s.harts h x)

/-- The state with processor `h` changed by `u`. -/
def modHart (s : State) (h : Nat) (u : Hart → Hart) : State := s.setHart h (u (s.hart h))

/-! ### Time -/

/-- TM_TIME, the time base in ns (R407). -/
def time (s : State) : Nat := s.dword A.TM_TIME

/-- The time base with its fraction, in 2^-32 ns (R407). -/
def timeFull (s : State) : Nat := s.time * 2 ^ 32 + s.word A.TM_FRAC

/-- The time base set to a count of 2^-32 ns, wrapping at 2^64 ns (R407). -/
def setTimeFull (s : State) (v : Nat) : State :=
  (s.setDword A.TM_TIME (v / 2 ^ 32 % 2 ^ 64)).setWord A.TM_FRAC (v % 2 ^ 32)

/-- What one tick adds at rate `r` (R407). -/
def tickInc (r : Int) : Int := 4 * 2 ^ 32 + r

/-- The state at tick `t` (R407, R408, R410, R415): the first tick that ends adds the rate in force and any
accepted step; the ticks after it add TM_RATE.  The replica of a die in partial reset stands still, and a
replica due for reload takes the time base's value.  While the device is held in reset its clocks are gated, and the time base
stays at its reset value (R405, R409).  A tick that has passed already changes nothing. -/
def upto (s : State) (t : Nat) : State :=
  if t ≤ s.tick then s
  else if s.holds ≠ 0 then s.withTick t
  else
    let n := t - s.tick
    let r1 := signed 32 (s.word A.TM_RATE)
    let inc : Int := tickInc s.tm.rate + s.tm.step * 2 ^ 32 + ((n : Int) - 1) * tickInc r1
    let total := unsigned 96 ((s.timeFull : Int) + inc)
    let reps := [0, 1, 2, 3].foldl (fun (l : Table Int) d =>
        if s.tm.reload.contains d then Table.put (fun _ => 0) l d 0
        else if Table.get (fun _ => 0) s.dieReset d ≠ 0 then
          Table.put (fun _ => 0) l d (Table.get (fun _ => 0) l d - inc)
        else l) s.tm.replicas
    (((s.setTimeFull total).withTick t).withTm { s.tm with rate := r1, step := 0, replicas := reps, reload := [] })

/-- Ticks of an interval given in milliseconds (R405: one tick is 4 ns). -/
def ms (n : Nat) : Nat := n * 250000

/-- Ticks of an interval given in microseconds. -/
def us (n : Nat) : Nat := n * 250

/-! ### Memory -/

/-- The regions of the address map (R9, R185). -/
inductive Region where
  | bootRom
  | warden
  | regs
  /-- Core Memory of CORE n. -/
  | coreMem (n : Nat)
  /-- Cluster Memory of cluster k, 0 to 7. -/
  | clusterMem (k : Nat)
  /-- GDDR6 channel c, 0 to 15. -/
  | gddr (c : Nat)
  | unmapped
  deriving DecidableEq, Repr

/-- The interleaved offset of a local-view offset `o` of die `d` (R186, R187). -/
def localToInterleaved (d o : Nat) : Nat :=
  let lc := o / 0x1000 % 4
  let co := o / 0x4000 * 0x1000 + o % 0x1000
  co / 0x1000 * 0x10000 + (4 * d + lc) * 0x1000 + o % 0x1000

/-- The physical address of a byte: a local-view GDDR6 address becomes the interleaved one (R185). -/
def phys (a : Nat) : Nat :=
  if 0x1000000000 ≤ a ∧ a < 0x2000000000 ∧ (a - 0x1000000000) % 0x400000000 < 0xF8000000 then
    0x10000000000 + localToInterleaved ((a - 0x1000000000) / 0x400000000) ((a - 0x1000000000) % 0x400000000)
  else a

/-- The local-view address of the GDDR6 byte at physical address `x` (R186, R187). -/
def localView (x : Nat) : Nat :=
  let o := x - 0x10000000000
  0x1000000000 + 0x400000000 * (o / 0x4000 % 4) + (o / 0x10000 * 0x4000 + o / 0x1000 % 4 * 0x1000 + o % 0x1000)

/-- The physical ranges, as address and length, of the `n` bytes from `b`, in either GDDR6 view: pieces of at most 4 KiB, the
grain of the interleaving (R185, R186). -/
def physSpans (b n : Nat) : List (Nat × Nat) :=
  ((List.range (n / 0x1000 + 2)).map (fun i =>
    let lo := if i = 0 then b else min (b / 0x1000 * 0x1000 + 0x1000 * i) (b + n)
    (phys lo, min (b / 0x1000 * 0x1000 + 0x1000 * (i + 1)) (b + n) - lo))).filter (fun x => x.2 ≠ 0)

/-- The part of range `x` that lies in the `n` bytes from `a`, where there is one. -/
def meetSpan (a n : Nat) (x : Nat × Nat) : List (Nat × Nat) :=
  [(max x.1 a, min (x.1 + x.2) (a + n) - max x.1 a)].filter (fun y => y.2 ≠ 0)

/-- What is left of range `x` without the `n` bytes from `a`. -/
def lessSpan (a n : Nat) (x : Nat × Nat) : List (Nat × Nat) :=
  [(x.1, min (x.1 + x.2) a - x.1), (max x.1 (a + n), x.1 + x.2 - max x.1 (a + n))].filter (fun y => y.2 ≠ 0)

/-- Physical address `x` is one of the `n` bytes from `b`, which lie in either GDDR6 view (R185). -/
def spanHolds (b n x : Nat) : Bool :=
  (Nat.ble b x && Nat.blt x (b + n))
    || (Nat.ble 0x10000000000 x && Nat.ble b (localView x) && Nat.blt (localView x) (b + n))

/-- The channel offset and data block of the GDDR6 byte at physical address `x` (R187, R188). -/
def g6Offset (x : Nat) : Nat := (x - 0x10000000000) / 0x10000 * 0x1000 + x % 0x1000
def g6Block (x : Nat) : Nat := g6Offset x / 256

/-- Where a channel stores that byte, and its block's check word, in groups of 31 data blocks and a check block (R188). -/
def g6DataAddr (x : Nat) : Nat := g6Block x / 31 * 8192 + g6Block x % 31 * 256 + g6Offset x % 256
def g6CheckAddr (x : Nat) : Nat := g6Block x / 31 * 8192 + 31 * 256 + 8 * (g6Block x % 31)

/-- The address tag of that byte's block: its channel, device-wide, and its block number (R188). -/
def g6Tag (x : Nat) : Nat := (x - 0x10000000000) / 0x1000 % 16 * 2 ^ 28 + g6Block x

/-- The region that holds address `a` (R9, R10, R185). -/
def region (a : Nat) : Region :=
  if a < 0x40000 then .bootRom
  else if 0x10000000 ≤ a ∧ a < 0x11000000 then .warden
  else if 0x20000000 ≤ a ∧ a < 0x20110000 then .regs
  else if 0x1000000000 ≤ a ∧ a < 0x2000000000 then
    let d := (a - 0x1000000000) / 0x400000000
    let o := (a - 0x1000000000) % 0x400000000
    if o < 0xF8000000 then .gddr (4 * d + o / 0x1000 % 4)
    else if 0x100000000 ≤ o ∧ o < 0x102000000 then .coreMem (4 * d + (o - 0x100000000) / 0x800000)
    else if 0x110000000 ≤ o ∧ o < 0x112000000 then .clusterMem (2 * d + (o - 0x110000000) / 0x1000000)
    else if 0x300000000 ≤ o ∧ o < 0x301000000 then .regs
    else .unmapped
  else if 0x10000000000 ≤ a ∧ a < 0x103E0000000 then .gddr ((a - 0x10000000000) / 0x1000 % 16)
  else .unmapped

/-- What a byte of memory that nothing has written reads as (log 5; boot ROM: log 3). -/
def memReset (a : Nat) : Byte := if a < 0x40000 then Config.bootRom a else 0

/-- The byte of memory at address `a`, either GDDR6 view (R185). -/
def byte (s : State) (a : Nat) : Byte := Table.get memReset s.mem (phys a)

/-- The state with the byte at `a` written. -/
def setByte (s : State) (a : Nat) (b : Byte) : State := s.withMem (Table.put memReset s.mem (phys a) b)

/-- `n` bytes of memory from address `a`. -/
def bytes (s : State) (a n : Nat) : List Byte := (List.range n).map (fun i => s.byte (a + i))

/-- The state with a list of bytes written from address `a`, as raw contents. -/
def putBytes (s : State) : Nat → List Byte → State
  | _, [] => s
  | a, b :: r => (s.setByte a b).putBytes (a + 1) r

/-- Bytes of the unit a detection code covers at physical address `x`: a GDDR6 data block or an SRAM word (R188, R378). -/
def lostUnit (x : Nat) : Nat := if 0x10000000000 ≤ x then 256 else 8

/-- Whether a write of `n` bytes at `a` covers the whole unit at physical address `x` (R379, R383). -/
def covers (a n x : Nat) : Bool :=
  if phys a = a then decide (a ≤ x ∧ x + lostUnit x ≤ a + n)
  else
    (List.range (n / 256 + 1)).any (fun i =>
      let b := (a + 255) / 256 * 256 + 256 * i
      b + 256 ≤ a + n && phys b = x)

/-- The state with a list of bytes written from address `a`; a whole-unit write ends a loss (R379, R383). -/
def setBytes (s : State) (a : Nat) (l : List Byte) : State :=
  (s.withLost (s.lost.filter (fun p => !covers a l.length p.1))).putBytes a l

/-- A little-endian number of `n` bytes in memory (R4). -/
def memVal (s : State) (a n : Nat) : Nat := leVal (s.bytes a n)

/-- The state with a little-endian number of `n` bytes written. -/
def setMemVal (s : State) (a n v : Nat) : State := s.setBytes a (leBytes n v)

/-! ### The retained block (R323, R324) -/

/-- The retained word at offset `o`. -/
def ret (s : State) (o : Nat) : Nat := s.word (retBase + o)

/-- A retained word is flagged by its detection code. -/
def retBad (s : State) (o : Nat) : Bool := Table.get (fun _ => false) s.retFlag o

/-- Where a lost record `r` of the trace buffer is marked, above every address (R381). -/
def traceKey (r : Nat) : Nat := 2 ^ 50 + r

/-- Where the ticks of hardware sets of SYS_TEST bits of processor `h` are kept, beside those of register words (R7). -/
def testKey (h : Nat) : Nat := 2 ^ 48 + h

/-- The retained word at offset `o` has new check bits. -/
def freshRet (s : State) (o : Nat) : State := s.withRetFlag (Table.put (fun _ => false) s.retFlag o false)

/-- The state with the retained word at offset `o` holding `v`, whose check bits are new with it. -/
def setRet (s : State) (o v : Nat) : State := (s.setWord (retBase + o) v).freshRet o

/-- The state with retained words written from offset `o` (four little-endian bytes a word). -/
def setRetBytes (s : State) : Nat → Nat → List Byte → State
  | _, 0, _ => s
  | o, n + 1, l => (s.setRet o (leVal (l.take 4))).setRetBytes (o + 4) n (l.drop 4)

/-- The state with both copies of a duplicated retained word holding `v` (R325). -/
def setRet2 (s : State) (a b v : Nat) : State := (s.setRet a v).setRet b v

/-- Hardware updates both copies of a duplicated retained word: a core write of the same tick does not (R7, R325). -/
def hwRet2 (s : State) (a b v : Nat) : State :=
  (s.setRet2 a b v).withEvt (Table.put (fun _ => (0, 0)) s.evt (retBase + a) (s.tick + 1, 0))

end State

/-- Memory is in its canonical form: addresses strictly rise and no listed byte equals what an unlisted one reads as. -/
abbrev Memory.wf (s : State) : Prop := Table.wf State.memReset s.mem = true

/-- The register table is in its canonical form. -/
abbrev Registers.wf (s : State) : Prop := Table.wf regReset s.regs = true

/-- Every context committed with en = 1 is one of the 1,024 (R13). -/
def Contexts.inRange (s : State) : Prop := ∀ n ∈ s.enabled, n < 1024

/-- The outcome of a command that completes. -/
abbrev done (s : State) : Host.Outcome State Fault Refusal := .next s

end Sys2Proof.Machine
end

