-- ==== Sys2Proof/Machine/Fault.lean ====
section
/-! DEFINITION. Shared operations of the fault collector and the safe outputs: FAULT_N, the drive of a safe
output, raising a source, first-error capture, reactions, retry events and retirement (R337 to R353, R503). -/

namespace Sys2Proof.Machine

open Sys2Proof

namespace State

/-! ### Activity counters and the Melhan link (R297, R439 to R444) -/

/-- An activity counter as it is held; cycle counters are derived when they are read. -/
def ctHeld (s : State) (code : Nat) : Nat := (Table.get (fun _ => (0 : DWord)) s.ct.counters code).toNat

/-- The counters that are summed with counter `code` over its home die (R297), itself among them. -/
def ctMates (code : Nat) : List Nat :=
  let four (k : Nat) : List Nat := [k / 4 * 4, k / 4 * 4 + 1, k / 4 * 4 + 2, k / 4 * 4 + 3]
  if code < 0x10 then four code
  else if code < 0x18 then [code / 2 * 2, code / 2 * 2 + 1]
  else if code < 0x28 then four code
  else if 0x60 ≤ code then four code
  else []

/-- `n` counted by counter `code`: it wraps at 2^64 and then sets CT_STATUS.wrap, as does a sum of its home die that
wraps (R297, R311). -/
def ctAdd (s : State) (code n : Nat) : State :=
  let v := s.ctHeld code + n
  let sum := if (ctMates code).isEmpty then 0 else ((ctMates code).map s.ctHeld).sum % 2 ^ 64 + n
  let s := s.withCt { s.ct with counters := Table.put (fun _ => 0) s.ct.counters code (BitVec.ofNat 64 v) }
  if 2 ^ 64 ≤ v ∨ 2 ^ 64 ≤ sum then s.setF F.CT_STATUS_wrap 1 else s

/-- The Melhan link is in use: pair operation enabled and the link up (R439, R442). -/
def mlUp (s : State) : Bool := s.on F.ML_CTRL_en && s.on F.ML_STATUS_link

/-- The place of a frame among the frames of one tick (R443): DECISION, STATE, KEYS, LOG, then the others. -/
def mlRank : MlMsg → Nat
  | .decision .. => 0
  | .state _ => 1
  | .keys .. => 2
  | .log _ => 3
  | _ => 4

/-- A frame takes its place among the frames first sent in its own tick; the sequences keep their order (R443). -/
def mlInsert (tick : Nat) (l : List MlFrame) (x : MlFrame) : List MlFrame :=
  let now := l.filter (fun y => y.sentTick = tick && y.sends = 1)
  let before := l.filter (fun y => !(y.sentTick = tick && y.sends = 1))
  let order := now.filter (fun y => mlRank y.msg ≤ mlRank x.msg) ++ x :: now.filter (fun y => mlRank x.msg < mlRank y.msg)
  before ++ (order.zip (now.map MlFrame.seq ++ [x.seq])).map (fun (y, q) => { y with seq := q })

/-- The next frame of a message, with its header (R441). -/
def mlFrame (s : State) (msg : MlMsg) : MlFrame :=
  let sender := s.f F.ML_STATUS_role + 4 * s.f F.SYS_STRAP_pair_role + 8 * s.f F.SYS_SVC_level
  ⟨msg, s.ml.nextSeq, s.time, 1, s.tick, sender, s.f F.ETH_SRC_id⟩

/-- A Melhan frame sent (R441): every frame but ACK and HEARTBEAT waits to be acknowledged (R442). -/
def mlSend (s : State) (msg : MlMsg) : State :=
  if s.mlUp then
    let x := s.mlFrame msg
    let s := s.ctAdd 0x5A 260
    let s := s.withMl { s.ml with nextSeq := (s.ml.nextSeq + 1) % 2 ^ 32 }
    match msg with
    | .heartbeat .. | .ack _ => s
    | _ => s.withMl { s.ml with out := mlInsert s.tick s.ml.out x }
  else s

/-- The device is primary, or single with pair operation off, so it publishes (R447, R448). -/
def leads (s : State) : Bool := !s.on F.ML_CTRL_en || s.f F.ML_STATUS_role = 1

/-- The device is the secondary of a pair (R447). -/
def isSecondary (s : State) : Bool := s.on F.ML_CTRL_en && s.f F.ML_STATUS_role = 2

/-! ### Verdict pairs and roles -/

/-- Pair `v` runs and is not fallow (R321). -/
def pairWorks (s : State) (v : Nat) : Bool := s.f (F.SYS_VP_STAT_state v) = 2 && !s.on (F.SYS_VP_STAT_fallow v)

/-- The number of working pairs (R321). -/
def workingPairs (s : State) : Nat := ([0, 1, 2, 3].filter (fun v => s.pairWorks v)).length

/-- The field of SYS_VP_ROLE that holds role `r` (R336). -/
def roleField (r : Nat) : Field := ⟨A.SYS_VP_ROLE, 4 * r, 4⟩

/-- The pair that holds role `r`, when the placement is valid (R318, R336). -/
def rolePair (s : State) (r : Nat) : Option Nat :=
  let v := s.f (roleField r)
  if bitOf v 3 then some (v % 4) else none

/-- HARTID of pair `v` (R240). -/
def pairHart (v : Nat) : Nat := 2 * v

/-- The external interrupt of pair `v` is pended (R261, R340). -/
def pendExt (s : State) (v : Nat) : State := s.modHart (pairHart v) (fun h => { h with ext := true })

/-- The external interrupt of the pair holding role 3 is pended. -/
def pendRole3 (s : State) : State :=
  match s.rolePair 3 with
  | some v => s.pendExt v
  | none => s

/-! ### FAULT_N and the safe outputs -/

/-- FAULT_N is low (R344, R347): the fault state, the collector's own check, a reset, or no working pair. -/
def faultLow (s : State) : Bool :=
  s.on F.FC_STATUS_fstate || s.fc.selfDiff || s.holds ≠ 0 || s.workingPairs = 0

/-- Some context holds safe output `o` (R37). -/
def soutHeld (s : State) (o : Nat) : Bool := s.soutReq.any (fun p => bitOf p.2 o)

/-- Some input bound to output `o` is not ON (R501). -/
def inputHolds (s : State) (o : Nat) : Bool :=
  (List.range 8).any (fun i => s.on (F.SIO_IN_CFG_en i) && bitOf (s.f (F.SIO_IN_CFG_sout i)) o
    && s.f (F.SIO_IN_STAT_state i) ≠ 1)

/-- The restriction of an unconfirmed Safety Parameter Set holds output `o` (R493, R503). -/
def restricted (s : State) (o : Nat) : Bool := !s.on F.SYS_SPS_STAT_conf && !s.on (F.SIO_OUT_CFG_comm o)

/-- FAULT_N holds output `o` (R503). -/
def fsafeHolds (s : State) (o : Nat) : Bool := s.on (F.SIO_OUT_CFG_fsafe o) && s.faultLow

/-- Every condition of R503, and of R321 that some pair runs, but the test pulse lets output `o` be high. -/
def soutBase (s : State) (o : Nat) : Bool :=
  s.f F.SYS_SVC_level = 1 && s.workingPairs ≠ 0 && s.on (F.SIO_OUT_CFG_en o) && s.on (F.SIO_OUT_CTRL_on o)
    && !s.on (F.SIO_OUT_STAT_latch o) && !s.soutHeld o && !s.inputHolds o && !s.restricted o
    && !s.fsafeHolds o

/-- Safe output `o`'s state beside its registers. -/
def outX (s : State) (o : Nat) : SioOut := Table.get (fun _ => ⟨0, 0, 0⟩) s.sioOut o

/-- The state with safe output `o`'s hidden state replaced. -/
def setOutX (s : State) (o : Nat) (x : SioOut) : State :=
  s.withSioOut (Table.put (fun _ => ⟨0, 0, 0⟩) s.sioOut o x)

/-- The drive and the hold bits of output `o` recomputed (R503, R504): a condition that arises during a test
pulse ends the pulse; a change of level is stamped for the readback window (R505). -/
def driveOut (s : State) (o : Nat) : State :=
  let base := s.soutBase o
  let pulse := s.on (F.SIO_OUT_STAT_pulse o) && base
  let high := base && !pulse
  let hold := 8 * bit (s.soutHeld o) + 4 * bit (s.inputHolds o) + 2 * bit (s.restricted o) + bit (s.fsafeHolds o)
  let was := s.on (F.SIO_OUT_STAT_drive o)
  let s1 := ((s.setF (F.SIO_OUT_STAT_hold o) hold).flag (F.SIO_OUT_STAT_pulse o) pulse).flag (F.SIO_OUT_STAT_drive o) high
  if high = was then s1
  else
    let x := s.outX o
    s1.setOutX o { x with changed := s.tick, periodFrom := if high then s.tick else x.periodFrom }

/-- All four safe outputs recomputed (R503). -/
def driveOuts (s : State) : State := (((s.driveOut 0).driveOut 1).driveOut 2).driveOut 3

/-! ### The gleaner trigger (R307) -/

/-- A trigger of the gleaner arises: the first since the arm is held for its marker, later ones are counted. -/
def ctTrigger (s : State) (src : Nat) : State :=
  if s.ct.mode ≠ 2 then s
  else if s.on F.CT_STATUS_trig || s.ct.marker.isSome then s.count F.CT_TRIG_POS_more F.CT_STATUS_sat
  else s.withCt { s.ct with marker := some (s.tick, src, s.time) }

/-! ### Raising a source -/

end State

/-- What a detecting block gives with a raise (R337, R341). -/
structure Raise where
  src : Nat
  /-- The instance among the source's members, for raises that fall in one tick (R337). -/
  inst : Nat := 0
  detail : Nat := 0
  addr : Nat := 0
  /-- Access type (R341). -/
  acc : Nat := 0
  master : Nat := 0x7FF
  ctx : Nat := 0xFFFF
  seq : Nat := 0
  epoch : Nat := 0
  injected : Bool := false
  /-- The onset of a standing source. -/
  onset : Bool := false

namespace State

/-- The bits of FC_SEV_n that cannot be changed: level and fn of a source marked F*, block where there is no block reset target
(R339), and the chip reset of SYS_PLL (R406). -/
def sevFixed (n : Nat) : Nat :=
  match sourceRow n with
  | none => 4
  | some r => (if r.fixed then 0xE0000010 else 0) + (if r.target then 0 else 4) + (if n = Src.SYS_PLL then 8 else 0)

/-- The severity of source `n` (R339). -/
def sev (s : State) (n : Nat) : Nat := s.f (F.FC_SEV_level n)

/-- The number that a record gives for a master (R341): 11 bits. -/
def masterId (m : Nat) : Nat := m % 0x800

/-- A raise takes the reactions of its mask: an injected one only with FC_INJ.react (R356). -/
def reacts (s : State) (r : Raise) : Bool := !r.injected || s.on F.FC_INJ_react

/-- The 64 bytes of a fault record (R341); byte 27's bit 2 says that a chip reset follows. -/
def faultRecord (s : State) (r : Raise) (merge maxSev : Nat) : List Byte :=
  leBytes 8 s.time ++ leBytes 8 r.addr ++ leBytes 2 r.src ++ leBytes 1 (s.sev r.src) ++ leBytes 1 r.acc
    ++ leBytes 2 (masterId r.master) ++ leBytes 2 merge ++ leBytes 2 r.ctx ++ leBytes 1 maxSev
    ++ leBytes 1 (bit r.injected + 2 * bit r.onset + 4 * bit (s.reacts r && s.on (F.FC_SEV_chip r.src)))
    ++ leBytes 4 r.detail ++ leBytes 4 r.seq ++ leBytes 2 r.epoch ++ leBytes 2 0 ++ leBytes 8 0
    ++ leBytes 15 0 ++ leBytes 1 1

/-- The state with words written from address `a` (four little-endian bytes a word). -/
def setWordBytes (s : State) : Nat → Nat → List Byte → State
  | _, 0, _ => s
  | a, n + 1, l => (s.setWord a (leVal (l.take 4))).setWordBytes (a + 4) n (l.drop 4)

/-- Offset of retained record `k` in the retained block (R324). -/
def recOffset (k : Nat) : Nat := 0x800 + 64 * (k % 32)

/-- Address of retained record `k` (R324). -/
def retRec (k : Nat) : Nat := retBase + recOffset k

/-- The fault record in slot `k` of the retained ring, mirrored to the partner whatever the role (R441, R444). -/
def logRecord (s : State) (k : Nat) : State :=
  s.mlSend (.log (.record k ((List.range 16).flatMap (fun i => leBytes 4 (s.word (retRec k + 4 * i))))))

/-- The merge count (bytes 22 and 23) and the highest severity (byte 26) of the held capture, as FC_CAP shows them (R342). -/
def capMerges (s : State) : Nat × Nat := (bits (s.word (A.FC_CAP0 + 20)) 16 16, bits (s.word (A.FC_CAP0 + 24)) 16 8)

/-- The merge count and the highest severity of the held capture, in FC_CAP and in the retained copy (R342). -/
def setMerges (s : State) (merge maxSev : Nat) : State :=
  let upd (s : State) (base : Nat) : State :=
    let s := s.setWord (base + 20) (setBits (s.word (base + 20)) 16 16 merge)
    s.setWord (base + 24) (setBits (s.word (base + 24)) 16 8 maxSev)
  let o := recOffset s.fc.capSlot
  ((upd (upd s A.FC_CAP0) (retRec s.fc.capSlot)).freshRet (o + 20)).freshRet (o + 24)

/-- A raise of severity `sv` merged into the held capture (R342); a merge count at its all-ones value sets FC_STATUS.sat
(R357). -/
def mergeCap (s : State) (sv : Nat) : State :=
  let n := min (s.capMerges.1 + 1) 0xFFFF
  let s := s.setMerges n (max s.capMerges.2 sv)
  (if n = 0xFFFF then s.setF F.FC_STATUS_sat 1 else s).logRecord s.fc.capSlot

/-- A fault record with another merge count and highest severity. -/
def mergedRec (l : List Byte) (merge maxSev : Nat) : List Byte :=
  l.take 22 ++ leBytes 2 merge ++ (l.drop 24).take 2 ++ leBytes 1 maxSev ++ l.drop 27

/-- A raise that is merged into a capture of an earlier tick is kept as the record that an acknowledgement in this tick would leave
(R341, R343). -/
def noteMerge (s : State) (r : Raise) : State :=
  let sv := s.sev r.src
  if s.fc.ackTick ≠ s.tick + 1 then
    s.withFc { s.fc with ackTick := s.tick + 1, ackRec := s.faultRecord r 0 sv, ackOld := s.capMerges }
  else
    let old := s.fc.ackRec
    let merge := min (leVal ((old.drop 22).take 2) + 1) 0xFFFF
    let mx := max (leVal ((old.drop 26).take 1)) sv
    let osev := leVal ((old.drop 18).take 1)
    let new := if osev < sv ∨ (osev = sv ∧ r.src < leVal ((old.drop 16).take 2)) then s.faultRecord r merge mx
      else mergedRec old merge mx
    s.withFc { s.fc with ackRec := new }

/-- A new capture, of the 64 bytes of a record, in FC_CAP and in the retained ring (R341). -/
def putCap (s : State) (rec64 : List Byte) : State :=
  let slot := s.ret 0x48 % 32
  let held := bits (s.ret 0x48) 8 6
  let s := (s.setWordBytes A.FC_CAP0 16 rec64).setRetBytes (recOffset slot) 16 rec64
  let s := s.setRet 0x48 (setBits (setBits (s.ret 0x48) 0 5 ((slot + 1) % 32)) 8 6 (min (held + 1) 32))
  let s := (s.setF F.FC_STATUS_cap 1).withFc { s.fc with capTick := s.tick + 1, capSlot := slot }
  s.logRecord slot

/-- A new capture of a raise (R341). -/
def newCap (s : State) (r : Raise) (merge maxSev : Nat) : State := s.putCap (s.faultRecord r merge maxSev)

/-- Capture or merge of a raise (R341, R342).  Of several raises in one tick the capture takes the one of
highest severity, then of lowest source number, and merges the rest. -/
def capture (s : State) (r : Raise) : State :=
  let sv := s.sev r.src
  if !s.on F.FC_STATUS_cap then s.newCap r 0 sv
  else
    let capSrc := bits (s.word (A.FC_CAP0 + 16)) 0 16
    let capSev := bits (s.word (A.FC_CAP0 + 16)) 16 8
    if s.fc.capTick ≠ s.tick + 1 then (s.noteMerge r).mergeCap sv
    else if capSev < sv ∨ (capSev = sv ∧ r.src < capSrc) then
      let merge := min (bits (s.word (A.FC_CAP0 + 20)) 16 16 + 1) 0xFFFF
      let mx := max (bits (s.word (A.FC_CAP0 + 24)) 16 8) sv
      let rec64 := s.faultRecord r merge mx
      ((s.setWordBytes A.FC_CAP0 16 rec64).setRetBytes (recOffset s.fc.capSlot) 16 rec64).logRecord s.fc.capSlot
    else s.mergeCap sv

/-- The fault state is entered or, while it holds, its quiet period starts again (R344, R345).  Before
SYS_SVC.level first becomes 1 no quiet period runs (R346). -/
def enterFault (s : State) (fn : Bool) (sv : Nat) : State :=
  let restart (s : State) : State :=
    match s.fc.quietStart with
    | none => s
    | some _ => s.withFc { s.fc with quietStart := some s.tick }
  if s.on F.FC_STATUS_fstate then
    if s.f F.FC_QUIET_sev ≤ sv then restart s else s
  else if fn then restart (s.setF F.FC_STATUS_fstate 1)
  else s

/-- A non-maskable trap request to pair `v` (R260, R317): a pair that cannot take it passes it to the pair
holding role 3, or, when that is the same pair, to the lowest-numbered running pair. -/
def nmiTo (s : State) (v : Nat) : State :=
  let send (v : Nat) : State := s.modHart (pairHart v) (fun h => { h with nmi := true })
  if s.pairWorks v then send v
  else
    match s.rolePair 3 with
    | some w =>
      if w ≠ v ∧ s.pairWorks w then send w
      else
        match [0, 1, 2, 3].find? (fun u => s.pairWorks u) with
        | some u => send u
        | none => s
    | none =>
      match [0, 1, 2, 3].find? (fun u => s.pairWorks u) with
      | some u => send u
      | none => s

/-- A chip reset due 2 µs after the raise takes the place of every pending block reset (R340). -/
def requestChipReset (s : State) : State :=
  match s.fc.chipDue with
  | some _ => s.withFc { s.fc with blockReset := 0 }
  | none => s.withFc { s.fc with chipDue := some (s.tick + us 2), blockReset := 0 }

/-- A processor whose double fault asks for its restart is noted (R340): the restart is that of its own block. -/
def noteDouble (s : State) (r : Raise) : State :=
  if r.src = Src.CORE_DOUBLE && s.reacts r && s.on (F.FC_SEV_block r.src) && s.fc.chipDue.isNone && !s.fc.doubles.contains r.inst then
    s.withFc { s.fc with doubles := s.fc.doubles ++ [r.inst] }
  else s

/-- The reactions of a raise in the order of R340 (capture comes before them); an injected raise without
FC_INJ.react takes only the irq reaction (R356), and restarts a quiet period as any raise of its severity does (R345). -/
def react (s : State) (r : Raise) : State :=
  let all := s.reacts r
  let n := r.src
  let sv := s.sev n
  let s := s.enterFault (all && s.on (F.FC_SEV_fn n)) sv
  let s := if s.on (F.FC_SEV_irq n) then
      (((s.setF F.FC_STATUS_irq 1).pendRole3).withIbi (s.ibi ||| 2)) else s
  let s := if all && s.on (F.FC_SEV_nmi n) then s.nmiTo (s.f (F.FC_SEV_tgt n)) else s
  let s := if all && s.on (F.FC_SEV_block n) && s.fc.chipDue.isNone && n < 384 then
      (s.withFc { s.fc with blockReset := s.fc.blockReset ||| BitVec.ofNat 384 (2 ^ n) }) else s
  if all && s.on (F.FC_SEV_chip n) then s.requestChipReset else s

/-- The pending bit of source `n` (R337). -/
def pendField (n : Nat) : Field := ⟨A.FC_PEND (n / 32), n % 32, 1⟩

/-- A lower instance's detail in the capture that this tick's raise of the source has made, or would make after an
acknowledgement (R337, R343). -/
def detailCap (s : State) (r : Raise) : State :=
  if s.fc.capTick = s.tick + 1 ∧ bits (s.word (A.FC_CAP0 + 16)) 0 16 = r.src then
    ((s.setWord (A.FC_CAP0 + 28) r.detail).setWord (retRec s.fc.capSlot + 28) r.detail).logRecord s.fc.capSlot
  else if s.fc.ackTick = s.tick + 1 ∧ leVal ((s.fc.ackRec.drop 16).take 2) = r.src then
    s.withFc { s.fc with ackRec := s.fc.ackRec.take 28 ++ leBytes 4 r.detail ++ s.fc.ackRec.drop 32 }
  else s

/-- A raise of a source (R337): several detections of one source in one tick form one raise that carries the
detail of the lowest instance; otherwise it is counted, its pending bit set, captured or merged, its
reactions taken, and it may take the gleaner trigger (R307). -/
def raise (s : State) (r : Raise) : State :=
  if (sourceRow r.src).isNone then s
  else if Table.get (fun _ => 0) s.fc.lastRaise r.src = s.tick + 1 then
    if r.inst < Table.get (fun _ => 0) s.fc.lastInst r.src then
      let s := s.withFc { s.fc with lastInst := Table.put (fun _ => 0) s.fc.lastInst r.src r.inst }
      (((s.setF (F.FC_CNT_last r.src) r.detail).detailCap r).noteDouble r)
    else s.noteDouble r
  else
    let s := (s.withFc { s.fc with
      lastRaise := Table.put (fun _ => 0) s.fc.lastRaise r.src (s.tick + 1)
      lastInst := Table.put (fun _ => 0) s.fc.lastInst r.src r.inst })
    let s := (s.count (F.FC_CNT_count r.src) F.FC_STATUS_sat).setF (F.FC_CNT_last r.src) r.detail
    let s := s.hwSet (A.FC_PEND (r.src / 32)) (2 ^ (r.src % 32))
    let s := ((s.capture r).react r).noteDouble r
    let s := if s.on F.CT_TRIG_fault && s.f F.CT_TRIG_sev ≤ s.sev r.src then s.ctTrigger r.src else s
    s.driveOuts

/-- Whether standing source `n` is in its condition. -/
def isStanding (s : State) (n : Nat) : Bool := n < 384 && bitOf s.fc.standing.toNat n

/-- A standing source's condition begins: counted and captured only at the onset (R337). -/
def raiseStanding (s : State) (r : Raise) : State :=
  if s.isStanding r.src then s
  else
    (s.withFc { s.fc with standing := s.fc.standing ||| BitVec.ofNat 384 (2 ^ r.src) }).raise { r with onset := true }

/-- A standing source's condition ends; a quiet period can begin only now (R345). -/
def endStanding (s : State) (n : Nat) : State :=
  if s.isStanding n then
    (s.withFc { s.fc with
      standing := s.fc.standing &&& ~~~ BitVec.ofNat 384 (2 ^ n)
      quietStart := s.fc.quietStart.map (fun _ => s.tick) })
  else s

/-! ### Retry events and retirement (R348 to R353) -/

/-- The key of item `num` of kind `kind` (R354). -/
def itemKey (kind num : Nat) : Nat := kind * 4096 + num

/-- The FC_RETRY_k that carries the budget of an item of kind `kind` (R348, R354). -/
def budgetIdx (kind : Nat) : Nat := if kind ≤ 3 then kind - 1 else if kind ≤ 6 then 3 else kind - 3

/-- The fallow bit of an item in its own block, where a register shows it (R350). -/
def fallowField (kind num : Nat) : Option Field :=
  match kind with
  | 1 => some ⟨A.CX_CORE (num / 64) (num / 16 % 4), num % 16, 1⟩
  | 2 => some (F.CX_CORE_fallow (num / 4) (num % 4))
  | 3 => some (F.CX_G6_fallow (num / 4) (num % 4))
  | 4 => some (F.FP_CIN_STAT_fallow num)
  | 5 => some (F.EV_EIN_STAT_fallow num)
  | 8 => some (if num < 16 then ⟨A.CX_LINK (num / 4), num % 4, 1⟩
               else ⟨A.CX_LINK ((num - 16) / 8), 8 + (num - 16) % 8, 1⟩)
  | 9 => some (F.SYS_VP_STAT_fallow num)
  | _ => none

/-- Item `num` of kind `kind` is fallow in its block. -/
def isFallow (s : State) (kind num : Nat) : Bool :=
  match fallowField kind num with
  | some x => s.on x
  | none => Table.get (fun _ => false) s.fc.portFallow (itemKey kind num)

/-- A core of die `d` is under test: its die runs, and neither is fallow. -/
def coreTested (s : State) (c : Nat) : Bool :=
  s.f (F.SYS_DIE_state (c / 4)) = 4 && !s.on (F.CX_STATUS_die_fallow (c / 4)) && !s.on (F.CX_CORE_fallow (c / 4) (c % 4))

/-- The periodic tests of CORE `c`. -/
def coreT (s : State) (c : Nat) : CoreTest := Table.get (fun _ => CoreTest.reset) s.wd.tests c

/-- Engine `e` of CORE `c` is fallow. -/
def engFallow (s : State) (c e : Nat) : Bool := bitOf (s.f (F.CX_CORE_eng_fallow (c / 4) (c % 4))) e

/-- The tick of the last completed slice of an engine, or of the die's start. -/
def sliceDone (s : State) (c e : Nat) : Nat :=
  max (Table.get (fun _ => 0) (s.coreT c).sliceDone e) (Table.get (fun _ => 0) s.since (1 + c / 4))

/-- The tick of the last completed known-answer test, or of the die's start. -/
def katDone (s : State) (c : Nat) : Nat := max (s.coreT c).katDone (Table.get (fun _ => 0) s.since (1 + c / 4))

/-- WD_ST_AGE_d as it reads (R374): the greatest ages reached since the last clear, those of this tick among them. -/
def agesNow (s : State) (d word : Nat) : Nat :=
  let cores := (List.range 4).map (4 * d + ·)
  let age (m t : Nat) : Nat := max m (min ((s.tick - t) / 2500) 0xFFFF)
  let tested := cores.filter s.coreTested
  let logic := tested.foldl (fun m c =>
    ((List.range 16).filter (fun e => !s.engFallow c e)).foldl (fun m e => age m (s.sliceDone c e)) m) (bits word 16 16)
  let kat := tested.foldl (fun m c => age m (s.katDone c)) (bits word 0 16)
  logic * 2 ^ 16 + kat

/-- The greatest ages of die `d` are kept before an item of it leaves service (R374). -/
def notePeak (s : State) (d : Nat) : State := s.setWord (A.WD_ST_AGE d) (s.agesNow d (s.word (A.WD_ST_AGE d)))

/-- What the Core Memory of CORE `n` holds is lost (R351, log 26). -/
def dropCoreMem (s : State) (n : Nat) : State :=
  (s.withMem (s.mem.filter (fun p => region p.1 ≠ .coreMem n))).withLost (s.lost.filter (fun p => region p.1 ≠ .coreMem n))

/-- What leaves service with an engine (kind 1) or a core (kind 2): the ages reached are kept, and the Core Memory of a core is
lost (R351, R374). -/
def leaveService (s : State) (kind num : Nat) : State :=
  match kind with
  | 1 => s.notePeak (num / 64)
  | 2 => (s.notePeak (num / 4)).dropCoreMem num
  | _ => s

/-- The item's fallow bit set or cleared in its block. -/
def setFallow (s : State) (kind num : Nat) (b : Bool) : State :=
  let s := if b && !s.isFallow kind num then s.leaveService kind num else s
  match fallowField kind num with
  | some x => s.flag x b
  | none => s.withFc { s.fc with portFallow := Table.put (fun _ => false) s.fc.portFallow (itemKey kind num) b }

/-- The warden link to die `d` has a working lane group (R191). -/
def wardenLinkUp (s : State) (d : Nat) : Bool := s.f (F.CX_LINK_wl_fallow d) ≠ 0xF

/-- The ring hop from die `h` to die `(h + 1) mod 4` is usable (R192). -/
def hopUp (s : State) (h : Nat) : Bool := s.f (F.CX_LINK_up_fallow (h % 4)) ≠ 0xFF

/-- The route from die `a` to die `b` over the ring is usable (R192). -/
def ringRoute (s : State) (a b : Nat) : Bool :=
  let k := (b + 4 - a % 4) % 4
  match k with
  | 0 => true
  | 1 => s.hopUp a || (s.hopUp (a + 3) && s.hopUp (a + 2) && s.hopUp (a + 1))
  | 2 => (s.hopUp a && s.hopUp (a + 1)) || (s.hopUp (a + 3) && s.hopUp (a + 2))
  | _ => s.hopUp (a + 3) || (s.hopUp a && s.hopUp (a + 1) && s.hopUp (a + 2))

/-- A route reaches die `d` from the warden (R192). -/
def dieReached (s : State) (d : Nat) : Bool :=
  s.wardenLinkUp d || (s.wardenLinkUp ((d + 1) % 4) && s.ringRoute ((d + 1) % 4) d)

/-- CORE n counts as fallow: retired, or all its engines are fallow (R351). -/
def coreFallow (s : State) (n : Nat) : Bool := s.on (F.CX_CORE_fallow (n / 4) (n % 4))

/-- Conditions under which FC_RETIRE stands (R353): a fallow channel, an unreachable die, or both Ethernet
ports fallow. -/
def lossOfFunction (s : State) : Bool :=
  (List.range 16).any (fun c => s.isFallow 3 c) || [0, 1, 2, 3].any (fun d => !s.dieReached d)
    || (s.isFallow 7 0 && s.isFallow 7 1)

/-- The detail of FC_RETIRE where its condition begins without a retirement, at a start-up with items on the list (log 160): the
first listed channel, lane group or Ethernet port. -/
def lossDetail (s : State) : Nat :=
  ((s.fc.fallow.find? (fun x => x.1 = 3 || x.1 = 8 || x.1 = 7)).map (fun x => x.1 * 2 ^ 24 + x.2)).getD 0

/-- CX_STATUS.die_fallow of every die (R352): unreachable, or its four cores fallow.  The watchdog of a die that is fallow no
longer counts from this tick (R365). -/
def updateDies (s : State) : State :=
  [0, 1, 2, 3].foldl (fun s d =>
    let now := !s.dieReached d || [0, 1, 2, 3].all (fun c => s.on (F.CX_CORE_fallow d c))
    let s := if now && !s.on (F.CX_STATUS_die_fallow d) then s.notePeak d else s
    let s := if s.on (F.CX_STATUS_die_fallow d) && !now then
        (s.withWd { s.wd with dieBack := Table.put (fun _ => 0) s.wd.dieBack d s.tick }).setDword (A.WD_REF (5 + d)) s.time
      else s
    s.flag (F.CX_STATUS_die_fallow d) now) s

/-- The consequences of a change of fallow items: a core whose engines are all fallow counts as fallow
(R351), CX_UNREACH (R352), FC_RETIRE as a standing source (R353). -/
def afterFallow (s : State) : State :=
  let s := (List.range 16).foldl (fun s n =>
    if s.f (F.CX_CORE_eng_fallow (n / 4) (n % 4)) = 0xFFFF then s.setFallow 2 n true
    else s) s
  let s := [0, 1, 2, 3].foldl (fun s d =>
    if s.dieReached d then s.endStanding (Src.CX_UNREACH d)
    else s.raiseStanding { src := Src.CX_UNREACH d, inst := d }) s
  let s := s.updateDies
  let s := if s.lossOfFunction then s.raiseStanding { src := Src.FC_RETIRE, detail := s.lossDetail }
    else s.endStanding Src.FC_RETIRE
  let s := s.flag F.FP_STATUS_fallow_any ((List.range 16).any (fun p => s.isFallow 4 p) || (List.range 8).any (fun p => s.isFallow 6 p))
  let s := s.flag F.EV_STATUS_fallow_any ([0, 1, 2, 3].any (fun e => s.isFallow 5 e))
  s.driveOuts

/-- An item added to the persisted fallow list (R350, R489); a list of 1,023 entries takes no further one.
The number says whether it was refused. -/
def listFallow (s : State) (kind num : Nat) : State × Bool :=
  if s.fc.fallow.contains (kind, num) then (s, false)
  else if 1023 ≤ s.fc.fallow.length then (s, true)
  else ((s.withFc { s.fc with fallow := s.fc.fallow ++ [(kind, num)] }).mlSend (.log (.fallow kind num true)), false)

/-- An item taken off the persisted fallow list (R39, R330); its partner's mirror follows (R444). -/
def unlist (s : State) (kind num : Nat) : State :=
  if s.fc.fallow.contains (kind, num) then
    (s.withFc { s.fc with fallow := s.fc.fallow.filter (· ≠ (kind, num)) }).mlSend (.log (.fallow kind num false))
  else s

/-- Retirement of an item (R350). -/
def retire (s : State) (kind num : Nat) : State :=
  let s := s.setFallow kind num true
  let (s, full) := s.listFallow kind num
  let s := s.raise { src := Src.FC_RETIRE, inst := itemKey kind num, detail := kind * 2 ^ 24 + bit full * 2 ^ 23 + num,
                     onset := s.lossOfFunction && !s.isStanding Src.FC_RETIRE }
  let s := if s.lossOfFunction then
      s.withFc { s.fc with standing := s.fc.standing ||| BitVec.ofNat 384 (2 ^ Src.FC_RETIRE) } else s
  let s := (s.setF F.FC_RETIRE_LAST_kind kind).setF F.FC_RETIRE_LAST_number num
  let s := s.count F.FC_RETIRE_LAST_count F.FC_STATUS_sat
  let s := s.withFc { s.fc with returning := s.fc.returning.filter (· ≠ (kind, num)) }
  s.afterFallow

/-- The retry events of an item within the window that ends in the present tick (R349). -/
def recentRetries (s : State) (kind num : Nat) : List Nat :=
  (Table.get (fun _ => []) s.fc.history (itemKey kind num)).filter
    (fun t => s.tick - t ≤ ms (s.f (F.FC_RETRY_window_ms (budgetIdx kind))))

/-- One retry event charged against an item (R349): none for a fallow item, one at most in a tick; reaching
the budget retires it. -/
def retryEvent (s : State) (kind num : Nat) : State :=
  if s.isFallow kind num then s
  else
    let old := s.recentRetries kind num
    if old.contains s.tick then s
    else
      let now := old ++ [s.tick]
      let s := s.withFc { s.fc with history := Table.put (fun _ => []) s.fc.history (itemKey kind num) now }
      if s.f (F.FC_RETRY_budget (budgetIdx kind)) ≤ now.length then s.retire kind num else s

/-! ### Injection (R355, R356) -/

/-- Injections that remain (R355). -/
def injLeft (s : State) : Nat := if s.on F.FC_INJ_arm then s.f F.FC_INJ_count - s.f F.FC_INJ_done else 0

/-- An armed injection of class `cls` meets the next check of instance `inst`. -/
def injHits (s : State) (cls inst : Nat) : Bool :=
  s.injLeft ≠ 0 && s.f F.FC_INJ_cls = cls && s.f F.FC_INJ_inst = inst

/-- One injection made: done counts, sat marks its all-ones value (R357), and arm reads 0 once none remains (R355). -/
def injMade (s : State) : State :=
  let s := s.count F.FC_INJ_done F.FC_STATUS_sat
  if s.f F.FC_INJ_count ≤ s.f F.FC_INJ_done then s.setF F.FC_INJ_arm 0 else s

/-- A check of class `cls` in instance `inst` is made: whether an injection meets it, and the state after it (R355). -/
def injCheck (s : State) (cls inst : Nat) : Bool × State := if s.injHits cls inst then (true, s.injMade) else (false, s)

/-! ### Duplicated retained words (R325) -/

/-- The offset of copy B of a duplicated retained word, from that of copy A. -/
def dupOf (o : Nat) : Option Nat :=
  if o = 0x008 ∨ o = 0x010 ∨ o = 0x040 then some (o + 4)
  else if 0x020 ≤ o ∧ o < 0x030 then some (o + 0x10)
  else none

/-- What a word takes when both copies are flagged: counts saturated, boot_att and last_cause 0xFF; of wd_cause the bytes of
watchdogs 0 to 8 (R324, R325). -/
def retSat (o : Nat) : Nat :=
  if o = 0x010 then 0xFFFF else if o = 0x020 ∨ o = 0x024 then 0xFFFFFFFF else if o = 0x02C then 0 else 0xFF

/-- The read of a duplicated word from copy A: flagged, or met by an injection of class 10, it is restored from copy B, or both
are saturated, and SYS_RET_ERR is raised (R325, R355, R356). -/
def mendDup (s : State) (a : Nat) : State :=
  match dupOf a with
  | none => s
  | some b =>
    let (hit, s) := s.injCheck 10 0
    if hit || s.retBad a then
      let v := if s.retBad b then retSat a else s.ret b
      (s.hwRet2 a b v).raise { src := Src.SYS_RET_ERR, detail := a, injected := hit }
    else s

end State

end Sys2Proof.Machine
end

