-- ==== Sys2Proof/Machine/Access.lean ====
section
/-! DEFINITION. What refuses an access to memory (R11, R12, R144, R190, R206), and a write by the ZW16's own logic. -/

namespace Sys2Proof.Machine

open Sys2Proof

namespace State

/-- A committed image, program or directory entry, or an image with a live instance, holds address `a` (R144, R206). -/
def protectedAt (s : State) (a : Nat) : Bool :=
  let x := phys a
  s.protect.any (fun r => spanHolds r.1 r.2 x) || s.gs.insts.any (fun i => spanHolds i.image i.imageLen x)

/-- GDDR6 channel `c` serves nothing: fallow, or its die is unreachable (R190, R352, R353). -/
def chanFallow (s : State) (c : Nat) : Bool := s.isFallow 3 c || !s.dieReached (c / 4)

/-- The core of a tile sequencer or control processor, by its master number (R240, R341); none for any other master. -/
def coreOfMaster (m : Nat) : Option Nat :=
  if 0x100 ≤ m ∧ m < 0x110 then some (m - 0x100)
  else if 0x200 ≤ m ∧ m < 0x300 then some ((m - 0x200) / 16)
  else none

/-- The compute die of a CRC scan unit, by its master number (R341, R399), none for those of the warden die. -/
def scanDie (m : Nat) : Option Nat := if 0x4A4 ≤ m ∧ m < 0x4AC then some ((m - 0x4A4) / 2) else none

/-- The compute die of a bus master (R240, R341, R399), none for the warden die. -/
def dieOfMaster (m : Nat) : Option Nat :=
  match coreOfMaster m with
  | some c => some (c / 4)
  | none => if 0x480 ≤ m ∧ m < 0x484 then some (m - 0x480) else scanDie m

/-- The master is a verdict core, by its HARTID. -/
def isVerdict (m : Nat) : Bool := m < 8 && m % 2 = 0

/-- The master is the control processor of a core, by its HARTID. -/
def isControl (m : Nat) : Bool := Nat.ble 0x100 m && m < 0x110

/-- The master is the tile sequencer of an engine, by its HARTID. -/
def isTile (m : Nat) : Bool := Nat.ble 0x200 m && m < 0x300

/-- The master is the host's mailbox, by its number (R341). -/
def hostMaster : Nat := 0x494

/-- The master is a DMA channel (R341). -/
def isDma (m : Nat) : Bool := Nat.ble 0x400 m && m < 0x440

/-- The master is one of the ZW16's own units: a graph scheduler, the frame path, evidence intake, the Verdict Unit, the
gleaner or a CRC unit (R341), which reads and writes only where its rules say. -/
def isUnit (m : Nat) : Bool :=
  (Nat.ble 0x480 m && m < 0x484) || (Nat.ble 0x490 m && m < 0x494) || (Nat.ble 0x4A0 m && m < 0x4C0)

/-- The master is a CRC scan unit (R341, R399). -/
def isScan (m : Nat) : Bool := Nat.ble 0x4A0 m && m < 0x4AC

/-- The ZW16's own logic that the table of R341 gives no number, recorded as 0x7FF; no master of a command has this number
(log 170). -/
def ownMaster : Nat := 0xFFF

/-- The table of R341 gives number `m` to a unit. -/
def namedMaster (m : Nat) : Bool := m < 0x300 || isDma m || isUnit m || m == hostMaster

/-- R322 lists master `m` for the boot ROM and warden SRAM: a verdict core, a control processor, a DMA channel, the host and JTAG
(R518, log 38).  The ZW16's own units reach what their rules name there. -/
def wardenMay (m : Nat) : Bool := isVerdict m || isControl m || isDma m || isUnit m || m == hostMaster || Nat.ble 0x800 m

/-- Master `m` is listed for the memory at `a` (R184, R322): a tile sequencer reaches no warden region (log 124), and a
core's engines and control processor reach its own Core Memory and its cluster's memory, a compute die's scan unit those of its die
(R399). -/
def masterMay (m a : Nat) : Bool :=
  match region a with
  | .bootRom | .warden => wardenMay m
  | .coreMem n => (coreOfMaster m).all (· = n) && (scanDie m).all (· = n / 4)
  | .clusterMem k => (coreOfMaster m).all (· / 2 = k) && (scanDie m).all (· = k / 2)
  | _ => true

/-- A route leads from master `m` to die `d` (R192). -/
def routeTo (s : State) (m d : Nat) : Bool :=
  match dieOfMaster m with
  | none => s.dieReached d
  | some a => a = d || s.ringRoute a d

/-- The response to an access of the byte at `a` by master `m` (R11, R12, R184, R190, R206, R322); memory of an unreachable
die answers as an unmapped address (log 27). -/
def byteResp (s : State) (a : Nat) (write : Bool) (m : Nat) : Resp :=
  if !masterMay m a then .errDecode
  else
    match region a with
    | .unmapped => .errDecode
    | .bootRom => if write then .errDecode else .ok
    | .gddr c => if s.chanFallow c then .errChFallow else if write && s.protectedAt a then .errLocked else .ok
    | .warden => if write && s.protectedAt a then .errLocked else .ok
    | .coreMem n => if s.routeTo m (n / 4) then .ok else .errDecode
    | .clusterMem k => if s.routeTo m (k / 2) then .ok else .errDecode
    | .regs => if (isUnit m && !isScan m) || m == ownMaster then .errDecode else .ok

/-- The first byte of an access that is refused, and how. -/
def spanFault (s : State) (a n : Nat) (write : Bool) (m : Nat) : Option (Nat × Resp) :=
  ((List.range n).find? (fun i => s.byteResp (a + i) write m ≠ .ok)).map (fun i => (a + i, s.byteResp (a + i) write m))

/-- The fault source of a refused access (R338). -/
def busSource : Resp → Option Nat
  | .errDecode => some Src.BUS_DECODE
  | .errAlign => some Src.BUS_ALIGN
  | .errLocked => some Src.BUS_LOCKED
  | .errChFallow => some Src.BUS_FALLOW
  | _ => none

/-- The fault collector records a refused access: its address, access type and master (R5, R6, R11, R190). -/
def recordBus (s : State) (r : Resp) (a acc master : Nat) : State :=
  match busSource r with
  | some n => s.raise { src := n, addr := a, acc := acc, master := master }
  | none => s

/-- An access is refused: the master receives the error, and the fault collector records it. -/
def busErr (s : State) (r : Resp) (a acc master : Nat) : State := (s.recordBus r a acc master).respond r

/-! ### Regions and units (R384) -/

/-- Destination and length in bytes of region `r`; no length where it is not valid. -/
def regionOf (s : State) (r : Nat) : Nat × Nat :=
  (s.dword (A.DMA_REGEN_DST r), if s.on (F.DMA_REGEN_LEN_valid r) then 256 * s.f (F.DMA_REGEN_LEN_len r) else 0)

/-- The region and unit that hold address `a`, either GDDR6 view. -/
def unitOf (s : State) (a : Nat) : Option (Nat × Nat) :=
  let x := phys a
  ((List.range 64).find? (fun r =>
    let (b, n) := s.regionOf r
    Nat.ble b x && Nat.blt x (b + n))).map (fun r => (r, (x - (s.regionOf r).1) / 0x10000))

/-- Address and length of unit `u` of region `r`: the last one may be shorter. -/
def unitSpan (s : State) (r u : Nat) : Nat × Nat :=
  let (b, n) := s.regionOf r
  (b + 0x10000 * u, min 0x10000 (n - 0x10000 * u))

/-- Region `r` has failed (R385). -/
def regionFailed (s : State) (r : Nat) : Bool := s.on (F.DMA_REGEN_ST_fail r)

/-- Some unit waits for its regeneration, or undergoes it, that holds one of the `n` bytes from `b`, in either view (R232,
R385). -/
def regenWaits (s : State) (b n : Nat) : Bool :=
  s.dma.regen.any (fun x => (List.range (n / 0x1000 + 2)).any (fun i =>
    let a := if i = 0 then b else min (b / 0x1000 * 0x1000 + 0x1000 * i) (b + n - 1)
    n ≠ 0 && spanHolds (s.unitSpan x.1 x.2).1 (s.unitSpan x.1 x.2).2 (phys a)))

/-- Some queued unit, or a failed region, overlaps `n` bytes from physical address `a` (R386). -/
def underRegen (s : State) (a n : Nat) : Bool :=
  s.dma.regen.any (fun x => let (b, m) := s.unitSpan x.1 x.2; Nat.blt a (b + m) && Nat.blt b (a + n))
    || (List.range 64).any (fun r => s.regionFailed r &&
      (let (b, m) := s.regionOf r; Nat.blt a (b + m) && Nat.blt b (a + n)))

/-- The word or block that holds `a` is known lost. -/
def isLost (s : State) (a : Nat) : Bool :=
  let x := phys a
  Table.get (fun _ => false) s.lost (x / lostUnit x * lostUnit x)

/-- The word or block that holds `a` is marked lost. -/
def markLost (s : State) (a : Nat) : State :=
  let x := phys a
  s.withLost (Table.put (fun _ => false) s.lost (x / lostUnit x * lostUnit x) true)

/-- The pieces of the `n` bytes from `a` in physical memory: themselves in warden SRAM, 4 KiB at most in GDDR6. -/
def spanPieces (a n : Nat) : List (Nat × Nat) :=
  match region a with
  | .gddr _ => physSpans a n
  | _ => if n = 0 then [] else [(a, n)]

/-- Some unit that is queued or being regenerated holds one of the `n` bytes from `a` (R386). -/
def spanWaits (s : State) (a n : Nat) : Bool :=
  !s.dma.regen.isEmpty && (spanPieces a n).any (fun x => s.dma.regen.any (fun u =>
    let (b, m) := s.unitSpan u.1 u.2
    !(meetSpan b m x).isEmpty))

/-- Some region that has failed holds one of the `n` bytes from `a` (R386). -/
def spanFailed (s : State) (a n : Nat) : Bool :=
  let failed := (List.range 64).filter (fun r => s.regionFailed r)
  !failed.isEmpty && (spanPieces a n).any (fun x => failed.any (fun r =>
    let (b, m) := s.regionOf r
    !(meetSpan b m x).isEmpty))

/-- Some word or block of the `n` bytes from `a` is lost (R379, R382) or lies in a failed region (R386), and none waits for its
regeneration. -/
def spanLost (s : State) (a n : Nat) : Bool :=
  !s.spanWaits a n && (s.spanFailed a n ||
    (!s.lost.isEmpty && (spanPieces a n).any (fun x => s.lost.any (fun p => p.2 && !(meetSpan p.1 (lostUnit p.1) x).isEmpty))))

/-- Some GDDR6 channel that serves nothing holds one of the `n` bytes from `a` (R190, R353). -/
def spanFallow (s : State) (a n : Nat) : Bool :=
  (List.range 16).any s.chanFallow && (spanPieces a n).any (fun x =>
    match region x.1 with
    | .gddr c => s.chanFallow c
    | _ => false)

/-! ### Injections (R355, R356) -/

/-- Injection class of the detection code at `a`, and its instance (R355). -/
def injClass (a : Nat) : Option (Nat × Nat) :=
  match region a with
  | .warden => some (0, 0)
  | .coreMem n => some (1, n)
  | .clusterMem k => some (2, k)
  | .gddr c => some (3, c)
  | _ => none

/-- Units of a detection code that hold a byte of the piece `x`: the number of the first, and how many. -/
def pieceUnits (x : Nat × Nat) : Nat × Nat :=
  let u := lostUnit x.1
  (x.1 / u, (x.1 + x.2 - 1) / u + 1 - x.1 / u)

/-- Every check of a detection code that a read of the `n` bytes from `a` makes may be met by an injection (R355). -/
def injArmed (s : State) (lo hi : Nat) : Bool := s.injLeft ≠ 0 && Nat.ble lo (s.f F.FC_INJ_cls) && Nat.ble (s.f F.FC_INJ_cls) hi

/-- An injection meets some check that a read of the `n` bytes from `a` makes. -/
def injMeets (s : State) (a n : Nat) : Bool :=
  s.injArmed 0 3 && (spanPieces a n).any (fun x => (injClass x.1).any (fun q => s.injHits q.1 q.2))

/-- An injection inverts the check bits of the unit at physical address `x` (R356): its first read is flagged, and of a GDDR6 block
the difference is counted and raised (R382); its re-read passes. -/
def injectUnit (s : State) (x : Nat) : State :=
  let s := s.injMade
  match region x with
  | .gddr c =>
    let s := s.count (F.CX_G6_chk (c / 4) (c % 4)) (F.CX_STATUS_sat (c / 4))
    s.raise { src := Src.G6_CHECK c, inst := c, detail := g6Block x + 2 ^ 31, addr := x, injected := true }
  | _ => s

/-- The checks of a read of the `n` bytes from `a`, one for each word or block: the next ones are met by the injections that remain
(R355). -/
def injectRead (s : State) (a n : Nat) : State :=
  if !s.injArmed 0 3 then s
  else
    (spanPieces a n).foldl (fun s x =>
      match injClass x.1 with
      | none => s
      | some (c, i) =>
        let (first, k) := pieceUnits x
        if s.injHits c i then (List.range (min s.injLeft k)).foldl (fun s j => s.injectUnit ((first + j) * lostUnit x.1)) s else s) s

/-- The error-detection codes of the bursts that an access of the `n` bytes from `a` makes, one for each block (R189): the next ones
are met by injections of class 4 that remain, and those bursts are retried (R355, R356). -/
def injectEdc (s : State) (a n : Nat) : State :=
  if !s.injArmed 4 4 then s
  else
    (spanPieces a n).foldl (fun s x =>
      match region x.1 with
      | .gddr c =>
        let (first, k) := pieceUnits x
        if s.injHits 4 c then
          (List.range (min s.injLeft k)).foldl (fun s j =>
            let s := s.injMade.count (F.CX_G6_link (c / 4) (c % 4)) (F.CX_STATUS_sat (c / 4))
            (s.raise { src := Src.G6_LINK c, inst := c, detail := c, addr := (first + j) * 256, injected := true }).ctAdd (0x18 + c) 256) s
        else s
      | _ => s) s

/-- The units that a write of the `n` bytes from `a` covers only in part: those at its two ends. -/
def partUnits (a n : Nat) : List Nat :=
  if n = 0 then []
  else
    let u := lostUnit (phys a)
    let l := if a / u = (a + n - 1) / u then [a] else [a, a + n - 1]
    l.filter (fun x => !covers a n (phys x / u * u))

/-- The checks that a write of the `n` bytes from `a` makes: the burst's, and those of the reads that the words and blocks need which
it covers only in part (R188, R355, R379). -/
def injectWrite (s : State) (a n : Nat) : State := (partUnits a n).foldl (fun s x => s.injectRead x 1) (s.injectEdc a n)

/-- Bytes that the ZW16's own logic writes from address `a` as master `master`: a refused byte keeps what it held, and the
first one is recorded, with the kind of access `acc` (R11, R12, R190, R206).  Answers the first refusal. -/
def writeAllowed (s : State) (a acc master : Nat) (l : List Byte) : Option (Nat × Resp) × State :=
  match s.spanFault a l.length true master with
  | none => (none, (s.injectWrite a l.length).setBytes a l)
  | some (x, r) =>
    (some (x, r), (((List.range l.length).zip l).foldl (fun t p =>
      if s.byteResp (a + p.1) true master = .ok then t.setByte (a + p.1) p.2 else t) s).recordBus r x acc master)

/-- Bytes that the ZW16's own logic reads from address `a` as master `master`: none where a byte is refused, and the first
refusal is recorded (R11, R190, R353), or where data is lost (R379, R386).  A read that is held for a regeneration answers at once
what it reads after it (log 162). -/
def ownRead (s : State) (a n master : Nat) : Option (List Byte) × State :=
  match s.spanFault a n false master with
  | none => (if s.spanLost a n then none else some (s.bytes a n), (s.injectEdc a n).injectRead a n)
  | some (x, r) => (none, s.recordBus r x 1 master)

/-- Bytes that the ZW16's own logic stores, where nothing waits for the response. -/
def ownWrite (s : State) (a master : Nat) (l : List Byte) : State := (s.writeAllowed a 2 master l).2

end State

end Sys2Proof.Machine
end

