-- ==== Sys2Proof/Machine/Time.lean ====
section
/-! DEFINITION. The time base and its servo: steps, samples, rate, loss, replicas, stamps (R406 to R419). -/

namespace Sys2Proof.Machine

open Sys2Proof

namespace State

/-- A command begins in tick `t`: time passes to it (R410) and its response is ST_OK until said otherwise,
and it has sent nothing yet. -/
def start (s : State) (t : Nat) : State := ((s.upto t).withTx []).respond .ok

/-- The signed 64-bit value that a write of the high word completes with the held low word (R5). -/
def heldValue (s : State) (a : Nat) (high : Word) : Nat :=
  (Table.get (fun _ => (0 : Word)) s.held a).toNat + high.toNat * 2 ^ 32

/-- A low word held for the register at `a` (R5). -/
def hold (s : State) (a : Nat) (v : Word) : State := s.withHeld (Table.put (fun _ => 0) s.held a v)

/-- The lock count and TM_STATUS.lock cleared (R416, R417). -/
def loseLock (s : State) : State := (s.setF F.TM_STATUS_lock 0).withTm { s.tm with lockrun := 0 }

/-- A step of the time base (R415): added at the end of the present tick. -/
def stepTime (s : State) (delta : Int) : State :=
  if delta = 0 then s
  else if delta < 0 ∧ s.f F.SYS_SVC_level ≠ 0 ∧ s.on F.TM_CTRL_back = false then s.respond .errState
  else
    let s := ((s.setF F.TM_STATUS_stepped 1).count F.TM_CNT_steps F.TM_STATUS_sat).loseLock
    s.withTm { s.tm with step := s.tm.step + delta }

/-- The rate limit of R407 and R416: ±500 ppm of 4 ns. -/
def rateMax : Int := 8589934

/-- The loss timer starts or restarts (R417). -/
def restartLoss (s : State) : State := s.withTm { s.tm with lossStart := s.tick, lossTaken := false }

/-- The lock count after a sample that is not big (R416). -/
def lockSample (s : State) (e : Int) : State :=
  if e.natAbs ≤ s.f F.TM_LIMIT_lock_ns * 65536 then
    let r := min (s.tm.lockrun + 1) 8
    let s := s.withTm { s.tm with lockrun := r }
    if r = 8 then s.setF F.TM_STATUS_lock 1 else s
  else s.loseLock

/-- A 64-bit signed sum held at its limits (R416). -/
def sat64 (x : Int) : Int := max (-(2 ^ 63)) (min (2 ^ 63 - 1) x)

/-- One sample of the servo with the servo on: new integral and rate, or the clamp (R416). -/
def servoSample (s : State) (e : Int) : State :=
  let i := signed 64 (s.dword A.TM_SERVO_I)
  let p := (s.f F.TM_SERVO_kp * e) / 65536
  let iNew := sat64 (i + s.f F.TM_SERVO_ki * e)
  let r := -(p + iNew / 65536)
  if rateMax < r.natAbs then
    let r' := if r < 0 then -rateMax else rateMax
    ((s.setF F.TM_STATUS_clamp 1).raise { src := Src.TM_SERVO }).setWord A.TM_RATE (unsigned 32 r')
  else
    ((s.setDword A.TM_SERVO_I (unsigned 64 iNew)).setF F.TM_STATUS_clamp 0).setWord A.TM_RATE (unsigned 32 r)

/-- One offset sample (R416, R417). -/
def sample (s : State) (e : Int) : State :=
  let s := (s.setDword A.TM_SERVO_E (unsigned 64 e)).restartLoss
  let s := s.setF F.TM_STATUS_holdover 0
  if s.f F.TM_LIMIT_big_us * 1000 * 65536 < e.natAbs then
    ((s.setF F.TM_STATUS_big 1).count F.TM_CNT_big F.TM_STATUS_sat).loseLock
  else
    let s := s.lockSample e
    if s.on F.TM_CTRL_servo_en then s.servoSample e else s

/-- A write of TM_RATE (R416, R419). -/
def writeRate (s : State) (v : Word) : State :=
  if s.on F.TM_CTRL_servo_en then s.respond .errState
  else if rateMax < (signed 32 v.toNat).natAbs then s.respond .errParam
  else s.setWord A.TM_RATE v.toNat

/-- The tick in which the running loss timer expires (R410, R417). -/
def lossDue (s : State) : Nat := s.tm.lossStart + ms (s.f F.TM_LIMIT_loss_ms)

/-- A loss of the gPTP source is due: the timer runs and has not been taken (R417). -/
def lossReady (s : State) : Bool := s.on F.TM_CTRL_servo_en && !s.tm.lossTaken && s.lossDue ≤ s.tick

/-- The integer part of the replica of die `d` less that of the time base, in ns (R408). -/
def replicaDiff (s : State) (d : Nat) : Int :=
  ((s.timeFull : Int) + Table.get (fun _ => 0) s.tm.replicas d) / 2 ^ 32 - (s.time : Int)

/-- The ETS queue `x`, oldest entry first (R414). -/
def etsQ (s : State) (x : Nat) : List EtsEntry := Table.get (fun _ => []) s.tm.ets x

/-- The state with ETS queue `x` replaced. -/
def setEtsQ (s : State) (x : Nat) (l : List EtsEntry) : State :=
  s.withTm { s.tm with ets := Table.put (fun _ => []) s.tm.ets x l }

/-- A gPTP frame is stamped into ETS queue `x` (R414): receive stamps subtract, transmit stamps add, the
compensation; a full queue drops the stamp. -/
def etsStamp (s : State) (x msg seq : Nat) : State :=
  let c := s.f (F.TM_ETH_COMP_ns x)
  let ns := if x % 2 = 0 then s.time + 2 ^ 64 - c else s.time + c
  if (s.etsQ x).length < 16 then s.setEtsQ x (s.etsQ x ++ [⟨msg, seq, BitVec.ofNat 64 ns⟩])
  else
    let s := s.count (F.TM_ETS_ID_ovf x) F.TM_STATUS_sat
    s.setF ⟨A.TM_STATUS, x, 1⟩ 1

/-- TM_CLR.all (R419). -/
def clearTm (s : State) : State :=
  let s := s.setWord A.TM_CNT 0
  let s := [0, 1, 2, 3].foldl (fun s x => s.setF (F.TM_ETS_ID_ovf x) 0) s
  (((s.setF F.TM_STATUS_big 0).setF F.TM_STATUS_stepped 0).setF F.TM_STATUS_ets 0).setF F.TM_STATUS_sat 0

/-- A read of TM_ETS_ID_x (R414): it removes the oldest entry of queue `x` and latches its stamp. -/
def readEts (s : State) (x : Nat) : Nat × State :=
  let s := match s.etsQ x with
    | [] => s.setF (F.TM_ETS_ID_valid x) 0
    | e :: r =>
      let s := (s.setEtsQ x r).setDword (A.TM_ETS_TS x) e.ns.toNat
      ((s.setF (F.TM_ETS_ID_valid x) 1).setF (F.TM_ETS_ID_msg x) e.msg).setF (F.TM_ETS_ID_seq x) e.seq
  (s.word (A.TM_ETS_ID x), s)

end State

/-- TM_STEP, high word written (R415). -/
def execTmStep (t : Nat) (high : Word) (s : State) : Host.Outcome State Fault Refusal :=
  let s := s.start t
  done (s.stepTime (signed 64 (s.heldValue A.TM_STEP high)))

/-- TM_OFS, high word written: one servo sample (R416). -/
def execTmOfs (t : Nat) (high : Word) (s : State) : Host.Outcome State Fault Refusal :=
  let s := s.start t
  done (s.sample (signed 64 (s.heldValue A.TM_OFS high)))

/-- TM_RATE written (R407, R416, R419). -/
def execTmRate (t : Nat) (rate : Word) (s : State) : Host.Outcome State Fault Refusal :=
  done ((s.start t).writeRate rate)

/-- The loss timer expires (R417); not yet due, nothing happens. -/
def execServoLoss (t : Nat) (s : State) : Host.Outcome State Fault Refusal :=
  let s := s.start t
  if s.lossReady then
    let s := s.withTm { s.tm with lossTaken := true }
    let s := (s.setF F.TM_STATUS_holdover 1).loseLock
    done ((s.count F.TM_CNT_loss F.TM_STATUS_sat).raise { src := Src.TM_GM_LOSS })
  else done s

/-- The millisecond sync of the replicas (R408): one that differs by more than 4 ns is reloaded in the
following tick and counted; one of a die in reset waits for its release. -/
def execReplicaSync (t : Nat) (s : State) : Host.Outcome State Fault Refusal :=
  let s := s.start t
  let bad := [0, 1, 2, 3].filter (fun d => 4 < (s.replicaDiff d).natAbs ∧ Table.get (fun _ => 0) s.dieReset d = 0)
  let s := bad.foldl (fun s _ => s.count F.TM_CNT_resync F.TM_STATUS_sat) s
  done (s.withTm { s.tm with reload := bad })

/-- A read of TM_ETS_ID_x removes the oldest entry of queue x and latches its stamp (R414). -/
def execEtsRead (t : Nat) (x : Fin 4) (s : State) : Host.Outcome State Fault Refusal :=
  let (v, s) := (s.start t).readEts x
  done (s.returned [v])

/-- TM_CLR (R419). -/
def execTmClr (t : Nat) (value : Word) (s : State) : Host.Outcome State Fault Refusal :=
  let s := s.start t
  done (if bitOf value.toNat 0 then s.clearTm else s)

/-- A root PLL loses lock (R406): SYS_PLL stands, with the die as its instance. -/
def execPllLockLoss (t : Nat) (die : Fin 5) (s : State) : Host.Outcome State Fault Refusal :=
  done ((s.start t).raiseStanding { src := Src.SYS_PLL, inst := die, detail := die })

end Sys2Proof.Machine
end

