-- ==== Sys2Proof/Machine/Sio.lean ====
section
/-! DEFINITION. Safety inputs and safe outputs (R499 to R509); the accelerator commands of the block stand
with the accelerator sequences. -/

namespace Sys2Proof.Machine

open Sys2Proof

namespace State

/-- The filtered pair of input `i` is its ON combination (R499). -/
def pairOn (s : State) (i : Nat) : Bool :=
  s.on (F.SIO_IN_STAT_a i) && (s.on (F.SIO_IN_STAT_b i) != s.on (F.SIO_IN_CFG_mode i))

/-- The filtered pair of input `i` is its OFF combination (R499). -/
def pairOff (s : State) (i : Nat) : Bool :=
  !s.on (F.SIO_IN_STAT_a i) && (s.on (F.SIO_IN_STAT_b i) == s.on (F.SIO_IN_CFG_mode i))

/-- The tick in which input `i`'s discrepancy timer started (R500). -/
def discStart (s : State) (i : Nat) : Nat := (Table.get (fun _ => ⟨0⟩) s.sioIn i).discStart

/-- The tick in which input `i`'s discrepancy time ends (R500). -/
def discDue (s : State) (i : Nat) : Nat := s.discStart i + ms (s.f (F.SIO_IN_CFG_disc_ms i))

/-- Input `i` goes to PENDING and its timer starts (R500). -/
def pendInput (s : State) (i : Nat) : State :=
  (s.setF (F.SIO_IN_STAT_state i) 2).withSioIn (Table.put (fun _ => ⟨0⟩) s.sioIn i ⟨s.tick⟩)

/-- Input `i`'s timer expires in PENDING (R500). -/
def latchInput (s : State) (i : Nat) : State :=
  let s := (s.setF (F.SIO_IN_STAT_state i) 3).count (F.SIO_IN_STAT_disc i) F.SIO_STATUS_sat
  s.raise { src := Src.SIO_DISC i, inst := i
            detail := 2 * s.f (F.SIO_IN_STAT_a i) + s.f (F.SIO_IN_STAT_b i) }

/-- The input state after its pair of levels changed (R500). -/
def evalInput (s : State) (i : Nat) : State :=
  let st := s.f (F.SIO_IN_STAT_state i)
  if !s.on (F.SIO_IN_CFG_en i) then s.setF (F.SIO_IN_STAT_state i) 0
  else if st = 3 then (if s.pairOff i then s.setF (F.SIO_IN_STAT_state i) 0 else s)
  else if s.pairOn i then s.setF (F.SIO_IN_STAT_state i) 1
  else if s.pairOff i then s.setF (F.SIO_IN_STAT_state i) 0
  else if st = 2 then s
  else s.pendInput i

/-- Readback of output `o` is compared in this tick (R505): not within the settle time of a level change. -/
def readbackCompared (s : State) (o : Nat) : Bool :=
  (s.outX o).changed + us (s.f (F.SIO_OUT_CFG_rb_us o)) < s.tick

/-- SIO_CLR.all (R509). -/
def clearSio (s : State) : State :=
  let s := (List.range 8).foldl (fun s i => s.setF (F.SIO_IN_STAT_disc i) 0) s
  let s := (List.range 4).foldl (fun s o => s.setF (F.SIO_OUT_STAT_mism o) 0) s
  let s := (List.range 4).foldl (fun s a => s.setF (F.SIO_ACC_STAT_mism a) 0) s
  s.setF F.SIO_STATUS_sat 0

end State

/-- A safety input channel's filtered level changes (R499 to R501).  A timer that has passed its expiry tick
expires first (R410). -/
def execSinLevelChange (t : Nat) (i : Fin 8) (chanB level : Bool) (s : State) : Host.Outcome State Fault Refusal :=
  let s := s.start t
  let s := if s.f (F.SIO_IN_STAT_state i) = 2 ∧ s.discDue i < s.tick then s.latchInput i else s
  let s := if chanB then s.flag (F.SIO_IN_STAT_b i) level else s.flag (F.SIO_IN_STAT_a i) level
  done (s.evalInput i).driveOuts

/-- The discrepancy timer of input i expires (R500); not pending or not yet due, nothing happens. -/
def execDiscrepancyExpire (t : Nat) (i : Fin 8) (s : State) : Host.Outcome State Fault Refusal :=
  let s := s.start t
  if s.f (F.SIO_IN_STAT_state i) = 2 ∧ s.discDue i ≤ s.tick then done ((s.latchInput i).driveOuts) else done s

/-- A test pulse starts (R504): the output is high, pulses are configured and the period has passed. -/
def execTestPulseStart (t : Nat) (o : Fin 4) (s : State) : Host.Outcome State Fault Refusal :=
  let s := s.start t
  if s.on (F.SIO_OUT_STAT_drive o) ∧ s.f (F.SIO_OUT_CFG_tp_us o) ≠ 0
      ∧ (s.outX o).periodFrom + State.ms (s.f (F.SIO_OUT_CFG_tp_ms o)) ≤ s.tick then
    let s := (s.setF (F.SIO_OUT_STAT_pulse o) 1).setOutX o { s.outX o with pulseFrom := s.tick }
    done (s.driveOut o)
  else done s

/-- A test pulse ends (R504): the output rises only if R503 allows it. -/
def execTestPulseEnd (t : Nat) (o : Fin 4) (s : State) : Host.Outcome State Fault Refusal :=
  let s := s.start t
  if s.on (F.SIO_OUT_STAT_pulse o) ∧ (s.outX o).pulseFrom + State.us (s.f (F.SIO_OUT_CFG_tp_us o)) ≤ s.tick then
    let s := (s.setF (F.SIO_OUT_STAT_pulse o) 0).setOutX o { s.outX o with periodFrom := s.tick }
    done (s.driveOut o)
  else done s

/-- The readback ball of output o shows `level` (R505): a difference outside the settle time latches. -/
def execReadbackMismatch (t : Nat) (o : Fin 4) (level : Bool) (s : State) : Host.Outcome State Fault Refusal :=
  let s := (s.start t).flag (F.SIO_OUT_STAT_rb o) level
  let driven := s.on (F.SIO_OUT_STAT_drive o)
  if level ≠ driven ∧ s.readbackCompared o ∧ s.on (F.SIO_OUT_STAT_latch o) = false then
    let s := (s.setF (F.SIO_OUT_STAT_latch o) 1).driveOut o
    let s := s.count (F.SIO_OUT_STAT_mism o) F.SIO_STATUS_sat
    done (s.raise { src := Src.SIO_READBACK o, inst := o, detail := bit driven })
  else done s

/-- A write of 1 to SIO_OUT_CTRL_o.rel (R505): it clears the latch only while SRBo reads low. -/
def execReadbackRelease (t : Nat) (o : Fin 4) (s : State) : Host.Outcome State Fault Refusal :=
  let s := s.start t
  if s.on (F.SIO_OUT_STAT_rb o) then done s
  else done ((s.setF (F.SIO_OUT_STAT_latch o) 0).driveOut o)

/-- The pad of a control ball of accelerator a shows `level` for more than 10 µs (R507); `ball` is
ACC_PWREN when true. -/
def execAccPadMismatch (t : Nat) (a : Fin 4) (ball level : Bool) (s : State) : Host.Outcome State Fault Refusal :=
  let s := s.start t
  let s := if ball then s.flag (F.SIO_ACC_STAT_rpwr a) level else s.flag (F.SIO_ACC_STAT_rrst a) level
  let driven := if ball then s.on (F.SIO_ACC_STAT_pwr a) else s.on (F.SIO_ACC_STAT_rst a)
  if level ≠ driven then
    done ((s.count (F.SIO_ACC_STAT_mism a) F.SIO_STATUS_sat).raise
      { src := Src.SIO_ACC a, inst := a, detail := bit ball })
  else done s

/-- SIO_CLR (R509). -/
def execSioClr (t : Nat) (value : Word) (s : State) : Host.Outcome State Fault Refusal :=
  let s := s.start t
  done (if bitOf value.toNat 0 then s.clearSio else s)

end Sys2Proof.Machine
end

