-- ==== Sys2Proof/Machine/Pairs.lean ====
section
/-! DEFINITION. Verdict pairs: mismatch, restart, roles (R313 to R321). -/

namespace Sys2Proof.Machine

open Sys2Proof

namespace State

/-- Pair `v`'s state beside its registers. -/
def pairX (s : State) (v : Nat) : Pair := Table.get (fun _ => ⟨0, 0, false⟩) s.pairs v

/-- The state with pair `v`'s hidden state replaced. -/
def setPairX (s : State) (v : Nat) (x : Pair) : State :=
  s.withPairs (Table.put (fun _ => ⟨0, 0, false⟩) s.pairs v x)

/-- Role `r` placed on pair `v` (R318, R336). -/
def placeRole (s : State) (r v : Nat) : State :=
  let s := [0, 1, 2, 3].foldl (fun s u => s.setF ⟨A.SYS_VP_STAT u, 20 + r, 1⟩ (bit (u = v))) s
  s.setF (roleField r) (8 + v)

/-- Role `r` is held by no pair. -/
def dropRole (s : State) (r : Nat) : State :=
  let s := [0, 1, 2, 3].foldl (fun s u => s.setF ⟨A.SYS_VP_STAT u, 20 + r, 1⟩ 0) s
  s.setF (roleField r) 0

/-- The next pair above `v`, counting upward mod 4, that runs, is not fallow and is not barred (R319). -/
def nextPair (s : State) (v : Nat) : Option Nat :=
  [(v + 1) % 4, (v + 2) % 4, (v + 3) % 4].find? (fun u => s.pairWorks u && !(s.pairX u).barred)

/-- The roles of a fallow pair move, in ascending order, each within 5 ms (R319).  Where no pair runs, the
role waits at the retired pair, and the pairs above it are asked again when it is to start. -/
def moveRoles (s : State) (v : Nat) : State :=
  [0, 1, 2, 3].foldl (fun s r =>
    if s.rolePair r = some v then
      let s := s.dropRole r
      s.withRoleMoves (s.roleMoves ++ [⟨r, (s.nextPair v).getD v, s.tick + ms 5⟩])
    else s) s

/-- A pair halts in the cycle of detection (R316). -/
def haltPair (s : State) (v : Nat) : State :=
  (s.setF (F.SYS_VP_STAT_state v) 3).modHart (pairHart v) (fun h => { h with run := .stopped })

/-- A pair restarts: its processor is reset and difference injection runs (R316). -/
def restartPair (s : State) (v : Nat) : State :=
  let s := s.setF (F.SYS_VP_STAT_state v) 4
  let s := s.setPairX v { s.pairX v with restartDue := s.tick + ms 2 }
  (s.setHart (pairHart v) { Hart.reset with run := .stopped }).withInstret (Table.put (fun _ => 0) s.instret (pairHart v) 0)

/-- A pair begins to run (R316); its watchdog's reference is this tick (R365). -/
def runPair (s : State) (v : Nat) : State :=
  ((s.setDword (A.WD_REF v) s.time).setF (F.SYS_VP_STAT_state v) 2).setPairX v { s.pairX v with runSince := s.tick }

/-- A pair becomes fallow outside a retirement by budget: an item that fails its test (R315, R354). -/
def pairFails (s : State) (v : Nat) : State :=
  ((s.setF (F.SYS_VP_STAT_state v) 0).retire 9 v).moveRoles v

end State

end Sys2Proof.Machine
end

