-- ==== Sys2Proof/Machine/Outgoing.lean ====
section
/-! DEFINITION. What the device sends on its own: safety datagrams to both MACs (R423, R424), Melhan frames to
the partner (R441 to R444), and the CRC-32C that protects them (R398). -/

namespace Sys2Proof.Machine

open Sys2Proof

/-! ### CRC-32C (R398): reflected polynomial 0x82F63B78, initial value and final inversion all ones -/

/-- One bit of the CRC-32C register. -/
def crcBit (c : Nat) : Nat := if c % 2 = 1 then c / 2 ^^^ 0x82F63B78 else c / 2

/-- One byte taken into the CRC-32C register. -/
def crcByte (c : Nat) (b : Byte) : Nat :=
  crcBit (crcBit (crcBit (crcBit (crcBit (crcBit (crcBit (crcBit (c ^^^ b.toNat))))))))

/-- The CRC-32C register after a list of bytes. -/
def crcStep (c : Nat) (l : List Byte) : Nat := l.foldl crcByte c

/-- CRC-32C of a list of bytes (R398). -/
def crc32c (l : List Byte) : Nat := crcStep 0xFFFFFFFF l ^^^ 0xFFFFFFFF

namespace State

/-! ### Safety datagrams -/

/-- MAC `x` is enabled and its link is up (R420). -/
def ethUp (s : State) (x : Nat) : Bool := s.on (F.ETH_STAT_up x)

/-- The safety queue of MAC `x`. -/
def safetyQ (s : State) (x : Nat) : List TxDgram := Table.get (fun _ => []) s.eth.safety x

/-- The state with MAC `x`'s safety queue replaced. -/
def setSafetyQ (s : State) (x : Nat) (l : List TxDgram) : State :=
  s.withEth { s.eth with safety := Table.put (fun _ => []) s.eth.safety x l }

/-- A safety datagram handed to MAC `x` (R424): discarded and counted while the link is down or the MAC's
port is fallow. -/
def handTo (s : State) (x : Nat) (d : TxDgram) : State :=
  if s.ethUp x && !s.isFallow 7 x then s.setSafetyQ x (s.safetyQ x ++ [d])
  else s.count (F.ETH_ERR1_txdown x) F.ETH_STATUS_sat

/-- The header of a safety datagram (R423). -/
def dgramHeader (s : State) (type len : Nat) : List Byte :=
  beBytes 1 1 ++ beBytes 1 type ++ beBytes 2 (s.f F.ETH_SRC_id) ++ beBytes 4 (s.word A.ETH_TXSEQ)
    ++ beBytes 8 s.time ++ beBytes 2 len ++ beBytes 2 0

/-- A message sent as one safety datagram on both MACs, with the next sequence number (R424). -/
def sendSafety (s : State) (type ctx fid frag : Nat) (msg : List Byte) : State :=
  let d : TxDgram := ⟨s.dgramHeader type msg.length ++ msg, ctx, fid, frag, s.tick⟩
  let s := s.setWord A.ETH_TXSEQ (s.word A.ETH_TXSEQ + 1)
  (s.handTo 0 d).handTo 1 d

/-! ### Melhan frames (R4, R441) -/

end State

/-- The type of a Melhan frame (R441). -/
def mlType : MlMsg → Nat
  | .heartbeat .. => 0x01
  | .decision .. => 0x02
  | .state _ => 0x03
  | .keys .. => 0x04
  | .time _ => 0x05
  | .frame .. => 0x06
  | .log _ => 0x07
  | .handOver _ => 0x08
  | .ack _ => 0x09
  | .bulk .. => 0x10

/-- The payload bytes of a Melhan frame: its fields, big-endian, in the order the spec names them (log 18). -/
def mlPayload : MlMsg → List Byte
  | .heartbeat echo arrived => beBytes 4 echo ++ beBytes 8 arrived
  | .decision n fid st c h d b i =>
    beBytes 2 n ++ beBytes 4 fid ++ beBytes 4 st ++ beBytes 2 c ++ beBytes 8 h ++ beBytes 1 (bit d.doubt + 2 * bit b + 4 * bit i)
      ++ beBytes 4 d.late ++ beBytes 2 d.rej
  | .state (.ctx n st c h d l g r k) =>
    beBytes 1 0 ++ beBytes 2 n ++ beBytes 4 st ++ beBytes 4 c ++ beBytes 8 h ++ beBytes 4 d ++ beBytes 4 l ++ beBytes 4 g
      ++ beBytes 4 r ++ beBytes 1 (bit k)
  | .state (.acc a st rst pwr ph) => beBytes 1 1 ++ beBytes 1 a ++ beBytes 4 st ++ beBytes 1 (bit rst + 2 * bit pwr) ++ beBytes 1 ph
  | .state (.sout n m) => beBytes 1 2 ++ beBytes 2 n ++ beBytes 1 m
  | .state .copyEnd => beBytes 1 3
  | .keys n a e => beBytes 2 n ++ beBytes 4 a ++ beBytes 2 e
  | .time ns => beBytes 8 ns
  | .frame p fid st => beBytes 1 p ++ beBytes 4 fid ++ beBytes 8 st
  | .log (.record k body) => beBytes 1 0 ++ beBytes 1 k ++ body
  | .log (.watch w c) => beBytes 1 1 ++ beBytes 1 w ++ beBytes 2 c
  | .log (.fallow kind num listed) => beBytes 1 2 ++ beBytes 1 kind ++ beBytes 2 num ++ beBytes 1 (bit listed)
  | .handOver l => l.flatMap (fun p => beBytes 2 p.1 ++ beBytes 4 p.2)
  | .ack l => l.flatMap (beBytes 4)
  | .bulk o l => beBytes 4 o ++ l

/-- The 256 bytes of a Melhan frame and their CRC-32C, as they leave on the link (R441). -/
def mlBytes (x : MlFrame) : List Byte :=
  let head := beBytes 1 (mlType x.msg) ++ beBytes 1 x.sender ++ beBytes 2 x.id ++ beBytes 4 x.seq ++ beBytes 8 x.time
  let frame := ((head ++ mlPayload x.msg) ++ List.replicate 240 0).take 256
  frame ++ beBytes 4 (crc32c frame)

namespace State

/-- The bytes of a Melhan frame that a command puts on the link, as the words it returns (R4, R441). -/
def showFrame (s : State) (x : MlFrame) : State := s.returned ((mlBytes x).map BitVec.toNat)

/-- A STATE frame of context `n` (R441, R444): its registers, and whether the reaction of its rejection still runs. -/
def ctxMsg (s : State) (n : Nat) : MlMsg :=
  .state (.ctx n (s.word (A.VD_CTX_STATE n)) (s.word (A.VD_CTX_CAUSE n)) (s.dword (A.VD_CTX_HIST n)) (s.word (A.VD_DOUBT n))
    (s.word (A.VD_LATE n)) (s.word (A.VD_GAP n)) (s.word (A.VD_REJ n))
    (Table.get (fun _ => Ctx.reset) s.ctxs n).reactDone.isNone)

/-- A context change not made by a decision, mirrored by the primary (R444). -/
def mirrorState (s : State) (n : Nat) : State := if s.leads then s.mlSend (s.ctxMsg n) else s

/-- A KEYS frame of context `n` (R441). -/
def keysMsg (s : State) (n : Nat) : MlMsg := .keys n (s.word (A.VD_ADMIT n)) (s.f (F.EV_CTX_KEY_epoch n))

/-- Admission counter and key epoch of a context, mirrored by the primary (R444). -/
def mirrorKeys (s : State) (n : Nat) : State := if s.leads then s.mlSend (s.keysMsg n) else s

end State

end Sys2Proof.Machine
end

