-- ==== Sys2Proof/Machine/Belief.lean ====
section
/-! DEFINITION. Trust states: contexts, admission counters and their key slots, the reactions of REJECTED,
accelerator sequences, and the host's VD commands (R13 to R44, R95, R96, R470, R506). -/

namespace Sys2Proof.Machine

open Sys2Proof

namespace State

/-! ### Contexts -/

/-- Context `n`'s state beside its registers. -/
def ctx (s : State) (n : Nat) : Ctx := Table.get (fun _ => Ctx.reset) s.ctxs n

/-- The state with context `n`'s hidden state replaced. -/
def setCtx (s : State) (n : Nat) (c : Ctx) : State :=
  s.withCtxs (Table.put (fun _ => Ctx.reset) s.ctxs n c)

/-- The state with context `n`'s hidden state changed by `u`. -/
def modCtx (s : State) (n : Nat) (u : Ctx → Ctx) : State := s.setCtx n (u (s.ctx n))

/-- The trust state of context `n` (R27). -/
def trust (s : State) (n : Nat) : Nat := s.f (F.VD_CTX_STATE_state n)

/-- Context `n` is in ADMITTING, BELIEVED or DOUBTED. -/
def inJudged (s : State) (n : Nat) : Bool := s.trust n = 1 || s.trust n = 2 || s.trust n = 3

/-- The frames of context `n` are judged: it is in ADMITTING, BELIEVED or DOUBTED, and no entry to ADMITTING waits for its
reservation, which publishes as in R32 (R490). -/
def judged (s : State) (n : Nat) : Bool := s.inJudged n && (s.ctx n).waitAdmit == .none

/-- Context `n` is retired until CLEAR_FALLOW: on the fallow list, or until reset for want of room there (R39, R489). -/
def isRetired (s : State) (n : Nat) : Bool := s.fc.fallow.contains (10, n) || (s.ctx n).retired

/-- Context `n` was committed with en = 1 and names accelerator `a` (R13). -/
def bound (s : State) (n a : Nat) : Bool := s.f (F.VD_CTX_CFG_acc n) = a

/-- The enabled contexts bound to accelerator `a`. -/
def boundTo (s : State) (a : Nat) : List Nat := s.enabled.filter (fun n => s.bound n a)

/-- Safe-output requests of context `n` (R37), mirrored by the primary (R444). -/
def setSoutReq (s : State) (n m : Nat) : State :=
  let s := s.withSoutReq (Table.put (fun _ => 0) s.soutReq n m)
  if s.leads then s.mlSend (.state (.sout n m)) else s

/-- VD_CMD_STATUS.st (R43). -/
def cmdSt (s : State) (st : Nat) : State := s.setF F.VD_CMD_STATUS_st st

/-- The command that context `n`'s waiting entry keeps busy has been applied, and its outcome is reported (R40, R41). -/
def endBusy (s : State) (n st : Nat) : State :=
  match s.vdBusy with
  | some (op, m) => if m = n then ((s.setF F.VD_CMD_STATUS_last_op op).cmdSt st).withVdBusy none else s
  | none => s

/-- A counter that waits for context `n`'s reservation is waited for no more: the context has gone elsewhere (R39, R490,
log 116). -/
def endWait (s : State) (n : Nat) : State :=
  if (s.ctx n).waitAdmit = .none then s
  else (s.modCtx n (fun c => { c with waitAdmit := .none })).endBusy n 0x10

/-- An entry to REJECTED or FALLOW: counted, and a trigger of the gleaner (R43, R307). -/
def noteEntry (s : State) (n : Nat) : State :=
  let s := s.count (F.VD_REJ_rej n) (F.VD_CTX_STATE_sat n)
  if s.on F.CT_TRIG_rej then s.ctTrigger 0xFFFFFFFF else s

/-- Trust state `st` for context `n` (R27): the clean run restarts on a change; leaving ADMITTING, BELIEVED
and DOUBTED lets a FORCE_DOUBT request lapse (R40); reaching BELIEVED or OFF releases its safe outputs (R37). -/
def setTrust (s : State) (n st : Nat) : State :=
  let s := if st = 0 ∨ st = 4 ∨ st = 5 then s.endWait n else s
  let s := if s.trust n ≠ st ∧ (st = 4 ∨ st = 5) then s.noteEntry n else s
  let s := if s.trust n = st then s else s.setF (F.VD_CTX_STATE_clean n) 0
  let s := s.setF (F.VD_CTX_STATE_state n) st
  let s := s.setF ⟨A.VD_BELIEVED (n / 32), n % 32, 1⟩ (bit (st = 2))
  let s := s.setF ⟨A.VD_FALLOW (n / 32), n % 32, 1⟩ (bit (st = 5))
  let s := if st = 1 ∨ st = 2 ∨ st = 3 then s else s.modCtx n (fun c => { c with force := false })
  if (st = 2 ∨ st = 0) ∧ Table.get (fun _ => 0) s.soutReq n ≠ 0 then (s.setSoutReq n 0).driveOuts else s

/-! ### Key slots (R94 to R96, R470, R471) -/

/-- An epoch change is held: the old slot is occupied in this tick (R95). -/
def epochHeld (s : State) (c : Ctx) : Bool :=
  match c.change with
  | .held => true
  | .made t => Nat.blt s.tick t
  | .none => false

/-- The old key slot is free in this tick (R95). -/
def oldFree (s : State) (c : Ctx) : Bool :=
  match c.old with
  | .none => true
  | .spent t => Nat.blt t s.tick
  | _ => false

/-- The key state of context `n` shown in EV_CTX_KEY_n (R110); F0 and F0 + 1 count toward grace from their stamps on (log 147). -/
def showKey (s : State) (n : Nat) : State :=
  let c := s.ctx n
  let s := s.flag (F.EV_CTX_KEY_held n) (s.epochHeld c)
  match c.old with
  | .none =>
    ((s.setF (F.EV_CTX_KEY_old_valid n) 0).setF (F.EV_CTX_KEY_old_kind n) 0).setF (F.EV_CTX_KEY_grace n) 0
  | .spent t =>
    ((s.setF (F.EV_CTX_KEY_old_valid n) (bit (Nat.ble s.tick t))).setF (F.EV_CTX_KEY_old_kind n) 0).setF (F.EV_CTX_KEY_grace n) 0
  | .grace _ _ f0 =>
    let g := (c.frames.filter (fun x => x.ord = f0 || x.ord = f0 + 16)).length
    ((s.setF (F.EV_CTX_KEY_old_valid n) 1).setF (F.EV_CTX_KEY_old_kind n) 0).setF (F.EV_CTX_KEY_grace n) g
  | .prior _ _ _ =>
    ((s.setF (F.EV_CTX_KEY_old_valid n) 1).setF (F.EV_CTX_KEY_old_kind n) 1).setF (F.EV_CTX_KEY_grace n) 0

/-- The old key slot becomes free at once after an increment, or in the next tick after an epoch change; an epoch change
that is held is made in the tick the slot is free (R95, R96). -/
def freeOld (s : State) (n : Nat) (old : OldKey) : State :=
  let c := s.ctx n
  let due := match old with
    | .spent t => t + 1
    | _ => s.tick
  (s.setCtx n { c with old := old, change := if c.change = .held then .made due else c.change }).showKey n

/-- The frame with key `k`, or one after it on the same port, has been issued (R16, R55). -/
def issuedKey (s : State) (k : Nat) : Bool :=
  Int.toNat ((Table.get (fun _ => CinPort.reset) s.cin (k % 16)).t + 1) > k / 16

/-- The old key is zeroized once the frames that may use it have been decided: F0 + 1 of an epoch change, in the tick after
(R95), and every frame stamped before an increment (R96). -/
def ageOld (s : State) (n : Nat) : State :=
  let c := s.ctx n
  match c.old with
  | .none | .spent _ => s
  | .grace _ _ f0 =>
    if c.frames.any (fun x => x.ord % 16 = f0 % 16 && Nat.ble x.ord (f0 + 16)) || !s.issuedKey (f0 + 16) then s.showKey n
    else s.freeOld n (.spent s.tick)
  | .prior _ _ t => if c.frames.any (fun x => x.stampTick < t) then s else s.freeOld n .none

/-- A job-epoch change of context `n` is requested (R470, R471): merged into one that waits, refused at
0xFFFF (the flag), held while the old slot is occupied. -/
def requestEpoch (s : State) (n : Nat) : State × Bool :=
  let c := s.ctx n
  if c.change ≠ .none then (s, false)
  else if s.f (F.EV_CTX_KEY_epoch n) = 0xFFFF then (s.count F.SEC_KSTAT_exh F.SEC_STATUS_sat, true)
  else
    let change := match c.old with
      | .none => EpochChange.made s.tick
      | .spent t => .made (max s.tick (t + 1))
      | _ => .held
    ((s.setCtx n { c with change := change }).showKey n, false)

/-- The next value of an admission counter (R31, R453); none at its maximum.  In pair operation none, too, where the next
value of the device's parity would pass the maximum (log 117). -/
def nextAdmit (s : State) (n : Nat) : Option Nat :=
  let v := s.word (A.VD_ADMIT n)
  let w := if s.on F.ML_CTRL_en then
      (if (v + 1) % 2 = s.f F.ETH_SRC_id % 2 then v + 1 else v + 2)
    else v + 1
  if w ≤ 0xFFFFFFFF then some w else none

/-- The admission counter of context `n` rises to `v` and its key slots change (R96): the previous counter's
key moves to the old slot, the new one starts at epoch 0, a change made or held lapses.  A frame stamped in
this tick counts as stamped after the increment. -/
def riseAdmit (s : State) (n v : Nat) : State :=
  let c := s.ctx n
  let prev := s.word (A.VD_ADMIT n)
  let ep := s.f (F.EV_CTX_KEY_epoch n)
  let frames := c.frames.map (fun x => if x.stampTick = s.tick then { x with admitCtr := v } else x)
  let old := if frames.any (fun x => x.stampTick < s.tick) then OldKey.prior prev ep s.tick else .none
  let s := (s.setWord (A.VD_ADMIT n) v).setF (F.EV_CTX_KEY_epoch n) 0
  ((s.setCtx n { c with frames := frames, old := old, change := .none, epochFrames := 0 }).showKey n).mirrorKeys n

/-- The carry buffers of context `n` zeroed on an entry to ADMITTING (R149). -/
def zeroCarry (s : State) (n : Nat) : State :=
  let base := s.dword A.CK_AG_AREA_BASE
  if base = 0 then s else s.ownWrite (base + 512 * n) 0x492 (List.replicate 512 0)

/-- Entry to FALLOW (R39): the context joins the persisted fallow list. -/
def enterFallow (s : State) (n : Nat) : State :=
  let (s, full) := s.listFallow 10 n
  let s := if full then s.raise { src := Src.FC_RETIRE, inst := n, detail := 10 * 2 ^ 24 + 2 ^ 23 + n } else s
  ((s.modCtx n (fun c => { c with retired := true })).setTrust n 5).mirrorState n

/-- Of two counters that wait, what follows the one that is awaited: an entry takes in a move, and a move a bare counter. -/
def joinWait : AdmitWait → AdmitWait → AdmitWait
  | .enter, _ | _, .enter => .enter
  | .move, _ | _, .move => .move
  | .renew, _ | _, .renew => .renew
  | .none, .none => .none

/-- A new admission counter for context `n`, with `k` what follows it; at the maximum the context goes to
FALLOW with ST_ADMIT_EXHAUSTED (R31); at the stored reservation the entry waits, `w` being its kind (R490). -/
def newAdmit (s : State) (n : Nat) (w : AdmitWait) (k : State → State) : State :=
  match s.nextAdmit n with
  | none => ((s.endBusy n 0x02).enterFallow n).cmdSt 0x02
  | some v =>
    if (s.ctx n).reserve ≤ v then s.modCtx n (fun c => { c with waitAdmit := joinWait c.waitAdmit w })
    else k ((s.riseAdmit n v).modCtx n (fun c => { c with waitAdmit := .none }))

/-- Entry to ADMITTING under R31: window and clean run cleared, counter incremented, new key. -/
def enterAdmitting (s : State) (n : Nat) : State :=
  s.newAdmit n .enter (fun s =>
    let s := ((s.setDword (A.VD_CTX_HIST n) 0).setF (F.VD_CTX_STATE_wfail n) 0).setF (F.VD_CTX_STATE_clean n) 0
    let s := if s.trust n = 0 then s.modCtx n (fun c => { c with taken := [] }) else s
    ((s.setTrust n 1).zeroCarry n).mirrorState n)

/-- A move to ADMITTING that keeps the window (R36, R450). -/
def moveAdmitting (s : State) (n : Nat) : State :=
  s.newAdmit n .move (fun s => (((s.setTrust n 1).setF (F.VD_CTX_STATE_clean n) 0).zeroCarry n).mirrorState n)

/-- A new admission counter outside an entry (R16, R75, R473): a judged context enters ADMITTING under R31,
a REJECTED or FALLOW one keeps its state. -/
def renewAdmit (s : State) (n : Nat) : State :=
  if s.inJudged n then s.enterAdmitting n
  else if s.trust n = 0 then s
  else s.newAdmit n .renew id

/-- A counter that waited for context `n`'s reservation is taken, when the new reservation is written (R490), and the command
it kept busy is reported (R40). -/
def resumeAdmit (s : State) (n : Nat) : State :=
  let u := match (s.ctx n).waitAdmit with
    | .none => s
    | .renew => s.newAdmit n .renew id
    | .move => s.moveAdmitting n
    | .enter => s.enterAdmitting n
  if (u.ctx n).waitAdmit = .none then u.endBusy n 0x00 else u

/-! ### Accelerator sequences (R34 to R36) -/

/-- The sequence of accelerator `a`. -/
def seq (s : State) (a : Nat) : AccSeq := Table.get (fun _ => ⟨SeqPhase.idle, []⟩) s.accSeq a

/-- The phase of a sequence as it is mirrored: 0 idle, 1 reset pulse, 2 power cycle (R444, log 18). -/
def phaseCode : SeqPhase → Nat
  | .idle => 0
  | .pulse _ => 1
  | .off _ => 2
  | .settle _ => 2

/-- A STATE frame of accelerator `a` (R441): VD_ACC_STAT_a, its driven levels and its sequence. -/
def accMsg (s : State) (a : Nat) : MlMsg :=
  .state (.acc a (s.word (A.VD_ACC_STAT a)) (s.on (F.SIO_ACC_STAT_rst a)) (s.on (F.SIO_ACC_STAT_pwr a)) (phaseCode (s.seq a).phase))

/-- Accelerator `a`'s sequence and levels, mirrored by the primary (R444). -/
def mirrorAcc (s : State) (a : Nat) : State := if s.leads then s.mlSend (s.accMsg a) else s

/-- The state with accelerator `a`'s sequence replaced; VD_ACC_STAT_a.busy follows it, and the mirror. -/
def setSeq (s : State) (a : Nat) (q : AccSeq) : State :=
  ((s.flag (F.VD_ACC_STAT_busy a) (q.phase != SeqPhase.idle)).withAccSeq (Table.put (fun _ => ⟨SeqPhase.idle, []⟩) s.accSeq a q)).mirrorAcc a

/-- ACC_RST_N[a] driven; the pad follows (R507). -/
def driveRst (s : State) (a : Nat) (b : Bool) : State := (s.flag (F.SIO_ACC_STAT_rst a) b).flag (F.SIO_ACC_STAT_rrst a) b

/-- ACC_PWREN[a] driven; the pad follows. -/
def drivePwr (s : State) (a : Nat) (b : Bool) : State := (s.flag (F.SIO_ACC_STAT_pwr a) b).flag (F.SIO_ACC_STAT_rpwr a) b

/-- The running SIO_ACC_CMD_a command. -/
def cmdOf (s : State) (a : Nat) : AccCmd := Table.get (fun _ => .none) s.accCmd a

/-- The state with accelerator `a`'s running command replaced. -/
def setAccCmd (s : State) (a : Nat) (c : AccCmd) : State :=
  s.withAccCmd (Table.put (fun _ => .none) s.accCmd a c)

/-- A request of R33 ends a running SIO_ACC_CMD_a command (R506). -/
def endAccCmd (s : State) (a : Nat) : State :=
  if s.cmdOf a = .none then s else (s.setAccCmd a .none).setF (F.SIO_ACC_STAT_st a) 2

/-- Every other judged context bound to accelerator `a` moves to ADMITTING (R36). -/
def resetOthers (s : State) (a n : Nat) : State :=
  (s.boundTo a).foldl (fun s m =>
    if m ≠ n ∧ s.inJudged m then (s.moveAdmitting m).modCtx m (fun c => { c with resetting := true }) else s) s

/-- A sequence of context `n`'s accelerator runs that `n` did not ask for (R36). -/
def resetByOther (s : State) (n : Nat) : Bool :=
  let a := s.f (F.VD_CTX_CFG_acc n)
  s.on (F.VD_ACC_STAT_busy a) && !(s.seq a).who.contains n

/-- Step 2 of a power cycle: ACC_PWREN[a] low for off_ms (R34, R35). -/
def powerOff (s : State) (a : Nat) : State :=
  let s := (s.drivePwr a false).setF (F.VD_ACC_STAT_pend a) 0
  let s := s.countUp (F.VD_ACC_STAT_pwrc a)
  s.setSeq a { s.seq a with phase := .off (s.tick + ms (s.f (F.VD_ACC_PWR_off_ms a))) }

/-- A reset (`pwr` false) or power-cycle request of context `n` for its accelerator `a` (R34, R35). -/
def requestSeq (s : State) (a n : Nat) (pwr : Bool) : State :=
  let s := s.endAccCmd a
  let q := s.seq a
  match q.phase with
  | .idle =>
    let s := s.countUp (F.VD_ACC_STAT_resets a)
    let s := s.driveRst a false
    let s := s.setSeq a ⟨.pulse (s.tick + us (s.f (F.VD_ACC_RST_width_us a))), [n]⟩
    let s := if pwr then s.powerOff a else s
    s.resetOthers a n
  | .pulse _ =>
    let s := if pwr then s.setF (F.VD_ACC_STAT_pend a) 1 else s
    s.setSeq a { q with who := q.who ++ [n] }
  | _ => s.setSeq a { q with who := q.who ++ [n] }

/-- The final rise of ACC_RST_N[a] (R34 to R36): every reaction the sequence carries is complete, and the
clean run of the contexts it moved restarts; the frames of every context that did not ask for it may have lost their evidence
to it. -/
def finishSeq (s : State) (a : Nat) : State :=
  let q := s.seq a
  let s := (s.driveRst a true).setSeq a ⟨.idle, []⟩
  let s := q.who.foldl (fun s n => (s.modCtx n (fun c => { c with
    reactDone := some (c.reactDone.getD s.tick) })).mirrorState n) s
  (s.boundTo a).foldl (fun s n =>
    let s := if s.inJudged n && !q.who.contains n then s.modCtx n (fun c => { c with resetEnd := some s.tick }) else s
    if (s.ctx n).resetting then (s.modCtx n (fun c => { c with resetting := false })).setF (F.VD_CTX_STATE_clean n) 0
    else s) s

/-! ### Entry to REJECTED (R33, R38) -/

/-- The rejections of context `n` within the budget interval that ends now (R38), whose length a commit may change. -/
def rejections (s : State) (n : Nat) : List Nat :=
  let w := s.f F.VD_RETRY_window_s
  (s.ctx n).rejTicks.filter (fun t => w = 0 || s.tick - t ≤ ms (1000 * w))

/-- No running sequence carries a reaction of context `n` any more: a new entry to REJECTED has its own (R34). -/
def leaveSeqs (s : State) (n : Nat) : State :=
  s.withAccSeq (s.accSeq.map (fun q => (q.1, { q.2 with who := q.2.who.filter (· ≠ n) })))

/-- The reactions selected in VD_CTX_REACT_n, all in one tick (R33, R34). -/
def takeReactions (s : State) (n : Nat) : State :=
  let a := s.f (F.VD_CTX_CFG_acc n)
  let rst := s.on (F.VD_CTX_REACT_rst n)
  let pwr := s.on (F.VD_CTX_REACT_pwr n)
  let s := s.leaveSeqs n
  let s := if rst || pwr then (s.modCtx n (fun c => { c with reactDone := none })).requestSeq a n pwr
    else s.modCtx n (fun c => { c with reactDone := some s.tick })
  let m := s.f (F.VD_CTX_REACT_sout n)
  let s := if m = 0 then s
    else s.setSoutReq n (m ||| Table.get (fun _ => 0) s.soutReq n)
  let s := if s.on (F.VD_CTX_REACT_fault n) then s.raise { src := Src.VD_REJECT, detail := n, ctx := n, master := 0x492 } else s
  let s := if s.on (F.VD_CTX_REACT_irq n) then (s.withHostIrq (s.hostIrq ||| 1)) else s
  s.driveOuts

/-- The window count has reached M (R28, R33, R38): REJECTED, or FALLOW above the rejection budget, with the
reactions in the same tick. -/
def reject (s : State) (n : Nat) : State :=
  let s := s.modCtx n (fun c => { c with rejTicks := c.rejTicks ++ [s.tick] })
  let now := s.rejections n
  let s := if 255 ≤ now.length then s.setF (F.VD_CTX_STATE_sat n) 1 else s
  let s := if s.f F.VD_RETRY_budget < now.length then s.enterFallow n else s.setTrust n 4
  s.takeReactions n

/-- VD_REJ_n.inwin: the rejections in the present budget interval (R38, R43). -/
def inWindow (s : State) (n : Nat) : Nat := min (s.rejections n).length 255

/-! ### VD commands (R40, R41) -/

/-- An entry to ADMITTING keeps its command busy while it waits for its reservation (R41, R490). -/
def keepsBusy (s : State) (op n : Nat) : Bool := (op = 1 || op = 3 || op = 4) && (s.ctx n).waitAdmit != .none

/-- A VD command on context `n`: one written while another is still being applied is ST_BUSY (R41), a context not committed
with en = 1 is ERR_PARAM, a state outside those it is accepted in is ERR_STATE, otherwise `k` is its effect, and its outcome
is reported once that has been applied. -/
def vdCmd (s : State) (op n : Nat) (accepted : Bool) (k : State → State) : State :=
  let told := s.setF F.VD_CMD_STATUS_last_op op
  if s.vdBusy.isSome then told.cmdSt 0x01
  else if op ≠ 6 ∧ s.enabled.contains n = false then told.cmdSt 0x11
  else if !accepted then told.cmdSt 0x10
  else
    let u := k (told.cmdSt 0x00)
    if u.keepsBusy op n then (u.setWord A.VD_CMD_STATUS (s.word A.VD_CMD_STATUS)).withVdBusy (some (op, n)) else u

/-- A context that is put in service enters ADMITTING under R31, or FALLOW when it is retired (R39). -/
def enterService (s : State) (n : Nat) : State :=
  if s.isRetired n then
    let s := if s.trust n = 0 then s.modCtx n (fun c => { c with taken := [] }) else s
    (s.setTrust n 5).mirrorState n
  else s.enterAdmitting n

/-- ENABLE (R40): ADMITTING under R31, or FALLOW for a context on the fallow list. -/
def vdEnable (s : State) (n : Nat) : State := s.vdCmd 1 n (s.trust n = 0) (fun s => s.enterService n)

/-- DISABLE (R40): OFF; undecided frames stay. -/
def vdDisable (s : State) (n : Nat) : State :=
  s.vdCmd 2 n (s.trust n ≠ 0) (fun s => (s.setTrust n 0).mirrorState n)

/-- READMIT (R40): from REJECTED with the reaction complete. -/
def vdReadmit (s : State) (n : Nat) : State :=
  s.vdCmd 3 n (s.trust n = 4 && (s.ctx n).reactDone.isSome) (fun s => s.enterAdmitting n)

/-- CLEAR_FALLOW (R39, R40): off the fallow list, rejection history cleared, ADMITTING. -/
def vdClearFallow (s : State) (n : Nat) : State :=
  s.vdCmd 4 n (s.trust n = 5) (fun s =>
    let s := s.unlist 10 n
    (s.modCtx n (fun c => { c with rejTicks := [], retired := false })).enterAdmitting n)

/-- FORCE_DOUBT (R40). -/
def vdForce (s : State) (n : Nat) : State :=
  s.vdCmd 5 n (s.inJudged n) (fun s => s.modCtx n (fun c => { c with force := true }))

/-- CLEAR_COUNTS (R40). -/
def vdClearCounts (s : State) (n : Nat) : State :=
  s.vdCmd 6 n true (fun s =>
    ((((s.setWord (A.VD_DOUBT n) 0).setWord (A.VD_LATE n) 0).setWord (A.VD_GAP n) 0).setF (F.VD_CTX_STATE_sat n) 0).mirrorState n)

/-- A value written to VD_CMD (R40, R43): op 0 does nothing, an op outside the table is ERR_PARAM. -/
def vdWrite (s : State) (v : Nat) : State :=
  let n := bits v 0 10
  match bits v 28 4 with
  | 0 => s
  | 1 => s.vdEnable n
  | 2 => s.vdDisable n
  | 3 => s.vdReadmit n
  | 4 => s.vdClearFallow n
  | 5 => s.vdForce n
  | 6 => s.vdClearCounts n
  | op => (s.setF F.VD_CMD_STATUS_last_op op).cmdSt (if s.vdBusy.isSome then 0x01 else 0x11)

/-! ### Accelerator commands (R506) -/

/-- An SIO_ACC_CMD_a command that is not accepted (R506): one written while another runs leaves st alone. -/
def refuseAcc (s : State) (a : Nat) : State :=
  if s.cmdOf a ≠ .none then s.respond .errState
  else (s.respond .errState).setF (F.SIO_ACC_STAT_st a) 2

/-- Neither a sequence nor a command of accelerator `a` runs (R506). -/
def accFree (s : State) (a : Nat) : Bool := !s.on (F.VD_ACC_STAT_busy a) && s.cmdOf a == .none

/-- POWER_UP (R506): ACC_PWREN high, then settle_ms, then ACC_RST_N high. -/
def accPowerUp (s : State) (a : Nat) : State :=
  if s.accFree a ∧ s.on (F.SIO_ACC_STAT_pwr a) = false ∧ s.on (F.SIO_ACC_STAT_rst a) = false then
    let s := (s.drivePwr a true).setF (F.SIO_ACC_STAT_st a) 1
    (s.setAccCmd a (.powerUp (s.tick + ms (s.f (F.VD_ACC_PWR_settle_ms a))))).mirrorAcc a
  else s.refuseAcc a

/-- POWER_DOWN (R506): accepted only while every context bound to `a` is OFF, REJECTED or FALLOW. -/
def accPowerDown (s : State) (a : Nat) : State :=
  if s.accFree a ∧ (s.boundTo a).any (fun n => s.inJudged n) = false then
    (((s.driveRst a false).drivePwr a false).setF (F.SIO_ACC_STAT_st a) 0).mirrorAcc a
  else s.refuseAcc a

/-- RELEASE (R506): ACC_RST_N high, only with ACC_PWREN high and ACC_RST_N low. -/
def accRelease (s : State) (a : Nat) : State :=
  if s.accFree a ∧ s.on (F.SIO_ACC_STAT_pwr a) ∧ s.on (F.SIO_ACC_STAT_rst a) = false then
    ((s.driveRst a true).setF (F.SIO_ACC_STAT_st a) 0).mirrorAcc a
  else s.refuseAcc a

end State

/-- DISABLE (R40). -/
def execDisable (t : Nat) (n : Fin 1024) (s : State) : Host.Outcome State Fault Refusal := done ((s.start t).vdDisable n)

/-- FORCE_DOUBT (R40). -/
def execForceDoubt (t : Nat) (n : Fin 1024) (s : State) : Host.Outcome State Fault Refusal := done ((s.start t).vdForce n)

/-- CLEAR_COUNTS (R40). -/
def execClearCounts (t : Nat) (n : Fin 1024) (s : State) : Host.Outcome State Fault Refusal := done ((s.start t).vdClearCounts n)

/-- The reset pulse of accelerator a ends (R34, R35): its final rise, or a power cycle waits on it. -/
def execAccResetPulseEnd (t : Nat) (a : Fin 4) (s : State) : Host.Outcome State Fault Refusal :=
  let s := s.start t
  match (s.seq a).phase with
  | .pulse due =>
    if due ≤ s.tick then
      if s.on (F.VD_ACC_STAT_pend a) then done (s.powerOff a) else done (s.finishSeq a)
    else done s
  | _ => done s

/-- The power-off time of accelerator a ends (R34): ACC_PWREN rises and settles. -/
def execAccPowerOffEnd (t : Nat) (a : Fin 4) (s : State) : Host.Outcome State Fault Refusal :=
  let s := s.start t
  match (s.seq a).phase with
  | .off due =>
    if due ≤ s.tick then
      let s := s.drivePwr a true
      done (s.setSeq a { s.seq a with phase := .settle (s.tick + State.ms (s.f (F.VD_ACC_PWR_settle_ms a))) })
    else done s
  | _ => done s

/-- The settle time of accelerator a ends: of a power cycle (R34), or of a POWER_UP command (R506). -/
def execAccSettleEnd (t : Nat) (a : Fin 4) (s : State) : Host.Outcome State Fault Refusal :=
  let s := s.start t
  match (s.seq a).phase, s.cmdOf a with
  | .settle due, _ => if due ≤ s.tick then done (s.finishSeq a) else done s
  | .idle, .powerUp due =>
    if due ≤ s.tick then done ((((s.driveRst a true).setAccCmd a .none).setF (F.SIO_ACC_STAT_st a) 0).mirrorAcc a) else done s
  | _, _ => done s

/-- POWER_UP (R506). -/
def execPowerUp (t : Nat) (a : Fin 4) (s : State) : Host.Outcome State Fault Refusal := done ((s.start t).accPowerUp a)

/-- POWER_DOWN (R506). -/
def execPowerDown (t : Nat) (a : Fin 4) (s : State) : Host.Outcome State Fault Refusal := done ((s.start t).accPowerDown a)

/-- RELEASE (R506). -/
def execReleaseAcc (t : Nat) (a : Fin 4) (s : State) : Host.Outcome State Fault Refusal := done ((s.start t).accRelease a)

end Sys2Proof.Machine
end

