-- ==== Sys2Proof/Machine/Keys.lean ====
section
/-! DEFINITION. Keys and protected data: AES-256-GCM over a keystream, the per-job, verdict and archive keys
(R469), and values of the CTR_DRBG (R478, R479). -/

namespace Sys2Proof.Machine

open Sys2Proof

/-- AES-256-GCM encryption or decryption of data from byte `i` of the keystream on. -/
def gcmXor (key iv : List Byte) : Nat → List Byte → List Byte
  | _, [] => []
  | i, b :: r => (b ^^^ Config.gcmStream key iv i) :: gcmXor key iv (i + 1) r

/-- AES-256-GCM encryption or decryption of a whole payload. -/
def gcmCrypt (key iv data : List Byte) : List Byte := gcmXor key iv 0 data

/-- The bytes of an ASCII label. -/
def ascii (t : String) : List Byte := t.toList.map (fun c => BitVec.ofNat 8 c.toNat)

namespace State

/-- Fuse field `k` (R457): its two copies differing, the field is treated as blank.  The fields are numbered life 0,
serial 1, pid 2, ikey_0 to ikey_3 3 to 6, revoke 7, minver 8, dkey 9, idseed 10, ps 11, vs 12, ar 13, hk 14
(log 20). -/
def fuse (s : State) (k : Nat) : List Byte :=
  let a := Table.get (fun _ => []) s.sec.fuses k
  if a = Table.get (fun _ => []) s.sec.fuses2 k then a else []

/-- The lifecycle (R458); any other value is handled as RETURN. -/
def life (s : State) : Nat :=
  let v := leVal (s.fuse 0)
  if v = 0x00 ∨ v = 0x5A then v else 0xA5

/-- A secret fuse field of 32 bytes: in use in FIELD only, otherwise blank, all zeros (R457, R458). -/
def secret (s : State) (k : Nat) : List Byte :=
  let v := s.fuse k
  if s.life = 0x5A ∧ v ≠ [] then v else List.replicate 32 0

/-- The per-job key of context `n` for an admission counter and job epoch (R469). -/
def jobKey (s : State) (n admitCtr epoch : Nat) : List Byte :=
  Config.hkdf (s.secret 11) (ascii "JOBK" ++ beBytes 2 n ++ beBytes 4 admitCtr ++ beBytes 2 epoch)

/-- The verdict key of context `n` for an admission counter and verdict epoch (R469). -/
def verdictKey (s : State) (n admitCtr epoch : Nat) : List Byte :=
  Config.hkdf (s.secret 12) (ascii "VRDK" ++ beBytes 2 n ++ beBytes 4 admitCtr ++ beBytes 2 epoch)

/-- The archive key of an epoch (R469). -/
def archiveKey (s : State) (epoch : Nat) : List Byte :=
  Config.hkdf (s.secret 13) (ascii "ARCK" ++ beBytes 2 epoch)

/-- The DRBG is stopped (R479). -/
def drbgStopped (s : State) : Bool := s.f F.SEC_STATUS_rng = 2

/-- `n` bytes drawn from the CTR_DRBG: free values (R478, log 2). -/
def drbg (s : State) : Nat → List Byte × State
  | 0 => ([], (s.withSec { s.sec with requests := s.sec.requests + 1 }))
  | n + 1 =>
    let (b, s) := s.draw 8
    let (r, s) := s.drbg n
    (BitVec.ofNat 8 b :: r, s)

end State

end Sys2Proof.Machine
end

