-- ==== Sys2Proof/Machine/Flash.lean ====
section
/-! DEFINITION. What lies on the xSPI devices: the boot descriptor, slot directories and images, and the persisted
records (R434, R485 to R490); image verification (R460, R487). -/

namespace Sys2Proof.Machine

open Sys2Proof

/-- Little-endian field of `n` bytes at offset `i` of a byte list. -/
def leAt (l : List Byte) (i n : Nat) : Nat := leVal ((l.drop i).take n)

namespace State

/-! ### Bytes of a device -/

/-- Byte `a` of xSPI device `d`; an erased byte reads 0xFF (log 22). -/
def flashByte (s : State) (d a : Nat) : Byte := Table.get (fun _ => (0xFF : Byte)) s.flash (d * 2 ^ 33 + a)

/-- `n` bytes of device `d` from address `a`. -/
def flashBytes (s : State) (d a n : Nat) : List Byte := (List.range n).map (fun i => s.flashByte d (a + i))

/-- The state with byte `a` of device `d` written. -/
def setFlashByte (s : State) (d a : Nat) (b : Byte) : State :=
  s.withFlash (Table.put (fun _ => (0xFF : Byte)) s.flash (d * 2 ^ 33 + a) b)

/-- The state with a list of bytes written from address `a`. -/
def setFlash (s : State) (d : Nat) : Nat → List Byte → State
  | _, [] => s
  | a, b :: r => (s.setFlashByte d a b).setFlash d (a + 1) r

/-- The state with `n` bytes of device `d` erased from address `a`. -/
def eraseFlash (s : State) (d a n : Nat) : State :=
  s.withFlash (s.flash.filter (fun p => p.1 < d * 2 ^ 33 + a || d * 2 ^ 33 + a + n ≤ p.1))

/-! ### The boot descriptor (R485) -/

/-- The 64 bytes of copy `k` of the boot descriptor. -/
def descBytes (s : State) (k : Nat) : List Byte := s.flashBytes 0 (0x10000 * k) 64

/-- The NOR device holds up to 2 Gbit (R432). -/
def norSize : Nat := 0x10000000

/-- A copy is valid (R485): magic, CRC, and both slots aligned, above the fixed areas, apart, inside the device. -/
def descValid (s : State) (k : Nat) : Bool :=
  let b := s.descBytes k
  let slotOk (i : Nat) : Bool :=
    leAt b i 4 % 0x10000 = 0 && decide (0xA0000 ≤ leAt b i 4) && decide (leAt b i 4 + leAt b (i + 4) 4 ≤ norSize)
  leAt b 0 4 = 0x4442575A && leAt b 60 4 = crc32c (b.take 60) && slotOk 12 && slotOk 20
    && (decide (leAt b 12 4 + leAt b 16 4 ≤ leAt b 20 4) || decide (leAt b 20 4 + leAt b 24 4 ≤ leAt b 12 4))

/-- Of two copies the index of the valid one with the higher generation. -/
def newer (valid : Nat → Bool) (gen : Nat → Nat) : Option Nat :=
  match valid 0, valid 1 with
  | true, true => some (if gen 0 < gen 1 then 1 else 0)
  | true, false => some 0
  | false, true => some 1
  | false, false => none

/-- The copy a write goes to (R485): an invalid one, or the one with the lower generation. -/
def older (valid : Nat → Bool) (gen : Nat → Nat) : Nat :=
  match newer valid gen with
  | none => 0
  | some k => 1 - k

/-- The copy of the boot descriptor in use. -/
def desc (s : State) : Option (List Byte) :=
  (newer s.descValid (fun k => leAt (s.descBytes k) 4 4)).map s.descBytes

/-- Active slot and trial flag of a descriptor. -/
def descActive (b : List Byte) : Nat := leAt b 8 1 % 2
def descTrial (b : List Byte) : Bool := bitOf (leAt b 9 1) 0

/-- Offset and length of slot `k` in a descriptor. -/
def descSlot (b : List Byte) (k : Nat) : Nat × Nat := (leAt b (12 + 8 * k) 4, leAt b (16 + 8 * k) 4)

/-- A descriptor written with another active slot and trial flag (R485, R494); with no valid copy nothing is written. -/
def writeDesc (s : State) (active : Nat) (trial : Bool) : State :=
  match s.desc with
  | none => s
  | some b =>
    let k := older s.descValid (fun k => leAt (s.descBytes k) 4 4)
    let body := b.take 4 ++ leBytes 4 (leAt b 4 4 + 1) ++ leBytes 1 active ++ leBytes 1 (bit trial) ++ leBytes 2 0
      ++ (b.drop 12).take 16 ++ List.replicate 32 0
    (s.eraseFlash 0 (0x10000 * k) 0x10000).setFlash 0 (0x10000 * k) (body ++ leBytes 4 (crc32c body))

/-! ### Slots and images (R486, R487, R460) -/

/-- An entry of a slot directory: kind, flags, offset within the slot, length. -/
structure DirEntry where
  kind : Nat
  flags : Nat
  off : Nat
  len : Nat
  deriving DecidableEq, Repr

/-- The entries of the directory of the slot at flash offset `base`, 126 at most. -/
def dirEntries (s : State) (base : Nat) : List DirEntry :=
  let b := s.flashBytes 0 base 0x1000
  (List.range (min 126 (leAt b 4 4))).map (fun i =>
    let e := 32 + 32 * i
    ⟨leAt b e 1, leAt b (e + 1) 1, leAt b (e + 4) 4, leAt b (e + 8) 8⟩)

/-- The directory of a slot keeps R486. -/
def dirValid (s : State) (base len : Nat) : Bool :=
  let b := s.flashBytes 0 base 0x1000
  let n := leAt b 4 4
  let es := s.dirEntries base
  leAt b 0 4 = 0x5344575A && decide (1 ≤ n) && decide (n ≤ 126)
    && ((b.drop 8).take 24).all (· = 0)
    && ((b.drop (32 + 32 * n)).take (4092 - (32 + 32 * n))).all (· = 0)
    && leAt b 4092 4 = crc32c (b.take 4092 ++ [0, 0, 0, 0])
    && es.all (fun e => e.off % 0x10000 = 0 && decide (e.off + e.len ≤ len))
    && (List.range n).all (fun i => leAt b (32 + 32 * i + 2) 2 = 0 && ((b.drop (32 + 32 * i + 16)).take 16).all (· = 0))
    && (es.filter (fun e => e.kind = 1)).length = 1 && (es.filter (fun e => e.kind = 2)).length = 1

/-- Anti-rollback level: the bits set in the thermometer-coded fuse (R457). -/
def minver (s : State) : Nat :=
  let v := leVal (s.fuse 8)
  ((List.range 64).filter (fun i => bitOf v i)).length

/-- What R460 and R487 say of an image header: magic, format, kind, key index in range and not revoked, reserved bytes
zero, key digest, version.  The signature and the body digest are the crypto block's verdict `sig` (log 23). -/
def imageOk (s : State) (kind : Nat) (h : List Byte) (sig : Bool) : Bool :=
  let i := leAt h 7 1
  sig && leAt h 0 4 = 0x4957575A && leAt h 4 2 = 1 && leAt h 6 1 = kind && decide (i ≤ 3)
    && !bitOf (leVal (s.fuse 7)) i && s.fuse (3 + i) ≠ [] && decide (s.minver ≤ leAt h 8 1) && decide (leAt h 8 1 ≤ 64)

/-- The slot's images of one kind: flash offset, flags and length. -/
def slotImages (s : State) (k kind : Nat) : List (Nat × Nat × Nat) :=
  match s.desc with
  | none => []
  | some b =>
    ((s.dirEntries (descSlot b k).1).filter (fun e => e.kind = kind)).map (fun e => ((descSlot b k).1 + e.off, e.flags, e.len))

/-- The directory of slot `k` is valid. -/
def slotOk (s : State) (k : Nat) : Bool :=
  match s.desc with
  | none => false
  | some b => s.dirValid (descSlot b k).1 (descSlot b k).2

/-- Every image of one kind in slot `k` verifies. -/
def slotVerifies (s : State) (k kind : Nat) (sig : Bool) : Bool :=
  (s.slotImages k kind).all (fun (o, _, _) => s.imageOk kind (s.flashBytes 0 o 128) sig)

/-- `n` bytes from address `a` as a striped load reads them (R433): even 4 KiB granules from XSPI0, odd ones from CS1 of XSPI1. -/
def stripedBytes (s : State) (a n : Nat) : List Byte :=
  (List.range n).map (fun i => s.flashByte (if (a + i) / 4096 % 2 = 1 then 3 else 0) (a + i))

/-- An image's body copied to its load address (R487) by the pair that boots, striped or from XSPI0 alone (R433). -/
def loadImage (s : State) (o : Nat) (striped : Bool) : State :=
  let h := s.flashBytes 0 o 128
  let n := leAt h 16 8
  s.ownWrite (leAt h 24 6) (((s.rolePair 0).map pairHart).getD 0)
    (if striped then s.stripedBytes (o + 8192) n else s.flashBytes 0 (o + 8192) n)

/-- A measurement entry taken from an image (R465). -/
def measure (s : State) (kind slot : Nat) (h : List Byte) : State :=
  (s.withSec { s.sec with
    meas := Table.put (fun _ => (0, 0, 0, [])) s.sec.meas kind (slot, 1, leAt h 12 4, (h.drop 32).take 32) })

/-- A measurement entry's state and slot, its other bytes zero (R465). -/
def measState (s : State) (kind slot st : Nat) : State :=
  s.withSec { s.sec with meas := Table.put (fun _ => (0, 0, 0, [])) s.sec.meas kind (slot, st, 0, []) }

/-! ### Persisted records (R488 to R490) -/

/-- Flash offset of copy `k` of the records. -/
def recBase (k : Nat) : Nat := 0x20000 + 0x20000 * k

/-- CRC of a record copy: bytes 60 to 63 taken as zero. -/
def recCrc (b : List Byte) : Nat := crc32c (b.take 60 ++ [0, 0, 0, 0] ++ b.drop 64)

/-- A record copy is valid (R488). -/
def recValid (s : State) (k : Nat) : Bool :=
  let b := s.flashBytes 0 (recBase k) 0x20000
  leAt b 0 4 = 0x5052575A && leAt b 60 4 = recCrc b

/-- The copy start-up uses. -/
def recCopy (s : State) : Option Nat := newer s.recValid (fun k => leVal (s.flashBytes 0 (recBase k + 4) 4))

/-- The persisted fallow list (R488). -/
def savedFallow (s : State) : List (Nat × Nat) :=
  match s.recCopy with
  | none => []
  | some k =>
    let a := recBase k + 0x1000
    (List.range (min 1023 (leVal (s.flashBytes 0 a 4)))).map (fun i =>
      let e := s.flashBytes 0 (a + 4 + 4 * i) 4
      (leAt e 0 1, leAt e 2 2))

/-- The persisted admission reservation of context `n`. -/
def savedReserve (s : State) (n : Nat) : Nat :=
  match s.recCopy with
  | none => 0
  | some k => leVal (s.flashBytes 0 (recBase k + 0x2000 + 8 * n) 4)

/-- The persisted confirmed check value, if a copy is valid. -/
def savedConf (s : State) : Option Nat :=
  s.recCopy.map (fun k => leVal (s.flashBytes 0 (recBase k + 8) 4))

/-- The bytes of the update state (R488, R494): state, slot, mirror, erase_next, acked, in the model's order (log 24). -/
def updBytes (s : State) : List Byte :=
  leBytes 1 (s.f F.SYS_UPD_STAT_state) ++ leBytes 1 (s.f F.SYS_UPD_STAT_slot) ++ leBytes 1 (bit (bitOf s.boot.mirrors 0) + 2 * bit (bitOf s.boot.mirrors 1))
    ++ leBytes 1 0 ++ leBytes 4 (s.f F.SYS_UPD_STAT_erase_next) ++ leBytes 4 (s.word A.SYS_UPD_ACK) ++ leBytes 4 0

/-- The persisted update state, 16 bytes. -/
def savedUpd (s : State) : List Byte :=
  match s.recCopy with
  | none => List.replicate 16 0
  | some k => s.flashBytes 0 (recBase k + 0x40) 16

/-- A context's reservation as it is written next (R490): 64 more once its counter comes within 16 of it, held up to 2^32 and
stored as 0xFFFFFFFF there (log 148). -/
def nextReserve (s : State) (n : Nat) : Nat :=
  let r := (s.ctx n).reserve
  if r ≤ s.f (F.VD_ADMIT_count n) + 16 then min (r + 64) 0x100000000 else r

/-- A record copy as it is written next, with generation `g` (R488). -/
def recBytes (s : State) (g : Nat) : List Byte :=
  let body (crc : Nat) : List Byte :=
    leBytes 4 0x5052575A ++ leBytes 4 g ++ leBytes 4 (s.word A.SYS_SPS_CONF) ++ List.replicate 48 0 ++ leBytes 4 crc
      ++ s.updBytes ++ List.replicate (0x1000 - 0x50) 0
      ++ leBytes 4 s.fc.fallow.length
      ++ (s.fc.fallow.take 1023).flatMap (fun (k, n) => leBytes 1 k ++ leBytes 1 0 ++ leBytes 2 n)
      ++ List.replicate (0xFFC - 4 * min 1023 s.fc.fallow.length) 0
      ++ (List.range 1024).flatMap (fun n => leBytes 4 (min (s.nextReserve n) 0xFFFFFFFF) ++ leBytes 4 0)
      ++ List.replicate (0x20000 - 0x4000) 0
  body (recCrc (body 0))

/-- The records written to the copy of the lower generation (R485, R488, R490): the reservations rise first, and a
context that waited for its reservation enters ADMITTING. -/
def writeRecords (s : State) : State :=
  let gen (k : Nat) : Nat := leVal (s.flashBytes 0 (recBase k + 4) 4)
  let k := older s.recValid gen
  let g := match s.recCopy with
    | none => 1
    | some j => gen j + 1
  let b := s.recBytes g
  let s := (s.eraseFlash 0 (recBase k) 0x20000).setFlash 0 (recBase k) b
  let s := (List.range 1024).foldl (fun s n => s.modCtx n (fun c => { c with reserve := s.nextReserve n })) s
  (List.range 1024).foldl (fun s n => s.resumeAdmit n) s

end State

end Sys2Proof.Machine
end

