-- ==== Sys2Proof/Machine/Count.lean ====
section
/-! DEFINITION. Activity counters, latching and the gleaner's queues and buffer (R297 to R309). -/

namespace Sys2Proof.Machine

open Sys2Proof

namespace State

/-! ### Activity counters (R297) -/

/-- Ticks since the latest reset of the warden die (0), of die `d` (1 + d), or of the whole chip (9). -/
def ticksSince (s : State) (k : Nat) : Nat := s.tick - Table.get (fun _ => 0) s.since k

/-- The ticks for which CLK_CORE of CORE `c` has stood still until now without an end: its die has been in reset (R405), or the core
holds its clock (R197). -/
def gatedTicks (s : State) (c : Nat) : Nat :=
  let r := Table.get (fun _ => 0) s.dieReset (c / 4)
  let h := Table.get (fun _ => 0) s.gs.hold c
  if r ≠ 0 then s.tick + 1 - r
  else if s.f (F.SYS_DIE_state (c / 4)) = 1 then s.ticksSince 0
  else if h ≠ 0 then s.tick + 1 - h
  else 0

/-- CLK_CORE cycles of CORE `c` that were not normal: stretched, held, or gated in reset (R297, R405). -/
def lostNow (s : State) (c : Nat) : Nat := Table.get (fun _ => 0) s.ct.lost c + 6 * s.gatedTicks c

/-- The cycles that were not normal, with those of the cores `l` brought to the present. -/
def lostTo (s : State) (l : List Nat) : Table Nat := l.foldl (fun t c => Table.put (fun _ => 0) t c (s.lostNow c)) s.ct.lost

/-- A counter of the device by its code below 0xA0 (R297): the normal cycles of a core are six a tick less the
stretched, held and gated ones. -/
def ctRaw (s : State) (code : Nat) : Nat :=
  if 0x80 ≤ code ∧ code < 0x90 then (6 * s.ticksSince 9 - s.lostNow (code - 0x80)) % 2 ^ 64
  else s.ctHeld code

/-- How often the normal cycles of the cores and of the home dies have passed 2^64 since chip reset (R297). -/
def normalWraps (s : State) : Nat :=
  let raw (c : Nat) : Nat := 6 * s.ticksSince 9 - s.lostNow c
  ((List.range 16).map (fun c => raw c / 2 ^ 64)).sum
    + ((List.range 4).map (fun d => (raw (4 * d) + raw (4 * d + 1) + raw (4 * d + 2) + raw (4 * d + 3)) / 2 ^ 64)).sum

/-- CT_STATUS.wrap as it reads: some counter has wrapped since it was last cleared (R297, R311). -/
def ctWrapped (s : State) : Bool := s.on F.CT_STATUS_wrap || Nat.blt s.ct.wrapBase s.normalWraps

/-- CLK_CORE cycles of CORE `c`, normal and stretched (R240, R297). -/
def coreCycles (s : State) (c : Nat) : Nat := s.ctRaw (0x80 + c) + s.ctRaw (0x90 + c)

/-- The cycle bases with those of the cores `l` set to the present. -/
def cycNow (s : State) (l : List Nat) : Table Nat :=
  l.foldl (fun t c => Table.put (fun _ => 0) t c (s.coreCycles c)) s.ct.cycBase

/-- A sum of counters, wrapping (R297). -/
def ctSum (s : State) (l : List Nat) : Nat := (l.map s.ctRaw).sum % 2 ^ 64

/-- The value of a code seen from home die `d` (R297). -/
def ctRead (s : State) (d code : Nat) : Nat :=
  let cores := [4 * d, 4 * d + 1, 4 * d + 2, 4 * d + 3]
  if code < 0xA0 then s.ctRaw code
  else if code < 0xA4 then s.ctSum (cores.map (· + 0x60 + 0x10 * (code - 0xA0)))
  else if code = 0xA4 then s.ctSum cores
  else if code = 0xA5 then s.ctSum [0x10 + 2 * d, 0x11 + 2 * d]
  else if code = 0xA6 then s.ctSum (cores.map (· + 0x18))
  else 0

/-- Whether R297 defines the code. -/
def ctDefined (code : Nat) : Bool := code < 0x5C || (0x60 ≤ code && code ≤ 0xA6)

/-- 64-byte granules that an access of `n` bytes at `a` touches (R297). -/
def granules (a n : Nat) : Nat := if n = 0 then 0 else (a + n - 1) / 64 - a / 64 + 1

/-- 256-byte GDDR6 data blocks that an access touches, as bytes read or written (R188, R297). -/
def blockBytes (a n : Nat) : Nat := if n = 0 then 0 else 256 * ((a + n - 1) / 256 - a / 256 + 1)

/-- The traffic of a read of the `n` bytes at `a` that lie in one memory (R297). -/
def trafficAt (s : State) (a n : Nat) : State :=
  match region a with
  | .coreMem c => s.ctAdd c (granules a n)
  | .clusterMem k => s.ctAdd (0x10 + k) (granules a n)
  | .gddr c => s.ctAdd (0x18 + c) (blockBytes a n)
  | _ => s

/-- The traffic of one read of `n` bytes at `a` (R297), channel by channel where it leaves 4 KiB of GDDR6 (R186, R187). -/
def traffic (s : State) (a n : Nat) : State :=
  if a % 0x1000 + n ≤ 0x1000 then s.trafficAt a n else (spanPieces a n).foldl (fun s x => s.trafficAt x.1 x.2) s

/-- The traffic of one write: a GDDR6 block that it covers in part is read first (R188, R297). -/
def trafficW (s : State) (a n : Nat) : State :=
  match region a with
  | .gddr _ => (partUnits a n).foldl (fun s x => s.trafficAt x 1) (s.traffic a n)
  | _ => s.traffic a n

/-! ### Links (R191, R192, R297) -/

/-- The compute die that holds address `a`, none for the warden die. -/
def dieOfAddr (a : Nat) : Option Nat :=
  match region a with
  | .gddr c => some (c / 4)
  | .coreMem n => some (n / 4)
  | .clusterMem k => some (k / 2)
  | _ => none

/-- Counters of the hops that data crosses from die `a` to die `b` over the ring (R192): `k` hops upward or downward. -/
def upHops (a k : Nat) : List Nat := (List.range k).map (fun i => 0x30 + 2 * ((a + i) % 4))
def downHops (a k : Nat) : List Nat := (List.range k).map (fun i => 0x31 + 2 * ((a + 3 - i % 4) % 4))
def ringHops (s : State) (a b : Nat) : List Nat :=
  match (b + 4 - a % 4) % 4 with
  | 0 => []
  | 1 => if s.hopUp a then upHops a 1 else downHops a 3
  | 2 => if s.hopUp a && s.hopUp (a + 1) then upHops a 2 else downHops a 2
  | _ => if s.hopUp (a + 3) then downHops a 1 else upHops a 3

/-- Counters of the links that data crosses from one die to another (R192), none standing for the warden die. -/
def linkPath (s : State) (a b : Option Nat) : List Nat :=
  match a, b with
  | none, none => []
  | none, some d => if s.wardenLinkUp d then [0x28 + 2 * d] else (0x28 + 2 * ((d + 1) % 4)) :: s.ringHops ((d + 1) % 4) d
  | some d, none => if s.wardenLinkUp d then [0x29 + 2 * d] else s.ringHops d ((d + 1) % 4) ++ [0x29 + 2 * ((d + 1) % 4)]
  | some d, some e => s.ringHops d e

/-- An injection of class 5 meets the flit CRC on a lane group of the link whose counter is `k` (R355, R356): the flit is resent.
The flits of an access are spread over every group of the link (log 118). -/
def injectFlit (s : State) (k : Nat) : State :=
  let groups := if k < 0x30 then (List.range 4).map (fun i => 4 * ((k - 0x28) / 2) + i)
    else (List.range 8).map (fun i => 16 + 8 * ((k - 0x30) / 2) + i)
  match groups.find? (fun g => s.injHits 5 g && !s.isFallow 8 g) with
  | none => s
  | some g =>
    let d := if g < 16 then g / 4 else (g - 16) / 8
    let s := (s.injMade.count (F.CX_LINK_retries d) (F.CX_STATUS_sat d)).ctAdd k 256
    s.raise { src := if g < 16 then Src.D2D_WL d else Src.D2D_RING d, inst := d, detail := g, injected := true }

/-- The data of an access of `n` bytes at `a` by a master crosses the links in 256-byte flits (R191, R297); that requests
and responses without data move none is the model's choice (log 118). -/
def linkTraffic (s : State) (a n master : Nat) (write : Bool) : State :=
  let path := if write then s.linkPath (dieOfMaster master) (dieOfAddr a) else s.linkPath (dieOfAddr a) (dieOfMaster master)
  path.foldl (fun s k => (s.ctAdd k (blockBytes a n)).injectFlit k) s

/-! ### Latching (R300 to R303) -/

/-- The six selected codes, slots 0 to 5. -/
def ctCodes (s : State) : List Nat :=
  let a := s.word A.CT_SEL0
  let b := s.word A.CT_SEL1
  [bits a 0 8, bits a 8 8, bits a 16 8, bits a 24 8, bits b 0 8, bits b 8 8]

/-- A command of die `d` matches CT_FILT (R303). -/
def ctMatches (s : State) (d cls ctx : Nat) : Bool :=
  s.on F.CT_CTRL_en && bitOf (s.f F.CT_FILT_class) cls && bitOf (s.f F.CT_FILT_die) d
    && (!s.on F.CT_FILT_ctx_en || s.f F.CT_FILT_ctx = ctx)

/-- The readings of codes in the mirror of die `d` (R298): the mirror of a tick is taken with the tick's first latch and
stands for the rest of it (log 119). -/
def latchCodes (s : State) (d : Nat) (codes : List Nat) : List Nat × State :=
  let old := Table.get (fun _ => (0, [])) s.ct.mirror d
  let held := if old.1 = s.tick + 1 then old.2 else []
  let fresh := codes.filter (fun c => !held.any (fun p => p.1 = c))
  let now := held ++ fresh.map (fun c => (c, s.ctRead d c))
  (codes.map (fun c => ((now.find? (fun p => p.1 = c)).map (·.2)).getD 0),
    s.withCt { s.ct with mirror := Table.put (fun _ => (0, [])) s.ct.mirror d (s.tick + 1, now) })

/-- A command starts (R300, R303): the readings it latches, when the gleaner takes it. -/
def ctStart (s : State) (d cls ctx : Nat) : Option (List Nat × List Nat) × State :=
  if s.ctMatches d cls ctx then
    let m := Table.get (fun _ => 0) s.ct.matched d + 1
    let s := s.withCt { s.ct with matched := Table.put (fun _ => 0) s.ct.matched d m }
    if m % 2 ^ s.f F.CT_FILT_shift = 0 then
      let (l, s) := s.latchCodes d s.ctCodes
      (some (s.ctCodes, l), s)
    else (none, s)
  else (none, s)

/-- The slot readings of a record: start and end of each slot. -/
def slotBytes : List Nat → List Nat → List Byte
  | a :: l, b :: m => leBytes 8 a ++ leBytes 8 b ++ slotBytes l m
  | _, _ => []

/-- A finished record enters its die's queue, by end tick and then sequence number, or is lost (R304). -/
def ctQueue (s : State) (d : Nat) (r : TraceRec) : State :=
  let q := Table.get (fun _ => []) s.ct.queues d
  let after (x : TraceRec) : Bool := x.endTick = r.endTick && Nat.blt r.seq x.seq
  if 512 ≤ q.length then s.count F.CT_DROP_q F.CT_STATUS_sat
  else s.withCt { s.ct with
    queues := Table.put (fun _ => []) s.ct.queues d (q.filter (fun x => !after x) ++ r :: q.filter after) }

/-- A command ends (R300, R301): its record, with the flags failed, stopped and replay; no latch is taken on a die in reset
(R412). -/
def ctEnd (s : State) (o : Op) (layer oper : Nat) (failed stopped : Bool) : State :=
  match o.trace with
  | none => s
  | some (codes, start) =>
    if Table.get (fun _ => 0) s.dieReset o.die ≠ 0 then s
    else
    let (ends, s) := s.latchCodes o.die codes
    let ns := 4 * (s.tick - o.startTick)
    let long := decide (2 ^ 32 ≤ ns)
    let body := leBytes 4 o.seq ++ leBytes 2 o.epoch ++ leBytes 2 layer ++ leBytes 2 oper
      ++ leBytes 2 (o.ctx % 1024 + 1024 * o.cls + 4096 * o.die) ++ leBytes 1 1
      ++ leBytes 1 (bit failed + 2 * bit stopped + 4 * bit o.replay + 8 * bit long)
      ++ (codes.map (BitVec.ofNat 8)) ++ leBytes 4 (min ns 0xFFFFFFFF) ++ leBytes 8 o.startNs
      ++ slotBytes start ends
    s.ctQueue o.die ⟨s.tick, o.seq, body⟩

/-! ### The buffer (R304 to R309) -/

/-- The trace buffer holds `n` records. -/
def traceLen : Nat := 32768

/-- One record written at the next index in ring order (R306), which ends a loss there (R379). -/
def ctPut (s : State) (body : List Byte) : State :=
  let i := s.f F.CT_WP_next
  let held := s.f F.CT_WP_held
  let buf := (List.range 128).foldl (fun b k =>
    Table.put (fun _ => 0) b (128 * i + k) (body.getD k 0)) s.ct.buf
  let now := if s.ct.putTick.1 = s.tick + 1 then s.ct.putTick.2 + 1 else 1
  let s := s.withCt { s.ct with buf := buf, written := s.ct.written + 1, putTick := (s.tick + 1, now) }
  let s := s.withLost (Table.put (fun _ => false) s.lost (traceKey i) false)
  let s := if held = traceLen then s.setF F.CT_STATUS_ringwrap 1 else s.setF F.CT_WP_held (held + 1)
  let s := s.setF F.CT_WP_next ((i + 1) % traceLen)
  s.setDword A.CT_TOTAL ((s.dword A.CT_TOTAL + 1) % 2 ^ 64)

/-- The post-trigger share of R308. -/
def ctPost (s : State) : Nat := traceLen - 1024 * s.f F.CT_TRIG_pre

/-- A record is written or dropped as the mode in force says (R306, R308). -/
def ctWrite (s : State) (body : List Byte) : State :=
  if s.on F.CT_STATUS_full then s.count F.CT_DROP_full F.CT_STATUS_sat
  else
    let s := s.ctPut body
    if s.ct.mode = 1 then (if s.f F.CT_WP_held = traceLen then s.setF F.CT_STATUS_full 1 else s)
    else if s.ct.mode = 2 ∧ s.on F.CT_STATUS_trig then
      let s := s.withCt { s.ct with post := s.ct.post + 1 }
      if s.ctPost ≤ s.ct.post then s.setF F.CT_STATUS_full 1 else s
    else s

/-- The die whose queue heads the end-time order (R304): earliest end tick, then lowest die, then lowest
sequence number. -/
def ctFront (s : State) : Option (Nat × TraceRec) :=
  [0, 1, 2, 3].foldl (fun best d =>
    match Table.get (fun _ => []) s.ct.queues d with
    | [] => best
    | r :: _ =>
      match best with
      | none => some (d, r)
      | some (_, b) => if r.endTick < b.endTick then some (d, r) else best) none

/-- The head of die `d`'s queue removed. -/
def ctPop (s : State) (d : Nat) : State :=
  let q := Table.get (fun _ => []) s.ct.queues d
  s.withCt { s.ct with queues := Table.put (fun _ => []) s.ct.queues d (q.drop 1) }

/-- A marker record (R301, R307): the slot readings, codes, layer, operator and context are zero. -/
def markerBody (src ns : Nat) : List Byte :=
  leBytes 4 src ++ leBytes 8 0 ++ leBytes 1 2 ++ leBytes 11 0 ++ leBytes 8 ns ++ leBytes 96 0

/-- Every die's queue has passed the trigger tick (R307): no record that ended at or before it waits. -/
def ctPassed (s : State) (tick : Nat) : Bool :=
  s.tick > tick && [0, 1, 2, 3].all (fun d => (Table.get (fun _ => []) s.ct.queues d).all (fun r => tick < r.endTick))

end State

end Sys2Proof.Machine
end

