-- ==== Sys2Proof/Machine/GsOps.lean ====
section
/-! DEFINITION. Graph images, launches, instances, operations and tile threads as the graph schedulers hold
them (R203 to R236), and the re-issue of a mismatched thread (R180 to R182). -/

namespace Sys2Proof.Machine

open Sys2Proof

/-- The first list comes before the second in lexicographic order. -/
def lexLt : List Nat → List Nat → Bool
  | [], _ :: _ => true
  | a :: l, b :: m => a < b || (a = b && lexLt l m)
  | _, _ => false

/-- The element of least key. -/
def leastBy {α : Type} (key : α → List Nat) : List α → Option α
  | [] => none
  | x :: r =>
    match leastBy key r with
    | none => some x
    | some y => if lexLt (key y) (key x) then some y else some x

/-- `v` rounded up to a multiple of `m`. -/
def roundUp (v m : Nat) : Nat := (v + m - 1) / m * m

/-- Packed bytes of `n` elements of format `fmt` along dimension 0 (R101, R210). -/
def rowBytes (fmt n : Nat) : Nat :=
  if fmt = 3 then (n + 1) / 2
  else if fmt = 6 ∨ fmt = 7 then 2 * n
  else if fmt = 8 ∨ fmt = 0xA then 4 * n
  else if fmt = 9 then 33 * n / 32
  else n

namespace State

/-- Address `a` to `a + n - 1` lies in warden SRAM (R9). -/
def inSram (a n : Nat) : Bool := 0x10000000 ≤ a && a + n ≤ 0x11000000

/-! ### Graph images (R204 to R210) -/

/-- The directory entry of a graph reference: image address and length (R203, R204). -/
def dirEntry (s : State) (ref : Nat) : Nat × Nat :=
  let a := s.dword (A.GS_DIR_BASE 0) + 16 * (ref - 1)
  (s.memVal a 8, s.memVal (a + 8) 8)

/-- Node, successor, tensor and tile program counts of the image at `im` (R205). -/
def gNodes (s : State) (im : Nat) : Nat := s.memVal (im + 8) 4
def gSuccs (s : State) (im : Nat) : Nat := s.memVal (im + 12) 4
def gTensors (s : State) (im : Nat) : Nat := s.memVal (im + 16) 4
def gProgs (s : State) (im : Nat) : Nat := s.memVal (im + 20) 2

/-- Arena bytes, data section offset and length (R205). -/
def gArena (s : State) (im : Nat) : Nat := s.memVal (im + 24) 8
def gData (s : State) (im : Nat) : Nat := s.memVal (im + 32) 8
def gDataLen (s : State) (im : Nat) : Nat := s.memVal (im + 40) 8

/-- Addresses of node `k`, successor entry `i`, tensor `i`, tile program `i` and the code area (R205). -/
def nodeAt (im k : Nat) : Nat := im + 64 + 96 * k
def succAt (s : State) (im i : Nat) : Nat := nodeAt im (s.gNodes im) + 4 * i
def tensAt (s : State) (im i : Nat) : Nat := s.succAt im (s.gSuccs im) + 48 * i
def progAt (s : State) (im i : Nat) : Nat := s.tensAt im (s.gTensors im) + 32 * i
def codeAt (s : State) (im : Nat) : Nat := s.progAt im (s.gProgs im)

/-- A field of node `k`: `n` bytes at offset `o` (R207). -/
def nodeF (s : State) (im k o n : Nat) : Nat := s.memVal (nodeAt im k + o) n

/-- Predecessor count and successors of node `k`. -/
def nodePred (s : State) (im k : Nat) : Nat := s.nodeF im k 0 4 % 2 ^ 20
def nodeSuccs (s : State) (im k : Nat) : List Nat :=
  (List.range (s.nodeF im k 8 4)).map (fun i => s.memVal (s.succAt im (s.nodeF im k 4 4 + i)) 4 % 2 ^ 20)

/-- Layer, operator, atomic flag and die offset of node `k`. -/
def nodeLayer (s : State) (im k : Nat) : Nat := s.nodeF im k 12 2
def nodeOper (s : State) (im k : Nat) : Nat := s.nodeF im k 14 2
def nodeAtomic (s : State) (im k : Nat) : Bool := bitOf (s.nodeF im k 19 1) 0
def nodeDieOff (s : State) (im k : Nat) : Nat := bits (s.nodeF im k 19 1) 1 2

/-- Grid of node `k`: gx, gy, gz (R207, R223). -/
def nodeGrid (s : State) (im k : Nat) : Nat × Nat × Nat := (s.nodeF im k 24 4, s.nodeF im k 28 4, s.nodeF im k 32 4)

/-- Input and output tensor indices of node `k`. -/
def nodeIns (s : State) (im k : Nat) : List Nat :=
  (List.range (s.nodeF im k 20 1)).map (fun i => s.nodeF im k (40 + 4 * i) 4)
def nodeOuts (s : State) (im k : Nat) : List Nat :=
  (List.range (s.nodeF im k 21 1)).map (fun i => s.nodeF im k (72 + 4 * i) 4)

/-- A field of tensor `i` (R209). -/
def tensF (s : State) (im i o n : Nat) : Nat := s.memVal (s.tensAt im i + o) n

/-- Dimensions d0 to d3 of tensor `i`, 1 at and above the rank; strides s1 to s3. -/
def tensDims (s : State) (im i : Nat) : List Nat :=
  (List.range 4).map (fun k => if k < s.tensF im i 1 1 then s.tensF im i (24 + 2 * k) 2 else 1)
def tensStrides (s : State) (im i : Nat) : List Nat := (List.range 3).map (fun k => s.tensF im i (32 + 4 * k) 4)

/-- The footprint of tensor `i` in bytes (R210). -/
def tensFoot (s : State) (im i : Nat) : Nat :=
  let r := s.tensF im i 1 1
  if r ≤ 1 then rowBytes (s.tensF im i 0 1) (s.tensF im i 24 2)
  else s.tensF im i (32 + 4 * (r - 2)) 4 * s.tensF im i (24 + 2 * (r - 1)) 2

/-- The base address of tensor `i` (R210). -/
def tensBase (s : State) (im i arena : Nat) (args : List (Nat × Nat)) : Nat :=
  let off := s.tensF im i 8 8
  match s.tensF im i 2 1 with
  | 0 => (args.getD (s.tensF im i 3 1) (0, 0)).1 + off
  | 1 => arena + off
  | 2 => off
  | _ => im + s.gData im + off

/-! ### Dies -/

/-- Compute die `d` is fallow (R352). -/
def dieFallow (s : State) (d : Nat) : Bool :=
  s.on (F.CX_STATUS_die_fallow d) || Table.get (fun _ => 0) s.dieReset d ≠ 0

/-- The working dies, ascending. -/
def workingDies (s : State) : List Nat := [0, 1, 2, 3].filter (fun d => !s.dieFallow d)

/-- The die of a node from base die `b` and its die offset (R215). -/
def nodeDie (s : State) (b off : Nat) : Nat :=
  let w := s.workingDies
  w.getD ((w.findIdx (· = b) + off) % max 1 w.length) b

/-- Operations in flight of die `d` and class `c`. -/
def opsOf (s : State) (d c : Nat) : Nat := (s.gs.ops.filter (fun o => o.die = d && o.cls = c)).length

/-- Operations in flight and live instances of die `d`. -/
def opsOn (s : State) (d : Nat) : Nat := (s.gs.ops.filter (fun o => o.die = d)).length
def instsOn (s : State) (d : Nat) : Nat := (s.gs.insts.filter (fun i => i.die = d)).length

/-- GS_OCC of die `d` (R221, R216). -/
def showOcc (s : State) (d : Nat) : State := (s.setF (F.GS_OCC_ops d) (s.opsOn d)).setF (F.GS_OCC_inst d) (s.instsOn d)

/-- The die for a launch with the scheduler's choice (R215). -/
def chooseDie (s : State) (c : Nat) : Option Nat := leastBy (fun d => [s.opsOf d c, d]) s.workingDies

/-! ### Launch records (R212, R213) -/

/-- The launch record at address `a`. -/
def readLaunch (s : State) (a : Nat) : Launch :=
  let b7 := s.memVal (a + 7) 1
  let n := s.memVal (a + 40) 1
  let compl := s.memVal (a + 32) 8
  let argAt (i : Nat) : Nat × Nat × Nat :=
    (s.memVal (a + 64 + 16 * i) 8, s.memVal (a + 72 + 16 * i) 4, s.memVal (a + 76 + 16 * i) 4)
  let args := (List.range (min n 28)).map argAt
  let ok := inSram a 512 && s.memVal (a + 4) 2 < 1024 && s.memVal (a + 6) 1 < 4 && b7 % 8 ≤ 4 && bits b7 3 4 = 0
    && s.memVal (a + 12) 4 = 0 && n ≤ 28 && s.memVal (a + 41) 23 = 0 && compl % 32 = 0 && inSram compl 32
    && args.all (fun x => x.1 % 8 = 0 && x.2.2 = 0)
  { ref := s.memVal a 4, ctx := s.memVal (a + 4) 2, cls := s.memVal (a + 6) 1, base := b7 % 8, irq := bitOf b7 7,
    fid := s.memVal (a + 8) 4, stamp := s.memVal (a + 16) 8, deadline := s.memVal (a + 24) 8, compl := compl,
    args := args.map (fun x => (x.1, x.2.1)), job := none, trig := none, image := none, bad := !ok, num := s.gs.nextLaunch }

/-- The image that a launch runs (R137, R204): the one it is bound to, or the directory's. -/
def launchImage (s : State) (l : Launch) : Nat × Nat := l.image.getD (s.dirEntry l.ref)

/-- The arguments hold every tensor of the graph that uses them (R213). -/
def argsHold (s : State) (im : Nat) (args : List (Nat × Nat)) : Bool :=
  (List.range (s.gTensors im)).all (fun i =>
    s.tensF im i 2 1 ≠ 0 ||
      match args[s.tensF im i 3 1]? with
      | none => false
      | some (_, len) => s.tensF im i 8 8 + s.tensFoot im i ≤ len)

/-- The graph has a node whose profile is the launching context's (R176, R207). -/
def usesCtxProfile (s : State) (im : Nat) : Bool :=
  (List.range (s.gNodes im)).any (fun k => bits (s.nodeF im k 18 1) 6 2 ≠ 0)

/-- The launch is accepted (R213). -/
def launchOk (s : State) (l : Launch) : Bool :=
  !l.bad && (l.image.isSome || s.gs.graphs.contains l.ref)
    && s.argsHold (s.launchImage l).1 l.args
    && (!s.usesCtxProfile (s.launchImage l).1 || s.enabled.contains l.ctx)

/-- The GS host interrupt of die `d`. -/
def gsIrq (s : State) (d : Nat) : State := s.withHostIrq (s.hostIrq ||| 2 ^ (1 + d))

/-- A launch or instance ends (R233, R235): the completion record, the interrupt that is asked for, or the end
of the job it served (R219). -/
def endLaunch (s : State) (d : Nat) (l : Launch) (status cause node replays ops image arena : Nat) : State :=
  let s := if status = 3 then s.count (F.GS_ERR_full d) (F.GS_STATUS_sat d) else s
  match l.job with
  | some j => s.withGs { s.gs with ended := s.gs.ended ++ [(j, status, l, image, arena)] }
  | none =>
    let r := leBytes 1 status ++ leBytes 1 cause ++ leBytes 2 l.ctx ++ leBytes 4 l.fid ++ leBytes 4 node
      ++ leBytes 1 d ++ leBytes 1 (min replays 255) ++ leBytes 2 0 ++ leBytes 4 ops ++ leBytes 4 0 ++ leBytes 8 s.time
    let s := if inSram l.compl 32 then s.ownWrite l.compl (0x480 + d) r else s
    if l.irq then s.gsIrq d else s

/-- A launch that ends before it is an instance. -/
def refuseLaunch (s : State) (d : Nat) (l : Launch) (status : Nat) : State := s.endLaunch d l status 0 0xFFFFFFFF 0 0 0 0

/-- The class queue of die `d` and class `c`. -/
def classQ (s : State) (d c : Nat) : List Launch := Table.get (fun _ => []) s.gs.queues (4 * d + c)

/-- The state with a class queue replaced. -/
def setClassQ (s : State) (d c : Nat) (q : List Launch) : State :=
  s.withGs { s.gs with queues := Table.put (fun _ => []) s.gs.queues (4 * d + c) q }

/-- The intake of die `d`. -/
def intakeOf (s : State) (d : Nat) : List Launch := Table.get (fun _ => []) s.gs.intake d

/-- The state with an intake replaced. -/
def setIntake (s : State) (d : Nat) (q : List Launch) : State :=
  s.withGs { s.gs with intake := Table.put (fun _ => []) s.gs.intake d q }

/-- The instance need in bytes: remaining counts and arena (R216). -/
def countNeed (s : State) (im : Nat) : Nat := roundUp (4 * s.gNodes im) 0x10000
def instNeed (s : State) (im : Nat) : Nat := s.countNeed im + roundUp (s.gArena im) 0x10000

/-- The places of die `d`'s arena pool that can hold `need` bytes, as offsets in 64 KiB (R216). -/
def poolPlaces (s : State) (d need : Nat) : List Nat :=
  (List.range (16 * s.f (F.GS_POOL_SIZE_mib d))).filter (fun g =>
    0x10000 * g + need ≤ 0x100000 * s.f (F.GS_POOL_SIZE_mib d)
      && s.gs.insts.all (fun i => i.die ≠ d || i.poolAt + i.need ≤ 0x10000 * g || 0x10000 * g + need ≤ i.poolAt))

/-- GS_STATUS.arena_wait of die `d`: the head of some class queue waits for arena (R216). -/
def showWait (s : State) (d : Nat) : State :=
  s.flag (F.GS_STATUS_arena_wait d) ([0, 1, 2, 3].any (fun c =>
    match s.classQ d c with
    | [] => false
    | l :: _ => (s.poolPlaces d (s.instNeed (s.launchImage l).1)).isEmpty))

/-- An image that no launch can use (R236, R353, R386): a unit of it is queued or being regenerated, its region has failed, or a
fallow channel holds part of it (log 163). -/
def imageGone (s : State) (im : Nat × Nat) : Bool :=
  s.gs.regen.contains im.1 || s.spanWaits im.1 im.2 || s.spanFailed im.1 im.2 || s.spanFallow im.1 im.2

/-- One launch leaves the intake of die `d` for the class queue of its base die, or ends (R213 to R215, R236, R237).  A
launch with the scheduler's choice that ends before a die is chosen ends on the die that took it in (log 121). -/
def sortLaunch (s : State) (d : Nat) (l : Launch) : State :=
  let at_ := if l.base = 4 then d else l.base
  if !s.on (F.GS_CTRL_en d) then s.refuseLaunch at_ l 6
  else if l.bad || (l.image.isNone && !s.gs.graphs.contains l.ref) then s.refuseLaunch at_ l 2
  else if s.imageGone (s.launchImage l) then s.refuseLaunch at_ l 5
  else if !s.launchOk l then s.refuseLaunch at_ l 2
  else
    match (if l.base = 4 then s.chooseDie l.cls else if s.dieFallow l.base then none else some l.base) with
    | none => s.refuseLaunch at_ l 6
    | some b =>
      let q := s.classQ b l.cls
      if !s.on (F.GS_CTRL_en b) then s.refuseLaunch b l 6
      else if 1024 ≤ q.length then s.refuseLaunch b l 3
      else (s.setClassQ b l.cls (q ++ [{ l with base := b }])).showWait b

/-- Every launch of die `d`'s intake moves on (R214). -/
def drainIntake (s : State) (d : Nat) : State := (s.intakeOf d).foldl (fun s l => s.sortLaunch d l) (s.setIntake d [])

/-- The state once a launch has been made (R222). -/
def launched (s : State) : State := s.withGs { s.gs with nextLaunch := s.gs.nextLaunch + 1 }

/-- A launch made by the ZW16's own logic (R214, R215, R218), bound to `image`: it goes through the intake behind the
launches that wait there, to the die of the scheduler's choice. -/
def launchJob (s : State) (job : Job) (image : Option (Nat × Nat)) (ref cls fid stamp deadline : Nat)
    (args : List (Nat × Nat)) : State :=
  let d := (s.chooseDie cls).getD 0
  let l : Launch := { num := s.gs.nextLaunch, ref := ref, ctx := job.ctx, cls := cls, base := 4, irq := false, fid := fid,
                      stamp := stamp, deadline := deadline, compl := 0, args := args, job := some job, trig := none,
                      image := image, bad := false }
  let s := s.launched
  (s.setIntake d (s.intakeOf d ++ [l])).drainIntake d

/-! ### Instances (R216, R220) -/

/-- The state with instance `id` changed by `u`. -/
def modInst (s : State) (id : Nat) (u : Inst → Inst) : State :=
  s.withGs { s.gs with insts := s.gs.insts.map (fun i => if i.id = id then u i else i) }

/-- The live instance with a number. -/
def instOf (s : State) (id : Nat) : Option Inst := s.gs.insts.find? (fun i => i.id = id)

/-- Every engine's generator is seeded from the CTR_DRBG at a graph launch (R177, R478), with one generate request (log
120); the seeds are free values.  While the generator has stopped the old seeds stay (log 164). -/
def seedEngines (s : State) : State :=
  if s.f F.SEC_STATUS_rng = 2 then s
  else
    let (v, s) := s.draw (256 * 256)
    let s := s.withSec { s.sec with requests := s.sec.requests + 1 }
    s.withGs { s.gs with gens := (List.range 256).foldl (fun t k =>
      Table.put (fun _ => []) t k (leBytes 32 (v / 2 ^ (256 * k)))) s.gs.gens }

/-- The head of a class queue becomes an instance, when the table and the pool can serve it (R216); which free
place of the pool it takes is a free value (log 2). -/
def startInst (s : State) (d c : Nat) : State :=
  match s.classQ d c with
  | [] => s
  | l :: rest =>
    let (im, len) := s.launchImage l
    let places := s.poolPlaces d (s.instNeed im)
    if places.isEmpty ∨ 1024 ≤ s.instsOn d then s.showWait d
    else
      let (k, s) := s.draw 32
      let at_ := 0x10000 * places.getD (k % places.length) 0
      let i : Inst := {
        id := l.num, die := d, l := l, image := im, imageLen := len,
        arena := s.dword (A.GS_POOL_BASE d) + at_ + s.countNeed im, poolAt := at_, need := s.instNeed im,
        dec := [], admitted := [], replayed := [], waiting := [], again := [], msgs := [], completed := 0, replays := 0,
        failAt := none, fin := none }
      let s := s.withGs { s.gs with insts := s.gs.insts ++ [i] }
      (((s.setClassQ d c rest).showOcc d).showWait d).seedEngines

/-! ### Threads and engines (R223 to R226, R273) -/

/-- Engine `e` of CORE `c`. -/
def engine (s : State) (c e : Nat) : Engine := Table.get (fun _ => ⟨none, []⟩) s.gs.engines (16 * c + e)

/-- The state with an engine replaced. -/
def setEngine (s : State) (c e : Nat) (x : Engine) : State :=
  s.withGs { s.gs with engines := Table.put (fun _ => ⟨none, []⟩) s.gs.engines (16 * c + e) x }

/-- The running tile state of engine `e` of CORE `c`. -/
def tile (s : State) (k : Nat) : Tile := Table.get (fun _ => Tile.reset) s.gs.tiles k

/-- The state with a running tile state replaced. -/
def setTile (s : State) (k : Nat) (x : Tile) : State :=
  s.withGs { s.gs with tiles := Table.put (fun _ => Tile.reset) s.gs.tiles k x }

/-- HARTID of a tile sequencer by 16 × core + engine (R240). -/
def seqHart (k : Nat) : Nat := 0x200 + k

/-- The threads waiting in CORE `c`'s queue. -/
def coreQ (s : State) (c : Nat) : List Thr := Table.get (fun _ => []) s.gs.queued c

/-- The state with a core's queue replaced. -/
def setCoreQ (s : State) (c : Nat) (q : List Thr) : State :=
  s.withGs { s.gs with queued := Table.put (fun _ => []) s.gs.queued c q }

/-- Threads resident on an engine. -/
def residents (s : State) (c e : Nat) : List Thr :=
  (s.engine c e).cur.toList ++ (s.engine c e).parked.map (·.thr)

/-- Live threads of CORE `c` (R226). -/
def liveThreads (s : State) (c : Nat) : List Thr := s.coreQ c ++ (List.range 16).flatMap (fun e => s.residents c e)

/-- GS_CORE_c.live of CORE `c`. -/
def showLive (s : State) (c : Nat) : State := s.setF (F.GS_CORE_live (c / 4) (c % 4)) (s.liveThreads c).length

/-- The operation a thread belongs to. -/
def opOf (s : State) (x : Thr) : Option Op :=
  s.gs.ops.find? (fun o => o.die = x.die && o.seq = x.seq && o.epoch = x.epoch)

/-- The thread belongs to the operation. -/
def ofOp (o : Op) (x : Thr) : Bool := o.die = x.die && o.seq = x.seq && o.epoch = x.epoch

/-- Engine `e` of CORE `c` qualifies for threads: neither fallow, nor in its test slice, nor kept out by a failed one, nor in
a known-answer test (R180, R226, R228, R371, R372). -/
def engineFit (s : State) (c e : Nat) : Bool :=
  !bitOf (s.f (F.CX_CORE_eng_fallow (c / 4) (c % 4))) e && s.f (F.CX_CORE_test (c / 4) (c % 4)) ≠ e
    && !(s.coreT c).out.contains e && ((s.coreT c).kat.isNone || (!(s.coreT c).katLeft.isEmpty && !(s.coreT c).katLeft.contains e))
    && !s.on (F.CX_CORE_fallow (c / 4) (c % 4))

/-- The engine that takes the core's next test slot, while none runs: it is about to begin a slice (R180, R368; log 123). -/
def sliceNext (s : State) (c e : Nat) : Bool :=
  (s.coreT c).slot.isNone
    && ((List.range 16).map (fun k => ((s.coreT c).next + k) % 16)).find?
        (fun k => !bitOf (s.f (F.CX_CORE_eng_fallow (c / 4) (c % 4))) k) == some e

/-- Engine `e` of CORE `c` may take threads: it qualifies, and the core's clock is not held (R197). -/
def engineFree (s : State) (c e : Nat) : Bool := s.engineFit c e && Table.get (fun _ => 0) s.gs.hold c = 0

/-- The scratch share of an engine in bytes (R225). -/
def scratchShare (s : State) (d : Nat) : Nat := s.f (F.GS_CTRL_scratch d) * 0x8000

/-- Scratch per thread of an operation's tile program (R224). -/
def opScratch (s : State) (o : Op) : Nat :=
  match s.instOf o.inst with
  | none => 0
  | some i => s.memVal (s.progAt i.image (s.nodeF i.image o.node 16 2) + 16) 4

/-- Residency limit of an operation's threads on an engine (R225, R273). -/
def residency (s : State) (o : Op) : Nat := min 16 (s.scratchShare o.die / (s.opScratch o + 24576))

/-- The owned box of thread (x, y, z) in a tensor: low and high corners of d0 to d2 (R223). -/
def ownedBox (s : State) (im tn : Nat) (grid pos : Nat × Nat × Nat) : List (Nat × Nat) :=
  let d := s.tensDims im tn
  let one (k g x : Nat) : Nat × Nat :=
    let n := d.getD k 1
    let e := (n + g - 1) / max 1 g
    (min (x * e) n, min ((x + 1) * e) n)
  [one 0 grid.1 pos.1, one 1 grid.2.1 pos.2.1, one 2 grid.2.2 pos.2.2]

/-- TBOX_LO and TBOX_HI words of a box (R274). -/
def boxWords (b : Option (List (Nat × Nat))) : Nat × Nat :=
  match b with
  | none => (2 ^ 63, 0)
  | some l =>
    let lo := (l.getD 0 (0, 0)).1 + (l.getD 1 (0, 0)).1 * 2 ^ 16 + (l.getD 2 (0, 0)).1 * 2 ^ 32
    let hi := (l.getD 0 (0, 0)).2 + (l.getD 1 (0, 0)).2 * 2 ^ 16 + (l.getD 2 (0, 0)).2 * 2 ^ 32
    (if l.any (fun x => x.2 ≤ x.1) then lo + 2 ^ 63 else lo, hi)

/-- Point (x, y, z) of thread number `i` (R223). -/
def threadPos (grid : Nat × Nat × Nat) (i : Nat) : Nat × Nat × Nat :=
  let gx := max 1 grid.1
  let gy := max 1 grid.2.1
  (i % gx, i / gx % gy, i / gx / gy)

/-- The descriptor of a tensor (R276). -/
def tensDesc (s : State) (im i arena : Nat) (args : List (Nat × Nat)) (flags : Nat) (cur : List Nat) : Desc :=
  { base := s.tensBase im i arena args % 2 ^ 48, fmt := s.tensF im i 0 1, rank := s.tensF im i 1 1, flags := flags,
    scale := s.tensF im i 16 4, zp := s.tensF im i 20 2, dims := s.tensDims im i, strides := s.tensStrides im i,
    cur := cur.map (BitVec.ofNat 32), out := 0 }

/-- The numerics profile of node `k` for context `n` on die `d`: the CX_NP_k value (R176, R207). -/
def nodeProfile (s : State) (d im k n : Nat) : Nat :=
  let b := s.nodeF im k 18 1
  let idx := match bits b 6 2 with
    | 0 => b % 64
    | 1 => s.f (F.CX_NP_CTX_chk d n)
    | _ => s.f (F.CX_NP_CTX_shd d n)
  s.dword (A.CX_NP d idx)

/-- A table of 64-bit values from pairs. -/
def table64 (l : List (Nat × Nat)) : Table DWord :=
  l.foldl (fun t p => Table.put (fun _ => 0) t p.1 (BitVec.ofNat 64 p.2)) []

/-- The address of a thread's place in engine `e` of CORE `c`'s Core Memory share: its scratch, then its save area (R225, R273).
The shares stand one after another in engine order (log 122). -/
def sharePlace (s : State) (d c e place : Nat) : Nat :=
  0x1000000000 + 0x400000000 * (c / 4) + 0x100000000 + 0x800000 * (c % 4) + e * s.scratchShare d + place

/-- The bytes of an engine's share that a thread takes: its scratch and its save area (R225, R273). -/
def thrBytes (s : State) (x : Thr) : Nat := (s.opOf x).elim 0 s.opScratch + 24576

/-- The lowest place of engine `e` of CORE `c`'s share where a thread of `n` bytes stands clear of every resident one (R225). -/
def freePlace (s : State) (c e n : Nat) : Option Nat :=
  let used := (s.residents c e).map (fun x => (x.place, s.thrBytes x))
  let fits (a : Nat) : Bool := Nat.ble (a + n) (s.scratchShare (c / 4)) && used.all (fun u => Nat.ble (a + n) u.1 || Nat.ble (u.1 + u.2) a)
  match (0 :: used.map (fun u => u.1 + u.2)).filter fits with
  | [] => none
  | a :: l => some (l.foldl min a)

/-- Engine `e` of CORE `c` has room for a thread of operation `o` (R225): within the residency limit, and with a free place. -/
def hasRoom (s : State) (c e : Nat) (o : Op) : Bool :=
  Nat.blt (s.residents c e).length (s.residency o) && (s.freePlace c e (s.opScratch o + 24576)).isSome

/-- The state that thread `x` starts with on engine `e` of CORE `c` (R224, R272, R274, R277). -/
def threadStart (s : State) (o : Op) (i : Inst) (x : Thr) (c e : Nat) : Parked :=
  let num := x.num
  let im := i.image
  let k := o.node
  let grid := s.nodeGrid im k
  let pos := threadPos grid num
  let prog := s.progAt im (s.nodeF im k 16 2)
  let scratch := s.opScratch o
  let outs := s.nodeOuts im k
  let box (j : Nat) : Option (List (Nat × Nat)) := outs[j]?.map (fun tn => s.ownedBox im tn grid pos)
  let atomic := s.nodeAtomic im k
  let ins := (s.nodeIns im k).map (fun tn => s.tensDesc im tn i.arena i.l.args (1 + 4 * bit atomic) [0, 0, 0, 0])
  let outDs := (List.range outs.length).map (fun j =>
    let b := (box j).getD []
    { s.tensDesc im (outs.getD j 0) i.arena i.l.args (3 + 4 * bit atomic)
      [(b.getD 0 (0, 0)).1, (b.getD 1 (0, 0)).1, (b.getD 2 (0, 0)).1, 0] with out := j })
  let put (t : Table Desc) (p : Nat × Desc) : Table Desc := Table.put (fun _ => Desc.none) t p.1 p.2
  let tds := (((List.range ins.length).zip ins) ++ ((List.range outDs.length).map (· + 8)).zip outDs).foldl put []
  let base := s.sharePlace o.die c e x.place
  let boxes := (List.range 4).flatMap (fun j =>
    let w := boxWords (box j)
    [(0x208 + 2 * j, w.1), (0x209 + 2 * j, w.2)])
  let csr := table64 ([(0x010, s.memVal (prog + 12) 4), (0x200, pos.1 + pos.2.1 * 2 ^ 32), (0x201, pos.2.2 + num * 2 ^ 32),
      (0x202, grid.1 + grid.2.1 * 2 ^ 32), (0x203, grid.2.2)] ++ boxes
      ++ [(0x210, x.profile), (0x211, base + scratch / 64 * 2 ^ 48)])
  let pc := im + s.memVal prog 4 + s.memVal (prog + 8) 4
  let h : Hart := { Hart.reset with g := table64 [(1, s.nodeF im k 88 8)], pc := BitVec.ofNat 48 pc, csr := csr }
  ⟨x, h, { Tile.reset with t := tds }⟩

/-- A thread with its state becomes resident on an engine: running when the engine runs none (R225). -/
def seat (s : State) (c e : Nat) (x : Parked) : State :=
  let en := s.engine c e
  match en.cur with
  | none =>
    ((s.setEngine c e { en with cur := some x.thr }).setHart (seqHart (16 * c + e)) x.hart).setTile (16 * c + e) x.tile
  | some _ => s.setEngine c e { en with parked := en.parked ++ [x] }

/-- A thread issued to engine `e` of CORE `c` starts with the state of R224, keeping its attempt and its profile. -/
def seatNew (s : State) (c e : Nat) (x : Thr) : State :=
  match s.opOf x with
  | none => s
  | some o =>
    match s.instOf o.inst with
    | none => s
    | some i => s.seat c e (s.threadStart o i { x with want := none, place := (s.freePlace c e (s.opScratch o + 24576)).getD 0 } c e)

/-- Engines of CORE `c` with room for a thread: for a re-issued one, the engine it was re-issued to (R180). -/
def roomyEngines (s : State) (c : Nat) (x : Thr) : List Nat :=
  match s.opOf x with
  | none => []
  | some o => (List.range 16).filter (fun e => s.engineFree c e && s.hasRoom c e o
      && x.want.all (fun k => k = e || !s.engineFit c k))

/-- The class of a thread's operation. -/
def thrClass (s : State) (x : Thr) : Nat := (s.opOf x).elim 4 (·.cls)

/-- The order in which ready nodes are admitted and threads issued (R222, R227). -/
def admitKey (i : Inst) (k : Nat) : List Nat :=
  [i.l.cls, if i.l.deadline = 0 then 1 else 0, i.l.deadline, i.l.ctx, i.id, k]

/-- A re-issued thread waits in CORE `c`'s queue ahead of every other waiting thread of its class (R180). -/
def queueFirst (s : State) (c : Nat) (x : Thr) : State :=
  let before := (s.coreQ c).takeWhile (fun y => Nat.blt (s.thrClass y) (s.thrClass x))
  s.setCoreQ c (before ++ { x with redo := true } :: (s.coreQ c).drop before.length)

/-- The place of a waiting thread in a core's queue (R180, R227): by class, re-issued threads first, then as R222 orders. -/
def thrKey (s : State) (x : Thr) : List Nat :=
  if x.redo then [s.thrClass x]
  else
    match s.opOf x with
    | none => [4]
    | some o => s.thrClass x :: 1 :: ((s.instOf o.inst).elim [4] (fun i => admitKey i o.node) ++ [x.num])

/-- A thread waits in CORE `c`'s queue behind those that go before it, and behind its equals (R227). -/
def queueThr (s : State) (c : Nat) (x : Thr) : State :=
  let before := (s.coreQ c).takeWhile (fun y => !lexLt (s.thrKey x) (s.thrKey y))
  s.setCoreQ c (before ++ x :: (s.coreQ c).drop before.length)

/-- A thread issued to CORE `c` takes an engine with room, or waits in the core's queue (R226).  Which engine is
a free value (log 2). -/
def placeThr (s : State) (c : Nat) (x : Thr) : State :=
  let l := s.roomyEngines c x
  if l.isEmpty then s.queueThr c x
  else
    let (k, s) := s.draw 8
    s.seatNew c (l.getD (k % l.length) 0) x

/-- The threads in CORE `c`'s queue take engines with room, in order. -/
def fillCore (s : State) (c : Nat) : State :=
  ((s.coreQ c).foldl (fun s x => s.placeThr c x) (s.setCoreQ c [])).showLive c

/-- An engine whose running thread has gone resumes its oldest parked thread. -/
def resumeEngine (s : State) (c e : Nat) : State :=
  let en := s.engine c e
  match en.cur, en.parked with
  | none, x :: r =>
    ((s.setEngine c e ⟨some x.thr, r⟩).setHart (seqHart (16 * c + e)) x.hart).setTile (16 * c + e) x.tile
  | none, [] => (s.setHart (seqHart (16 * c + e)) Hart.reset).setTile (16 * c + e) Tile.reset
  | _, _ => s

/-- Every thread that `gone` names leaves engine `e` of CORE `c`. -/
def clearEngine (s : State) (c e : Nat) (gone : Thr → Bool) : State :=
  let en := s.engine c e
  let cur := match en.cur with
    | some x => if gone x then none else some x
    | none => none
  let s := s.setEngine c e ⟨cur, en.parked.filter (fun x => !gone x.thr)⟩
  if en.cur.isSome && cur.isNone then s.resumeEngine c e else s

/-- Every thread that `gone` names is taken off the engines and queue of CORE `c`. -/
def clearCore (s : State) (gone : Thr → Bool) (c : Nat) : State :=
  let s := (List.range 16).foldl (fun s e => s.clearEngine c e gone) s
  (s.setCoreQ c ((s.coreQ c).filter (fun x => !gone x))).fillCore c

/-- The threads that `gone` names are aborted on every core of die `d`. -/
def abortThreads (s : State) (d : Nat) (gone : Thr → Bool) : State :=
  [4 * d, 4 * d + 1, 4 * d + 2, 4 * d + 3].foldl (fun s c =>
    if (s.liveThreads c).any gone then s.clearCore gone c else s) s

/-! ### Operations (R221, R230, R232, R233) -/

/-- The next command identity of die `d` (R230, R231). -/
def nextSeq (s : State) (d : Nat) : (Nat × Nat) × State :=
  let q := s.f (F.GS_SEQ_seq d)
  let ep := s.f (F.GS_EPOCH_epoch d)
  let s' := s.setF (F.GS_SEQ_seq d) ((q + 1) % 2 ^ 32)
  if q = 2 ^ 32 - 1 then
    let s' := s'.setF (F.GS_EPOCH_epoch d) ((ep + 1) % 2 ^ 16)
    ((q, ep), if ep = 2 ^ 16 - 1 then s'.setF (F.GS_STATUS_epoch_wrap d) 1 else s')
  else ((q, ep), s')

/-- Nodes of an instance that are ready on die `d` (R220). -/
def readyNodes (s : State) (i : Inst) (d : Nat) : List Nat :=
  if i.fin.isSome then []
  else
    (List.range (s.gNodes i.image)).filter (fun k =>
      s.nodeDie i.die (s.nodeDieOff i.image k) = d && Table.get (fun _ => 0) i.dec k = s.nodePred i.image k
        && !i.admitted.contains k && !(i.waiting.any (fun w => w.1 = k)))

/-- A class has room in die `d`'s operation table (R221). -/
def opRoom (s : State) (d cls : Nat) : Bool :=
  s.opsOn d < 4096 && (cls = 0 || s.opsOn d - s.opsOf d 0 < 3072)

/-- The ready node that die `d` admits next. -/
def nextReady (s : State) (d : Nat) : Option (Inst × Nat) :=
  leastBy (fun p => admitKey p.1 p.2)
    (s.gs.insts.flatMap (fun i => if s.opRoom d i.l.cls then (s.readyNodes i d).map (fun k => (i, k)) else []))

/-- The outputs of an atomic node are filled with zero bytes by die `d`'s scheduler (R208). -/
def zeroOuts (s : State) (d : Nat) (i : Inst) (k : Nat) : State :=
  if s.nodeAtomic i.image k then
    (s.nodeOuts i.image k).foldl (fun s tn =>
      let a := s.tensBase i.image tn i.arena i.l.args
      let n := s.tensFoot i.image tn
      ((s.ownWrite a (0x480 + d) (List.replicate n 0)).trafficW a n).linkTraffic a n (0x480 + d) true) s
  else s

/-- The time base as die `d` holds it (R408). -/
def dieTime (s : State) (d : Nat) : Nat :=
  ((((s.timeFull : Int) + Table.get (fun _ => 0) s.tm.replicas d) / 2 ^ 32) % ((2 ^ 64 : Nat) : Int)).toNat

/-- Node `k` of an instance is admitted on die `d` (R221, R230, R300). -/
def admitNode (s : State) (d : Nat) (i : Inst) (k : Nat) : State :=
  let ((q, ep), s) := s.nextSeq d
  let s := s.zeroOuts d i k
  let (tr, s) := s.ctStart d i.l.cls i.l.ctx
  let g := s.nodeGrid i.image k
  let o : Op := {
    die := d, seq := q, epoch := ep, inst := i.id, node := k, cls := i.l.cls, ctx := i.l.ctx, next := 0,
    total := g.1 * g.2.1 * g.2.2, startTick := s.tick, startNs := s.dieTime d, replay := i.replayed.contains k || i.again.contains k, trace := tr }
  let s := s.withGs { s.gs with ops := s.gs.ops ++ [o] }
  (s.modInst i.id (fun i => { i with admitted := k :: i.admitted })).showOcc d

/-- The state with operation `o` changed by `u`. -/
def modOp (s : State) (o : Op) (u : Op → Op) : State :=
  (s.withGs { s.gs with ops := s.gs.ops.map (fun x =>
      if x.die = o.die ∧ x.seq = o.seq ∧ x.epoch = o.epoch then u x else x) })

/-- An operation leaves the table: completed, failed or stopped (R300). -/
def dropOp (s : State) (o : Op) (failed stopped : Bool) : State :=
  let s := s.abortThreads o.die (ofOp o)
  let im := (s.instOf o.inst).elim 0 (·.image)
  let s := s.ctEnd o (s.nodeLayer im o.node) (s.nodeOper im o.node) failed stopped
  let s := (s.withGs { s.gs with ops := s.gs.ops.filter (fun x =>
      !(x.die = o.die && x.seq = o.seq && x.epoch = o.epoch)) })
  s.showOcc o.die

/-- An instance is over (R233): no further thread of it is issued and the running ones are aborted. -/
def finishInst (s : State) (i : Inst) (status cause node : Nat) : State :=
  if i.fin.isSome then s
  else
    let s := s.modInst i.id (fun i => { i with fin := some (status, cause, node), waiting := [], msgs := [] })
    (s.gs.ops.filter (fun o => o.inst = i.id)).foldl (fun s o => s.dropOp o false true) s

/-- Whether a node failure of a cause is replayed (R232). -/
def replayable (cause : Nat) : Bool := cause = 1 || cause = 6 || cause = 7

/-- A node failure ends an instance with ERR_NODE (R232 to R234). -/
def failInst (s : State) (i : Inst) (cause node seq epoch : Nat) : State :=
  let s := s.finishInst i 1 cause node
  let s := s.count (F.GS_ERR_node i.die) (F.GS_STATUS_sat i.die)
  s.raise { src := Src.GS_NODE i.die, inst := i.die, ctx := i.l.ctx, seq := seq, epoch := epoch, master := 0x480 + i.die }

/-- An operation fails (R232, R233): its node waits for its replay, or its instance ends with ERR_NODE. -/
def failOp (s : State) (o : Op) (cause : Nat) : State :=
  let s := s.dropOp o true false
  match s.instOf o.inst with
  | none => s
  | some i =>
    if replayable cause && !i.replayed.contains o.node then
      s.modInst i.id (fun i => { i with
        replayed := o.node :: i.replayed, waiting := i.waiting ++ [(o.node, cause)],
        failAt := some (s.tick, o.node, cause, o.seq, o.epoch) })
    else s.failInst i cause o.node o.seq o.epoch

/-- Whether every thread of an operation has been issued and has ended. -/
def opDone (s : State) (o : Op) : Bool :=
  o.next = o.total && [0, 1, 2, 3].all (fun k => !(s.liveThreads (4 * o.die + k)).any (ofOp o))

/-- An operation completes (R220): each successor's count is decremented, at once on the same die, by a
completion message on another; the last node's completion ends the instance. -/
def completeOp (s : State) (o : Op) : State :=
  match s.instOf o.inst with
  | none => s.dropOp o false false
  | some i =>
    let s := s.dropOp o false false
    let succs := s.nodeSuccs i.image o.node
    let here (k : Nat) : Bool := s.nodeDie i.die (s.nodeDieOff i.image k) = o.die
    let dec := (succs.filter here).foldl (fun t k => Table.put (fun _ => 0) t k (Table.get (fun _ => 0) t k + 1)) i.dec
    let msgs := (succs.filter (fun k => !here k)).map (fun k => (s.nodeDie i.die (s.nodeDieOff i.image k), k))
    let s := s.modInst i.id (fun i => { i with dec := dec, msgs := i.msgs ++ msgs, completed := i.completed + 1 })
    if i.completed + 1 = s.gNodes i.image then s.finishInst i 0 0 0xFFFFFFFF else s

/-- The instance is over and none of its operations remains: its arena and entry are freed (R216, R233, R235). -/
def retireInst (s : State) (i : Inst) : State :=
  match i.fin with
  | none => s
  | some (st, cause, node) =>
    let s := s.endLaunch i.die i.l st cause node i.replays i.completed i.image i.arena
    let s := s.withGs { s.gs with insts := s.gs.insts.filter (fun x => x.id ≠ i.id) }
    (s.showOcc i.die).showWait i.die

/-! ### Stops (R234) -/

/-- A live instance is stopped (R234): a node of it that failed in this tick ends it with ERR_NODE. -/
def stopInst (s : State) (i : Inst) : State :=
  match i.failAt, i.fin with
  | some (t, node, cause, seq, epoch), none =>
    if t = s.tick then s.failInst i cause node seq epoch else s.finishInst i 4 0 0xFFFFFFFF
  | _, _ => s.finishInst i 4 0 0xFFFFFFFF

/-- Every live or queued instance of die `d` that `sel` names is stopped: one whose last node completes in this tick has ended
already (R234). -/
def stopWhere (s : State) (d : Nat) (sel : Launch → Bool) : State :=
  let s := s.drainIntake d
  let s := [0, 1, 2, 3].foldl (fun s c =>
    let q := s.classQ d c
    (q.filter sel).foldl (fun s l => s.refuseLaunch d l 4) (s.setClassQ d c (q.filter (fun l => !sel l)))) s
  let s := s.showWait d
  let mine (i : Inst) : Bool := i.die = d && sel i.l
  let s := (s.gs.ops.filter (fun o => (s.instOf o.inst).any mine && s.opDone o)).foldl (fun s o => s.completeOp o) s
  (s.gs.insts.filter mine).foldl (fun s i => s.stopInst i) s

/-- The ZW16's own launches that `sel` names are stopped as R234 says, and no end of theirs is taken any more (R140, R152). -/
def stopJobs (s : State) (sel : Job → Bool) : State :=
  let hit (l : Launch) : Bool := l.job.any sel
  let mute (l : Launch) : Launch := if hit l then { l with job := none } else l
  let s := [0, 1, 2, 3].foldl (fun s d => ([0, 1, 2, 3].foldl (fun s c =>
    s.setClassQ d c ((s.classQ d c).filter (fun l => !hit l))) s).showWait d) s
  let s := (s.gs.ops.filter (fun o => (s.instOf o.inst).any (fun i => hit i.l) && s.opDone o)).foldl (fun s o => s.completeOp o) s
  let s := (s.gs.insts.filter (fun i => hit i.l)).foldl (fun s i => s.stopInst i) s
  (s.withGs { s.gs with
    insts := s.gs.insts.map (fun i => { i with l := mute i.l })
    ended := s.gs.ended.filter (fun e => !sel e.1) })

/-! ### Re-issue (R180 to R182) -/

/-- The engines of CORE `c` that can take a re-issued thread, counting upward from `from_`: neither fallow, nor in a test
slice, nor about to begin one (R180). -/
def reissueEngines (s : State) (c from_ : Nat) : List Nat :=
  ((List.range 16).map (fun k => (from_ + k) % 16)).filter (fun e => s.engineFit c e && !s.sliceNext c e)

/-- A thread re-issued to the first engine above `e` of CORE `c` that qualifies, or to the lowest-numbered core of
its die that has one; ahead of every other waiting thread of its class (R180). -/
def reissue (s : State) (c e : Nat) (x : Thr) : State :=
  let here := (s.reissueEngines c (e + 1)).filter (· ≠ e)
  let others := ([4 * (c / 4), 4 * (c / 4) + 1, 4 * (c / 4) + 2, 4 * (c / 4) + 3].filter (· ≠ c)).find?
    (fun k => !(s.reissueEngines k 0).isEmpty)
  let target : Option (Nat × Nat) :=
    match here with
    | k :: _ => some (c, k)
    | [] => others.map (fun k => (k, (s.reissueEngines k 0).headD 0))
  match target with
  | none => (s.queueFirst c { x with want := none }).showLive c
  | some (c', e') =>
    if (s.opOf x).any (s.hasRoom c' e') && s.engineFree c' e' then (s.seatNew c' e' x).showLive c'
    else (s.queueFirst c' { x with want := some e' }).showLive c'

/-- The operation's node accumulates atomically (R208). -/
def opAtomic (s : State) (o : Op) : Bool := (s.instOf o.inst).any (fun i => s.nodeAtomic i.image o.node)

/-- Every thread on engine `e` of CORE `c` but those of atomic nodes is aborted and re-issued, with no fault
(R182, R351). -/
def evict (s : State) (c e : Nat) : State :=
  let gone := (s.residents c e).filter (fun x => !(s.opOf x).any s.opAtomic)
  let s := s.clearEngine c e (fun x => gone.contains x)
  gone.foldl (fun s x => s.reissue c e x) (s.showLive c)

/-- The ticks after its reference in which a safety window can still be open (R229): its offset and its length are 16 bits of
10 µs. -/
def windowSpan : Nat := 2500 * (2 * 0xFFFF)

/-! ### Triggers (R217) -/

/-- GS_TRIG_t and the template address of trigger `t` of die `d` for an event of this tick: in the tick of a commit, those
before it (R217). -/
def trigSet (s : State) (d t : Nat) : Nat × Nat :=
  if s.spsTick = s.tick + 1 then
    Table.get (fun _ => (0, 0)) s.gs.trigOld (16 * d + t)
  else (s.word (A.GS_TRIG d t), s.dword (A.GS_TRIG_TMPL d t))

/-- A field of GS_TRIG_t as `trigSet` gives it. -/
def trigF (s : State) (d t : Nat) (x : Field) : Nat := bits (s.trigSet d t).1 x.lo x.width

/-- Trigger `t` of die `d` fires with its argument 0, frame ID and stamp overrides: a launch of it that is not yet in its
class queue makes this an overrun (R217). -/
def fireTrig (s : State) (d t : Nat) (arg0 : Option (Nat × Nat)) (fid stamp : Option Nat) : State :=
  if s.trigF d t (F.GS_TRIG_en d t) = 0 then s
  else if (s.intakeOf d).any (fun l => l.trig = some t) then
    s.count (F.GS_TRIG_STAT_overrun d t) (F.GS_STATUS_sat d)
  else
    let l := s.readLaunch (s.trigSet d t).2
    let l := { l with
      args := match arg0 with
        | none => l.args
        | some a => a :: l.args.drop 1
      fid := fid.getD l.fid
      stamp := stamp.getD l.stamp
      trig := some t }
    (s.launched.setIntake d (s.intakeOf d ++ [l])).count (F.GS_TRIG_STAT_fired d t) (F.GS_STATUS_sat d)

/-- Every trigger of source `src` and selection `sel` fires. -/
def fireTrigs (s : State) (src sel : Nat) (arg0 : Option (Nat × Nat)) (fid stamp : Option Nat) : State :=
  [0, 1, 2, 3].foldl (fun s d => (List.range 16).foldl (fun s t =>
    if s.trigF d t (F.GS_TRIG_src d t) = src ∧ s.trigF d t (F.GS_TRIG_sel d t) = sel then s.fireTrig d t arg0 fid stamp else s) s) s

/-! ### Duties and cores that can take threads (R198, R226) -/

/-- A class may issue in the present 1 µs window of die `d`: the first `duty` of every eight windows (log 12). -/
def mayIssue (s : State) (d cls : Nat) : Bool := s.tick / 250 % 8 < s.f ⟨A.CX_PWR_DUTY d, 12 - 4 * cls, 4⟩

/-- Threads of an operation's class that CORE `c` can still take (R226). -/
def coreRoom (s : State) (c cls : Nat) : Nat :=
  let live := s.liveThreads c
  let other := (live.filter (fun x => (s.opOf x).any (fun o => o.cls ≠ 0))).length
  if cls = 0 then 262144 - live.length else min (262144 - live.length) (196608 - other)

/-- CORE `c` takes new threads: not fallow, not held, not barred by a failed known-answer test (R226, R197, R373). -/
def coreOpen (s : State) (c : Nat) : Bool :=
  !s.on (F.CX_CORE_fallow (c / 4) (c % 4)) && !s.dieFallow (c / 4) && Table.get (fun _ => 0) s.gs.hold c = 0
    && !Table.get (fun _ => false) s.gs.noIssue c

/-- The operation of die `d` whose threads are issued next (R227). -/
def nextIssue (s : State) (d : Nat) : Option Op :=
  leastBy (fun o => match s.instOf o.inst with
      | none => [4]
      | some i => admitKey i o.node)
    (s.gs.ops.filter (fun o => o.die = d && o.next < o.total && s.mayIssue d o.cls))

/-- A chunk of at most `n` threads, 64 at most, issued to CORE `c` (R226). -/
def issueChunk (s : State) (c n : Nat) : State :=
  if !s.coreOpen c then s
  else
    match s.nextIssue (c / 4) with
    | none => s
    | some o =>
      let k := min (min n 64) (min (o.total - o.next) (s.coreRoom c o.cls))
      let profile := (s.instOf o.inst).elim 0 (fun i => s.nodeProfile o.die i.image o.node o.ctx)
      let s := s.modOp o (fun o => { o with next := o.next + k })
      ((List.range k).foldl (fun s i => s.placeThr c ⟨o.die, o.seq, o.epoch, o.next + i, 1, [], none, profile, 0, false⟩) s).showLive c

end State

end Sys2Proof.Machine
end

