-- ==== Sys2Proof/Machine/Decide.lean ====
section
/-! DEFINITION. Deciding a frame: its undecided record, its deadlines, causes, the window, the verdict that is
published and what the decision releases (R14 to R32, R91, R95, R133 to R142, R152, R159 to R162). -/

namespace Sys2Proof.Machine

open Sys2Proof

/-! ### Causes (R17) -/

/-- Cause bits of R17. -/
def Cause.evMissing : Nat := 0
def Cause.evLate : Nat := 1
def Cause.evAuth : Nat := 2
def Cause.evFormat : Nat := 3
def Cause.furrow : Nat := 4
def Cause.envelope : Nat := 5
def Cause.head : Nat := 6
def Cause.seed : Nat := 7
def Cause.agFail : Nat := 8
def Cause.agBudget : Nat := 9
def Cause.ckLate : Nat := 10
def Cause.fbMissing : Nat := 11
def Cause.fwdFail : Nat := 12
def Cause.accReset : Nat := 13
def Cause.host : Nat := 14
def Cause.noInput : Nat := 15

/-- The causes that count in the window (R17): bits 0, 2 to 9 and 14. -/
def countMask : Nat := 0x43FD

/-- Bit `i` of `v` set, or cleared. -/
def withBit (v i : Nat) : Nat := v ||| 2 ^ i
def lessBit (v i : Nat) : Nat := if bitOf v i then v - 2 ^ i else v

/-- Set bits of a number below 2^64. -/
def popcount (v : Nat) : Nat := ((List.range 64).filter (fun i => bitOf v i)).length

namespace State

/-! ### The plan at address `pb` (R112, R113) -/

def pLayers (s : State) (pb : Nat) : Nat := s.memVal (pb + 16) 2
def pLinks (s : State) (pb : Nat) : Nat := s.memVal (pb + 18) 2
def pRoots (s : State) (pb : Nat) : Nat := s.memVal (pb + 20) 4
def pF (s : State) (pb : Nat) : Nat := s.memVal (pb + 24) 1
def pHeads (s : State) (pb : Nat) : Nat := s.memVal (pb + 25) 1
def pSeeds (s : State) (pb : Nat) : Nat := s.memVal (pb + 26) 2
def pTols (s : State) (pb : Nat) : Nat := s.memVal (pb + 28) 2
def pEnvs (s : State) (pb : Nat) : Nat := s.memVal (pb + 30) 2
def pExpected (s : State) (pb : Nat) : Nat := pb + s.memVal (pb + 32) 4
def pShadow (s : State) (pb : Nat) : Nat := s.memVal (pb + 36) 4

/-- Addresses of layer, link, chain entry, head, tolerance, envelope and seed entries. -/
def layerAt (pb i : Nat) : Nat := pb + 64 + 32 * i
def linkAt (s : State) (pb i : Nat) : Nat := layerAt pb (s.pLayers pb) + 16 * i
def chainAt (s : State) (pb i : Nat) : Nat := s.linkAt pb (s.pLinks pb) + 16 * i
def headAt (s : State) (pb i : Nat) : Nat := s.chainAt pb (s.pRoots pb * s.pLinks pb) + 32 * i
def tolAt (s : State) (pb i : Nat) : Nat := s.headAt pb (s.pHeads pb) + 16 * i
def envAt (s : State) (pb i : Nat) : Nat := s.tolAt pb (s.pTols pb) + 32 * i
def seedAt (s : State) (pb i : Nat) : Nat := s.envAt pb (s.pEnvs pb) + 16 * i

/-! ### Undecided frames -/

/-- The undecided frames of context `n`, oldest first. -/
def frms (s : State) (n : Nat) : List Frm := (s.ctx n).frames

/-- The state with context `n`'s undecided frames replaced; VD_CTX_STATE_n.inflight follows. -/
def setFrms (s : State) (n : Nat) (l : List Frm) : State :=
  (s.modCtx n (fun c => { c with frames := l })).setF (F.VD_CTX_STATE_inflight n) l.length

/-- The key of the frame of ordinal `o` of port `p`, and the port of a key (R16). -/
def frameKey (p o : Nat) : Nat := 16 * o + p

/-- The undecided frame of context `n` with key `o`. -/
def frm (s : State) (n o : Nat) : Option Frm := (s.frms n).find? (fun f => f.ord = o)

/-- The state with that frame changed by `u`. -/
def modFrm (s : State) (n o : Nat) (u : Frm → Frm) : State :=
  s.modCtx n (fun c => { c with frames := c.frames.map (fun f => if f.ord = o then u f else f) })

/-- A cause recorded for an undecided frame. -/
def addCause (s : State) (n o i : Nat) : State := s.modFrm n o (fun f => { f with causes := withBit f.causes i })

/-- Late evidence (R23): EV_LATE in VD_CTX_CAUSE_n.sticky, VD_LATE_n counts; no decision mirrors it (R444). -/
def lateEvidence (s : State) (n : Nat) : State :=
  ((s.hwSet (A.VD_CTX_CAUSE n) 2).count (F.VD_LATE_count n) (F.VD_CTX_STATE_sat n)).mirrorState n

/-- The accelerator of context `n` (R13). -/
def accOf (s : State) (n : Nat) : Nat := s.f (F.VD_CTX_CFG_acc n)

/-- The frame was stamped before a sequence of its accelerator completed that its context did not ask for (R36). -/
def stampedBeforeReset (s : State) (n : Nat) (f : Frm) : Bool := s.resetByOther n || (s.ctx n).resetEnd.any (fun e => f.stampTick < e)

/-- The evidence of a frame is missing (R23): ACC_RESET in place of EV_MISSING under R36; no check of it is launched any
more. -/
def missing (s : State) (n : Nat) (f : Frm) : State :=
  (s.addCause n f.ord (if s.stampedBeforeReset n f then Cause.accReset else Cause.evMissing)).modFrm n f.ord (fun f =>
    { f with ev := .failed, todo := [], vp2Due := f.vp2Queued })

/-- No on-time evidence frame is complete yet (R22). -/
def evPending (f : Frm) : Bool := f.ev == .none || f.ev == .receiving

/-- The frame is published as NO_INPUT. -/
def noInput (f : Frm) : Bool := bitOf f.causes Cause.noInput

/-- The end of the evidence deadline tick of a frame (R23), in the states that check evidence (R32); a secondary
takes no evidence (R447). -/
def evDeadline (s : State) (n : Nat) (f : Frm) : State :=
  if f.evDl ≤ s.tick ∧ evPending f ∧ s.judged n ∧ noInput f = false ∧ s.isSecondary = false then s.missing n f else s

/-! ### VP2's queue (R142) -/

/-- CK_AG_STATUS: entries queued or running, and their highest number since reset. -/
def showVp (s : State) : State :=
  let d := s.vp2.queue.length + bit s.vp2.run.isSome
  (s.setF F.CK_AG_STATUS_depth d).setF F.CK_AG_STATUS_hwm (max (s.f F.CK_AG_STATUS_hwm) d)

/-- VP2 is free: the pair's processor stands as it stood before the entry (log 14). -/
def vpFree (s : State) : State :=
  match s.vp2.run with
  | none => s
  | some r =>
    let h := s.hart (pairHart r.pair)
    let s := if r.custom then s.setHart (pairHart r.pair)
        { r.saved with ext := r.saved.ext || h.ext, nmi := r.saved.nmi || h.nmi } else s
    (s.withVp2 { s.vp2 with run := none }).showVp

/-- The entries of a frame leave VP2; a running one is stopped (R142, R152). -/
def vpDrop (s : State) (n o : Nat) : State :=
  let mine (e : VpEntry) : Bool := e.ctx = n && e.ord = o
  let s := s.withVp2 { s.vp2 with queue := s.vp2.queue.filter (fun e => !mine e) }
  let s := if s.vp2.run.any (fun r => mine r.entry) then s.vpFree else s
  s.showVp

/-- The decoder entry of a frame, or with `dec` false its agreement entry, leaves VP2, stopped where it runs (R134, R141,
R142). -/
def dropEntry (s : State) (n o : Nat) (dec : Bool) : State :=
  let mine (e : VpEntry) : Bool := e.ctx = n && e.ord = o && e.decoder == dec
  let s := s.withVp2 { s.vp2 with queue := s.vp2.queue.filter (fun e => !mine e) }
  let s := if s.vp2.run.any (fun r => mine r.entry) then s.vpFree else s
  s.showVp

/-! ### Completeness (R24) -/

/-- Every check of the frame has ended (R133). -/
def checksDone (f : Frm) : Bool := f.todo.isEmpty && f.running.isEmpty && !f.vp2Due

/-- The fall-back of the frame is complete (R140). -/
def fbDone (f : Frm) : Bool := f.fb == .ready || f.fb == .missing

/-- The evidence of the frame was missing at its deadline (R23, R36). -/
def evGone (f : Frm) : Bool := f.ev == .failed && (bitOf f.causes Cause.evMissing || bitOf f.causes Cause.accReset)

/-- The frame waits for nothing (R24, R32, R141): a frame whose evidence is missing waits for its fall-back alone, one whose
evidence failed for its launched checks too (R133).  A frame of a context that has left ADMITTING, BELIEVED and DOUBTED waits
for its fall-back alone; so does one that DISABLE left undecided, which is published as FALLBACK or NONE (R40 against the
table of R27: log 125). -/
def frmComplete (s : State) (n : Nat) (f : Frm) : Bool :=
  noInput f || (fbDone f && (!s.judged n || evGone f || (f.ev == .failed && checksDone f)
    || (f.ev == .authentic && checksDone f && f.ag == .complete)))

/-- The frame's own work still running is stopped, as at the verdict deadline tick (R134, R140, R152): an
unfinished fall-back is missing, unfinished checks or an unfinished agreement program give CK_LATE. -/
def cutOff (s : State) (n : Nat) (f : Frm) : State :=
  if noInput f then s
  else
    let s := if fbDone f then s else s.modFrm n f.ord (fun f => { f with fb := .missing })
    let unfinished := s.judged n && !s.isSecondary &&
      (if f.ev == .failed then !checksDone f else !(f.ev == .authentic && checksDone f && f.ag == .complete))
    let s := if unfinished && (fbDone f || !(checksDone f) || f.ev != .authentic)
      then s.addCause n f.ord Cause.ckLate else s
    let agRuns := s.vp2.run.any (fun r => r.entry.ctx = n && r.entry.ord = f.ord)
    let s := if agRuns then s.count (F.CK_AG_CNT_late n) F.CK_STATUS_sat else s
    let s := s.stopJobs (fun j => j.ctx = n && j.ord = f.ord)
    (s.vpDrop n f.ord).modFrm n f.ord (fun f =>
      { f with todo := [], running := [], vp2Due := false, ag := .complete })

/-! ### Publishing (R159 to R162) -/

/-- The verdict epoch in force for a decision of this tick (R472). -/
def verdictEpoch (s : State) : Nat := if s.sec.vepTick = s.tick + 1 then s.sec.vepOld else s.f F.SEC_VEPOCH_epoch

/-- A fragment's message: header bytes 0 to 55, the encrypted fragment, the tag (R160, R162). -/
def fragMessage (s : State) (v : Verdict) (count i : Nat) : List Byte :=
  let frag := (v.result.drop (1408 * i)).take 1408
  let flags := v.kind + 4 * s.f F.VD_CTRL_unconf + 8 * s.f F.VD_CTRL_sentinel
  let hdr := beBytes 1 1 ++ beBytes 1 flags ++ beBytes 2 v.ctx ++ beBytes 1 v.state
    ++ beBytes 1 (s.f (F.VD_CTX_STATE_clean v.ctx)) ++ beBytes 1 (s.f (F.VD_CTX_STATE_wfail v.ctx)) ++ beBytes 1 count
    ++ beBytes 4 v.fid ++ beBytes 8 v.stampNs ++ beBytes 8 v.timeNs ++ beBytes 2 v.causes ++ beBytes 1 i ++ beBytes 1 0
    ++ beBytes 4 v.result.length ++ beBytes 4 (1408 * i) ++ beBytes 4 v.detail ++ beBytes 4 v.margin
    ++ beBytes 4 v.admitCtr ++ beBytes 2 v.epoch ++ beBytes 2 0
  let key := s.verdictKey v.ctx v.admitCtr v.epoch
  let iv := beBytes 1 0x56 ++ beBytes 1 0x44 ++ beBytes 2 v.epoch ++ beBytes 2 v.ctx ++ beBytes 1 i ++ beBytes 1 0
    ++ beBytes 4 v.fid
  let ct := gcmCrypt key iv frag
  hdr ++ ct ++ Config.gcmTag key iv hdr ct

/-- The number of fragments of a result (R161). -/
def fragCount (l : List Byte) : Nat := max 1 ((l.length + 1407) / 1408)

/-- A verdict published as safety datagrams of type 0x01, its fragments in index order (R159). -/
def publish (s : State) (v : Verdict) : State :=
  let c := fragCount v.result
  let s := s.withVerdict (some v)
  (List.range c).foldl (fun s i => s.sendSafety 1 v.ctx v.fid i (s.fragMessage v c i)) s

/-! ### What a decision releases -/

/-- Slots held in the pool of evidence port `e` (R107). -/
def evUsed (s : State) (e : Nat) : Nat :=
  ((List.range 64).filter (fun k => (Table.get (fun _ => none) s.evSlots (64 * e + k)).isSome)).length

/-- The evidence slot of a frame is released (R107). -/
def releaseEv (s : State) (n o : Nat) : State :=
  let s := s.withEvSlots (s.evSlots.filter (fun p => p.2 ≠ some (n, o)))
  [0, 1, 2, 3].foldl (fun s e => s.setF (F.EV_EIN_STAT_used e) (s.evUsed e)) s

/-- Counts of failed frames, and CK_CTX_LAST_n (R133): the earliest failure, then lowest kind, then lowest
identifier; a frame with CK_LATE and no failing check records kind 5. -/
def recordChecks (s : State) (n : Nat) (fails : List CheckFail) (late : Bool) : State :=
  let has (k : Nat) : Bool := fails.any (fun c => c.kind = k)
  let s := if has 1 then s.count (F.CK_CTX_CNT0_furrow n) F.CK_STATUS_sat else s
  let s := if has 2 then s.count (F.CK_CTX_CNT0_envelope n) F.CK_STATUS_sat else s
  let s := if has 3 then s.count (F.CK_CTX_CNT1_head n) F.CK_STATUS_sat else s
  let s := if has 4 then s.count (F.CK_CTX_CNT1_seed n) F.CK_STATUS_sat else s
  match leastBy (fun c => [c.tick, c.kind, c.id]) fails with
  | some c =>
    ((s.setF (F.CK_CTX_LAST_kind n) c.kind).setF (F.CK_CTX_LAST_fails n) (min c.count 4095)).setF (F.CK_CTX_LAST_id n) c.id
  | none =>
    if late then ((s.setF (F.CK_CTX_LAST_kind n) 5).setF (F.CK_CTX_LAST_fails n) 0).setF (F.CK_CTX_LAST_id n) 0 else s

/-- The cause bits of failed checks (R133): kinds 1 to 4. -/
def failCauses (fails : List CheckFail) : Nat := fails.foldl (fun m c => withBit m (Cause.furrow + c.kind - 1)) 0

/-- The causes a frame is decided with (R17, R21, R24, R36, R40, R97): failed checks take part only once both
tags have verified; with CK_CTRL.en = 0 the checks are late (R135). -/
def finalCauses (s : State) (n : Nat) (f : Frm) : Nat :=
  let act := s.judged n
  let reset := act && (s.resetByOther n || (bitOf f.causes Cause.evMissing && s.stampedBeforeReset n f))
  let c := if reset then withBit (lessBit f.causes Cause.evMissing) Cause.accReset else f.causes
  if noInput f then c
  else
    let c := if act && f.ev == .authentic then c ||| failCauses f.fails else c
    let c := if act && !f.ckEn then withBit c Cause.ckLate else c
    let c := if f.fb == .ready then c else withBit c Cause.fbMissing
    if act && (s.ctx n).force then withBit c Cause.host else c

/-- History, clean run and state after a decision (R28): the state and whether the context now is BELIEVED. -/
def transition (s : State) (n causes : Nat) : State :=
  let st := s.trust n
  let clean := causes = 0
  let len := s.f (F.VD_CTX_THR_n n)
  let h := (2 * s.dword (A.VD_CTX_HIST n) + bit (causes &&& countMask ≠ 0)) % 2 ^ len
  let run := if clean then min (s.f (F.VD_CTX_STATE_clean n) + 1) 255 else 0
  let s := ((s.setDword (A.VD_CTX_HIST n) h).setF (F.VD_CTX_STATE_wfail n) (popcount h)).setF (F.VD_CTX_STATE_clean n) run
  if s.f (F.VD_CTX_THR_m n) ≤ popcount h then s.reject n
  else if clean then
    if (st = 1 ∧ s.f (F.VD_CTX_THR_adm_k n) ≤ run) ∨ (st = 3 ∧ s.f (F.VD_CTX_THR_clr_k n) ≤ run) then s.setTrust n 2 else s
  else if st = 2 then s.setTrust n 3
  else s

/-- The accelerator's source-0 RESULT records, from the result stream's plaintext (R98, R161): records of eight
header bytes and a payload, as long as their source is 0. -/
def sourceZero : Nat → List Byte → List Byte
  | 0, _ => []
  | k + 1, l =>
    match l with
    | t :: src :: _ =>
      if src = 0 then
        let n := 8 + beVal ((l.drop 4).take 4)
        l.take n ++ sourceZero k (l.drop n)
      else
        let _ := t
        []
    | _ => []

/-- The kind of result published (R19 to R21, R27, R30): ACC only for a clean frame of a context that is
BELIEVED after the decision; in sentinel service NONE for every frame (R334). -/
def publishedKind (s : State) (n causes : Nat) (entered : Bool) : Nat :=
  if s.on F.VD_CTRL_sentinel then 2
  else if bitOf causes Cause.noInput then 3
  else if bitOf causes Cause.fbMissing then 2
  else if causes = 0 ∧ entered ∧ s.trust n = 2 then 0
  else 1

/-- The registers and counts of a decision (R20, R21, R43, R44).  A NO_INPUT frame is not counted in VD_DOUBT_n: it does not
enter the window, and no evidence of it is judged (log 115).  In sentinel service it is published NONE, and is not counted in
VD_GAP_n.noinput (R334, log 166). -/
def countDecision (s : State) (n causes : Nat) (entered : Bool) : State :=
  let sat := F.VD_CTX_STATE_sat n
  let s := if bitOf causes Cause.noInput then (if s.on F.VD_CTRL_sentinel then s else s.count (F.VD_GAP_noinput n) sat)
    else if bitOf causes Cause.fbMissing then s.count (F.VD_GAP_nofb n) sat else s
  let s := if entered ∧ causes ≠ 0 then s.count (F.VD_DOUBT_count n) sat else s
  (s.setF (F.VD_CTX_CAUSE_last n) causes).hwSet (A.VD_CTX_CAUSE n) (causes % 2 ^ 16)

/-- The mirrored frame of a decision, `rej` being VD_REJ_n.rej before it (R441, R444, log 18); late evidence is mirrored when
it is counted. -/
def mirrorDecision (s : State) (n : Nat) (f : Frm) (causes : Nat) (entered : Bool) (rej : Nat) : State :=
  s.mlSend (.decision n f.fid (s.word (A.VD_CTX_STATE n)) causes (s.dword (A.VD_CTX_HIST n))
    ⟨entered && causes ≠ 0, 0, s.f (F.VD_REJ_rej n) - rej⟩
    (bitOf causes Cause.fbMissing && !bitOf causes Cause.noInput) (bitOf causes Cause.noInput))

/-- Frame `f`, the oldest of context `n`, is decided (R24 to R32, R133, R159). -/
def decideFrm (s : State) (n : Nat) (f : Frm) : State :=
  let causes := s.finalCauses n f
  let act := s.judged n
  let entered := act && !noInput f
  let force := (s.ctx n).force && !entered
  let rej := s.f (F.VD_REJ_rej n)
  let late := bitOf causes Cause.ckLate
  let s := if entered || late then s.recordChecks n (if entered && f.ev == .authentic then f.fails else []) late else s
  let s := if late then
      (s.count (F.CK_CTX_CNT2_late n) F.CK_STATUS_sat).raise { src := Src.CK_LATE, detail := n, ctx := n, master := 0x492 }
    else s
  let s := if bitOf causes Cause.fbMissing then
      s.raise { src := Src.FB_MISSING, detail := n, ctx := n, master := 0x492 } else s
  let s := (s.modCtx n (fun c => { c with force := force })).setFrms n ((s.frms n).drop 1)
  let s := s.countDecision n causes entered
  let s := if entered then s.transition n causes else s
  let kind := s.publishedKind n causes entered
  let s := s.setF (F.VD_CTX_STATE_kind n) kind
  let result := if kind = 0 then sourceZero 255 f.resText else if kind = 1 then f.fbBytes else []
  let v : Verdict := {
    ctx := n, kind := kind, fid := f.fid, causes := causes, state := s.trust n, stampNs := f.stampNs, timeNs := s.time,
    admitCtr := f.admitCtr, epoch := s.verdictEpoch, detail := f.detail, margin := f.margin, result := result }
  let s := if s.leads then (s.publish v).mirrorDecision n f causes entered rej else s
  let s := s.stopJobs (fun j => j.ctx = n && j.ord = f.ord)
  ((s.vpDrop n f.ord).releaseEv n f.ord).ageOld n

/-- The frame is decided at once as though its verdict deadline had passed: EV_MISSING when its evidence is incomplete,
CK_LATE when its checks are (R26). -/
def forceDecide (s : State) (n : Nat) (f : Frm) : State :=
  let open_ := s.judged n && evPending f && !noInput f && !s.isSecondary
  let s := if open_ && !checksDone f then s.addCause n f.ord Cause.ckLate else s
  let s := if open_ then s.missing n f else s
  match s.frm n f.ord with
  | none => s
  | some f =>
    let s := s.cutOff n f
    match s.frm n f.ord with
    | none => s
    | some f => s.decideFrm n f

/-- The oldest frame of context `n` leaves without a decision of this device (R447). -/
def forget (s : State) (n : Nat) (f : Frm) : State :=
  let s := s.setFrms n ((s.frms n).drop 1)
  let s := s.stopJobs (fun j => j.ctx = n && j.ord = f.ord)
  ((s.vpDrop n f.ord).releaseEv n f.ord).ageOld n

/-- Room for one more undecided frame of context `n`: the oldest is decided when four are held (R26); a secondary
drops it (R447). -/
def makeRoom (s : State) (n : Nat) : State :=
  match s.frms n with
  | f :: _ =>
    if 4 ≤ (s.frms n).length then (if s.isSecondary then s.forget n f else s.forceDecide n f) else s
  | [] => s

/-! ### Frames in (R14, R16, R26, R95) -/

/-- Frames of context `n` are taken (R27, R43, R490). -/
def takesFrames (s : State) (n : Nat) : Bool :=
  s.on F.VD_CTRL_en && s.enabled.contains n && (s.trust n ≠ 0 || (s.ctx n).waitAdmit != .none)

/-- An epoch change made in an earlier tick takes effect at this anchor Frame Start, of the frame with key `o` (R95). -/
def takeEpoch (s : State) (n o : Nat) : State :=
  let c := s.ctx n
  match c.change with
  | .made t =>
    if t < s.tick then
      let ep := s.f (F.EV_CTX_KEY_epoch n)
      let s := s.setF (F.EV_CTX_KEY_epoch n) (ep + 1)
      ((s.setCtx n { c with old := .grace (s.word (A.VD_ADMIT n)) ep o, change := .none, epochFrames := 0 }).showKey n).mirrorKeys n
    else s
  | _ => s

/-- One anchor frame counted for the automatic epoch change (R470). -/
def countEpochFrame (s : State) (n : Nat) : State :=
  let k := (s.ctx n).epochFrames + 1
  let s := s.modCtx n (fun c => { c with epochFrames := k })
  let every := 1024 * s.f F.SEC_KCFG_frames
  if every ≠ 0 ∧ every ≤ k then (s.requestEpoch n).1 else s

/-- The bytes of the check plan at `pb`; none where no plan can lie (R111, R112). -/
def planBytes (s : State) (pb : Nat) : List Byte := if pb < 0x10000000000 then [] else s.bytes pb (s.memVal (pb + 12) 4)

/-- The graph references of a plan: links, heads and the shadow graph, without "no graph" (R116, R126, R131, R203). -/
def planGraphs (s : State) (pb : Nat) : List Nat :=
  ((List.range (s.pLinks pb)).map (fun i => s.memVal (s.linkAt pb i + 8) 4)
    ++ (List.range (s.pHeads pb)).map (fun h => s.memVal (s.headAt pb h + 16) 4) ++ [s.pShadow pb]).filter (· ≠ 0)

/-- The decoder programs a plan names (R126). -/
def planDecoders (s : State) (pb : Nat) : List Nat :=
  ((List.range (s.pHeads pb)).map (fun h => s.memVal (s.headAt pb h + 20) 4)).filter (· ≠ 0)

/-- The graphs a frame of context `n` may launch under the plan at `pb` (R137, R138). -/
def boundGraphs (s : State) (n pb : Nat) : List Nat :=
  s.word (A.CK_FB_GRAPH n) :: (if pb < 0x10000000000 then [] else s.planGraphs pb)

/-- Address of the image that a directory index names (R144). -/
def agImage (s : State) (i : Nat) : Nat := s.memVal (s.dword A.CK_AG_DIR_BASE + 16 * i) 8

/-- Length of that image in the directory (R144). -/
def agImageLen (s : State) (i : Nat) : Nat := s.memVal (s.dword A.CK_AG_DIR_BASE + 16 * i + 8) 4

/-- The programs of the agreement directory that a frame of context `n` may run under the plan at `pb` (R126, R144). -/
def boundPrograms (s : State) (n pb : Nat) : List Nat :=
  s.f (F.CK_AG_CFG_prog n) :: (if pb < 0x10000000000 then [] else s.planDecoders pb)

/-- A new undecided frame of context `n`: key, frame ID, stamp and recorded causes, with the bindings in
force: the plan's bytes, the images its graphs and programs name, and the settings (R118, R137).  The deadlines count from the tick
of the Frame Start, not less the port's compensation (R14, R57; log 128). -/
def newFrm (s : State) (n o fid stampNs causes : Nat) : Frm :=
  let ev := s.tick + us (s.f (F.VD_CTX_TIME_ev_dl n))
  let pb := s.dword (A.CK_CTX_PLAN_BASE n)
  { ord := o, fid := fid, stampNs := stampNs, stampTick := s.tick, admitCtr := s.word (A.VD_ADMIT n), evDl := ev,
    vDl := ev + 2500 * s.f (F.VD_CTX_TIME_chk n), causes := causes, ports := s.word (A.FP_CTXM n) % 2 ^ 16,
    skew := s.f (F.FP_CIN_TIME_skew (s.f (F.VD_CTX_CFG_anchor n))), members := [], groupDone := false, ev := .none, opened := false, hdr := [],
    evText := [], resText := [], evSlot := none, planId := s.word (A.EV_CTX_PLAN n), evTag := [], resTag := [], pepper := [], patches := [], plan := pb,
    planImg := s.planBytes pb, ckEn := s.on F.CK_CTRL_en, images := (s.boundGraphs n pb).map (fun g => (g, s.dirEntry g)),
    programs := (s.boundPrograms n pb).map (fun i => (i, s.agImage i, s.agImageLen i)), ckCfg := s.word (A.CK_CTX_CFG n), fbRef := s.word (A.CK_FB_GRAPH n), agCfg := s.word (A.CK_AG_CFG n),
    agBudget := s.word (A.CK_AG_BUDGET n), agParam := Table.get (fun _ => []) s.agParams (s.f (F.CK_AG_CFG_param n)),
    todo := [], running := [], outs := [], vp2Due := false, vp2Queued := false, fails := [], gone := false, fb := .waiting, fbBytes := [],
    decoded := [], ag := .waiting, detail := 0, margin := 0 }

/-- The frame joins the undecided frames, and the grace of an epoch change counts it (R95, R110). -/
def addFrm (s : State) (n : Nat) (f : Frm) : State :=
  let s := s.modCtx n (fun c =>
    let o := f.ord / 16
    let first := (Table.get (fun _ => none) c.taken (f.ord % 16)).elim o (·.1)
    { c with taken := Table.put (fun _ => none) c.taken (f.ord % 16) (some (first, o)) })
  (s.setFrms n (s.frms n ++ [f])).showKey n

/-- An anchor Frame Start of context `n`, whose frame takes key `o`: a new counter that the latest commit asks for (R16),
and an epoch change made in an earlier tick (R95). -/
def anchorStart (s : State) (n o : Nat) : State :=
  let s := if (s.ctx n).rebind then (s.modCtx n (fun c => { c with rebind := false })).renewAdmit n else s
  (s.takeEpoch n o).countEpochFrame n

/-- An anchor frame of context `n` (R14, R16, R26, R95). -/
def openFrame (s : State) (n o fid stampNs : Nat) : State :=
  if !s.takesFrames n then s
  else
    let s := (s.makeRoom n).anchorStart n o
    s.addFrm n (s.newFrm n o fid stampNs 0)

/-- A frame ID that gives no frame: published as NO_INPUT in frame order (R20, R55, R56, R63).  With `start` an anchor Frame
Start issued it (R63). -/
def gapFrame (s : State) (start : Bool) (n o fid stampNs : Nat) : State :=
  if !s.takesFrames n then s
  else
    let s := s.makeRoom n
    let s := if start then s.anchorStart n o else s
    s.addFrm n { s.newFrm n o fid stampNs 0x8000 with fb := .missing, ev := .failed, ag := .complete, groupDone := true }

/-- The frame is lost at ingress: NO_INPUT (R20, R53, R63, R64); its work is stopped. -/
def loseFrame (s : State) (n o : Nat) : State :=
  match s.frm n o with
  | none => s
  | some f =>
    if noInput f then s
    else
      let s := s.stopJobs (fun j => j.ctx = n && j.ord = o)
      (s.vpDrop n o).modFrm n o (fun f =>
        { f with causes := withBit f.causes Cause.noInput, todo := [], running := [], vp2Due := false, ag := .complete })

end State

/-- The evidence deadline of context n's frames (R23): every undecided frame whose evidence deadline tick has been
reached with no on-time evidence frame complete. -/
def execEvidenceDeadline (t : Nat) (n : Fin 1024) (s : State) : Host.Outcome State Fault Refusal :=
  let s := s.start t
  done ((s.frms n).foldl (fun s f => s.evDeadline n f) s)

/-- The verdict deadline of context n's frames (R24, R134, R140, R152). -/
def execVerdictDeadline (t : Nat) (n : Fin 1024) (s : State) : Host.Outcome State Fault Refusal :=
  let s := s.start t
  let s := (s.frms n).foldl (fun s f => s.evDeadline n f) s
  done ((s.frms n).foldl (fun s f => if f.vDl ≤ s.tick then s.cutOff n f else s) s)

/-- The oldest undecided frame of context n is decided, once it waits for nothing or its verdict deadline tick has
been reached (R24). -/
def execDecideFrame (t : Nat) (n : Fin 1024) (s : State) : Host.Outcome State Fault Refusal :=
  let s := s.start t
  let s := (s.frms n).foldl (fun s f => s.evDeadline n f) s
  match s.frms n with
  | [] => done s
  | f :: _ =>
    if s.isSecondary then done s
    else if s.frmComplete n f then done (s.decideFrm n f)
    else if f.vDl ≤ s.tick then done (s.forceDecide n f)
    else done s

end Sys2Proof.Machine
end

