-- ==== Sys2Proof/Machine/Fp.lean ====
section
/-! DEFINITION. Number formats: exact binary values, decoding and rounding of FP64, FP32, BF16, FP16, FP8 E5M2 and
E4M3 (R101, R171 to R174, R282, R284), element formats, and comparisons. -/

namespace Sys2Proof.Machine

open Sys2Proof

/-- A floating-point value held exactly: not a number, an infinity, or ±m × 2^e (a zero keeps its sign). -/
inductive Fv where
  | nan
  | inf (neg : Bool)
  | num (neg : Bool) (m : Nat) (e : Int)
  deriving DecidableEq, Repr

/-- A floating-point format: mantissa bits, exponent bias, width, the largest finite magnitude, the bits of
infinity when the format has one, and its canonical NaN. -/
structure Fmt where
  mb : Nat
  bias : Nat
  width : Nat
  top : Nat
  inf : Option Nat
  nan : Nat
  deriving DecidableEq, Repr

def fp64 : Fmt := ⟨52, 1023, 64, 0x7FEFFFFFFFFFFFFF, some 0x7FF0000000000000, 0x7FF8000000000000⟩
def fp32 : Fmt := ⟨23, 127, 32, 0x7F7FFFFF, some 0x7F800000, 0x7FC00000⟩
def bf16 : Fmt := ⟨7, 127, 16, 0x7F7F, some 0x7F80, 0x7FC0⟩
def fp16 : Fmt := ⟨10, 15, 16, 0x7BFF, some 0x7C00, 0x7E00⟩
def e5m2 : Fmt := ⟨2, 15, 8, 0x7B, some 0x7C, 0x7E⟩
def e4m3 : Fmt := ⟨3, 7, 8, 0x7E, none, 0x7F⟩

namespace Fv

/-- Zero of a sign. -/
def zero (neg : Bool) : Fv := .num neg 0 0

/-- An integer as a value. -/
def ofInt (i : Int) : Fv := .num (i < 0) i.natAbs 0

/-- The value that bits of a format spell (R171). -/
def decode (f : Fmt) (b : Nat) : Fv :=
  let neg := bitOf b (f.width - 1)
  let mag := b % 2 ^ (f.width - 1)
  if mag ≤ f.top then
    let ex := mag / 2 ^ f.mb
    if ex = 0 then .num neg mag (1 - (f.bias : Int) - f.mb)
    else .num neg (mag % 2 ^ f.mb + 2 ^ f.mb) ((ex : Int) - f.bias - f.mb)
  else if f.inf = some mag then .inf neg
  else .nan

/-- The value is finite. -/
def isFinite : Fv → Bool
  | .num _ _ _ => true
  | _ => false

/-- A signed integer m × 2^e. -/
def signedM : Fv → Int
  | .num neg m _ => if neg then -(m : Int) else m
  | _ => 0

/-- The exponent of a finite value. -/
def expo : Fv → Int
  | .num _ _ e => e
  | _ => 0

/-- A finite value as an integer in units of 2^k, for k at or below its exponent. -/
def scaled (x : Fv) (k : Int) : Int := x.signedM * 2 ^ (x.expo - k).toNat

/-- Sign inverted. -/
def neg : Fv → Fv
  | .nan => .nan
  | .inf n => .inf (!n)
  | .num n m e => .num (!n) m e

/-- Sign cleared. -/
def abs : Fv → Fv
  | .nan => .nan
  | .inf _ => .inf false
  | .num _ m e => .num false m e

/-- The sign bit; of a NaN it is clear. -/
def sign : Fv → Bool
  | .nan => false
  | .inf n => n
  | .num n _ _ => n

/-- Whether the value is a zero. -/
def isZero : Fv → Bool
  | .num _ 0 _ => true
  | _ => false

/-- Exact product; infinity times zero is NaN. -/
def mul : Fv → Fv → Fv
  | .nan, _ => .nan
  | _, .nan => .nan
  | .inf a, y => if y.isZero then .nan else .inf (a != y.sign)
  | x, .inf b => if x.isZero then .nan else .inf (x.sign != b)
  | .num a m e, .num b n k => .num (a != b) (m * n) (e + k)

/-- Exact sum; a sum of infinities of both signs is NaN; an exact zero sum is −0 only when both addends are −0, or
when the sum cancels and `down` holds (rounding toward −∞). -/
def add (down : Bool) : Fv → Fv → Fv
  | .nan, _ => .nan
  | _, .nan => .nan
  | .inf a, .inf b => if a = b then .inf a else .nan
  | .inf a, _ => .inf a
  | _, .inf b => .inf b
  | .num a m e, .num b n k =>
    let lo := min e k
    let t := Fv.scaled (.num a m e) lo + Fv.scaled (.num b n k) lo
    if t = 0 then .num (if m = 0 ∧ n = 0 then (a && b) || ((a != b) && down) else down) 0 0
    else .num (t < 0) t.natAbs lo

/-- `m` / 2^sh rounded to an integer in a mode (R176): 0 nearest even, 1 toward zero, 2 toward +∞, 3 toward −∞, 4
nearest away from zero. -/
def roundShift (mode : Nat) (neg : Bool) (m sh : Nat) : Nat :=
  let q := m / 2 ^ sh
  let r := m % 2 ^ sh
  if r = 0 then q
  else
    let up := match mode with
      | 0 => 2 ^ sh < 2 * r || (2 ^ sh = 2 * r && q % 2 = 1)
      | 1 => false
      | 2 => !neg
      | 3 => neg
      | _ => 2 ^ sh ≤ 2 * r
    if up then q + 1 else q

/-- `m` / 2^sh rounded stochastically with `sr` random bits `u` (R177): t is the fraction above the lower neighbour, cut to
`sr` bits, and the upper neighbour is taken when u < t. -/
def roundStoch (sr u : Nat) (neg : Bool) (m sh : Nat) : Nat :=
  let q := m / 2 ^ sh
  let r := m % 2 ^ sh
  if r = 0 then q
  else if neg then (if u < (2 ^ sh - r) * 2 ^ sr / 2 ^ sh then q else q + 1)
  else (if u < r * 2 ^ sr / 2 ^ sh then q + 1 else q)

/-- Magnitude bits of ±m × 2^e in a format before the overflow test, under a way of rounding: M + (q − qmin) × 2^mb, where q
is the weight of the last kept bit. -/
def roundMag (f : Fmt) (rs : Bool → Nat → Nat → Nat) (neg : Bool) (m : Nat) (e : Int) : Nat :=
  let qmin : Int := 1 - (f.bias : Int) - f.mb
  let q : Int := max ((Nat.log2 m : Int) + e - f.mb) qmin
  let big := if q ≤ e then m * 2 ^ (e - q).toNat else rs neg m (q - e).toNat
  big + (q - qmin).toNat * 2 ^ f.mb

/-- A value rounded to a format's bits.  On overflow `top` gives the largest finite value; otherwise infinity, or NaN where
the format has none (R171, R172, R282, R284). -/
def encodeBy (f : Fmt) (rs : Bool → Nat → Nat → Nat) (top : Bool) (infTop : Bool) (x : Fv) : Nat :=
  let withSign (n : Bool) (v : Nat) : Nat := if n then v + 2 ^ (f.width - 1) else v
  let over_ (n : Bool) (t : Bool) : Nat :=
    if t then withSign n f.top
    else match f.inf with
      | some i => withSign n i
      | none => f.nan
  match x with
  | .nan => f.nan
  | .inf n => over_ n infTop
  | .num n m e =>
    if m = 0 then withSign n 0
    else
      let mag := roundMag f rs n m e
      if mag ≤ f.top then withSign n mag else over_ n top

/-- A value rounded in a mode (R176); rounding toward zero that overflows, and `sat`, give the largest finite value. -/
def encode (f : Fmt) (mode : Nat) (sat : Bool) (x : Fv) : Nat := encodeBy f (roundShift mode) (sat || mode == 1) sat x

/-- A value rounded to a format. -/
def round (f : Fmt) (mode : Nat) (x : Fv) : Fv := decode f (encode f mode false x)

/-- Order of two values that are not NaN: negative, zero or positive as x is below, equal to or above y. -/
def cmp (x y : Fv) : Int :=
  match x, y with
  | .inf a, .inf b => if a = b then 0 else if a then -1 else 1
  | .inf a, _ => if a then -1 else 1
  | _, .inf b => if b then 1 else -1
  | x, y =>
    let k := min x.expo y.expo
    x.scaled k - y.scaled k

/-- x ≤ y, false when either is NaN. -/
def le (x y : Fv) : Bool := x ≠ .nan && y ≠ .nan && cmp x y ≤ 0

/-- x < y, false when either is NaN. -/
def lt (x y : Fv) : Bool := x ≠ .nan && y ≠ .nan && cmp x y < 0

/-- The quotient n / d of naturals, d ≠ 0, rounded to FP64: 128 quotient bits and a sticky bit are enough. -/
def ratio64 (n d : Nat) : Fv :=
  let q := n * 2 ^ 128 / d
  let st := if n * 2 ^ 128 % d = 0 then 0 else 1
  round fp64 0 (.num false (2 * q + st) (-129))

/-- A finite value divided by a positive natural and rounded to FP32 with nearest even. -/
def div32 (x : Fv) (d : Nat) : Fv :=
  match x with
  | .num n m e =>
    let q := m * 2 ^ 160 / d
    let st := if m * 2 ^ 160 % d = 0 then 0 else 1
    round fp32 0 (.num n (2 * q + st) (e - 161))
  | y => y

/-- The integer that a way of rounding gives for a finite value. -/
def toIntBy (rs : Bool → Nat → Nat → Nat) (x : Fv) : Int :=
  match x with
  | .num n m e =>
    let v := if 0 ≤ e then m * 2 ^ e.toNat else rs n m (-e).toNat
    if n then -(v : Int) else v
  | _ => 0

/-- The nearest integer in a mode of a finite value. -/
def toInt (mode : Nat) (x : Fv) : Int := toIntBy (roundShift mode) x

/-- A subnormal of a format, or zero, by magnitude bits: flushed to zero of its sign when `on` holds (R173, R282). -/
def flush (on : Bool) (f : Fmt) (b : Nat) : Nat :=
  if on ∧ b % 2 ^ (f.width - 1) < 2 ^ f.mb then b / 2 ^ (f.width - 1) * 2 ^ (f.width - 1) else b

end Fv

/-! ### Elements (R101) -/

/-- Bits of one element of a format; BX8 elements without their exponents. -/
def elemBits (fmt : Nat) : Nat :=
  if fmt = 3 then 4 else if fmt = 6 ∨ fmt = 7 then 16 else if fmt = 8 ∨ fmt = 0xA then 32 else 8

/-- An integer format. -/
def isIntFmt (fmt : Nat) : Bool := fmt = 1 || fmt = 2 || fmt = 3 || fmt = 0xA

/-- The floating-point format of a code. -/
def floatFmt (fmt : Nat) : Option Fmt :=
  match fmt with
  | 4 => some e4m3
  | 5 => some e5m2
  | 6 => some bf16
  | 7 => some fp16
  | 8 => some fp32
  | _ => none

/-- The integer that a code of an integer format stands for. -/
def intCode (fmt v : Nat) : Int := if fmt = 2 then (v % 256 : Nat) else signed (elemBits fmt) v

/-- Bytes of `n` elements packed together (R101): BX8 in groups of 33 bytes. -/
def packedBytes (fmt n : Nat) : Nat :=
    if fmt = 3 then (n + 1) / 2
    else if fmt = 9 then n / 32 * 33
    else n * elemBits fmt / 8

/-- The code of element `i` of packed bytes; little-endian (R98). -/
def elemCode (fmt : Nat) (l : List Byte) (i : Nat) : Nat :=
  if fmt = 3 then (l.getD (i / 2) 0).toNat / (if i % 2 = 0 then 1 else 16) % 16
  else if fmt = 9 then (l.getD (33 * (i / 32) + 1 + i % 32) 0).toNat
  else
    let w := elemBits fmt / 8
    leVal ((l.drop (i * w)).take w)

/-- The value of BX8 element q under exponent byte E (R174). -/
def bx8Value (e q : Nat) : Fv := if e = 255 then .nan else
  let v := signed 8 q
  .num (v < 0) v.natAbs ((e : Int) - 133)

/-- The real value of element `i` of packed bytes rounded to FP32 (R121): integer codes under a scale and a zero
point, BX8 under its exponent. -/
def elemReal (fmt scale : Nat) (zp : Int) (l : List Byte) (i : Nat) : Fv :=
  let c := elemCode fmt l i
  if isIntFmt fmt then ((Fv.decode fp32 scale).mul (Fv.ofInt (intCode fmt c - zp))).round fp32 0
  else if fmt = 9 then (bx8Value (l.getD (33 * (i / 32)) 0).toNat c).round fp32 0
  else
    match floatFmt fmt with
    | some f => (Fv.decode f c).round fp32 0
    | none => .nan

end Sys2Proof.Machine
end

