-- ==== Sys2Proof/Machine/Plan.lean ====
section
/-! DEFINITION. The check plan (R111 to R117, R126, R128), the samples a frame owes (R105), and the record rules of
authenticated evidence (R98 to R106). -/

namespace Sys2Proof.Machine

open Sys2Proof

namespace State

/-! ### Layers and tiles (R114, R115) -/

/-- A field of layer `i` of the layer table (R114). -/
def layerF (s : State) (pb i o n : Nat) : Nat := s.memVal (layerAt pb i + o) n

/-- Layer index of a layer identifier, 0 where none has it. -/
def layerIdx (s : State) (pb id : Nat) : Nat :=
  ((List.range (s.pLayers pb)).find? (fun i => s.layerF pb i 0 2 = id)).getD 0

/-- The root layer: the last layer of the last link (R115). -/
def rootLayer (s : State) (pb : Nat) : Nat := s.layerIdx pb (s.memVal (s.linkAt pb (s.pLinks pb - 1) + 2) 2)

/-- The last layer of link `i`, counted from 1, as an index. -/
def linkLayer (s : State) (pb i : Nat) : Nat := s.layerIdx pb (s.memVal (s.linkAt pb (i - 1) + 2) 2)

/-- Start c0, y0, x0 and extent tc, th, tw of a tile. -/
structure Box where
  c0 : Nat
  y0 : Nat
  x0 : Nat
  tc : Nat
  th : Nat
  tw : Nat
  deriving DecidableEq, Repr

/-- Elements of a tile. -/
def Box.size (b : Box) : Nat := b.tc * b.th * b.tw

/-- C, H, W of layer `i`, and the tile counts nc, nx, ny (R114, R115). -/
def layerDims (s : State) (pb i : Nat) : Nat × Nat × Nat := (s.layerF pb i 4 2, s.layerF pb i 6 2, s.layerF pb i 8 2)
def layerGrid (s : State) (pb i : Nat) : Nat × Nat × Nat :=
  let (c, h, w) := s.layerDims pb i
  let up (a b : Nat) : Nat := (a + b - 1) / max 1 b
  (up c (s.layerF pb i 10 2), up w (s.layerF pb i 14 2), up h (s.layerF pb i 12 2))

/-- T of layer `i`, and its tile `t` (R115). -/
def tileCount (s : State) (pb i : Nat) : Nat :=
  let (nc, nx, ny) := s.layerGrid pb i
  nc * nx * ny
def tileBox (s : State) (pb i t : Nat) : Box :=
  let (c, h, w) := s.layerDims pb i
  let (nc, nx, _) := s.layerGrid pb i
  let tc := s.layerF pb i 10 2
  let th := s.layerF pb i 12 2
  let tw := s.layerF pb i 14 2
  let c0 := t % max 1 nc * tc
  let x0 := t / max 1 nc % max 1 nx * tw
  let y0 := t / max 1 (nc * nx) * th
  ⟨c0, y0, x0, min tc (c - c0), min th (h - y0), min tw (w - x0)⟩

/-- Chain entry of root `root` at position `pos` from the last link (R117): its address and tile. -/
def chainEntry (s : State) (pb root pos : Nat) : Nat := s.chainAt pb (root * s.pLinks pb + pos)
def chainBox (s : State) (pb root pos : Nat) : Box :=
  let a := s.chainEntry pb root pos
  ⟨s.memVal a 2, s.memVal (a + 2) 2, s.memVal (a + 4) 2, s.memVal (a + 6) 2, s.memVal (a + 8) 2, s.memVal (a + 10) 2⟩

/-! ### Samples (R105) -/

/-- A sample a frame owes: its layer's index, its tile, and for a chain tile its root number, root and link. -/
structure Sample where
  layer : Nat
  box : Box
  chain : Option (Nat × Nat × Nat)
  deriving DecidableEq, Repr

/-- Word i of the selection stream (R105). -/
def selWord (pepper : List Byte) (n fid i : Nat) : Nat :=
  beVal (((Config.sha256 (pepper ++ beBytes 2 n ++ beBytes 4 fid ++ beBytes 4 (i / 8))).drop (4 * (i % 8))).take 4)

/-- The roots of a frame, one for each furrow (R105). -/
def rootsOf (s : State) (pb : Nat) (pepper : List Byte) (n fid : Nat) : List Nat :=
  (List.range (s.pF pb)).map (fun k => selWord pepper n fid k * s.pRoots pb / 2 ^ 32)

/-- The chain samples of root number `k`: last link first. -/
def chainSamples (s : State) (pb k root : Nat) : List Sample :=
  (List.range (s.pLinks pb)).map (fun pos =>
    ⟨s.linkLayer pb (s.pLinks pb - pos), s.chainBox pb root pos, some (k, root, s.pLinks pb - pos)⟩)

/-- The extra samples of layers from index `l` on, words from number `i` on. -/
def extraSamples (s : State) (pb : Nat) (pepper : List Byte) (n fid : Nat) : Nat → Nat → Nat → List Sample
  | 0, _, _ => []
  | k + 1, l, i =>
    let c := s.layerF pb l 22 1
    ((List.range c).map (fun t =>
      (⟨l, s.tileBox pb l (selWord pepper n fid (i + t) * s.tileCount pb l / 2 ^ 32), none⟩ : Sample)))
      ++ s.extraSamples pb pepper n fid k (l + 1) (i + c)

/-- Every sample of a frame, by sample index (R105). -/
def samplesOf (s : State) (pb : Nat) (pepper : List Byte) (n fid : Nat) : List Sample :=
  let roots := s.rootsOf pb pepper n fid
  ((List.range roots.length).flatMap (fun k => s.chainSamples pb k (roots.getD k 0)))
    ++ s.extraSamples pb pepper n fid (s.pLayers pb) 0 roots.length

/-- Memory as the plan of frame `f` reads it: the bytes the plan had at the frame's stamp (R118). -/
def under (s : State) (f : Frm) : State := s.putBytes f.plan f.planImg

/-- The samples of an undecided frame. -/
def frmSamples (s : State) (n : Nat) (f : Frm) : List Sample := (s.under f).samplesOf f.plan f.pepper n f.fid

/-! ### Records (R98) -/

/-- A record of a decrypted stream: type, source, identifier, offset of its payload in the stream, payload. -/
structure Rec where
  type : Nat
  src : Nat
  id : Nat
  off : Nat
  payload : List Byte
  deriving DecidableEq, Repr

/-- The complete records from the front of a stream, of which the first starts at offset `o`; and whether they use
it up exactly with no byte left. -/
def records : Nat → Nat → List Byte → List Rec × Bool
  | 0, _, l => ([], l.isEmpty)
  | k + 1, o, l =>
    if l.isEmpty then ([], true)
    else if l.length < 8 then ([], false)
    else
      let n := beVal ((l.drop 4).take 4)
      if l.length < 8 + n then ([], false)
      else
        let r : Rec := ⟨beVal (l.take 1), beVal ((l.drop 1).take 1), beVal ((l.drop 2).take 2), o + 8, (l.drop 8).take n⟩
        let (rs, ok) := records k (o + 8 + n) (l.drop (8 + n))
        (r :: rs, ok)

/-- The records of a stream. -/
def streamRecords (l : List Byte) : List Rec × Bool := records (l.length / 8 + 1) 0 l

/-- A big-endian field of a payload. -/
def fld (l : List Byte) (o n : Nat) : Nat := beVal ((l.drop o).take n)

/-- Bytes `o` to `o + n - 1` are zero. -/
def zeros (l : List Byte) (o n : Nat) : Bool := ((l.drop o).take n).all (· = 0)

/-- A payload of `n` bytes of fields is padded with zeros to the next multiple of 8 and no further (R98). -/
def padded (l : List Byte) (n : Nat) : Bool := l.length = roundUp n 8 && zeros l n (l.length - n)

/-- The descriptor of a TILE_SAMPLE or HEAD_MAP (R101). -/
structure TileDesc where
  j : Nat
  fmt : Nat
  box : Box
  scale : Nat
  zp : Nat
  deriving DecidableEq, Repr

/-- The descriptor in a payload. -/
def tileDesc (l : List Byte) : TileDesc :=
  ⟨fld l 0 2, fld l 2 1, ⟨fld l 4 2, fld l 6 2, fld l 8 2, fld l 10 2, fld l 12 2, fld l 14 2⟩, fld l 16 4, fld l 20 2⟩

/-- A tile payload keeps its layout (R101): reserved bytes zero, extents 1 to 4,096, at most 1 MiB, floating formats
with no quantization, a final odd nibble zero. -/
def tileLayout (l : List Byte) : Bool :=
  let d := tileDesc l
  let n := packedBytes d.fmt d.box.size
  let ext (x : Nat) : Bool := 1 ≤ x && x ≤ 4096
  24 ≤ l.length && zeros l 3 1 && zeros l 22 2 && 1 ≤ d.fmt && d.fmt ≤ 0xA && ext d.box.tc && ext d.box.th && ext d.box.tw
    && 24 + n ≤ 1048576 && padded l (24 + n) && (isIntFmt d.fmt || (d.scale = 0 && d.zp = 0))
    && (d.fmt ≠ 9 || d.box.tc % 32 = 0)
    && (d.fmt ≠ 3 || d.box.size % 2 = 0 || fld l (23 + n) 1 / 16 = 0)

/-- Bytes of a RESULT's items (R103): none for a schema that is reserved. -/
def itemBytes (l : List Byte) : Option Nat :=
  let schema := fld l 0 4
  let n := fld l 4 4
  if schema = 1 then some (24 * n)
  else if schema = 2 then some (8 + (fld l 16 2 * fld l 18 2 * fld l 20 1 + 7) / 8)
  else if schema = 3 then some (4 * n)
  else if 0x8000 ≤ schema ∧ schema ≤ 0xFFFF then some n
  else none

/-- A RESULT payload keeps its layout (R103). -/
def resultLayout (l : List Byte) : Bool :=
  let schema := fld l 0 4
  let n := fld l 4 4
  16 ≤ l.length && n ≤ 4096 && zeros l 8 8 &&
    match itemBytes l with
    | none => false
    | some k =>
      padded l (16 + k) &&
        (if schema = 1 then (List.range n).all (fun i => zeros l (16 + 24 * i + 13) 1 && zeros l (16 + 24 * i + 18) 6)
         else if schema = 2 then n = 1 && [1, 2, 4, 8].contains (fld l 20 1) && zeros l 21 3
         else true)

/-- A sequence of RESULT records of source 0, as an output of the fall-back graph or a decoder (R98, R138, R150). -/
def resultRecords (l : List Byte) : Option (List Rec) :=
  let (rs, ok) := streamRecords l
  if ok && !rs.isEmpty && rs.all (fun r => r.type = 5 && r.src = 0 && r.id = 0 && r.payload.length % 8 = 0
      && resultLayout r.payload) then some rs
  else none

/-! ### What the plan asks of a frame (R104, R106) -/

/-- The layers whose summary is due, by index. -/
def summaryLayers (s : State) (pb : Nat) : List Nat :=
  (List.range (s.pLayers pb)).filter (fun i => bitOf (s.layerF pb i 3 1) 0)

/-- The directory sources whose patch serves context `n`: source number and patch (R98, R128). -/
def frmSources (n : Nat) (f : Frm) : List (Nat × Patch) :=
  (((List.range f.patches.length).map (· + 1)).zip f.patches).filter (fun p => p.2.ctx = n)

/-- A seed entry's expected payloads: results, one for each head, then maps where they are due (R128). -/
def expectedOf (s : State) (pb entry : Nat) : List (List Byte) × List (List Byte) :=
  let a := s.seedAt pb entry
  let area := s.bytes (s.pExpected pb + s.memVal (a + 4) 4) (s.memVal (a + 8) 4)
  let rec results : Nat → List Byte → List (List Byte) × List Byte
    | 0, l => ([], l)
    | k + 1, l =>
      let n := roundUp (16 + (itemBytes l).getD 0) 8
      let (rs, rest) := results k (l.drop n)
      (l.take n :: rs, rest)
  let rec maps : Nat → List Byte → List (List Byte)
    | 0, _ => []
    | k + 1, l =>
      let d := tileDesc l
      let n := roundUp (24 + packedBytes d.fmt d.box.size) 8
      l.take n :: maps k (l.drop n)
  let (rs, rest) := results (s.pHeads pb) area
  (rs, if s.memVal (a + 14) 2 = 0xFFFF then [] else maps (s.pHeads pb) rest)

/-- The map of a head in its whole extent (R102, R126). -/
def headBox (s : State) (pb h : Nat) : Box :=
  let a := s.headAt pb h
  ⟨0, 0, 0, s.memVal (a + 4) 2, s.memVal (a + 6) 2, s.memVal (a + 8) 2⟩

/-- A HEAD_MAP payload is the whole output of head `h` (R102). -/
def headMapOk (s : State) (pb h : Nat) (r : Rec) : Bool :=
  let d := tileDesc r.payload
  r.id = s.memVal (s.headAt pb h) 2 && tileLayout r.payload && d.j = 0 && d.fmt = s.memVal (s.headAt pb h + 2) 1
    && d.box = s.headBox pb h

/-- A TILE_SAMPLE payload is sample `j` of the frame (R101, R105, R106). -/
def sampleOk (s : State) (pb j : Nat) (x : Sample) (r : Rec) : Bool :=
  let d := tileDesc r.payload
  let int := isIntFmt d.fmt
  r.src = 0 && r.id = s.layerF pb x.layer 0 2 && tileLayout r.payload && d.j = j && d.fmt = s.layerF pb x.layer 2 1
    && d.box = x.box && (!int || (d.scale = s.layerF pb x.layer 16 4 && d.zp = s.layerF pb x.layer 20 2))

/-- A LAYER_SUMMARY of layer index `i` (R100). -/
def summaryOk (s : State) (pb i : Nat) (r : Rec) : Bool :=
  r.type = 2 && r.src = 0 && r.id = s.layerF pb i 0 2 && r.payload.length = 40 && zeros r.payload 36 4

/-- The heads' maps owed: source 0 with every head, then the sources of seed patches whose map is due, ascending. -/
def mapsDue (s : State) (n : Nat) (f : Frm) : List (Nat × Nat) :=
  let u := s.under f
  let heads := List.range (u.pHeads f.plan)
  heads.map (fun h => (0, h))
    ++ ((frmSources n f).filter (fun p => u.memVal (u.seedAt f.plan p.2.entry + 14) 2 ≠ 0xFFFF)).flatMap
        (fun p => heads.map (fun h => (p.1, h)))

/-- Heads of the head table in ascending head identifier. -/
def headOrder (s : State) (pb : Nat) : List Nat :=
  (List.range (s.pHeads pb)).map (fun k =>
    (((List.range (s.pHeads pb)).find? (fun h =>
      ((List.range (s.pHeads pb)).filter (fun g => s.memVal (s.headAt pb g) 2 < s.memVal (s.headAt pb h) 2)).length = k)).getD k))

/-- The evidence stream's records follow R98 to R105 for the frame. -/
def evidenceOk (s : State) (n : Nat) (f : Frm) (rs : List Rec) : Bool :=
  let pb := f.plan
  let u := s.under f
  let sums := u.summaryLayers pb
  let sams := s.frmSamples n f
  let maps := (s.mapsDue n f).map (fun p => (p.1, (u.headOrder pb).getD p.2 0))
  let r0 := rs.drop 1
  let r1 := r0.drop sums.length
  let r2 := r1.drop sams.length
  match rs with
  | [] => false
  | hb :: _ =>
    hb.type = 1 && hb.src = 0 && hb.id = 0 && hb.payload.length = 32 && zeros hb.payload 22 10
      && rs.length = 1 + sums.length + sams.length + maps.length
      && (sums.zip r0).all (fun p => u.summaryOk pb p.1 p.2)
      && ((List.range sams.length).zip (sams.zip r1)).all (fun p => p.2.2.type = 3 && u.sampleOk pb p.1 p.2.1 p.2.2)
      && (maps.zip r2).all (fun p => p.2.type = 4 && p.2.src = p.1.1 && u.headMapOk pb p.1.2 p.2)

/-- The result stream's records follow R98, R103 and R104 for the frame: at least one of source 0, for each seed
patch of the context as many as the plan has heads, no other source, in ascending source. -/
def resultsOk (s : State) (n : Nat) (f : Frm) (rs : List Rec) : Bool :=
  let srcs := (frmSources n f).map (·.1)
  let zero := rs.takeWhile (fun r => r.src = 0)
  let tail := rs.drop zero.length
  let want := srcs.flatMap (fun k => List.replicate ((s.under f).pHeads f.plan) k)
  !zero.isEmpty && tail.map (·.src) = want
    && rs.all (fun r => r.type = 5 && r.id = 0 && r.payload.length % 8 = 0 && resultLayout r.payload)

end State

end Sys2Proof.Machine
end

