-- ==== Sys2Proof/Machine/Checks.lean ====
section
/-! DEFINITION. The checks: tolerances (R121 to R123), envelopes (R124, R125), the graphs a frame launches and the
comparison of what they leave (R119, R127, R131 to R134), seed patches (R130), and the fall-back graph (R138 to R140). -/

namespace Sys2Proof.Machine

open Sys2Proof

/-! ### Tolerances (R121 to R123) -/

/-- A tolerance record (R121). -/
structure Tol where
  a : Fv
  b : Fv
  lsb : Nat
  allow : Nat
  mode : Nat
  nanOk : Bool
  deriving DecidableEq, Repr

/-- The outcome of one comparison: it passed, and the number of failing elements, cells or objects where the spec
counts them. -/
structure Cmp where
  ok : Bool
  count : Option Nat
  deriving DecidableEq, Repr

/-- Mode 0 on one element (R121, R122). -/
def passReal (t : Tol) (x y : Fv) : Bool :=
  if x.isFinite && y.isFinite then
    let diff := ((x.add false y.neg).round fp64 0).abs
    let bound := (t.a.add false ((t.b.mul y.abs).round fp64 0)).round fp64 0
    Fv.le diff bound
  else if x = .nan && y = .nan then t.nanOk
  else x = y

/-- Tensors compared element by element in mode 0 or 1 (R121); lists of unequal length do not compare. -/
def cmpTensor (t : Tol) (x y : List (Int × Nat)) : Cmp :=
  if x.length ≠ y.length then ⟨false, none⟩
  else
    let bad := ((x.zip y).filter (fun p =>
      if t.mode = 1 then decide (t.lsb < (p.1.1 - p.2.1).natAbs)
      else !passReal t (Fv.decode fp32 p.1.2) (Fv.decode fp32 p.2.2))).length
    ⟨bad ≤ t.allow, some bad⟩

/-- An object of an object list (R103). -/
structure Obj where
  cls : Nat
  score : Nat
  x0 : Nat
  y0 : Nat
  x1 : Nat
  y1 : Nat
  zone : Nat
  deriving DecidableEq, Repr

/-- The objects of a RESULT payload of schema 1. -/
def objects (l : List Byte) : List Obj :=
  (List.range (State.fld l 4 4)).map (fun i =>
    let o := 16 + 24 * i
    ⟨State.fld l o 2, State.fld l (o + 2) 2, State.fld l (o + 4) 2, State.fld l (o + 6) 2, State.fld l (o + 8) 2,
      State.fld l (o + 10) 2, State.fld l (o + 12) 1⟩)

/-- Area of a box (R123). -/
def boxArea (x0 y0 x1 y1 : Nat) : Nat := (x1 - x0) * (y1 - y0)

/-- Intersection over union of two objects' boxes in FP64 (R123). -/
def iou (p q : Obj) : Fv :=
  if p.x0 = q.x0 ∧ p.y0 = q.y0 ∧ p.x1 = q.x1 ∧ p.y1 = q.y1 then Fv.ofInt 1
  else
    let a := boxArea p.x0 p.y0 p.x1 p.y1
    let b := boxArea q.x0 q.y0 q.x1 q.y1
    let i := boxArea (max p.x0 q.x0) (max p.y0 q.y0) (min p.x1 q.x1) (min p.y1 q.y1)
    if a = 0 ∨ b = 0 then Fv.zero false else Fv.ratio64 i (a + b - i)

/-- A list sorted by descending score, ties to the lower place. -/
def insertDesc {α : Type} (key : α → Nat) (x : α) : List α → List α
  | [] => [x]
  | y :: r => if key y ≤ key x then x :: y :: r else y :: insertDesc key x r
def byScore {α : Type} (key : α → Nat) (l : List α) : List α := l.foldr (insertDesc key) []

/-- The first element of a list with the highest key. -/
def bestBy {α : Type} (key : α → Fv) : List α → Option α
  | [] => none
  | x :: r =>
    match bestBy key r with
    | none => some x
    | some y => if Fv.lt (key x) (key y) then some y else some x

/-- Pairing of reference objects with claimed ones (R123, R157): `same` says which may pair and `stands` which pairs
stand; a claimed object whose pair does not stand stays free for later ones (log 154); the unpaired claimed objects, the number of unpaired reference ones, and the pairs' IoU. -/
def pairUp (same : Obj → Obj → Bool) (stands : Obj → Obj → Bool) : List Obj → List (Nat × Obj) → List (Nat × Obj) × Nat × List Fv
  | [], free => (free, 0, [])
  | r :: rest, free =>
    match bestBy (fun c => iou c.2 r) (free.filter (fun c => same c.2 r)) with
    | some c =>
      if stands c.2 r then
        let (u, k, ious) := pairUp same stands rest (free.filter (fun x => x.1 ≠ c.1))
        (u, k, iou c.2 r :: ious)
      else
        let (u, k, ious) := pairUp same stands rest free
        (u, k + 1, ious)
    | none =>
      let (u, k, ious) := pairUp same stands rest free
      (u, k + 1, ious)

/-- Mode 2: object lists (R123). -/
def cmpObjects (t : Tol) (x y : List Byte) : Cmp :=
  let stands (c r : Obj) : Bool :=
    Fv.le t.a (iou c r)
      && Fv.le (Fv.ratio64 (max c.score r.score - min c.score r.score) 65535) t.b
  let claimed := objects x
  let (u, k, _) := pairUp (fun c r => c.cls = r.cls) stands (byScore (·.score) (objects y)) ((List.range claimed.length).zip claimed)
  ⟨u.length + k ≤ t.lsb, some (u.length + k)⟩

/-- Cell `i` of a grid payload: `w` bits a cell, the least significant bits first (R103). -/
def gridCell (l : List Byte) (w i : Nat) : Nat :=
  (l.getD (24 + i * w / 8) 0).toNat / 2 ^ (i * w % 8) % 2 ^ w

/-- Mode 3: grids (R121). -/
def cmpGrid (t : Tol) (x y : List Byte) : Cmp :=
  let dims (l : List Byte) : Nat × Nat × Nat := (State.fld l 16 2, State.fld l 18 2, State.fld l 20 1)
  if dims x ≠ dims y then ⟨false, none⟩
  else
    let (w, h, b) := dims y
    let bad := ((List.range (w * h)).filter (fun i => gridCell x b i ≠ gridCell y b i)).length
    ⟨bad ≤ t.allow, some bad⟩

/-- Item `i` of a scalar vector payload (R103). -/
def scalarAt (l : List Byte) (i : Nat) : Fv := Fv.decode fp32 (State.fld l (16 + 4 * i) 4)

/-- Two RESULT payloads compared in modes 2 to 5 (R121). -/
def cmpResult (t : Tol) (x y : List Byte) : Cmp :=
  let schema (l : List Byte) : Nat := State.fld l 0 4
  let n (l : List Byte) : Nat := State.fld l 4 4
  if t.mode = 5 then ⟨x = y, none⟩
  else if schema x ≠ schema y then ⟨false, none⟩
  else if t.mode = 2 then cmpObjects t x y
  else if t.mode = 3 then cmpGrid t x y
  else if n x ≠ n y then ⟨false, none⟩
  else
    let bad := ((List.range (n y)).filter (fun i => !passReal t (scalarAt x i) (scalarAt y i))).length
    ⟨bad = 0, some bad⟩

/-- The elements of packed bytes: integer code and FP32 bits of the real value (R121). -/
def tileEls (fmt scale : Nat) (zp : Int) (l : List Byte) (n : Nat) : List (Int × Nat) :=
  (List.range n).map (fun i =>
    (if isIntFmt fmt then intCode fmt (elemCode fmt l i) else 0, Fv.encode fp32 0 false (elemReal fmt scale zp l i)))

/-- The elements of a TILE_SAMPLE or HEAD_MAP payload. -/
def recEls (r : State.Rec) : List (Int × Nat) :=
  let d := State.tileDesc r.payload
  tileEls d.fmt d.scale (signed 16 d.zp) (r.payload.drop 24) d.box.size

/-- Rows y0 to y0 + th − 1 and columns x0 to x0 + tw − 1 of a map of width `w` and `c` channels. -/
def cutEls (c w : Nat) (b : State.Box) (l : List (Int × Nat)) : List (Int × Nat) :=
  (List.range b.th).flatMap (fun y => (List.range b.tw).flatMap (fun x =>
    (List.range c).map (fun k => l.getD (((b.y0 + y) * w + b.x0 + x) * c + k) (0, 0))))

namespace State

/-- Tolerance record `i` of the plan (R121). -/
def tolOf (s : State) (pb i : Nat) : Tol :=
  let a := s.tolAt pb i
  ⟨Fv.decode fp32 (s.memVal a 4), Fv.decode fp32 (s.memVal (a + 4) 4), s.memVal (a + 8) 2, s.memVal (a + 10) 2,
    s.memVal (a + 12) 1, bitOf (s.memVal (a + 13) 1) 0⟩

/-! ### Failures -/

/-- A failed comparison recorded for a frame (R133); a count the spec does not give is a free value (log 2). -/
def failCheck (s : State) (n o kind id : Nat) (c : Cmp) : State :=
  if c.ok then s
  else
    let (v, s) := match c.count with
      | some v => (v, s)
      | none => s.draw 12
    s.modFrm n o (fun f => { f with fails := f.fails ++ [CheckFail.mk s.tick kind id v] })

/-- A check or program of a frame ends without a result through a fault of the ZW16 (R134, R148). -/
def ckInternal (s : State) (n o : Nat) : State :=
  let s := (s.addCause n o Cause.ckLate).count (F.CK_CTX_CNT2_internal n) F.CK_STATUS_sat
  (s.setF F.CK_STATUS_internal 1).raise { src := Src.CK_INTERNAL, detail := n, ctx := n, master := 0x492 }

/-! ### What a frame owes (R119, R127, R131) -/

/-- Bits of the CK_CTX_CFG_n that the frame is checked under. -/
def fShadow (f : Frm) : Bool := bitOf f.ckCfg 31
def fFurrow (f : Frm) : Bool := bitOf f.ckCfg 30
def fEnv (f : Frm) : Bool := bitOf f.ckCfg 29
def fHead (f : Frm) : Bool := bitOf f.ckCfg 28

/-- Samples that head graphs run on: root tiles and root-layer extra samples, with their sample index (R127). -/
def headSamples (s : State) (n : Nat) (f : Frm) : List (Nat × Sample) :=
  let l := s.frmSamples n f
  let u := s.under f
  ((List.range l.length).zip l).filter (fun p =>
    p.2.layer = u.rootLayer f.plan && (match p.2.chain with
      | some (_, _, i) => i = u.pLinks f.plan
      | none => true))

/-- The check graphs of a frame (R119, R127, R131). -/
def planFrame (s : State) (n : Nat) (f : Frm) : List Purpose :=
  if fShadow f then [.shadow]
  else
    let l := s.frmSamples n f
    let links := if fFurrow f then ((List.range l.length).zip l).filterMap (fun p =>
        match p.2.chain with
        | some (k, _, i) => some (Purpose.link k i p.1)
        | none => none) else []
    let heads := if fHead f then (List.range ((s.under f).pHeads f.plan)).flatMap (fun h =>
        (s.headSamples n f).map (fun p => Purpose.head h p.1)) else []
    links ++ heads

/-- Some head of the plan has a decoder and the head check is on (R127). -/
def hasDecoder (s : State) (f : Frm) : Bool :=
  let u := s.under f
  fHead f && (List.range (u.pHeads f.plan)).any (fun h => u.memVal (u.headAt f.plan h + 20) 4 ≠ 0)

/-- The graphs and the decoder entry a new frame owes are set down (R132). -/
def planChecks (s : State) (n o : Nat) : State :=
  match s.frm n o with
  | none => s
  | some f =>
    if noInput f || s.isSecondary || !f.ckEn then s
    else s.modFrm n o (fun g => { g with todo := s.planFrame n f, vp2Due := s.hasDecoder f })

/-! ### Launching (R132, R218) -/

/-- The slots of port `p`'s ring that have held a frame, newest first. -/
def slotsOf (s : State) (p : Nat) : List Slot := Table.get (fun _ => []) s.slots p

/-- The slot of port `p` that holds the frame of ordinal `o`. -/
def slotOf (s : State) (p o : Nat) : Option Slot := (s.slotsOf p).find? (fun x => x.ord = o)

/-- The member frame of port `p`, ready in its slot: the slot's address and length. -/
def memberSlot (s : State) (f : Frm) (p : Nat) : Option (Nat × Nat) :=
  ((f.members.find? (fun m => m.1 = p)).bind (fun m => s.slotOf p m.2)).bind (fun x =>
    if x.ready then some (x.addr, x.len) else none)

/-- Every member slot in ascending port order, when all are ready. -/
def memberSlots (s : State) (f : Frm) : Option (List (Nat × Nat)) :=
  let ports := (List.range 16).filter (bitOf f.ports)
  let l := ports.filterMap (s.memberSlot f)
  if l.length = ports.length then some l else none

/-- The evidence slot of a frame: its address (R92, R107). -/
def evSlotAddr (s : State) (n : Nat) (f : Frm) : Nat :=
  let e := s.accOf n
  s.dword (A.EV_EIN_RING_BASE e) + 1024 * s.f (F.EV_EIN_RING_slot_kib e) * f.evSlot.getD 0

/-- The records of the evidence stream decrypted so far. -/
def evRecs (f : Frm) : List Rec := (streamRecords f.evText).1

/-- The claimed TILE_SAMPLE with index `j`, once decrypted (R104). -/
def claimedSample (s : State) (f : Frm) (j : Nat) : Option Rec := (evRecs f)[1 + ((s.under f).summaryLayers f.plan).length + j]?

/-- The claimed sample `j`, if it is the sample the plan asks for. -/
def goodSample (s : State) (n : Nat) (f : Frm) (j : Nat) : Option Rec :=
  match s.claimedSample f j, (s.frmSamples n f)[j]? with
  | some r, some x => if r.type = 3 && (s.under f).sampleOk f.plan j x r then some r else none
  | _, _ => none

/-- A buffer of the ZW16's own in GDDR6 for a graph's output; its place is a free value (log 2). -/
def ownBuffer (s : State) : Nat × State :=
  let (k, s) := s.draw 26
  (0x10000000000 + 0x1000 * (k % 0x3E00000), s)

/-- A frame's verdict deadline as a time-base value. -/
def deadlineNs (f : Frm) : Nat := (f.stampNs + 4 * (f.vDl - f.stampTick)) % 2 ^ 64

/-- The address of the sample's element data in its evidence slot, and its bytes. -/
def sampleArg (s : State) (n : Nat) (f : Frm) (r : Rec) : Nat × Nat :=
  let d := tileDesc r.payload
  (s.evSlotAddr n f + 64 + r.off + 24, roundUp (packedBytes d.fmt d.box.size) 8)

/-- Graph reference, class and arguments of a check graph whose inputs are at hand (R218). -/
def checkArgs (s : State) (n : Nat) (f : Frm) (p : Purpose) : Option (Nat × Nat × List (Nat × Nat) × Nat) :=
  let pb := f.plan
  let u := s.under f
  match p with
  | .link _ i j =>
    match (s.frmSamples n f)[j]? with
    | none => none
    | some x =>
      let root := match x.chain with
        | some (_, r, _) => r
        | none => 0
      let entry := u.chainEntry pb root (u.pLinks pb - i)
      let input := if i = 1 then s.memberSlot f (u.memVal (entry + 12) 1)
        else (s.goodSample n f (j + 1)).map (s.sampleArg n f)
      let out := roundUp (packedBytes (u.layerF pb x.layer 2 1) x.box.size) 8
      input.map (fun a => (u.memVal (u.linkAt pb (i - 1) + 8) 4, 0, [a, (entry, 16)], out))
  | .head h j =>
    (s.goodSample n f j).map (fun r =>
      let d := tileDesc r.payload
      let a := s.sampleArg n f r
      let out := roundUp (packedBytes (u.memVal (u.headAt pb h + 2) 1) (u.memVal (u.headAt pb h + 4) 2 * d.box.th * d.box.tw)) 8
      (u.memVal (u.headAt pb h + 16) 4, 1, [a, (a.1 - 24, 24)], out))
  | .shadow =>
    (s.memberSlots f).map (fun l =>
      (u.pShadow pb, 2, l ++ List.replicate (26 - l.length) (0, 0), roundUp (40 * u.pLayers pb) 8))
  | .fallback => none

/-- The image that a graph reference named at the frame's stamp (R137). -/
def boundImage (f : Frm) (ref : Nat) : Option (Nat × Nat) :=
  (f.images.find? (fun x => x.1 = ref)).map (fun x => x.2)

/-- The check graphs of a frame whose inputs are at hand are launched (R132). -/
def launchFrm (s : State) (n o : Nat) : State :=
  match s.frm n o with
  | none => s
  | some f =>
    if noInput f || !s.judged n || s.isSecondary || f.ev == .failed then s
    else
      f.todo.foldl (fun s p =>
        match s.checkArgs n f p with
        | none => s
        | some (ref, cls, args, out) =>
          let (a, s) := s.ownBuffer
          let s := s.modFrm n o (fun f => { f with todo := f.todo.filter (· ≠ p), running := f.running ++ [p] })
          s.launchJob ⟨n, o, p⟩ (boundImage f ref) ref cls f.fid f.stampNs (deadlineNs f) (args ++ [(a, out)])) s

/-- Every frame of context `n` launches what it can. -/
def launchCtx (s : State) (n : Nat) : State := (s.frms n).foldl (fun s f => s.launchFrm n f.ord) s

/-! ### What a check graph left -/

/-- The tensor of the image at `im` that uses argument `k`, where there is one. -/
def argTensor (s : State) (im k : Nat) : Option Nat :=
  (List.range (s.gTensors im)).find? (fun i => s.tensF im i 2 1 = 0 && s.tensF im i 3 1 = k)

/-- The elements of a tile of a tensor at `base` (R210): each row along dimension 0 is packed. -/
def tensEls (s : State) (im tn base : Nat) (b : Box) : List (Int × Nat) :=
  let fmt := s.tensF im tn 0 1
  let d0 := (s.tensDims im tn).getD 0 1
  let st := s.tensStrides im tn
  (List.range b.th).flatMap (fun y => (List.range b.tw).flatMap (fun x =>
    let row := s.bytes (base + (b.y0 + y) * st.getD 1 0 + (b.x0 + x) * st.getD 0 0) (rowBytes fmt d0)
    ((tileEls fmt (s.tensF im tn 16 4) (signed 16 (s.tensF im tn 20 2)) row d0).drop b.c0).take b.tc))

/-- Output 0 of the highest-numbered node of a layer identifier (R218). -/
def layerTensor (s : State) (im id : Nat) : Option Nat :=
  (((List.range (s.gNodes im)).filter (fun k => s.nodeLayer im k = id)).getLast?).bind (fun k => (s.nodeOuts im k).head?)

/-- The values of an own summary at `a`: the three counts and the element count as codes, the rest as FP32 (R100). -/
def summaryEls (l : List Byte) : List (Int × Nat) :=
  [(leVal (l.take 8), 0), (0, leVal ((l.drop 8).take 4)), (0, leVal ((l.drop 12).take 4)), (0, leVal ((l.drop 16).take 4)),
    (0, leVal ((l.drop 20).take 4)), (leVal ((l.drop 24).take 4), 0), (leVal ((l.drop 28).take 4), 0),
    (leVal ((l.drop 32).take 4), 0)]

/-- What a check graph that ended with ST_OK left, read in the tick of its end (R218).  Under full shadow a head's tensor is
output 0 of the highest node whose layer identifier is the head's identifier (R131, log 152). -/
def readOuts (s : State) (n : Nat) (f : Frm) (p : Purpose) (l : Launch) (im arena : Nat) : List Out :=
  let pb := f.plan
  let u := s.under f
  match p with
  | .link _ _ j =>
    match (s.frmSamples n f)[j]? with
    | none => []
    | some x =>
      let fmt := u.layerF pb x.layer 2 1
      [⟨p, tileEls fmt (u.layerF pb x.layer 16 4) (signed 16 (u.layerF pb x.layer 20 2))
        (s.bytes (l.args.getD 2 (0, 0)).1 (packedBytes fmt x.box.size)) x.box.size⟩]
  | .head h j =>
    match (s.frmSamples n f)[j]? with
    | none => []
    | some x =>
      let fmt := u.memVal (u.headAt pb h + 2) 1
      let k := u.memVal (u.headAt pb h + 4) 2 * x.box.th * x.box.tw
      let (sc, zp) := match s.argTensor im 2 with
        | some tn => (s.tensF im tn 16 4, s.tensF im tn 20 2)
        | none => (0, 0)
      [⟨p, tileEls fmt sc (signed 16 zp) (s.bytes (l.args.getD 2 (0, 0)).1 (packedBytes fmt k)) k⟩]
  | .shadow =>
    let sums := (List.range (u.pLayers pb)).flatMap (fun i => summaryEls (s.bytes ((l.args.getD 26 (0, 0)).1 + 40 * i) 40))
    let sams := s.frmSamples n f
    let tiles := ((List.range sams.length).zip sams).filterMap (fun q =>
      (s.layerTensor im (u.layerF pb q.2.layer 0 2)).map (fun tn =>
        (⟨.link 0 0 q.1, s.tensEls im tn (s.tensBase im tn arena l.args) q.2.box⟩ : Out)))
    let heads := (List.range (u.pHeads pb)).filterMap (fun h =>
      (s.layerTensor im (u.memVal (u.headAt pb h) 2)).map (fun tn =>
        (⟨.head h 0, s.tensEls im tn (s.tensBase im tn arena l.args) (u.headBox pb h)⟩ : Out)))
    [⟨.shadow, sums⟩] ++ tiles ++ heads
  | .fallback => []

/-- The comparisons of full shadow that cannot be made, because the shadow graph has no node of the layer or head (R131,
R218): each ends without a result (log 126). -/
def shadowHoles (s : State) (n : Nat) (f : Frm) (im : Nat) : Nat :=
  let u := s.under f
  ((s.frmSamples n f).filter (fun x => (s.layerTensor im (u.layerF f.plan x.layer 0 2)).isNone)).length
    + (if fHead f then ((List.range (u.pHeads f.plan)).filter (fun h =>
        (s.layerTensor im (u.memVal (u.headAt f.plan h) 2)).isNone)).length else 0)

/-! ### Comparisons (R119, R127, R131) -/

/-- The LAYER_SUMMARY record of layer index `i`. -/
def summaryRec (s : State) (f : Frm) (i : Nat) : Option Rec :=
  (evRecs f).find? (fun r => r.type = 2 && r.id = (s.under f).layerF f.plan i 0 2)

/-- The claimed HEAD_MAP of source `src` for head `h`. -/
def claimedMap (s : State) (f : Frm) (src h : Nat) : Option Rec :=
  (evRecs f).find? (fun r => r.type = 4 && r.src = src && r.id = (s.under f).memVal ((s.under f).headAt f.plan h) 2)

/-- A claimed summary and an own one within the layer's shadow tolerance (R131); allow bounds the three counts and lets none of
the four real values break (log 153). -/
def cmpSummary (t : Tol) (x y : List (Int × Nat)) : Bool :=
  ((x.drop 1).take 4).length = 4 && (((x.drop 1).take 4).zip ((y.drop 1).take 4)).all (fun p =>
      passReal t (Fv.decode fp32 p.1.2) (Fv.decode fp32 p.2.2))
    && ((x.drop 5).zip (y.drop 5)).all (fun p => (p.1.1 - p.2.1).natAbs ≤ t.allow)

/-- The values of a claimed LAYER_SUMMARY, big-endian (R100). -/
def claimedSummary (l : List Byte) : List (Int × Nat) :=
  [(fld l 0 8, 0), (0, fld l 8 4), (0, fld l 12 4), (0, fld l 16 4), (0, fld l 20 4), (fld l 24 4, 0), (fld l 28 4, 0),
    (fld l 32 4, 0)]

/-- The summaries of full shadow compared, layer by layer (R131). -/
def cmpShadowSums (s : State) (n : Nat) (f : Frm) (els : List (Int × Nat)) : State :=
  let u := s.under f
  if !fEnv f then s
  else
    (u.summaryLayers f.plan).foldl (fun s i =>
      match s.summaryRec f i with
      | none => s
      | some r =>
        let t := u.tolOf f.plan (u.layerF f.plan i 26 2)
        s.failCheck n f.ord 2 r.id ⟨cmpSummary t (claimedSummary r.payload) ((els.drop (8 * i)).take 8), none⟩) s

/-- One held output compared with the claim, once the evidence is authentic (R119, R127, R131). -/
def compareOut (s : State) (n : Nat) (f : Frm) (x : Out) : State :=
  let pb := f.plan
  let u := s.under f
  match x.purpose with
  | .fallback => s
  | .shadow => s.cmpShadowSums n f x.els
  | .link _ i j =>
    match s.claimedSample f j, (s.frmSamples n f)[j]? with
    | some r, some y =>
      if fShadow f then
        s.failCheck n f.ord 1 r.id (cmpTensor (u.tolOf pb (u.layerF pb y.layer 26 2)) (recEls r) x.els)
      else
        let link := u.linkAt pb (i - 1)
        s.failCheck n f.ord 1 (u.memVal link 2) (cmpTensor (u.tolOf pb (u.memVal (link + 4) 2)) (recEls r) x.els)
    | _, _ => s
  | .head h j =>
    if !fHead f then s
    else
      match s.claimedMap f 0 h, (s.frmSamples n f)[j]? with
      | some r, y =>
        let t := u.tolOf pb (u.memVal (u.headAt pb h + 10) 2)
        let b := u.headBox pb h
        let claim := if fShadow f then recEls r
          else match y with
            | some y => cutEls b.tc b.tw y.box (recEls r)
            | none => []
        s.failCheck n f.ord 3 r.id (cmpTensor t claim x.els)
      | none, _ => s

/-- The decoder entry joins VP2's queue once the head graphs have ended and the tags have verified (R127, R142). -/
def queueDecoder (s : State) (n o : Nat) : State :=
  match s.frm n o with
  | none => s
  | some f =>
    let heads := (f.todo ++ f.running).any (fun p => match p with
      | .head _ _ => true
      | .shadow => true
      | _ => false)
    if f.vp2Due && !f.vp2Queued && f.ev == .authentic && !heads && s.judged n && !s.on F.VD_CTRL_sentinel then
      let s := s.withVp2 { s.vp2 with queue := s.vp2.queue ++ [VpEntry.mk n o true (s.trust n)] }
      (s.modFrm n o (fun f => { f with vp2Queued := true })).showVp
    else s

/-- Held outputs are compared as soon as both tags have verified. -/
def compareHeld (s : State) (n o : Nat) : State :=
  match s.frm n o with
  | none => s
  | some f =>
    if f.ev == .authentic then
      let s := f.outs.foldl (fun s x => s.compareOut n f x) s
      (s.modFrm n o (fun f => { f with outs := [] })).queueDecoder n o
    else s

/-! ### Agreement queueing (R141) -/

/-- No agreement program runs for a frame with these causes (R141). -/
def agBarred (c : Nat) : Bool :=
  bitOf c Cause.evMissing || bitOf c Cause.evAuth || bitOf c Cause.evFormat || bitOf c Cause.fwdFail || bitOf c Cause.accReset

/-- The agreement entry is queued, or its program counts as complete; one that a cause bars later leaves VP2 (R141). -/
def queueAgreement (s : State) (n o : Nat) : State :=
  match s.frm n o with
  | none => s
  | some f =>
    if f.ag == .complete || noInput f then s
    else if agBarred f.causes then (s.dropEntry n o false).modFrm n o (fun f => { f with ag := .complete })
    else if f.ag != .waiting then s
    else if f.fb == .missing || f.ev == .failed then s.modFrm n o (fun f => { f with ag := .complete })
    else if f.ev == .authentic && f.fb == .ready && s.judged n && !s.on F.VD_CTRL_sentinel then
      let s := s.withVp2 { s.vp2 with queue := s.vp2.queue ++ [VpEntry.mk n o false (s.trust n)] }
      (s.modFrm n o (fun f => { f with ag := .queued })).showVp
    else s

/-- The work of the undecided frames of context `n` that waits for the context to be judged goes on when it is admitted again
(R132, R141, R142). -/
def requeueOf (s : State) (n : Nat) : State :=
  if s.judged n then (s.frms n).foldl (fun s f => ((s.launchFrm n f.ord).queueDecoder n f.ord).queueAgreement n f.ord) s else s

/-- The records are written, and the contexts whose entries waited for that go on (R485, R490). -/
def recordsPut (s : State) : State :=
  (s.enabled.filter (fun n => (s.ctx n).waitAdmit != .none)).foldl requeueOf s.writeRecords

/-! ### Ends of jobs (R134, R140, R219) -/

/-- The publication limit of a context in bytes (R161). -/
def pubLimit (f : Frm) : Nat := bits f.agCfg 22 7 * 1408

/-- The fall-back graph of a frame has ended (R140). -/
def endFallback (s : State) (n : Nat) (f : Frm) (status : Nat) (l : Launch) : State :=
  let a := (l.args.getD 27 (0, 0)).1
  let len := s.memVal a 8
  let body := s.bytes (a + 8) (min len 90112)
  let good := status = 0 && len ≤ min 90112 (pubLimit f) && (resultRecords body).isSome
  let s := s.modFrm n f.ord (fun f =>
    if good then { f with fb := .ready, fbBytes := body } else { f with fb := .missing })
  s.queueAgreement n f.ord

/-- A check graph of a frame has ended: its output is held, or the check ends without a result (R134, R219). -/
def endCheck (s : State) (n : Nat) (f : Frm) (p : Purpose) (status : Nat) (l : Launch) (im arena : Nat) : State :=
  let s := s.modFrm n f.ord (fun f => { f with running := f.running.filter (· ≠ p) })
  let s := if status = 0 then
      let x := s.readOuts n f p l im arena
      let s := (List.range (if p = .shadow then s.shadowHoles n f im else 0)).foldl (fun s _ => s.ckInternal n f.ord) s
      s.modFrm n f.ord (fun f => { f with outs := f.outs ++ x })
    else s.ckInternal n f.ord
  (s.compareHeld n f.ord).queueDecoder n f.ord

/-- The jobs of the ZW16's own that have ended are taken (R134, R140, R218, R219). -/
def takeEnded (s : State) : State :=
  let l := s.gs.ended
  l.foldl (fun s e =>
    let (job, status, la, im, arena) := e
    match s.frm job.ctx job.ord with
    | none => s
    | some f =>
      match job.purpose with
      | .fallback => if f.fb == .running then s.endFallback job.ctx f status la else s
      | p => if f.running.contains p then s.endCheck job.ctx f p status la im arena else s)
    (s.withGs { s.gs with ended := [] })

/-! ### Envelopes (R124, R125) -/

/-- The finite elements of a sample outside [lo, hi] (R124). -/
def outside (lo hi : Fv) (els : List (Int × Nat)) : Nat :=
  (els.filter (fun p => (Fv.decode fp32 p.2).isFinite && !(Fv.le lo (Fv.decode fp32 p.2) && Fv.le (Fv.decode fp32 p.2) hi))).length

/-- The envelope record's tests that are enabled (R125). -/
def envelopeOk (s : State) (a : Nat) (x : List Byte) : Bool :=
  let lo (o : Nat) : Fv := Fv.decode fp32 (s.memVal (a + o) 4)
  let v (o : Nat) : Fv := Fv.decode fp32 (fld x o 4)
  let en := s.memVal (a + 30) 1
  let n := fld x 0 8
  (!bitOf en 0 || (Fv.le (lo 0) (v 8) && Fv.le (v 12) (lo 4)))
    && (!bitOf en 1 || (Fv.le (lo 8) (v 16) && Fv.le (v 16) (lo 12)))
    && (!bitOf en 2 || (Fv.le (lo 16) (v 20) && Fv.le (v 20) (lo 20)))
    && (!bitOf en 3 || fld x 24 4 * 65535 ≤ s.memVal (a + 24) 2 * n)
    && (!bitOf en 4 || fld x 28 4 * 65535 ≤ s.memVal (a + 26) 2 * n)
    && (!bitOf en 5 || fld x 32 4 ≤ s.memVal (a + 28) 2)

/-- The consistency tests of a summary against itself and its layer (R124). -/
def summarySound (s : State) (pb i : Nat) (x : List Byte) : Bool :=
  let (c, h, w) := s.layerDims pb i
  let n := fld x 0 8
  let v (o : Nat) : Fv := Fv.decode fp32 (fld x o 4)
  let mean := v 16
  n = c * h * w && fld x 24 4 ≤ n && fld x 28 4 ≤ n && fld x 32 4 ≤ n
    && (fld x 32 4 ≠ 0 || (Fv.le (v 8) mean && Fv.le mean (v 12)))
    && Fv.le ((mean.mul mean).mul (.num false (2 ^ 20 - 1) (-20))) (v 20)

/-- The envelope check of a frame (R124, R125). -/
def checkEnvelopes (s : State) (n : Nat) (f : Frm) : State :=
  if !fEnv f then s
  else
    let sams := s.frmSamples n f
    let u := s.under f
    (u.summaryLayers f.plan).foldl (fun s i =>
      match s.summaryRec f i with
      | none => s
      | some r =>
        let x := r.payload
        let ei := u.layerF f.plan i 24 2
        let ok := u.summarySound f.plan i x && (ei = 0xFFFF || u.envelopeOk (u.envAt f.plan ei) x)
        let s := s.failCheck n f.ord 2 r.id ⟨ok, none⟩
        let lo := Fv.decode fp32 (fld x 8 4)
        let hi := Fv.decode fp32 (fld x 12 4)
        ((List.range sams.length).zip sams).foldl (fun s p =>
          if p.2.layer = i then
            match s.claimedSample f p.1 with
            | none => s
            | some q =>
              let bad := outside lo hi (recEls q)
              s.failCheck n f.ord 2 r.id ⟨bad = 0, some bad⟩
          else s) s) s

/-! ### Seed patches (R130) -/

/-- The seed comparisons of a frame (R130): each directory source whose patch serves the context, but those skipped. -/
def checkSeeds (s : State) (n : Nat) (f : Frm) : State :=
  let results := (streamRecords f.resText).1
  let u := s.under f
  (frmSources n f).foldl (fun s p =>
    if p.2.skipped then s
    else
      let a := u.seedAt f.plan p.2.entry
      let (rs, ms) := u.expectedOf f.plan p.2.entry
      let mine := (results.filter (fun r => r.src = p.1)).map (·.payload)
      let rt := u.tolOf f.plan (u.memVal (a + 12) 2)
      let s := (mine.zip rs).foldl (fun s q => s.failCheck n f.ord 4 p.2.lib (cmpResult rt q.1 q.2)) s
      let mt := u.tolOf f.plan (u.memVal (a + 14) 2)
      ((List.range ms.length).zip ms).foldl (fun s q =>
        match s.claimedMap f p.1 q.1 with
        | none => s
        | some r => s.failCheck n f.ord 4 p.2.lib
            (cmpTensor mt (recEls r) (recEls ⟨4, p.1, r.id, 0, q.2⟩))) s) s

/-- The evidence of a frame has become authentic and kept its rules: the work on VP2 that needs no program, the
comparison of held outputs, and the queues (R97, R130, R132, R141). -/
def evidenceGood (s : State) (n o : Nat) : State :=
  match s.frm n o with
  | none => s
  | some f =>
    let s := if s.judged n && f.ckEn && !f.gone && !s.isSecondary then (s.checkEnvelopes n f).checkSeeds n f else s
    ((s.launchFrm n o).compareHeld n o).queueAgreement n o

/-- CK_CLR.all (R135). -/
def clearCk (s : State) : State :=
  let s := (List.range 1024).foldl (fun s n =>
    (((s.setWord (A.CK_CTX_CNT0 n) 0).setWord (A.CK_CTX_CNT1 n) 0).setWord (A.CK_CTX_CNT2 n) 0).setWord (A.CK_AG_CNT n) 0) s
  s.setWord A.CK_STATUS 0

/-! ### Checks that end without a result (R134) -/

/-- The check graphs of a frame that have not ended end without a result (R134). -/
def endChecks (s : State) (n : Nat) (f : Frm) : State :=
  let open_ := f.todo ++ f.running
  let s := s.stopJobs (fun j => j.ctx = n && j.ord = f.ord && j.purpose ≠ .fallback)
  let s := s.modFrm n f.ord (fun f => { f with todo := [], running := [] })
  (open_.foldl (fun s _ => s.ckInternal n f.ord) s).queueDecoder n f.ord

/-- The evidence of a frame is lost (R134, R383): beside its check graphs, the outputs held for comparison, the envelope check
and the seed comparisons still to be made, and the decoder entry end without a result, each counted (log 127). -/
def endEvidence (s : State) (n : Nat) (f : Frm) : State :=
  let due := f.ev != .authentic && f.ev != .failed && f.ckEn
  let k := if due then f.outs.length + bit (fEnv f) + ((frmSources n f).filter (fun p => !p.2.skipped)).length else 0
  let s := s.dropEntry n f.ord true
  let s := s.modFrm n f.ord (fun f => { f with outs := [], vp2Due := false, gone := true })
  let s := (List.range (k + bit f.vp2Due)).foldl (fun s _ => s.ckInternal n f.ord) s
  s.endChecks n f

/-- The plan of a new frame cannot be read (R134, R353, R386): part of it is lost, lies in a failed region, or in a channel that
serves nothing. -/
def planGone (s : State) (f : Frm) : Bool :=
  !f.planImg.isEmpty && (s.spanLost f.plan f.planImg.length || s.spanFallow f.plan f.planImg.length)

/-- The checks that a new frame owes end without a result where its plan cannot be read (R134). -/
def losePlan (s : State) (n o : Nat) : State :=
  match s.frm n o with
  | none => s
  | some f => if f.ckEn && !noInput f && !s.isSecondary && s.planGone f then s.endEvidence n f else s

end State

/-! ### Commands that admit a context (R28, R40, R141) -/

/-- ENABLE (R40). -/
def execEnable (t : Nat) (n : Fin 1024) (s : State) : Host.Outcome State Fault Refusal := done (((s.start t).vdEnable n).requeueOf n)

/-- READMIT (R40). -/
def execReadmit (t : Nat) (n : Fin 1024) (s : State) : Host.Outcome State Fault Refusal := done (((s.start t).vdReadmit n).requeueOf n)

/-- CLEAR_FALLOW (R39, R40). -/
def execClearFallow (t : Nat) (n : Fin 1024) (s : State) : Host.Outcome State Fault Refusal :=
  done (((s.start t).vdClearFallow n).requeueOf n)

/-- The readmit delay of context n has passed (R28): REJECTED, reaction complete, auto = 1. -/
def execReadmitDelayExpire (t : Nat) (n : Fin 1024) (s : State) : Host.Outcome State Fault Refusal :=
  let s := s.start t
  match (s.ctx n).reactDone with
  | some d =>
    if s.trust n = 4 ∧ s.on (F.VD_CTX_REACT_auto n)
        ∧ d + max 1 (State.ms (s.f (F.VD_CTX_REACT_readmit_ms n))) ≤ s.tick then done ((s.enterAdmitting n).requeueOf n)
    else done s
  | none => done s

/-! ### Clearing and launching -/

/-- CK_CLR (R135). -/
def execCkClr (t : Nat) (value : Word) (s : State) : Host.Outcome State Fault Refusal :=
  let s := s.start t
  done (if bitOf value.toNat 0 then s.clearCk else s)

/-- The fall-back graph of context n is launched for every frame whose group is complete and whose member slots are
ready (R139, R218). -/
def execFallbackGraphLaunch (t : Nat) (n : Fin 1024) (s : State) : Host.Outcome State Fault Refusal :=
  let s := s.start t
  let s := (s.frms n).foldl (fun s f =>
    match s.memberSlots f with
    | none => s
    | some l =>
      if f.fb == .waiting && f.groupDone && !State.noInput f && s.trust n ≠ 0 && !s.on F.VD_CTRL_sentinel then
        let (a, s) := s.ownBuffer
        let s := s.modFrm n f.ord (fun f => { f with fb := .running })
        s.launchJob ⟨n, f.ord, .fallback⟩ (State.boundImage f f.fbRef) f.fbRef 0 f.fid f.stampNs (State.deadlineNs f)
          (l ++ List.replicate (27 - l.length) (0, 0) ++ [(a, 90120)])
      else s) s
  done s.takeEnded

end Sys2Proof.Machine
end

