-- ==== Sys2Proof/Machine/FramePath.lean ====
section
/-! DEFINITION. The frame path: camera frames in, slots, groups, seed strips, forwarding, monitors (R49 to R85). -/

namespace Sys2Proof.Machine

open Sys2Proof

/-! ### Formats and numbers -/

/-- Bits per pixel of a camera image type, 0 for any other code (R49). -/
def pixelBits (dt : Nat) : Nat :=
  match dt with
  | 0x1E => 16
  | 0x24 => 24
  | 0x2A => 8
  | 0x2B => 10
  | 0x2C => 12
  | 0x2D => 14
  | 0x2E => 16
  | 0x2F => 20
  | _ => 0

/-- The frame ID of an ordinal (R55). -/
def frameId (o : Nat) : Nat := o % 4294901760 / 65535 * 65536 + o % 4294901760 % 65535 + 1

namespace State

/-! ### Ports -/

/-- Camera port `p`'s state beside its registers. -/
def cinP (s : State) (p : Nat) : CinPort := Table.get (fun _ => CinPort.reset) s.cin p

/-- The state with a camera port replaced; FP_CIN_STAT_p.open and lines follow (R85). -/
def setCin (s : State) (p : Nat) (x : CinPort) : State :=
  let s := s.flag (F.FP_CIN_STAT_open p) x.cur.isSome
  let s := match x.cur with
    | some f => s.setF (F.FP_CIN_STAT_lines p) f.lines
    | none => s
  (s.withCin (Table.put (fun _ => CinPort.reset) s.cin p x))

/-- The state with a camera port changed by `u`. -/
def modCin (s : State) (p : Nat) (u : CinPort → CinPort) : State := s.setCin p (u (s.cinP p))

/-- The open frame of a port changed by `u`. -/
def modCur (s : State) (p : Nat) (u : CinFrame → CinFrame) : State := s.modCin p (fun x => { x with cur := x.cur.map u })

/-- Settings that a port works under and a frame is handled under: image type, virtual channels, width, lines, line bytes,
stride, forwarding, mode, ring (R50, R51, R59, R66, R82). -/
def cinDt (x : CinSet) : Nat := bits x.cfg 20 6
def cinVc (x : CinSet) : Nat := bits x.cfg 16 4
def cinVcOut (x : CinSet) : Nat := bits x.cfg 8 4
def cinW (x : CinSet) : Nat := bits x.geom 16 15
def cinL (x : CinSet) : Nat := bits x.geom 0 15
def cinB (x : CinSet) : Nat := cinW x * pixelBits (cinDt x) / 8
def cinStride (x : CinSet) : Nat := roundUp (cinB x) 64
def cinFwdEn (x : CinSet) : Bool := bitOf x.cfg 15
def cinFwd (x : CinSet) : Nat := bits x.cfg 12 3
def cinMode1 (x : CinSet) : Bool := bitOf x.cfg 7
def cinSlots (x : CinSet) : Nat := bits x.ring 0 5
def cinSlotBytes (x : CinSet) : Nat := 1024 * bits x.ring 8 20

/-- The settings registers of a port. -/
def cinRegs (s : State) (p : Nat) : CinSet :=
  ⟨s.word (A.FP_CIN_CFG p), s.word (A.FP_CIN_GEOM p), s.word (A.FP_CIN_TIME p), s.word (A.FP_CIN_RING p), s.dword (A.FP_CIN_RING_BASE p)⟩

/-- The settings a port works under before its next Frame Start: those of its latest one or of its enabling, or before the first
commit the registers' own, which hold at once (R56, R82; log 64). -/
def portSet (s : State) (p : Nat) : CinSet := if s.committed then (s.cinP p).set else s.cinRegs p

/-- The port takes packets: the path and the port are enabled, or a frame is open or being discarded, which ends under the
settings it began with (R82); and the port is not fallow (R84). -/
def cinLive (s : State) (p : Nat) : Bool :=
  ((s.on F.FP_CTRL_en && s.on (F.FP_CIN_CFG_en p)) || (s.cinP p).cur.isSome || (s.cinP p).discard) && !s.isFallow 4 p
  && (Nat.ble 8 (s.f F.SYS_BOOT_stage) || s.on F.VD_CTRL_sentinel)

/-- The virtual channel of port `p`'s stream for a packet inside a frame (R50, R82). -/
def streamVc (s : State) (p : Nat) : Nat := cinVc (((s.cinP p).cur.map (·.set)).getD (s.portSet p))

/-- Sentinel service (R83). -/
def sentinel (s : State) : Bool := s.on F.VD_CTRL_sentinel

/-- The transmit ports stand in the stop state: sentinel service without pass-through (R83). -/
def stopState (s : State) : Bool := s.sentinel && !s.on F.FP_CTRL_pass

/-- Enabled contexts anchored on port `p`, and those that have it among their members (R64). -/
def anchored (s : State) (p : Nat) : List Nat := s.enabled.filter (fun n => s.f (F.VD_CTX_CFG_anchor n) = p)
def memberOf (s : State) (p : Nat) : List Nat := s.enabled.filter (fun n => bitOf (s.f (F.FP_CTXM_ports n)) p)

/-- The state with the slots of port `p` replaced. -/
def setSlots (s : State) (p : Nat) (l : List Slot) : State := s.withSlots (Table.put (fun _ => []) s.slots p l)

/-- A frame is stored in a slot of port `p`; what its bytes held before is gone. -/
def takeSlot (s : State) (p : Nat) (x : Slot) : State :=
  s.setSlots p (x :: (s.slotsOf p).filter (fun y => Nat.ble (x.addr + x.len) y.addr || Nat.ble (y.addr + y.len) x.addr))

/-- The slot of frame `o` of port `p` changed by `u`. -/
def modSlot (s : State) (p o : Nat) (u : Slot → Slot) : State :=
  s.setSlots p ((s.slotsOf p).map (fun x => if x.ord = o then u x else x))

/-- How far stamp `a` lies after stamp `b`, in ns; the time base wraps (R407). -/
def stampDiff (a b : Nat) : Int := signed 64 (a + 2 ^ 64 - b % 2 ^ 64)

/-- A stamp of a receive port: the tick's time less the latency compensation (R57). -/
def cinStamp (s : State) (p : Nat) : Nat := (s.time + 2 ^ 64 - s.f (F.TM_CSI_COMP_ns p)) % 2 ^ 64

/-- Context `n` has frame `o` of port `p`, stamped `t`, among the members of a frame it has still to decide, or may still take
it as one: its group is open, or its anchor frame can still come (R63, R64; log 100). -/
def needsFrame (s : State) (n p o t : Nat) : Bool :=
  let anchor := s.f (F.VD_CTX_CFG_anchor n)
  let near (a : Nat) (skew : Nat) : Bool := (stampDiff a t).natAbs ≤ 1000 * skew
  (s.frms n).any (fun f => f.members.contains (p, o)
      || (!f.groupDone && bitOf f.ports p && f.members.all (fun m => m.1 ≠ p) && near f.stampNs f.skew))
    || (anchor ≠ p && s.takesFrames n && bitOf (s.f (F.FP_CTXM_ports n)) p
      && stampDiff (s.cinStamp anchor) t ≤ 1000 * s.f (F.FP_CIN_TIME_skew anchor))

/-- The slot of `len` bytes at `a` of port `p`'s ring is held (R63): a context that has its frame as a member has not decided
it. -/
def slotHeld (s : State) (p a len : Nat) : Bool :=
  (s.slotsOf p).any (fun x => Nat.blt a (x.addr + x.len) && Nat.blt x.addr (a + len)
    && (s.enabled ++ s.ctxs.map (·.1)).any (fun n => s.needsFrame n p x.ord x.stampNs))

/-- The status of an accepted frame among the recent ones is marked (R64). -/
def markRecent (s : State) (p o m : Nat) : State :=
  s.modCin p (fun x => { x with recent := x.recent.map (fun r => if r.1 = o then (r.1, r.2.1, r.2.2.1 ||| m, r.2.2.2) else r) })

/-- Frames of contexts that have frame `o` of port `p` as a member: `k` on each. -/
def eachMember (s : State) (p o : Nat) (k : State → Nat → Nat → State) : State :=
  (s.ctxs.map (·.1)).foldl (fun s n =>
    (s.frms n).foldl (fun s f => if f.members.contains (p, o) then k s n f.ord else s) s) s

/-- A camera frame is lost to its contexts: NO_INPUT (R53, R63, R64). -/
def loseCam (s : State) (p o : Nat) : State := (s.markRecent p o 1).eachMember p o (fun s n k => s.loseFrame n k)

/-- A camera frame was not forwarded, or not to its end: FWD_FAIL for its contexts (R17, R69, R84, R479). -/
def failFwd (s : State) (p o : Nat) : State :=
  (s.markRecent p o 2).eachMember p o (fun s n k => (s.addCause n k Cause.fwdFail).queueAgreement n k)

/-! ### Transmit ports (R66, R67, R81) -/

/-- A packet leaves transmit port `w`: FWD0 to FWD7, then MON0 and MON1. -/
def sendPacket (s : State) (w vc dt num : Nat) (data : List Byte) : State := s.withTx (s.tx ++ [⟨w, vc, dt, num, data⟩])

/-- The Frame Start (`dt` 0) or the Frame End (`dt` 1) of a forwarded frame: on vc_out, with the low 16 bits of the frame ID
(R66, R67). -/
def sendMark (s : State) (f : CinFrame) (dt : Nat) : State :=
  s.sendPacket (cinFwd f.set) (cinVcOut f.set) dt (f.fid % 65536) []

/-- A long packet of a forwarded frame, counted (R66, R67, R297). -/
def sendLine (s : State) (f : CinFrame) (dt : Nat) (data : List Byte) : State :=
  (s.sendPacket (cinFwd f.set) (cinVcOut f.set) dt 0 data).ctAdd (0x4C + cinFwd f.set) data.length

/-- The monitors that send a frame of port `p` send a mark or, with `data`, a long packet (R81); in sentinel service they stand
in the stop state (R83). -/
def sendMons (s : State) (p : Nat) (f : CinFrame) (dt : Nat) (data : List Byte) : State :=
  ([0, 1].filter (fun m => bitOf f.mons m && !s.sentinel)).foldl (fun s m =>
    (s.sendPacket (8 + m) p dt (if data.isEmpty then f.fid % 65536 else 0) data).ctAdd (0x54 + m) data.length) s

/-! ### Frame ends -/

/-- Status bits of a slot header (R60). -/
def slotStatus (s : State) (f : CinFrame) : Nat :=
  1 + 2 * bit (f.damaged || f.postedBad || f.stuck) + 4 * bit f.stuck + 8 * bit f.fwdFail + 16 * bit s.sentinel

/-- The frame has been received and leaves the open place; what remains of it goes on (R61, R67), and the monitors end it
(R81). -/
def closeCam (s : State) (p : Nat) : State :=
  match (s.cinP p).cur with
  | none => s
  | some f => (s.modCin p (fun x => { x with cur := none, closing := x.closing ++ [f] })).sendMons p f 1 []

/-- The port has gone fallow: a frame open on it ends as damaged (R84). -/
def cinFallen (s : State) (p : Nat) : State :=
  match (s.cinP p).cur with
  | none => s
  | some f =>
    let s := s.modCur p (fun f => { f with damaged := true })
    let s := if f.damaged then s
      else s.raise { src := Src.FP_CIN_DAMAGE p, inst := p, detail := p, master := 0x490 }
    (s.loseCam p f.ord).closeCam p

/-- The open frame is damaged (R53): raised and charged once; an injected error is no retry event (R356). -/
def damageCamBy (s : State) (p : Nat) (injected : Bool) : State :=
  match (s.cinP p).cur with
  | none => s
  | some f =>
    if f.damaged then s
    else
      let s := s.modCur p (fun f => { f with damaged := true })
      let s := s.raise { src := Src.FP_CIN_DAMAGE p, inst := p, detail := p, master := 0x490, injected := injected }
      let s := s.loseCam p f.ord
      let s := if injected then s else s.retryEvent 4 p
      if s.isFallow 4 p then s.cinFallen p else s

/-- The open frame is damaged by an error of its own. -/
def damageCam (s : State) (p : Nat) : State := s.damageCamBy p false

/-- A posted write of the frame's lines failed (R53, R394). -/
def postedBadCam (s : State) (p o : Nat) : State :=
  let mark (f : CinFrame) : CinFrame := if f.ord = o then { f with postedBad := true } else f
  (s.modCin p (fun x => { x with cur := x.cur.map mark, closing := x.closing.map mark })).loseCam p o

/-- The frame is stuck (R58). -/
def stuckCam (s : State) (p : Nat) (f : CinFrame) : State :=
  let s := s.modCur p (fun f => { f with stuck := true })
  let s := s.raise { src := Src.FP_STUCK p, inst := p, detail := p, master := 0x490 }
  let s := ((s.count (F.FP_CIN_ERR2_stuck p) F.FP_STATUS_sat).setF (F.FP_CIN_STAT_stuck p) 1).loseCam p f.ord
  s.retryEvent 4 p

/-- The identical run and the stuck test at the end of an undamaged frame (R58). -/
def stuckTest (s : State) (p : Nat) (f : CinFrame) : State :=
  let crc := f.crc ^^^ 0xFFFFFFFF
  let x := s.cinP p
  let run := if x.prevCrc = some crc then x.run + 1 else 0
  let k := bits f.set.time 0 4
  let s := s.modCin p (fun x => { x with prevCrc := some crc, run := run })
  if k ≠ 0 ∧ k ≤ run then s.stuckCam p f
  else if run = 0 then s.setF (F.FP_CIN_STAT_stuck p) 0
  else s

/-! ### Header checks (R52) -/

/-- The header check of a packet on port `p`: counted, a corrected one not where the packet belongs to a frame that is
discarded without further count; the flag says whether the packet is to be taken.  An uncorrectable header names no stream, so
it is counted in either case; an injection of class 6 makes a header one (R355). -/
def cinHeader (s : State) (p : Nat) (quiet : Bool) (ecc : Ecc) : State × Bool :=
  let (hit, s) := s.injCheck 6 p
  match (if hit then .bad else ecc) with
  | .good => (s, true)
  | .corrected => (if quiet then s else s.count (F.FP_CIN_ERR0_ecc1 p) F.FP_STATUS_sat, true)
  | .bad => ((s.count (F.FP_CIN_ERR0_hdr p) F.FP_STATUS_sat).damageCamBy p hit, false)

/-- The evidence port takes packets (R86, R109): intake and port enabled, not fallow, not in sentinel service. -/
def einLive (s : State) (e : Nat) : Bool :=
  s.on F.EV_CTRL_en && s.on (F.EV_EIN_CFG_en e) && !s.isFallow 5 e && !s.sentinel && !s.isSecondary
    && Nat.ble 8 (s.f F.SYS_BOOT_stage)

/-- The header check of a packet on evidence port `e` (R88, R355); a corrected header is not counted where the packet belongs
to a frame that is discarded without further count (R91). -/
def einHeader (s : State) (e : Nat) (quiet : Bool) (ecc : Ecc) : State × Bool :=
  let (hit, s) := s.injCheck 6 (16 + e)
  match (if hit then .bad else ecc) with
  | .good => (s, true)
  | .corrected => (if quiet then s else s.count (F.EV_EIN_ERR0_ecc1 e) F.EV_STATUS_sat, true)
  | .bad => (s.count (F.EV_EIN_ERR0_hdr e) F.EV_STATUS_sat, false)

/-- The footer check of a packet of the open frame on port `p` (R52), failed by its own CRC-16 or by an injection of class 7
(R355): a failed one is counted and damages the frame; the flag says whether the packet stands. -/
def cinFooter (s : State) (p : Nat) (crcOk : Bool) : State × Bool :=
  let (hit, s) := s.injCheck 7 p
  if crcOk && !hit then (s, true) else ((s.count (F.FP_CIN_ERR1_crc p) F.FP_STATUS_sat).damageCamBy p hit, false)

/-! ### Wraps (R75, R473) -/

/-- The verdict epoch rises by one; a verdict decided in this tick keeps the old value (R472). -/
def bumpVerdict (s : State) : State :=
  let e := s.f F.SEC_VEPOCH_epoch
  let s := s.withSec { s.sec with vepTick := s.tick + 1, vepOld := s.verdictEpoch }
  s.setF F.SEC_VEPOCH_epoch (e + 1)

/-- Contexts in the forwarding mask of port `p` (R74). -/
def maskOf (s : State) (p : Nat) : List Nat :=
  if cinFwdEn (s.cinP p).set then
    (s.memberOf p).filter (fun n => s.trust n ≠ 0 && s.accOf n = s.f (F.FP_FWD_CFG_acc (cinFwd (s.cinP p).set)))
  else []

/-- A frame ID of port `p` has been issued or spent: FP_CIN_FN_p, and what the end of the numbers asks (R75, R473).  A context
anchored on the port that is OFF takes no epoch change: its next entry to ADMITTING starts its epoch at 0 (R96, R470; log
129). -/
def issueId (s : State) (p o : Nat) : State :=
  let id := frameId o
  let s := s.setWord (A.FP_CIN_FN p) id
  if id = 0xFFFF0001 then
    ((s.enabled.filter (fun n => (s.maskOf p).contains n || ((s.anchored p).contains n && s.trust n ≠ 0)))).foldl (fun s n =>
      let (s, refused) := s.requestEpoch n
      if refused then s.renewAdmit n else s) s
  else if id = 1 ∧ 0 < o then
    let s := s.count F.SEC_KSTAT_vwrap F.SEC_STATUS_sat
    if s.f F.SEC_VEPOCH_epoch < 0xFFFF then s.bumpVerdict
    else (s.anchored p).foldl (fun s n => s.renewAdmit n) s
  else s

/-- In sentinel service every frame ID issued or spent on an anchor port gives one verdict of kind NONE with the sentinel
flag (R334), at once unless an older frame of the context is still undecided, which goes before it (R26, log 166); its causes are not
stated: a free value (log 2). -/
def sentinelVerdicts (s : State) (p o stampNs : Nat) : State :=
  if !s.on F.VD_CTRL_en || !s.leads then s
  else
    (s.anchored p).foldl (fun s n =>
      if !(s.frms n).isEmpty && s.takesFrames n then s.gapFrame false n (frameKey p o) (frameId o) stampNs
      else
      let (causes, s) := s.draw 16
      let s := s.setF (F.VD_CTX_STATE_kind n) 2
      s.publish { ctx := n, kind := 2, fid := frameId o, causes := causes, state := s.trust n, stampNs := stampNs,
                  timeNs := s.time, admitCtr := s.word (A.VD_ADMIT n), epoch := s.verdictEpoch, detail := 0, margin := 0,
                  result := [] }) s

/-- A frame ID is spent without a frame (R55, R56). -/
def spendId (s : State) (p o stampNs : Nat) : State :=
  let s := s.issueId p o
  if s.sentinel then s.sentinelVerdicts p o stampNs
  else (s.anchored p).foldl (fun s n => s.gapFrame false n (frameKey p o) (frameId o) stampNs) s

/-! ### Seed strips (R71 to R80) -/

/-- `k` distinct entries below `m` drawn uniformly (R129): free values. -/
def drawSeeds (s : State) (m : Nat) : Nat → List Nat → List Nat × State
  | 0, got => (got, s)
  | k + 1, got =>
    let rest := (List.range m).filter (fun i => !got.contains i)
    if rest.isEmpty then (got, s)
    else
      let (v, s) := s.draw 32
      let s := s.withSec { s.sec with requests := s.sec.requests + 1 }
      s.drawSeeds m k (got ++ [rest.getD (v % rest.length) 0])

/-- The patches drawn for context `n` at its anchor Frame Start (R129). -/
def seedDraw (s : State) (n : Nat) : List Patch × State :=
  if s.drbgStopped || !s.takesFrames n || s.sentinel then ([], s)
  else
    let pb := s.dword (A.CK_CTX_PLAN_BASE n)
    let (l, s) := s.drawSeeds (s.pSeeds pb) (s.f (F.CK_CTX_CFG_seeds n)) []
    (l.map (fun e => (⟨n, e, s.memVal (s.seedAt pb e) 2, 0, 0, pb, s.memVal (pb + 60) 4, false⟩ : Patch)), s)

/-- The patches drawn at a Frame Start of port `p`, in order of context number (R78, R129). -/
def portDraw (s : State) (p : Nat) : List Patch × State :=
  (s.anchored p).foldl (fun (a : List Patch × State) n =>
    let (l, s) := a.2.seedDraw n
    (a.1 ++ l, s)) ([], s)

/-- The context of a patch has changed plan since the patch was drawn (R130). -/
def stalePatch (s : State) (x : Patch) : Bool :=
  x.plan ≠ s.dword (A.CK_CTX_PLAN_BASE x.ctx) || x.planCrc ≠ s.memVal (x.plan + 60) 4

/-- Address of entry `i` of the seed patch library at `base` (R79). -/
def libAt (base i : Nat) : Nat := base + 0x40000 * i

/-- A library entry can be placed on a stream of type `dt` with a patch area of `area` pixels (R78, R79); an entry is not valid
while a part of it waits for its regeneration (R80), or where a fallow channel holds a part of it (R353). -/
def patchGood (s : State) (dt area lib : Nat) : Bool :=
  let a := libAt (s.dword A.FP_PLIB_BASE) lib
  let e := s.memVal a 2
  lib < s.f F.FP_PLIB_CNT_count && bitOf (s.memVal (a + 3) 1) 0 && (Table.get (fun _ => []) s.plibBad lib).isEmpty
    && s.memVal (a + 2) 1 = dt && e * e ≤ area

/-- The patches placed, from pixel `pos` on; those deferred; and those that are bad (R78). -/
def placePatches (s : State) (dt area : Nat) : Nat → List Patch → List Patch → List Patch × List Patch × Nat
  | _, placed, [] => (placed, [], 0)
  | pos, placed, x :: r =>
    if !s.patchGood dt area x.lib then
      let (p, d, b) := s.placePatches dt area pos placed r
      (p, d, b + 1)
    else
      let e := s.memVal (libAt (s.dword A.FP_PLIB_BASE) x.lib) 2
      let start := roundUp pos 16
      if area < start + e * e ∨ 16 ≤ placed.length then (placed, x :: r, 0)
      else s.placePatches dt area (start + e * e) (placed ++ [{ x with edge := e, start := start }]) r

/-- The tag line of a forwarded frame (R73 to R76). -/
def tagBytes (s : State) (p fid stampNs : Nat) (pepper : List Byte) (dir : List Patch) (pass : Bool) : List Byte :=
  let mask := s.maskOf p
  let key := mask.foldl min 1024
  let tagged := Nat.blt key 1024 && !s.isSecondary
  let ctx := if tagged then key else 0
  let epoch := if tagged then s.f (F.EV_CTX_KEY_epoch key) else 0
  let maskBytes := (List.range 128).map (fun b =>
    BitVec.ofNat 8 ((List.range 8).foldl (fun v k => v + bit (mask.contains (8 * b + k)) * 2 ^ k) 0))
  let entry (x : Patch) : List Byte := beBytes 2 x.lib ++ beBytes 2 x.edge ++ beBytes 4 x.start ++ beBytes 2 x.ctx ++ beBytes 2 0
  let body := beBytes 1 1 ++ beBytes 1 p ++ beBytes 2 epoch ++ beBytes 2 ctx ++ beBytes 1 dir.length
    ++ beBytes 1 (bit (!tagged) + 2 * bit pass) ++ beBytes 4 fid ++ beBytes 8 stampNs ++ pepper ++ maskBytes
    ++ dir.flatMap entry ++ List.replicate (12 * (16 - dir.length)) 0 ++ List.replicate 140 0
  let iv := beBytes 1 0x54 ++ beBytes 1 0x47 ++ beBytes 2 epoch ++ beBytes 1 0 ++ beBytes 1 p ++ beBytes 2 0 ++ beBytes 4 fid
  body ++ (if tagged then Config.gcmTag (s.jobKey key (s.word (A.VD_ADMIT key)) epoch) iv body [] else List.replicate 16 0)

/-- The seed strip of the open frame of port `p` (R73, R78, R130); with strip = 0 there is no patch area, and every patch is
dropped without count (log 151): `drawn` follows the patches deferred from the frame before;
those placed whose context has changed plan are not compared, and counted. -/
def placeStrip (s : State) (p : Nat) (f : CinFrame) (drawn : List Patch) : List Patch × State :=
  let w := cinFwd f.set
  let area := cinW f.set * (f.strip - 1)
  let (dir, late, bad) := if f.strip = 0 then ([], [], 0) else s.placePatches (cinDt f.set) area 0 [] ((s.cinP p).deferred ++ drawn)
  let s := s.countBy (F.FP_FWD_PDEF_def w) F.FP_STATUS_sat late.length
  let s := s.countBy (F.FP_FWD_PDEF_bad w) F.FP_STATUS_sat bad
  let stale := dir.filter s.stalePatch
  let s := stale.foldl (fun s x => s.count (F.CK_CTX_CNT2_skip x.ctx) F.CK_STATUS_sat) s
  (dir.map (fun x => { x with skipped := s.stalePatch x }), s.modCin p (fun x => { x with deferred := late }))

/-- The open frame of port `p` is forwarded: its Frame Start and its tag line leave (R66, R67, R70, R78, R83, R84, R479).  In
sentinel service the Frame Start carries the frame ID's low bits as in R67 (log 130). -/
def startForward (s : State) (p : Nat) (drawn : List Patch) : State :=
  match (s.cinP p).cur with
  | none => s
  | some f =>
    let w := cinFwd f.set
    if !cinFwdEn f.set then s
    else if s.sentinel then
      if s.on F.FP_CTRL_pass && s.on (F.FP_FWD_CFG_en w) && !s.isFallow 6 w then
        (s.modCur p (fun f => { f with fwd := .sending })).sendMark f 0
      else s
    else if s.isFallow 6 w || s.drbgStopped then (s.modCur p (fun f => { f with fwdFail := true })).failFwd p f.ord
    else
      let (dir, s) := s.placeStrip p f drawn
      let tag := if f.strip = 0 then [] else s.tagBytes p f.fid f.stampNs f.pepper dir false
      let s := s.sendMark f 0
      let s := if f.strip = 0 then s else s.sendLine f 0x12 tag
      let s := s.modCur p (fun f => { f with fwd := .sending, tagLine := tag, patches := dir })
      (s.anchored p).foldl (fun s n => s.modFrm n (frameKey p f.ord) (fun g => { g with patches := dir })) s

/-- The monitors that send CIN `p` start the open frame: Frame Start, and the stamp-bearing tag line where they send it (R81,
R83); a frame that is not forwarded has a tag line with no patch. -/
def startMons (s : State) (p : Nat) : State :=
  match (s.cinP p).cur with
  | none => s
  | some f =>
    let mons := [0, 1].filter (fun m =>
      s.on (F.FP_MON_CFG_en m) && bitOf (s.f (F.FP_MON_CFG_src m)) p && !s.sentinel)
    let g : CinFrame := { f with mons := mons.foldl (fun v m => v + 2 ^ m) 0 }
    let tag := if f.tagLine.isEmpty then s.tagBytes p f.fid f.stampNs f.pepper [] false else f.tagLine
    let s := (s.modCur p (fun f => { f with mons := g.mons })).sendMons p g 0 []
    s.sendMons p { g with mons := (mons.filter (fun m => s.on (F.FP_MON_CFG_tag m))).foldl (fun v m => v + 2 ^ m) 0 } 0x12 tag

/-- Patches of a frame that will not be compared: skipped under R80, or the frame was abandoned; counted (R130). -/
def skipPatches (s : State) (p o : Nat) (sel : Patch → Bool) : State :=
  (s.ctxs.map (·.1)).foldl (fun s n =>
    match s.frm n (frameKey p o) with
    | none => s
    | some g =>
      let s := (g.patches.filter (fun x => x.ctx = n && sel x && !x.skipped)).foldl (fun s _ =>
        s.count (F.CK_CTX_CNT2_skip n) F.CK_STATUS_sat) s
      s.modFrm n (frameKey p o) (fun g =>
        { g with patches := g.patches.map (fun x => if sel x then { x with skipped := true } else x) })) s

/-- A frame that could not be forwarded: where its slot header is written already, its forward-failed bit is set there
(R60, R69). -/
def markSlot (s : State) (p : Nat) (f : CinFrame) : State :=
  let a := f.set.base + cinSlotBytes f.set * f.slot.getD 0 + 34
  if f.ready && f.slot.isSome && (s.slotsOf p).any (fun x => x.ord = f.ord) then
    s.ownWrite a (0x438 + p / 2) [BitVec.ofNat 8 (s.memVal a 1 ||| 8)]
  else s

/-- A forwarded frame is abandoned (R69): its Frame End leaves at once, and its unsent lines do not. -/
def abandon (s : State) (p : Nat) (f : CinFrame) : State :=
  let w := cinFwd f.set
  let s := s.markSlot p f
  let mark (g : CinFrame) : CinFrame := if g.ord = f.ord then { g with fwd := .abandoned, buf := [], fwdFail := true } else g
  let s := s.modCin p (fun x => { x with cur := x.cur.map mark, closing := (x.closing.map mark).filter (fun g => !(g.ready && g.fwd != .sending)) })
  let s := (s.sendMark f 1).count (F.FP_FWD_STAT_fail w) F.FP_STATUS_sat
  let s := s.raise { src := Src.FP_FWD_FAIL w, inst := w, detail := w, master := 0x490 }
  (s.failFwd p f.ord).skipPatches p f.ord (fun _ => true)

/-! ### Frame IDs of a pair (R445) -/

/-- Every ordinal of port `p` held anywhere moves by `d` (R445), in the keys of the frames anchored there too. -/
def shiftOrds (s : State) (p : Nat) (d : Int) : State :=
  let sh (o : Nat) : Nat := ((o : Int) + d).toNat
  let shk (k : Nat) : Nat := if k % 16 = p then frameKey p (sh (k / 16)) else k
  let cf (f : CinFrame) : CinFrame := { f with ord := sh f.ord, fid := frameId (sh f.ord) }
  let job (j : Job) : Job := { j with ord := shk j.ord }
  let la (l : Launch) : Launch := { l with job := l.job.map job }
  let frm (f : Frm) : Frm :=
    let f := { f with members := f.members.map (fun m => if m.1 = p then (p, sh m.2) else m) }
    if f.ord % 16 = p then { f with ord := shk f.ord, fid := frameId (sh (f.ord / 16)) } else f
  let old (c : Ctx) : OldKey := match c.old with
    | .grace a e f0 => .grace a e (shk f0)
    | k => k
  let ctx (c : Ctx) : Ctx := { c with
    frames := c.frames.map frm
    old := old c
    taken := c.taken.map (fun q => if q.1 = p then (p, q.2.map (fun r => (sh r.1, sh r.2))) else q) }
  let ve (e : VpEntry) : VpEntry := { e with ord := shk e.ord }
  let ev (x : Nat × Nat) : Nat × Nat := (x.1, shk x.2)
  let s := s.modCin p (fun x => { x with
    a := x.a + d, t := x.t + d, cur := x.cur.map cf, closing := x.closing.map cf,
    recent := x.recent.map (fun r => (sh r.1, r.2)) })
  let s := s.setWord (A.FP_CIN_FN p) (frameId (s.cinP p).t.toNat)
  let s := s.withCtxs (s.ctxs.map (fun q => (q.1, ctx q.2)))
  let s := s.withSlots (s.slots.map (fun q => if q.1 = p then (q.1, q.2.map (fun (x : Slot) => { x with ord := sh x.ord })) else q))
  let s := s.withEvSlots (s.evSlots.map (fun q => (q.1, q.2.map ev)))
  let s := s.withEvOpen (s.evOpen.map (fun q => (q.1, q.2.map (fun (x : EvFrame) => { x with owner := x.owner.map ev }))))
  let s := s.withVp2 { s.vp2 with
    queue := s.vp2.queue.map ve
    run := s.vp2.run.map (fun (r : VpRun) => { r with entry := ve r.entry }) }
  s.withGs { s.gs with
    intake := s.gs.intake.map (fun q => (q.1, q.2.map la))
    queues := s.gs.queues.map (fun q => (q.1, q.2.map la))
    insts := s.gs.insts.map (fun (i : Inst) => { i with l := la i.l })
    ended := s.gs.ended.map (fun (j, st, l, a, b) => (job j, st, la l, a, b)) }

/-- The distance of two stamps, modulo the time base's wrap. -/
def stampGap (a b : Nat) : Nat := (stampDiff a b).natAbs

/-- The own frame of ordinal `o` of port `p` takes the primary's frame ID (R445). -/
def takeFid (s : State) (p o fid : Nat) : State :=
  let mine := o / 4294901760 * 4294901760 + (fid / 65536 * 65535 + (fid % 65536 - 1))
  s.shiftOrds p ((mine : Int) - o)

/-- FRAME frames whose stamp lies more than 100 µs back: no own frame can match them any more, and each is counted (R445;
log 157). -/
def expireFrames (s : State) : State :=
  let gone := s.ml.frames.filter (fun x => decide (100000 < stampDiff s.time x.2.2))
  if gone.isEmpty then s
  else
    (gone.foldl (fun s _ => s.count F.ML_CNT1_align F.ML_STATUS_sat) s).withMl
      { s.ml with frames := s.ml.frames.filter (fun x => !gone.contains x) }

/-- A mirrored Frame Start (R445): the secondary's frame on that port whose stamp lies within 100 µs takes the primary's
frame ID; one stamped later may match still. -/
def alignFrame (s : State) (p fid stamp : Nat) : State :=
  if fid % 65536 = 0 then s.count F.ML_CNT1_align F.ML_STATUS_sat
  else
    match leastBy (fun r => [stampGap r.2.2.2 stamp]) ((s.cinP p).recent.filter (fun r => Nat.ble (stampGap r.2.2.2 stamp) 100000)) with
    | some r => s.takeFid p r.1 fid
    | none => (s.withMl { s.ml with frames := s.ml.frames ++ [(p, fid, stamp)] }).expireFrames

/-- The frame of ordinal `o` accepted on port `p` of a secondary takes the frame ID of a FRAME that came before it (R445). -/
def alignOwn (s : State) (p o stamp : Nat) : State :=
  let s := s.expireFrames
  match leastBy (fun x => [stampGap x.2.2 stamp]) (s.ml.frames.filter (fun x => x.1 = p && Nat.ble (stampGap x.2.2 stamp) 100000)) with
  | some x => if s.isSecondary then (s.withMl { s.ml with frames := s.ml.frames.filter (· ≠ x) }).takeFid p o x.2.1 else s
  | none => s

/-! ### Frame Start (R52, R55, R57, R63) -/

/-- The open frame at a Frame Start of the same stream: damaged, and ended (R52). -/
def cutCam (s : State) (p : Nat) : State :=
  match (s.cinP p).cur with
  | none => s
  | some _ => (((s.count (F.FP_CIN_ERR1_size p) F.FP_STATUS_sat).damageCam p)).closeCam p

/-- The next slot of port `p`'s ring (R63): its index and address. -/
def nextSlot (x : CinPort) : Nat × Nat :=
  let k := if x.next < cinSlots x.set then x.next else 0
  (k, x.set.base + cinSlotBytes x.set * k)

/-- A frame of ordinal `o` is accepted (R55): stored in the next slot, or dropped at a held slot (R63), which draws no pepper
(R72, log 150); the seed patches that
its contexts draw are lost with a frame that is not forwarded (R84, R129). -/
def acceptCam (s : State) (p o fn stampNs : Nat) : State :=
  let s := s.issueId p o
  let x := s.cinP p
  let s := s.modCin p (fun x => { x with a := o, t := o, lastfn := fn, fresh := false,
                                         recent := ((o, s.tick, 0, stampNs) :: x.recent).take 20 })
  let (k, a) := nextSlot x
  if !s.sentinel && s.slotHeld p a (cinSlotBytes x.set) then
    let s := (s.count (F.FP_CIN_ERR2_ring p) F.FP_STATUS_sat).raise { src := Src.FP_RING p, inst := p, detail := p, master := 0x490 }
    let s := (s.markRecent p o 1).modCin p (fun x => { x with discard := true })
    let s := if s.leads then s.mlSend (.frame p (frameId o) stampNs) else s
    let s := (s.portDraw p).2
    (s.anchored p).foldl (fun s n => s.gapFrame true n (frameKey p o) (frameId o) stampNs) s
  else
    let (pepper, s) := if s.drbgStopped then (List.replicate 16 0, s) else s.drbg 16
    let f : CinFrame := {
      set := x.set, strip := s.f (F.FP_FWD_CFG_strip (cinFwd x.set)), plib := s.dword A.FP_PLIB_BASE,
      ord := o, fid := frameId o, fn := fn, stampNs := stampNs, stampTick := s.tick, lines := 0, lineStarts := [],
      crc := 0xFFFFFFFF, damaged := false, postedBad := false, stuck := false, slot := if s.sentinel then none else some k,
      pepper := pepper, fwd := .none, sent := 0, buf := [], last := [], mons := 0, overrun := false, fwdFail := false,
      tagLine := [], patches := [], patchDone := false, ready := false }
    let s := if s.sentinel then s
      else (s.takeSlot p ⟨a, cinSlotBytes x.set, o, stampNs, false, false⟩).modCin p (fun x =>
        { x with next := (k + 1) % max 1 (cinSlots x.set) })
    let s := s.modCin p (fun x => { x with cur := some f, discard := false })
    let s := if s.sentinel then s.sentinelVerdicts p o stampNs else (s.anchored p).foldl (fun s n =>
      (s.openFrame n (frameKey p o) (frameId o) stampNs).modFrm n (frameKey p o) (fun g =>
        { g with members := [(p, o)], pepper := pepper })) s
    let s := if s.leads then s.mlSend (.frame p (frameId o) stampNs) else s
    let (drawn, s) := s.portDraw p
    let s := (s.startForward p drawn).startMons p
    (s.anchored p).foldl (fun s n => (s.planChecks n (frameKey p o)).losePlan n (frameKey p o)) s

/-- A late frame is dropped (R55): its frame ID was published by the last timeout.  Its Frame Start is an anchor Frame Start
all the same (R16, R95, R129). -/
def dropLate (s : State) (p : Nat) : State :=
  let s := (s.count (F.FP_CIN_ERR3_late p) F.FP_STATUS_sat).modCin p (fun x => { x with discard := true })
  let s := (s.anchored p).foldl (fun s n => if s.takesFrames n then s.anchorStart n (frameKey p ((s.cinP p).t + 1).toNat) else s) s
  (s.portDraw p).2

/-- The frame IDs between the last one issued and ordinal `o`, spent as gaps (R55). -/
def spendGaps (s : State) (p stampNs : Nat) : Nat → Nat → State
  | 0, _ => s
  | k + 1, o => ((s.spendId p o stampNs).count (F.FP_CIN_ERR2_gap p) F.FP_STATUS_sat).spendGaps p stampNs k (o + 1)

/-- A Frame Start's number is turned into an ordinal and the frame accepted or dropped (R55). -/
def numberCam (s : State) (p fn stampNs : Nat) : State :=
  let x := s.cinP p
  let next := (x.t + 1).toNat
  if cinMode1 x.set ∨ x.fresh then s.acceptCam p next fn stampNs
  else
    let d := ((fn : Int) - x.lastfn - 1) % 65535
    let o := x.a + d + 1
    if 15 < d ∨ o < x.t then (s.count (F.FP_CIN_ERR3_resync p) F.FP_STATUS_sat).acceptCam p next fn stampNs
    else if o = x.t then s.dropLate p
    else (s.spendGaps p stampNs (o - x.t - 1).toNat next).acceptCam p o.toNat fn stampNs

/-! ### Lines -/

/-- The slot address of a frame. -/
def camAddr (f : CinFrame) : Nat := f.set.base + cinSlotBytes f.set * f.slot.getD 0

/-- The status of a posted write that is refused (R388, R394). -/
def postedStatus : Resp → Nat
  | .errDecode => 1
  | .errLocked => 3
  | _ => 4

/-- An image line of the open frame is stored, by the posted channel of its port (R53, R61): bytes that refuse the write keep
their value, and the write then fails.  A line is one transfer of one descriptor, of index 0, whose end of count comes with its last write
(R394; log 168).  In sentinel service nothing is stored (R83). -/
def storeLine (s : State) (p : Nat) (f : CinFrame) (data : List Byte) : State :=
  if f.slot.isNone || s.sentinel then s
  else
    let a := camAddr f + 64 + cinStride f.set * f.lines
    let k := 56 + p / 2
    let (bad, s) := s.writeAllowed a 6 (0x400 + k) data
    let s := (s.trafficW a data.length).linkTraffic a data.length (0x400 + k) true
    let s := (s.setWord (A.DMA_CH_ERR k) 0).setF (F.DMA_CH_STAT_eoc k) 1
    match bad with
    | none => s
    | some (x, r) =>
      let st := postedStatus r
      let s := (s.setWord (A.DMA_CH_ERR k) (st * 2 ^ 24)).raise { src := Src.DMA_POSTED (p / 2), inst := p / 2, detail := st * 2 ^ 16, addr := x, acc := 6, master := 0x400 + k }
      s.postedBadCam p f.ord

/-- Bytes of the line buffer of port `p` that wait for a FWD port (R62). -/
def bufFill (s : State) (p : Nat) : Nat :=
  (((s.cinP p).closing ++ (s.cinP p).cur.toList).map (fun f => (f.buf.map List.length).sum)).sum

/-- The frame whose lines port `p` forwards now: the oldest that is being sent. -/
def sending (s : State) (p : Nat) : Option CinFrame :=
  ((s.cinP p).closing ++ (s.cinP p).cur.toList).find? (fun f => f.fwd == .sending)

/-- A frame of the port changed by `u`; ended frames that are stored and sent leave. -/
def modCam (s : State) (p o : Nat) (u : CinFrame → CinFrame) : State :=
  let g (f : CinFrame) : CinFrame := if f.ord = o then u f else f
  s.modCin p (fun x => { x with cur := x.cur.map g,
                                closing := (x.closing.map g).filter (fun f => !(f.ready && f.fwd != .sending)) })

/-- The frames that a fallow FWD port was to send, or was sending, are stored and decided with FWD_FAIL; their seed patches are
lost (R84). -/
def loseFwd (s : State) (w : Nat) : State :=
  (List.range 16).foldl (fun s p =>
    let x := s.cinP p
    ((x.closing ++ x.cur.toList).filter (fun f => f.fwd == .sending && cinFwd f.set = w)).foldl (fun s f =>
      let s := (s.markSlot p f).modCam p f.ord (fun f => { f with fwd := .ended, buf := [], fwdFail := true })
      (s.failFwd p f.ord).skipPatches p f.ord (fun _ => true)) s) s

/-- An abandoned frame is a retry event of its FWD port (R348). -/
def chargeFwd (s : State) (w : Nat) : State :=
  let s := s.retryEvent 6 w
  if s.isFallow 6 w then s.loseFwd w else s

/-- Forwarded frames are abandoned, oldest first, until the line buffer holds what is left (R62, R69). -/
def relieve (s : State) (p : Nat) : Nat → State
  | 0 => s
  | k + 1 =>
    if s.bufFill p ≤ 0x40000 ∨ s.stopState then s
    else
      match s.sending p with
      | none => s
      | some f => ((s.abandon p f).chargeFwd (cinFwd f.set)).relieve p k

/-- An image line passes its checks (R52, R58, R62, R69). -/
def takeLine (s : State) (p start : Nat) (data : List Byte) : State :=
  match (s.cinP p).cur with
  | none => s
  | some f =>
    let s := s.storeLine p f data
    let s := s.modCur p (fun f => { f with
      lines := f.lines + 1, lineStarts := f.lineStarts ++ [start], crc := crcStep f.crc data, last := data
      buf := if f.fwd == .sending && !s.stopState then f.buf ++ [data] else f.buf })
    s.relieve p ((s.cinP p).closing.length + 1)

/-- The line missed its bound (R68): twice the interval to the next line, or for the last line from the one before, and 1 µs.
Before the next line has started, its interval is not over, and no line is past its bound. -/
def lineLate (s : State) (ended : Bool) (f : CinFrame) : Bool :=
  let at_ (i : Nat) : Nat := f.lineStarts.getD i 0
  let k := f.sent
  let n := f.lineStarts.length
  if k + 1 < n then 2 * (at_ (k + 1) - at_ k) + us 1 < s.tick - at_ k
  else if 0 < k ∧ n = k + 1 ∧ (ended ∨ n = cinL f.set) then 2 * (at_ k - at_ (k - 1)) + us 1 < s.tick - at_ k
  else false

/-- A list with `data` in place of the bytes from offset `o` on. -/
def overlay (l : List Byte) (o : Nat) (data : List Byte) : List Byte :=
  l.take o ++ (data.take (l.length - o)) ++ l.drop (o + data.length)

/-- The bytes of a patch in the library (R79). -/
def patchData (s : State) (f : CinFrame) (x : Patch) : List Byte :=
  s.bytes (libAt f.plib x.lib + 64) (x.edge * x.edge * pixelBits (cinDt f.set) / 8)

/-- The seed patch lines of a frame (R77): the patches in row-major order at their start pixels, all other pixels zero. -/
def patchLines (s : State) (f : CinFrame) : List (List Byte) :=
  let b := cinB f.set
  let area := f.patches.foldl (fun l x => overlay l (x.start * pixelBits (cinDt f.set) / 8) (s.patchData f x))
    (List.replicate ((f.strip - 1) * b) 0)
  (List.range (f.strip - 1)).map (fun i => (area.drop (i * b)).take b)

/-- The frame has been damaged in any way (R53, R58, R70). -/
def camBad (f : CinFrame) : Bool := f.damaged || f.postedBad || f.stuck

/-- No count of the list stands at all ones. -/
def noneFull (s : State) (l : List Field) : Bool := l.all (fun x => s.f x ≠ 2 ^ x.width - 1)

/-- The counts of the frame path (R85). -/
def fpCounts : List Field :=
  (List.range 16).flatMap (fun p =>
    [F.FP_CIN_ERR0_ecc1 p, F.FP_CIN_ERR0_hdr p, F.FP_CIN_ERR1_crc p, F.FP_CIN_ERR1_size p, F.FP_CIN_ERR2_gap p,
      F.FP_CIN_ERR2_tmo p, F.FP_CIN_ERR2_stuck p, F.FP_CIN_ERR2_ring p, F.FP_CIN_ERR3_drop p, F.FP_CIN_ERR3_late p,
      F.FP_CIN_ERR3_resync p])
  ++ (List.range 8).flatMap (fun f => [F.FP_FWD_STAT_fail f, F.FP_FWD_STAT_lat f, F.FP_FWD_PDEF_def f, F.FP_FWD_PDEF_bad f])
  ++ [F.FP_MON_STAT_drop 0, F.FP_MON_STAT_drop 1]

/-- FP_CLR (R85). -/
def clearFp (s : State) (v : Nat) : State :=
  let s := (List.range 16).foldl (fun s p => if bitOf v p then
      (((s.setWord (A.FP_CIN_ERR0 p) 0).setWord (A.FP_CIN_ERR1 p) 0).setWord (A.FP_CIN_ERR2 p) 0).setWord (A.FP_CIN_ERR3 p) 0
    else s) s
  let s := (List.range 8).foldl (fun s f => if bitOf v (16 + f) then
      (s.setWord (A.FP_FWD_STAT f) 0).setWord (A.FP_FWD_PDEF f) 0 else s) s
  let s := [0, 1].foldl (fun s m => if bitOf v (24 + m) then s.setWord (A.FP_MON_STAT m) 0 else s) s
  if s.noneFull fpCounts then s.setF F.FP_STATUS_sat 0 else s

end State

/-- A Frame Start on CIN p (R52, R55, R57, R63); on another virtual channel it is no packet of the stream (R50). -/
def execCinFrameStart (t : Nat) (p : Fin 16) (fn : BitVec 16) (hd : PktHead) (s : State) :
    Host.Outcome State Fault Refusal :=
  let s := s.start t
  if !s.cinLive p then done s
  else
    let (s, ok) := s.cinHeader p false hd.ecc
    if !ok then done s.takeEnded
    else if hd.vc.val ≠ State.cinVc (s.cinRegs p) then done (s.count (F.FP_CIN_ERR3_drop p) F.FP_STATUS_sat)
    else
      let s := s.cutCam p
      if s.isFallow 4 p ∨ !(s.on F.FP_CTRL_en && s.on (F.FP_CIN_CFG_en p)) then
        done (s.modCin p (fun x => { x with discard := false })).takeEnded
      else
        let s := s.modCin p (fun x => { x with timer := s.tick, set := s.cinRegs p, discard := false })
        let refs := [0, 1, 2, 3].foldl (fun r d =>
          if s.on (F.GS_WCFG_en d) && s.on (F.GS_WCFG_mode d) && s.f (F.GS_WCFG_port d) = p.val then
            Table.put (fun _ => []) r d (s.tick :: (Table.get (fun _ => []) r d).filter (fun x => Nat.ble s.tick (x + State.windowSpan))) else r) s.gs.winRef
        let s := s.withGs { s.gs with winRef := refs }
        let stamp := s.cinStamp p
        let s := s.numberCam p fn.toNat stamp
        done ((match (s.cinP p).recent.head? with
          | some r => if r.2.1 = s.tick && r.2.2.2 = stamp then s.alignOwn p r.1 stamp else s
          | none => s).takeEnded)

/-- The Frame Start timeout of CIN p (R56); not yet due, nothing happens. -/
def execFrameStartTimeout (t : Nat) (p : Fin 16) (s : State) : Host.Outcome State Fault Refusal :=
  let s := s.start t
  let x := s.cinP p
  let to_ := bits (s.portSet p).time 16 16
  if s.on F.FP_CTRL_en ∧ s.on (F.FP_CIN_CFG_en p) ∧ to_ ≠ 0 ∧ x.timer + 25000 * to_ ≤ s.tick then
    let o := (x.t + 1).toNat
    let s := s.modCin p (fun x => { x with t := o, timer := s.tick })
    let s := (s.spendId p o s.time).count (F.FP_CIN_ERR2_tmo p) F.FP_STATUS_sat
    done (s.raise { src := Src.FP_CIN_TIMEOUT p, inst := p, detail := p, master := 0x490 })
  else done s

/-- An image line on CIN p: its start tick, its payload, its header's virtual channel and data type (R50), and what its checks found;
`full` when the line buffer cannot take it for the GDDR6 write (R52), and `hd.lost` when a word of it is lost in the line buffer
(R380).  Three points the spec leaves open (log 131): a line
discarded for its footer CRC or its word count counts neither toward L nor in FP_CIN_STAT_p.lines, so the next line takes its
place and the Frame End finds a line too few; a line with both errors is counted in crc alone; a line that meets a full buffer
damages the frame and is stored all the same. -/
def execCinImageLine (t : Nat) (p : Fin 16) (start : Nat) (data : List Byte) (hd : LineHead) (crcOk full : Bool)
    (s : State) : Host.Outcome State Fault Refusal :=
  let s := s.start t
  if !s.cinLive p then done s
  else
    let mine := hd.vc.val = s.streamVc p && hd.dt.val = State.cinDt (((s.cinP p).cur.map (·.set)).getD (s.portSet p))
    let (s, ok) := s.cinHeader p (mine && (s.cinP p).discard) hd.ecc
    let x := s.cinP p
    if !ok then done s.takeEnded
    else
      let s := s.ctAdd (0x38 + p) data.length
      match x.cur with
      | none => done (if mine && x.discard then s else s.count (F.FP_CIN_ERR3_drop p) F.FP_STATUS_sat)
      | some f =>
        if !mine then done (s.count (F.FP_CIN_ERR3_drop p) F.FP_STATUS_sat)
        else
        let (s, whole) := s.cinFooter p crcOk
        if !whole then done s.takeEnded
        else if data.length ≠ State.cinB f.set ∨ State.cinL f.set ≤ f.lines then
          done (((s.count (F.FP_CIN_ERR1_size p) F.FP_STATUS_sat).damageCam p).takeEnded)
        else
          let s := if full && !f.overrun then s.count (F.FP_CIN_ERR2_ring p) F.FP_STATUS_sat else s
          let s := if full then (s.modCur p (fun f => { f with overrun := true })).damageCam p else s
          let s := if hd.lost then s.damageCam p else s
          done (if (full || hd.lost) && s.isFallow 4 p then s else s.takeLine p start data).takeEnded

/-- An embedded data line of `len` bytes on CIN p (R50). -/
def execCinEmbeddedLine (t : Nat) (p : Fin 16) (len : Nat) (hd : PktHead) (crcOk : Bool) (s : State) :
    Host.Outcome State Fault Refusal :=
  let s := s.start t
  if !s.cinLive p then done s
  else
    let mine := hd.vc.val = s.streamVc p
    let (s, ok) := s.cinHeader p (mine && (s.cinP p).discard) hd.ecc
    let x := s.cinP p
    if !ok then done s.takeEnded
    else
      let s := s.ctAdd (0x38 + p) len
      if x.cur.isNone then done (if mine && x.discard then s else s.count (F.FP_CIN_ERR3_drop p) F.FP_STATUS_sat)
      else if !mine then done (s.count (F.FP_CIN_ERR3_drop p) F.FP_STATUS_sat)
      else done (s.cinFooter p crcOk).1.takeEnded

/-- A Frame End on CIN p (R52, R58).  A frame damaged at ingress or by a posted write is left out of the stuck check: it is neither compared nor compared
with (log 132). -/
def execCinFrameEnd (t : Nat) (p : Fin 16) (fn : BitVec 16) (hd : PktHead) (s : State) :
    Host.Outcome State Fault Refusal :=
  let s := s.start t
  if !s.cinLive p then done s
  else
    let mine := hd.vc.val = s.streamVc p
    let (s, ok) := s.cinHeader p (mine && (s.cinP p).discard) hd.ecc
    let x := s.cinP p
    if !ok then done s.takeEnded
    else if !mine then done (s.count (F.FP_CIN_ERR3_drop p) F.FP_STATUS_sat)
    else
      match x.cur with
      | none =>
        done (if x.discard then s.modCin p (fun x => { x with discard := false })
          else s.count (F.FP_CIN_ERR3_drop p) F.FP_STATUS_sat)
      | some f =>
        let wrong := (State.cinMode1 f.set = false && f.fn ≠ fn.toNat)
        let s := if f.lines < State.cinL f.set then (s.count (F.FP_CIN_ERR1_size p) F.FP_STATUS_sat).damageCam p else s
        let s := if wrong then (s.count (F.FP_CIN_ERR1_size p) F.FP_STATUS_sat).damageCam p else s
        match (s.cinP p).cur with
        | none => done s.takeEnded
        | some f =>
          let s := if f.damaged || f.postedBad then s else s.stuckTest p f
          done (s.closeCam p).takeEnded

/-- A Line Start or Line End packet on a virtual channel: on a camera port its header is checked, and on another virtual
channel than the stream's it is dropped (R50, R52); on an evidence port it is ignored (R86). -/
def execLineStartPacket (t : Nat) (eport : Bool) (p : Fin 16) (hd : PktHead) (s : State) :
    Host.Outcome State Fault Refusal :=
  let s := s.start t
  if eport then
    if p.val < 4 ∧ s.einLive p then
      done (s.einHeader p false hd.ecc).1
    else done s
  else if s.cinLive p then
    let mine := hd.vc.val = s.streamVc p
    let (s, ok) := s.cinHeader p (mine && (s.cinP p).discard) hd.ecc
    done (if ok && !mine then s.count (F.FP_CIN_ERR3_drop p) F.FP_STATUS_sat else s).takeEnded
  else done s

/-- Any other packet on CIN p (R49, R50). -/
def execCinDroppedPacket (t : Nat) (p : Fin 16) (ecc : Ecc) (s : State) : Host.Outcome State Fault Refusal :=
  let s := s.start t
  if !s.cinLive p then done s
  else
    let (s, ok) := s.cinHeader p false ecc
    done (if ok then s.count (F.FP_CIN_ERR3_drop p) F.FP_STATUS_sat else s).takeEnded

/-- The write responses of the oldest ended frame of CIN p have returned: its header is written with ready = 1, and
what waited for the slot goes on (R60, R61, R132, R217); in sentinel service nothing is stored (R83). -/
def execSlotReady (t : Nat) (p : Fin 16) (s : State) : Host.Outcome State Fault Refusal :=
  let s := s.start t
  match (s.cinP p).closing.find? (fun f => !f.ready) with
  | none => done s
  | some f =>
    let s' := s.modCam p f.ord (fun f => { f with ready := true })
    if f.slot.isNone || s.sentinel then done s'
    else
      let hdr := leBytes 8 f.stampNs ++ leBytes 4 f.fid ++ leBytes 4 (f.crc ^^^ 0xFFFFFFFF) ++ f.pepper ++ leBytes 2 f.lines
        ++ leBytes 2 (s.slotStatus f) ++ List.replicate 28 0
      let s := (s'.ownWrite (State.camAddr f) (0x438 + p / 2) hdr).modSlot p f.ord
        (fun x => { x with ready := true, bad := State.camBad f })
      let s := s.fireTrigs 0 p (some (State.camAddr f, State.cinSlotBytes f.set)) (some f.fid) (some f.stampNs)
      done ((s.ctxs.map (·.1)).foldl (fun s n => s.launchCtx n) s).takeEnded

/-- The groups of context n whose tick S + skew has come are complete (R64): a missing, damaged or stuck member loses
the frame. -/
def execGroupComplete (t : Nat) (n : Fin 1024) (s : State) : Host.Outcome State Fault Refusal :=
  let s := s.start t
  let one (s : State) (f : Frm) : State :=
    if f.groupDone ∨ s.tick < f.stampTick + State.us f.skew then s
    else
      let late (r : Nat × Nat × Nat × Nat) : Int := State.stampDiff r.2.2.2 f.stampNs
      let found : List (Nat × Option (Nat × Nat × Nat × Nat)) := ((List.range 16).filter (bitOf f.ports)).map (fun p =>
        (p, match f.members.find? (fun m => m.1 = p) with
          | some m => (s.cinP p).recent.find? (fun r => r.1 = m.2)
          | none => leastBy (fun r => [(late r).natAbs, (late r + 2 ^ 63).toNat])
              ((s.cinP p).recent.filter (fun r => (late r).natAbs ≤ 1000 * f.skew))))
      let lost := found.any (fun x => match x.2 with
        | none => true
        | some r => bitOf r.2.2.1 0)
      let s := s.modFrm n f.ord (fun f => { f with groupDone := true, members := found.filterMap (fun x => x.2.map (fun r => (x.1, r.1))) })
      if lost then s.loseFrame n f.ord
      else
        let unsent := found.any (fun x => x.2.any (fun r => bitOf r.2.2.1 1))
        let s := if unsent then (s.addCause n f.ord Cause.fwdFail).queueAgreement n f.ord else s
        s.launchFrm n f.ord
  done ((s.frms n).foldl one s).takeEnded

/-- The next stored image line of CIN p leaves on its FWD port (R67, R68, R83). -/
def execForwardLine (t : Nat) (p : Fin 16) (s : State) : Host.Outcome State Fault Refusal :=
  let s := s.start t
  match s.sending p with
  | none => done s
  | some f =>
    if s.stopState ∨ s.isFallow 6 (State.cinFwd f.set) then done (s.modCam p f.ord (fun f => { f with fwd := .ended, buf := [] }))
    else
      match f.buf with
      | [] => done s
      | line :: rest =>
        let w := State.cinFwd f.set
        let ended := (s.cinP p).closing.any (fun g => g.ord = f.ord)
        let s := if s.lineLate ended f then
            (s.count (F.FP_FWD_STAT_lat w) F.FP_STATUS_sat).raise { src := Src.FP_FWD_OVER w, inst := w, detail := w, master := 0x490 }
          else s
        done ((s.sendLine f (State.cinDt f.set) line).modCam p f.ord (fun f => { f with sent := f.sent + 1, buf := rest }))

/-- The seed patch lines and the Frame End of an ended frame of CIN p leave on its FWD port (R67, R70, R77, R80, R83). -/
def execPatchLines (t : Nat) (p : Fin 16) (s : State) : Host.Outcome State Fault Refusal :=
  let s := s.start t
  match (s.cinP p).closing.find? (fun f => f.fwd == .sending) with
  | none => done s
  | some f =>
    if s.stopState ∨ s.isFallow 6 (State.cinFwd f.set) then done (s.modCam p f.ord (fun f => { f with fwd := .ended, buf := [] }))
    else if f.buf ≠ [] then done s
    else
      let w := State.cinFwd f.set
      let strip := !State.camBad f && !s.sentinel && f.slot.isSome
      let wrong (s : State) (x : Patch) : Bool := crc32c (s.patchData f x) ≠ s.memVal (State.libAt f.plib x.lib + 4) 4
      let lines := if strip then s.patchLines f else []
      let s := lines.foldl (fun s l => s.sendLine f 0x34 l) s
      let s := if strip then f.patches.foldl (fun s x =>
          if wrong s x then
            let s := s.count (F.FP_FWD_PDEF_bad w) F.FP_STATUS_sat
            let s := s.skipPatches p f.ord (fun y => y.lib = x.lib)
            s.withPlibBad (Table.put (fun _ => []) s.plibBad x.lib (State.physSpans (State.libAt f.plib x.lib) 0x40000))
          else s) s
        else s
      done ((s.sendMark f 1).modCam p f.ord (fun f => { f with fwd := .ended, patchDone := true }))

/-- MON m sends the line of CIN p received last, or has to drop it (R81, R83). -/
def execMonLine (t : Nat) (m : Fin 2) (p : Fin 16) (taken : Bool) (s : State) : Host.Outcome State Fault Refusal :=
  let s := s.start t
  match (s.cinP p).cur.toList ++ (s.cinP p).closing.reverse with
  | f :: _ =>
    if bitOf f.mons m ∧ s.sentinel = false then
      if taken then done ((s.sendPacket (8 + m) p (State.cinDt f.set) 0 f.last).ctAdd (0x54 + m) f.last.length)
      else done (s.count (F.FP_MON_STAT_drop m) F.FP_STATUS_sat)
    else done s
  | [] => done s

/-- FP_CLR (R85). -/
def execFpClr (t : Nat) (value : Word) (s : State) : Host.Outcome State Fault Refusal :=
  done ((s.start t).clearFp value.toNat)

end Sys2Proof.Machine
end

