-- ==== Sys2Proof/Machine/Evidence.lean ====
section
/-! DEFINITION. Evidence intake: packets, attribution, slots, authentication, record rules, silence (R86 to R110). -/

namespace Sys2Proof.Machine

open Sys2Proof

namespace State

/-! ### Ports -/

/-- The open evidence frame on virtual channel `v` of port `e`. -/
def evF (s : State) (e v : Nat) : Option EvFrame := Table.get (fun _ => none) s.evOpen (16 * e + v)

/-- The state with that frame replaced; EV_EIN_STAT_e.open follows. -/
def setEvF (s : State) (e v : Nat) (x : Option EvFrame) : State :=
  (s.setF ⟨A.EV_EIN_STAT e, v, 1⟩ (bit x.isSome)).withEvOpen (Table.put (fun _ => none) s.evOpen (16 * e + v) x)

/-- The open frame of the channel is discarded to its Frame End without further count (R91). -/
def evQuiet (s : State) (e v : Nat) : Bool := (s.evF e v).any (·.discard)

/-- A frame's evidence fails with a cause: its slot is released, no further check of it is launched, and no agreement program
runs (R88 to R94, R107, R141); the checks launched go on (R24, R133). -/
def failEv (s : State) (n o cause : Nat) : State :=
  match s.frm n o with
  | none => s
  | some f =>
    let s := if noInput f then s else s.addCause n o cause
    let s := s.modFrm n o (fun f => { f with ev := .failed, todo := [], vp2Due := f.vp2Queued })
    (s.releaseEv n o).queueAgreement n o

/-- An attributed evidence frame is discarded as late (R23, R107): its slot is released. -/
def discardLate (s : State) (n : Nat) (f : Frm) : State := ((s.evDeadline n f).lateEvidence n).releaseEv n f.ord

/-- An evidence frame that was attributed comes to a bad end (R88, R91, R92): EV_FORMAT, or late when its deadline has
passed or the frame has been decided (R23). -/
def endBadEv (s : State) (n o : Nat) : State :=
  match s.frm n o with
  | none => s.lateEvidence n
  | some f =>
    if f.evDl < s.tick then s.discardLate n f
    else if f.ev == .failed then s.releaseEv n o
    else s.failEv n o Cause.evFormat

/-- An open evidence frame is dropped without outcome: a slot it took is released (R107, R109). -/
def dropEv (s : State) (e v : Nat) : State :=
  let s := match (s.evF e v).bind (·.owner) with
    | some (n, o) => s.releaseEv n o
    | none => s
  s.setEvF e v none

/-- The silence timer of port `e`, started in the tick of its return to service (R108). -/
def restartSilence (s : State) (e : Nat) : State :=
  if s.on (F.EV_EIN_CFG_en e) then
    (s.withEvTimer (Table.put (fun _ => 0) s.evTimer e s.tick)).withEvTimerOn (Table.put (fun _ => false) s.evTimerOn e true)
  else s

/-- A retired EIN port (R109): its open frames are gone, and every context bound to its accelerator that is not OFF
enters FALLOW. -/
def einFallen (s : State) (e : Nat) : State :=
  let s := (List.range 16).foldl (fun s v => s.dropEv e v) s
  let s := s.withEvTimerOn (Table.put (fun _ => false) s.evTimerOn e false)
  (s.boundTo e).foldl (fun s n => if s.trust n ≠ 0 ∧ s.trust n ≠ 5 then s.enterFallow n else s) s

/-- The open evidence frame is damaged (R88): once, with one retry event, unless the error is injected (R356). -/
def damageEvBy (s : State) (e v : Nat) (injected : Bool) : State :=
  match s.evF e v with
  | none => s
  | some x =>
    if x.damaged then s
    else
      let s := s.setEvF e v (some { x with damaged := true })
      let s := s.raise { src := Src.EV_EIN_DAMAGE e, inst := e, detail := e, master := 0x491, injected := injected }
      let s := if injected then s else s.retryEvent 5 e
      if s.isFallow 5 e then s.einFallen e else s

/-- The open evidence frame is damaged by an error of its own. -/
def damageEv (s : State) (e v : Nat) : State := s.damageEvBy e v false

/-- The footer check of a packet of an open evidence frame, as on a camera port (R88, R355). -/
def einFooter (s : State) (e v : Nat) (crcOk : Bool) : State × Bool :=
  let (hit, s) := s.injCheck 7 (16 + e)
  if crcOk && !hit then (s, true) else ((s.count (F.EV_EIN_ERR1_crc e) F.EV_STATUS_sat).damageEvBy e v hit, false)

/-! ### Attribution (R90, R91) -/

/-- The ordinal of the most recent issue of a frame ID on port `p`; none for an ID that was never issued (R55). -/
def ordOf (s : State) (p id : Nat) : Option Nat :=
  if id % 65536 = 0 then none
  else
    let pos : Int := (id / 65536 * 65535 + (id % 65536 - 1) : Nat)
    let t := (s.cinP p).t
    let o := t - (t - pos) % 4294901760
    if o < 0 then none else some o.toNat

/-- The undecided frame of context `n` that a header's frame ID and admission counter name (R14, R16, R91): of frames with one
frame ID, stamped on an old anchor port and on the new one, the one of the header's counter. -/
def headerFrm (s : State) (n : Nat) (h : List Byte) : Option Frm :=
  let same := (s.frms n).filter (fun f => f.fid = fld h 8 4)
  (same.find? (fun f => f.admitCtr = fld h 12 4)).or same.head?

/-- A frame ID names a frame that context `n` has taken since its last entry from OFF, or one of its anchor port stamped since
(R91). -/
def wasTaken (s : State) (n id : Nat) : Bool :=
  let anchor := s.f (F.VD_CTX_CFG_anchor n)
  (s.ctx n).taken.any (fun q => (s.ordOf q.1 id).any (fun o =>
    q.2.any (fun r => Nat.ble r.1 o && (q.1 = anchor || Nat.ble o r.2))))

/-- The header's own fields and lengths keep R90 and R92 for frame `f`. -/
def headerOk (s : State) (e : Nat) (f : Frm) (h : List Byte) : Bool :=
  let ev := fld h 28 4
  let res := fld h 32 4
  fld h 0 1 = 1 && zeros h 1 1 && zeros h 6 2 && zeros h 40 24 && fld h 24 4 = f.planId
    && 8 ≤ ev && ev ≤ 8388608 && ev % 8 = 0 && 8 ≤ res && res ≤ 1048576 && res % 8 = 0
    && 1 ≤ fld h 36 2 && 1 ≤ fld h 38 2 && fld h 38 2 ≤ 255
    && 96 + ev + res ≤ 1024 * s.f (F.EV_EIN_RING_slot_kib e)

/-- A free slot of the pool of port `e`; which one is a free value (R107, log 2). -/
def takeEvSlot (s : State) (e : Nat) : Option Nat × State :=
  let free := (List.range (s.f (F.EV_EIN_RING_slots e))).filter (fun k =>
    (Table.get (fun _ => none) s.evSlots (64 * e + k)).isNone)
  if free.isEmpty then (none, s)
  else
    let (k, s) := s.draw 8
    (some (free.getD (k % free.length) 0), s)

/-- The ZW16 acts on a header of 64 bytes (R91): the first row that applies. -/
def attributeEv (s : State) (e v : Nat) (x : EvFrame) : State :=
  let h := x.ev.take 64
  let n := fld h 2 2
  let drop (s : State) (owner : Option (Nat × Nat)) : State := s.setEvF e v (some { x with discard := true, owner := owner })
  let orphan : State :=
    (drop (s.count (F.EV_EIN_ERR2_orphan e) F.EV_STATUS_sat) none).raise
      { src := Src.EV_ORPHAN e, inst := e, detail := e, ctx := n, master := 0x491 }
  if 1023 < n ∨ s.trust n = 0 ∨ s.accOf n ≠ e then orphan
  else
    match s.headerFrm n h with
    | none => if s.wasTaken n (fld h 8 4) then drop (s.lateEvidence n) none else orphan
    | some f =>
          let o := f.ord
          if f.evDl < s.tick then drop ((s.evDeadline n f).lateEvidence n) none
          else if s.trust n = 4 ∨ s.trust n = 5 then drop s none
          else if f.opened then drop (s.count (F.EV_CTX_SEQ_dup n) F.EV_STATUS_sat) none
          else if !s.headerOk e f h || fld h 8 4 % 65536 ≠ x.fn then
            drop ((s.modFrm n o (fun f => { f with opened := true })).failEv n o Cause.evFormat) (some (n, o))
          else
            let s := s.modFrm n o (fun f => { f with opened := true, ev := if f.ev == .none then .receiving else f.ev })
            match s.takeEvSlot e with
            | (none, s) =>
              let s := s.count (F.EV_EIN_ERR2_ring e) F.EV_STATUS_sat
              let s := s.raise { src := Src.EV_RING e, inst := e, detail := e, ctx := n, master := 0x491 }
              s.setEvF e v (some { x with bad := true })
            | (some k, s) =>
              let s := s.withEvSlots (Table.put (fun _ => none) s.evSlots (64 * e + k) (some (n, o)))
              let s := s.setF (F.EV_EIN_STAT_used e) (s.evUsed e)
              let s := s.modFrm n o (fun f => { f with hdr := h, evSlot := some k })
              s.setEvF e v (some { x with owner := some (n, o) })

/-! ### Keys and decryption (R93 to R97) -/

/-- The header's admission counter and epoch select a key that is held and valid for the frame's stamp (R94 to R96). -/
def keyValid (s : State) (n : Nat) (f : Frm) : Bool :=
  let admitCtr := fld f.hdr 12 4
  let epoch := fld f.hdr 4 2
  let c := s.ctx n
  admitCtr = f.admitCtr &&
    (match c.old with
      | .none | .spent _ => admitCtr = s.word (A.VD_ADMIT n) && epoch = s.f (F.EV_CTX_KEY_epoch n)
      | .grace a ep f0 =>
        (admitCtr = s.word (A.VD_ADMIT n) && epoch = s.f (F.EV_CTX_KEY_epoch n) && f0 ≤ f.ord)
          || (admitCtr = a && epoch = ep && f.ord ≤ f0 + 16)
      | .prior a ep _ =>
        (admitCtr = s.word (A.VD_ADMIT n) && epoch = s.f (F.EV_CTX_KEY_epoch n)) || (admitCtr = a && epoch = ep))

/-- The key and IV of a stream of the frame (R93). -/
def streamKey (s : State) (n : Nat) (f : Frm) : List Byte := s.jobKey n (fld f.hdr 12 4) (fld f.hdr 4 2)
def streamIv (n : Nat) (f : Frm) (result : Bool) : List Byte :=
  (if result then [0x52, 0x53] else [0x45, 0x56]) ++ beBytes 2 (fld f.hdr 4 2) ++ beBytes 2 n ++ beBytes 2 0 ++ beBytes 4 f.fid

/-- The bytes of a stream from the `k`th on are stored in the frame's slot (R92), laid out as log 133 says: the evidence
stream from 0 (header, text, tag), the result stream (text, tag) after it. -/
def storeEv (s : State) (n : Nat) (f : Frm) (result : Bool) (l : List Byte) (k : Nat) : State :=
  let a := s.evSlotAddr n f + (if result then 80 + fld f.hdr 28 4 else 0) + k
  let l := l.drop k
  if l.isEmpty then s else ((s.ownWrite a 0x491 l).trafficW a l.length).linkTraffic a l.length 0x491 true

/-- What has arrived of an attributed frame is stored in its slot (R92), decrypted when a valid key is held (R97); without
one its ciphertext is stored (log 133). -/
def decryptEv (s : State) (n o : Nat) (x : EvFrame) (result : Bool) (k : Nat) : State :=
  match s.frm n o with
  | none => s
  | some f =>
    let evLen := fld f.hdr 28 4
    let resLen := fld f.hdr 32 4
    let ok := s.keyValid n f
    let crypt (res : Bool) (l : List Byte) : List Byte := if ok then gcmCrypt (s.streamKey n f) (streamIv n f res) l else l
    let ev := crypt false ((x.ev.drop 64).take evLen)
    let res := crypt true (x.res.take resLen)
    let s := s.storeEv n f result
      (if result then res ++ x.res.drop resLen else f.hdr ++ ev ++ x.ev.drop (64 + evLen)) k
    if ok then (s.modFrm n o (fun f => { f with evText := ev, resText := res })).launchFrm n o else s

/-- The payload of a packet joins its stream (R88, R89, R91, R92). -/
def takeEvData (s : State) (e v : Nat) (x : EvFrame) (result : Bool) (data : List Byte) : State :=
  let k := if result then x.res.length else if x.owner.isNone then 0 else x.ev.length
  let x := if result then { x with res := x.res ++ data } else { x with ev := x.ev ++ data }
  let s := s.setEvF e v (some x)
  let s := if x.owner.isNone && 64 ≤ x.ev.length && x.ev.length - data.length < 64 && !result then s.attributeEv e v x else s
  match s.evF e v with
  | none => s
  | some x =>
    match x.discard || x.bad, x.owner with
    | false, some (n, o) =>
      let h := x.ev.take 64
      if 80 + fld h 28 4 < x.ev.length ∨ 16 + fld h 32 4 < x.res.length then
        (s.setEvF e v (some { x with bad := true })).endBadEv n o
      else s.decryptEv n o x result k
    | _, _ => s

/-! ### The Frame End (R22, R88, R92) -/

/-- An undamaged attributed evidence frame has ended: on time, short, or late. -/
def endEv (s : State) (n o : Nat) (x : EvFrame) : State :=
  match s.frm n o with
  | none => s.lateEvidence n
  | some f =>
    if f.evDl < s.tick then s.discardLate n f
    else if f.ev == .failed then s
    else
      let h := x.ev.take 64
      if x.ev.length ≠ 80 + fld h 28 4 ∨ x.res.length ≠ 16 + fld h 32 4 then s.failEv n o Cause.evFormat
      else s.modFrm n o (fun f => { f with
        ev := .onTime
        evTag := x.ev.drop (64 + fld h 28 4)
        resTag := x.res.drop (fld h 32 4) })

/-- An open evidence frame leaves its virtual channel (R88).  One that ends before its 64th header byte was never
attributed: it is dropped without count or fault (log 135). -/
def closeEv (s : State) (e v : Nat) : State :=
  match s.evF e v with
  | none => s
  | some x =>
    let s := s.setEvF e v none
    match x.owner with
    | none => s
    | some (n, o) =>
      if x.discard || x.bad then s
      else if x.damaged then s.endBadEv n o
      else s.endEv n o x

/-! ### Authentication and record rules (R94, R97 to R106, R161) -/

/-- Both tags verify under the selected key and the stamp is the frame's own (R93, R94). -/
def evAuthentic (s : State) (n : Nat) (f : Frm) : Bool :=
  let key := s.streamKey n f
  let iv := streamIv n f false
  let iv2 := streamIv n f true
  s.keyValid n f && fld f.hdr 16 8 = f.stampNs
    && Config.gcmTag key iv f.hdr (gcmCrypt key iv f.evText) = f.evTag
    && Config.gcmTag key iv2 f.hdr (gcmCrypt key iv2 f.resText) = f.resTag

/-- The job sequence of an authenticated frame (R99): counted gaps, and whether it stands.  A frame whose first record is no
HEARTBEAT carries none. -/
def jobSequence (s : State) (n : Nat) (f : Frm) (rs : List Rec) : State × Bool :=
  match rs with
  | [] => (s, false)
  | hb :: _ =>
    if hb.type ≠ 1 ∨ hb.payload.length ≠ 32 then (s, false)
    else
    let q := fld hb.payload 8 8
    let admitCtr := fld f.hdr 12 4
    let c := s.ctx n
    let prev := (c.jobSeq.find? (fun p => p.1 = admitCtr)).map (·.2)
    let usable (a : Nat) : Bool := a = s.word (A.VD_ADMIT n) || c.frames.any (fun g => g.admitCtr = a)
    let s := s.setCtx n { c with jobSeq := (admitCtr, q) :: c.jobSeq.filter (fun p => p.1 ≠ admitCtr && usable p.1) }
    match prev with
    | none => (s, true)
    | some p =>
      if q ≤ p then (s, false)
      else if p + 1 < q then (s.count (F.EV_CTX_SEQ_gap n) F.EV_STATUS_sat, true)
      else (s, true)

/-- The tags of an on-time frame are verified, and its records judged (R94, R97, R106). -/
def verifyEv (s : State) (n o : Nat) : State :=
  match s.frm n o with
  | none => s
  | some f =>
    if f.ev != .onTime then s
    else if !s.evAuthentic n f then (s.count (F.EV_CTX_ERR_auth n) F.EV_STATUS_sat).failEv n o Cause.evAuth
    else
      let (es, eok) := streamRecords f.evText
      let (rs, rok) := streamRecords f.resText
      let (s, sok) := s.jobSequence n f es
      let own := (rs.takeWhile (fun r => r.src = 0)).foldl (fun k r => k + 8 + r.payload.length) 0
      let good := eok && rok && sok && es.length = fld f.hdr 36 2 && rs.length = fld f.hdr 38 2
        && s.evidenceOk n f es && s.resultsOk n f rs && own ≤ min 90112 (pubLimit f)
      if good then (s.modFrm n o (fun f => { f with ev := .authentic })).evidenceGood n o
      else (s.count (F.EV_CTX_ERR_format n) F.EV_STATUS_sat).failEv n o Cause.evFormat

/-- A flagged key slot raises SEC_KEY and is derived again (R474). -/
def keyFlagged (s : State) : State := (s.count F.SEC_KSTAT_kerr F.SEC_STATUS_sat).raise { src := Src.SEC_KEY }

/-- The key of an on-time frame cannot be derived: its checks end without a result (R134, R474). -/
def keyLost (s : State) (n o : Nat) : State :=
  match s.frm n o with
  | none => s
  | some f =>
    if f.ev != .onTime then s
    else
      let s := (s.ckInternal n o).stopJobs (fun j => j.ctx = n && j.ord = o && !(j.purpose == .fallback))
      (s.vpDrop n o).modFrm n o (fun f => { f with
        ev := .failed, todo := [], running := f.running.filter (· == .fallback), vp2Due := false, ag := .complete })

/-- The counts of evidence intake (R110). -/
def evCounts : List Field :=
  [0, 1, 2, 3].flatMap (fun e =>
    [F.EV_EIN_ERR0_ecc1 e, F.EV_EIN_ERR0_hdr e, F.EV_EIN_ERR1_crc e, F.EV_EIN_ERR1_size e, F.EV_EIN_ERR2_orphan e,
      F.EV_EIN_ERR2_ring e, F.EV_EIN_ERR3_drop e, F.EV_EIN_ERR3_silent e])
  ++ (List.range 1024).flatMap (fun n => [F.EV_CTX_ERR_auth n, F.EV_CTX_ERR_format n, F.EV_CTX_SEQ_gap n, F.EV_CTX_SEQ_dup n])

/-- EV_STATUS.sat clears when no count remains saturated (R110). -/
def evSatEnd (s : State) : State := if s.noneFull evCounts then s.setF F.EV_STATUS_sat 0 else s

/-- The ports whose bit is set in a write of EV_CLR are cleared (R110). -/
def clearEin (s : State) (v : Nat) : State :=
  ([0, 1, 2, 3].foldl (fun s e => if bitOf v e then
    (((s.setWord (A.EV_EIN_ERR0 e) 0).setWord (A.EV_EIN_ERR1 e) 0).setWord (A.EV_EIN_ERR2 e) 0).setWord (A.EV_EIN_ERR3 e) 0
    else s) s).evSatEnd

/-- EV_CLR.ctx (R110). -/
def clearEvCtx (s : State) (v : Nat) : State :=
  if bitOf v 31 then
    ((List.range 1024).foldl (fun s n => (s.setWord (A.EV_CTX_ERR n) 0).setWord (A.EV_CTX_SEQ n) 0) s).evSatEnd
  else s

end State

/-- A Frame Start on virtual channel vc of EIN e (R87, R88). -/
def execEinFrameStart (t : Nat) (e : Fin 4) (vc : Fin 16) (fn : BitVec 16) (ecc : Ecc) (s : State) :
    Host.Outcome State Fault Refusal :=
  let s := s.start t
  if !s.einLive e then done s
  else
    let (s, ok) := s.einHeader e false ecc
    if !ok then done s
    else
      let s := match s.evF e vc with
        | none => s
        | some _ =>
          ((s.count (F.EV_EIN_ERR1_size e) F.EV_STATUS_sat).damageEv e vc).closeEv e vc
      if s.isFallow 5 e then done s.takeEnded
      else done (s.setEvF e vc (some ⟨fn.toNat, [], [], false, false, false, none, false⟩)).takeEnded

/-- A 0x30 packet, or with `result` a 0x31 packet, on virtual channel vc of EIN e (R87 to R92, R97).  A packet
of word count 0 carries no data and is neither damage nor dropped (log 134). -/
def execEvidencePacket (t : Nat) (e : Fin 4) (vc : Fin 16) (result : Bool) (data : List Byte) (ecc : Ecc) (crcOk : Bool)
    (s : State) : Host.Outcome State Fault Refusal :=
  let s := s.start t
  if !s.einLive e then done s
  else
    let (s, ok) := s.einHeader e (s.evQuiet e vc) ecc
    if !ok then done s
    else
      let s := s.ctAdd (0x48 + e) data.length
      match s.evF e vc with
      | none => done (s.count (F.EV_EIN_ERR3_drop e) F.EV_STATUS_sat)
      | some x =>
        if x.discard then done s
        else
        let late := result = false ∧ x.seen
        let x := { x with seen := x.seen || result }
        let s := s.setEvF e vc (some x)
        let (s, whole) := s.einFooter e vc crcOk
        if !whole then done s.takeEnded
        else if 16384 < data.length ∨ late then
          done ((s.count (F.EV_EIN_ERR1_size e) F.EV_STATUS_sat).damageEv e vc).takeEnded
        else if x.damaged || x.bad then done s
        else done (s.takeEvData e vc x result data).takeEnded

/-- A Frame End on virtual channel vc of EIN e (R87, R88, R92, R108). -/
def execEinFrameEnd (t : Nat) (e : Fin 4) (vc : Fin 16) (fn : BitVec 16) (ecc : Ecc) (s : State) :
    Host.Outcome State Fault Refusal :=
  let s := s.start t
  if !s.einLive e then done s
  else
    let (s, ok) := s.einHeader e (s.evQuiet e vc) ecc
    if !ok then done s
    else
      match s.evF e vc with
      | none => done (s.count (F.EV_EIN_ERR3_drop e) F.EV_STATUS_sat)
      | some x =>
        let s := s.withEvTimer (Table.put (fun _ => 0) s.evTimer e s.tick)
        let s := if x.fn ≠ fn.toNat ∧ x.discard = false then
            (s.count (F.EV_EIN_ERR1_size e) F.EV_STATUS_sat).damageEv e vc else s
        done (s.closeEv e vc).takeEnded

/-- Any other packet on EIN e (R86). -/
def execEinDroppedPacket (t : Nat) (e : Fin 4) (ecc : Ecc) (s : State) : Host.Outcome State Fault Refusal :=
  let s := s.start t
  if !s.einLive e then done s
  else
    let (s, ok) := s.einHeader e false ecc
    done (if ok then s.count (F.EV_EIN_ERR3_drop e) F.EV_STATUS_sat else s)

/-- The GCM tags of context n's on-time evidence frames are verified (R93, R94, R97, R106).  `key` says how the key slots'
detection code fares (R474): 0 good, 1 a slot flagged and derived again, 2 flagged and the fuse read fails as well. -/
def execGcmTagVerify (t : Nat) (n : Fin 1024) (key : Fin 3) (s : State) : Host.Outcome State Fault Refusal :=
  let s := s.start t
  let s := if key = 0 then s else s.keyFlagged
  done ((s.frms n).foldl (fun s f =>
    if s.judged n && !s.isSecondary then (if key = 2 then s.keyLost n f.ord else s.verifyEv n f.ord) else s) s).takeEnded

/-- The silence timer of EIN e expires (R108); not yet due, nothing happens. -/
def execEinSilence (t : Nat) (e : Fin 4) (s : State) : Host.Outcome State Fault Refusal :=
  let s := s.start t
  let hb := s.f (F.EV_EIN_CFG_hb_ms e)
  let t0 := Table.get (fun _ => 0) s.evTimer e
  if s.einLive e ∧ Table.get (fun _ => false) s.evTimerOn e ∧ hb ≠ 0 ∧ t0 + State.ms hb ≤ s.tick then
    let s := s.withEvTimer (Table.put (fun _ => 0) s.evTimer e s.tick)
    done ((s.count (F.EV_EIN_ERR3_silent e) F.EV_STATUS_sat).raise
      { src := Src.EV_SILENT e, inst := e, detail := e, master := 0x491 })
  else done s

/-- EV_CLR.ctx (R110). -/
def execEvClrCtx (t : Nat) (value : Word) (s : State) : Host.Outcome State Fault Refusal :=
  done ((s.start t).clearEvCtx value.toNat)

/-- EV_CLR.ein (R110). -/
def execEvClrEin (t : Nat) (value : Word) (s : State) : Host.Outcome State Fault Refusal :=
  done ((s.start t).clearEin value.toNat)

end Sys2Proof.Machine
end

