-- ==== Sys2Proof/Machine/Vp2.lean ====
section
/-! DEFINITION. Agreement and decoder entries on VP2: the queue's order, the standard forms, and programs of the
directory (R142 to R157). -/

namespace Sys2Proof.Machine

open Sys2Proof

/-! ### Standard forms (R153 to R157) -/

/-- What a standard form finds (R153): agreement, code, value and margin; a value or margin the spec does not state is
absent. -/
structure Verd where
  agree : Bool
  code : Nat
  value : Option Nat
  margin : Option Fv
  deriving DecidableEq, Repr

/-- RESULT payloads of a side. -/
abbrev Side := List (List Byte)

/-- All objects of a side, in record order. -/
def sideObjects (l : Side) : List Obj := l.flatMap objects

/-- A class in a 64-bit class mask (R154). -/
def inMask (mask c : Nat) : Bool := c < 64 && bitOf mask c

/-- Occupied zones of a side under form 1, schema 1 (R154). -/
def zonesObjects (p : List Byte) (minScore : Nat) (l : Side) : Nat → Bool := fun z =>
  (sideObjects l).any (fun o => o.zone = z && inMask (leVal ((p.drop 8).take 8)) o.cls && minScore ≤ o.score)

/-- Zone `z` is occupied in a grid (R154). -/
def zoneGrid (p g : List Byte) (z : Nat) : Bool :=
  let v (k : Nat) : Nat := leVal ((p.drop (16 + 8 * z + 2 * k)).take 2)
  let w := State.fld g 16 2
  let h := State.fld g 18 2
  let b := State.fld g 20 1
  let cells := (List.range (min h (v 3) - v 1)).flatMap (fun y =>
    (List.range (min w (v 2) - v 0)).map (fun x => gridCell g b ((v 1 + y) * w + v 0 + x)))
  leVal ((p.drop 50).take 2) ≤ (cells.filter (fun c => leVal ((p.drop 48).take 1) ≤ c)).length

/-- Form 1, zone occupancy (R154). -/
def form1 (p : List Byte) (acc fb : Side) : Verd :=
  let schema := leVal (p.take 1)
  let mask := leVal ((p.drop 1).take 1)
  let asym := bitOf (leVal ((p.drop 2).take 1)) 0
  let dims (g : List Byte) : Nat × Nat × Nat := (State.fld g 16 2, State.fld g 18 2, State.fld g 20 1)
  let shapes := (acc ++ fb).map dims
  if schema = 2 ∧ shapes.any (fun d => some d ≠ shapes.head?) then ⟨false, 1, none, none⟩
  else
    let occ (l : Side) (m : Nat) (z : Nat) : Bool :=
      if schema = 1 then zonesObjects p m l z else l.any (fun g => zoneGrid p g z)
    let a := occ acc (leVal ((p.drop 4).take 2))
    let f := occ fb (leVal ((p.drop 6).take 2))
    let bad := (List.range 8).filter (fun z => bitOf mask z && a z != f z && !(asym && a z))
    match bad with
    | [] => ⟨true, 0, some 0, some (Fv.ofInt 0)⟩
    | z :: _ => ⟨false, 2, some z, some (Fv.ofInt bad.length)⟩

/-- Form 2, count within a bound (R155). -/
def form2 (p : List Byte) (acc fb : Side) : Verd :=
  let mask := leVal ((p.drop 8).take 8)
  let num (l : Side) (m : Nat) : Nat := ((sideObjects l).filter (fun o => inMask mask o.cls && m ≤ o.score)).length
  let ca := num acc (leVal ((p.drop 4).take 2))
  let cf := num fb (leVal ((p.drop 6).take 2))
  let d := max ca cf - min ca cf
  let margin := Fv.ofInt ((ca : Int) - cf)
  if d ≤ leVal ((p.drop 16).take 2) + leVal ((p.drop 18).take 1) * cf / 100 then ⟨true, 0, some 0, some margin⟩
  else ⟨false, 3, some d, some margin⟩

/-- The scores of a side joined in record order (R156). -/
def sideScores (l : Side) : List Fv := l.flatMap (fun r => (List.range (State.fld r 4 4)).map (scalarAt r))

/-- The index of the highest score, ties to the lower index. -/
def topIndex (l : List Fv) : Nat :=
  (List.range l.length).foldl (fun b i => if Fv.lt (l.getD b .nan) (l.getD i .nan) then i else b) 0

/-- Form 3, class match (R156). -/
def form3 (p : List Byte) (acc fb : Side) : Verd :=
  let a := sideScores acc
  let f := sideScores fb
  let zero := Fv.zero false
  if a.length ≠ f.length ∨ a = [] then ⟨false, 7, some (min (max a.length f.length - min a.length f.length) 0xFFFF), some zero⟩
  else
    match (List.range a.length).find? (fun i => a.getD i .nan = .nan || f.getD i .nan = .nan) with
    | some i => ⟨false, 8, some i, some zero⟩
    | none =>
      let i := topIndex f
      let k := leVal ((p.drop 1).take 1)
      let floor := Fv.decode fp32 (leVal ((p.drop 4).take 4))
      let ai := a.getD i .nan
      let above := ((List.range a.length).filter (fun j => Fv.lt ai (a.getD j .nan) || (j < i && Fv.cmp ai (a.getD j .nan) = 0))).length
      let best := a.getD (topIndex a) .nan
      let margin := (best.add false ai.neg).round fp32 0
      let low := !floor.isZero && (f.getD i .nan).isFinite && Fv.lt (f.getD i .nan) floor
      if above < k ∨ low then ⟨true, 0, some 0, some margin⟩ else ⟨false, 4, some i, some margin⟩

/-- Form 4, box overlap (R157). -/
def form4 (p : List Byte) (acc fb : Side) : Verd :=
  let shift := leVal ((p.drop 1).take 1)
  let minIou := Fv.decode fp32 (leVal ((p.drop 8).take 4))
  let part (l : Side) (m : Nat) : List Obj := (sideObjects l).filter (fun o => m ≤ o.score)
  let a := part acc (leVal ((p.drop 4).take 2))
  let f := part fb (leVal ((p.drop 6).take 2))
  let (u, miss, ious) := pairUp (fun c r => c.cls / 2 ^ shift = r.cls / 2 ^ shift) (fun c r => Fv.le minIou (iou c r))
    (byScore (·.score) f) ((List.range a.length).zip a)
  let margin := ious.foldl (fun m x => if Fv.lt x m then x else m) (Fv.ofInt 1)
  if leVal ((p.drop 2).take 1) < miss then ⟨false, 5, some miss, some margin⟩
  else if leVal ((p.drop 3).take 1) < u.length then ⟨false, 6, some u.length, some margin⟩
  else ⟨true, 0, some 0, some margin⟩

/-- The schema a form expects (R153). -/
def formSchema (form : Nat) (p : List Byte) : Nat := if form = 1 then leVal (p.take 1) else if form = 3 then 3 else 1

/-- A standard form on both results (R153). -/
def runForm (form : Nat) (p : List Byte) (acc fb : Side) : Verd :=
  if (acc ++ fb).any (fun r => State.fld r 0 4 ≠ formSchema form p) then ⟨false, 1, none, none⟩
  else
    match form with
    | 1 => form1 p acc fb
    | 2 => form2 p acc fb
    | 3 => form3 p acc fb
    | _ => form4 p acc fb

/-- The bound on the instructions a form retires (R153).  Under form 1, schema 2, the cells are those inside the rectangles of
the zones in the mask, in the grids of the side that has more of them (log 136). -/
def formBound (form : Nat) (p : List Byte) (acc fb : Side) : Nat :=
  let items (l : Side) : Nat := (l.map (fun r => State.fld r 4 4)).sum
  let na := items acc
  let nf := items fb
  let zones := (List.range 4).filter (bitOf (leVal ((p.drop 1).take 1)))
  let cells (l : Side) : Nat := (l.map (fun g => (zones.map (fun z =>
    let v (k : Nat) : Nat := leVal ((p.drop (16 + 8 * z + 2 * k)).take 2)
    (min (State.fld g 16 2) (v 2) - v 0) * (min (State.fld g 18 2) (v 3) - v 1))).sum)).sum
  match form with
  | 1 => if leVal (p.take 1) = 2 then 120 + 12 * max (cells acc) (cells fb) else 120 + 14 * (na + nf)
  | 2 => 100 + 12 * (na + nf)
  | 3 => 80 + 8 * (na + nf)
  | _ => 150 + 20 * (na + nf) + 60 * na * nf + 10 * nf * nf

namespace State

/-! ### The queue's order (R142) -/

/-- The frame of an entry. -/
def entryFrm (s : State) (e : VpEntry) : Option Frm := s.frm e.ctx e.ord

/-- The order of entries: verdict deadline, context, older frame, decoder first. -/
def entryKey (s : State) (e : VpEntry) : List Nat :=
  [(s.entryFrm e).elim 0 (·.vDl), e.ctx, e.ord, bit (!e.decoder)]

/-! ### Agreement outcomes (R147, R148, R151) -/

/-- An agreement program has ended with an outcome (R147). -/
def agOutcome (s : State) (n o : Nat) (agree : Bool) (detail margin : Nat) : State :=
  let s := s.modFrm n o (fun f => { f with ag := .complete, detail := detail, margin := margin })
  if agree then s else (s.addCause n o Cause.agFail).count (F.CK_AG_CNT_fail n) F.CK_STATUS_sat

/-- An agreement program ran out of BUDGET (R151). -/
def agBudgetOut (s : State) (n o : Nat) : State :=
  ((s.modFrm n o (fun f => { f with ag := .complete })).addCause n o Cause.agBudget).count (F.CK_AG_CNT_budget n) F.CK_STATUS_sat

/-- An agreement program ended as an internal fault (R148). -/
def agInternal (s : State) (n o : Nat) : State :=
  (s.modFrm n o (fun f => { f with ag := .complete })).ckInternal n o

/-- The result payloads of both sides. -/
def accSide (f : Frm) : Side := ((streamRecords f.resText).1.filter (fun r => r.src = 0)).map (·.payload)
def fbSide (f : Frm) : Side := (streamRecords f.fbBytes).1.map (·.payload)

/-- A standard form runs from its first instruction to its end (R153); above its bound it cannot run out of BUDGET,
below it a free value says whether it does (log 2). -/
def runStandard (s : State) (n : Nat) (f : Frm) (form : Nat) : State :=
  let p := f.agParam
  let (over_, s) := if formBound form p (accSide f) (fbSide f) ≤ f.agBudget then (0, s) else s.draw 1
  if over_ = 1 then s.agBudgetOut n f.ord
  else
    let v := runForm form p (accSide f) (fbSide f)
    let (value, s) := match v.value with
      | some x => (min x 0xFFFF, s)
      | none => s.draw 16
    let (margin, s) := match v.margin with
      | some x => (Fv.encode fp32 0 false x, s)
      | none => s.draw 32
    s.agOutcome n f.ord v.agree (form * 0x1000000 + v.code * 0x10000 + value) margin

/-! ### Programs of the directory (R144 to R150) -/

/-- The first place at or after `a` in warden SRAM, in steps past what is in use, for `len` bytes. -/
def sramPlace (used : List (Nat × Nat)) (len : Nat) : Nat → Nat → Nat
  | 0, a => a
  | k + 1, a =>
    if 0x11000000 < a + len then sramPlace used len k 0x10000000
    else
      match used.find? (fun r => Nat.blt r.1 (a + len) && Nat.blt a (r.1 + r.2)) with
      | none => a
      | some r => sramPlace used len k (roundUp (r.1 + r.2) 64)

/-- A buffer of the ZW16's own in warden SRAM, for `len` bytes (R258); its place is a free value (log 2), clear of the
write-protected ranges, the agreement area at `area`, and the buffers `held` already. -/
def sramBuffer (s : State) (area len : Nat) (held : List (Nat × Nat)) : Nat × State :=
  let (k, s) := s.draw 18
  let used := (area, 0xA9000) :: held ++ s.protect
  (sramPlace used len (2 * used.length + 2) (0x10000000 + 64 * k), s)

/-- Addresses in the agreement area at `b` (R149): carry buffers, scratch, input block, output block, decode buffer.  Where in
their 4 KiB the two blocks lie is the model's choice (log 15). -/
def carryAt (b n : Nat) (sel : Bool) : Nat := b + 512 * n + 256 * bit sel
def agScratch (b : Nat) : Nat := b + 0x80000
def agIn (b : Nat) : Nat := b + 0x90000
def agOut (b : Nat) : Nat := b + 0x90800
def agDecode (b : Nat) : Nat := b + 0x91000

/-- The image that the directory named for entry `i` when the frame was stamped, and its length (R137, R144). -/
def boundProgram (f : Frm) (i : Nat) : Nat × Nat := ((f.programs.find? (fun x => x.1 = i)).map (·.2)).getD (0, 0)

/-- The processor at the entry of a program (R145, R258): registers, windows (base, bytes, permissions) and BUDGET. -/
def entryHart (scratch scratchLen carry p3 i o budget consts : Nat) (code : Nat) (wins : List (Nat × Nat × Nat)) : Hart :=
  let g := table64 [(1, i), (2, o), (3, p3), (4, scratch), (5, scratchLen), (6, carry), (7, consts)]
  let ws := ((List.range wins.length).zip wins).flatMap (fun w =>
    [(0x020 + 2 * w.1, w.2.1 / 64 * 64 + w.2.2.2), (0x021 + 2 * w.1, (w.2.1 + w.2.2.1 + 63) / 64 * 64)])
  { Hart.reset with g := g, pc := BitVec.ofNat 48 code, csr := table64 ([(0x000, 5), (0x010, budget)] ++ ws) }

/-- The heartbeat's model identifier and runtime build (R99). -/
def heartIds (f : Frm) : Nat × Nat :=
  match evRecs f with
  | [] => (0, 0)
  | r :: _ => (fld r.payload 0 4, fld r.payload 4 4)

/-- The input block of R146, the causes as they stand at the start; `a`, `b` are the two buffers with their lengths, `head` bytes 60 and 61. -/
def inputBlock (n : Nat) (e : VpEntry) (f : Frm) (a b : Nat × Nat) (head : Nat) : List Byte :=
  leBytes 2 n ++ leBytes 1 e.trust ++ leBytes 1 0 ++ leBytes 4 f.fid ++ leBytes 8 f.stampNs ++ leBytes 8 (deadlineNs f)
    ++ leBytes 2 ((f.causes ||| failCauses f.fails) % 2 ^ 16) ++ leBytes 6 0 ++ leBytes 8 a.1 ++ leBytes 4 a.2 ++ leBytes 4 0 ++ leBytes 8 b.1 ++ leBytes 4 b.2
    ++ leBytes 2 head ++ leBytes 2 0 ++ leBytes 4 (heartIds f).1 ++ leBytes 4 (heartIds f).2 ++ leBytes 56 0

/-- A custom agreement program is entered on pair `v` (R145, R146, R148, R149); its carry area is what the agreement area in
force holds there (log 149). -/
def enterProgram (s : State) (v n : Nat) (e : VpEntry) (f : Frm) : State :=
  let (img, ilen) := boundProgram f (bits f.agCfg 0 12)
  let area := s.dword A.CK_AG_AREA_BASE
  let acc := sourceZero 255 f.resText
  let (ba, s) := s.sramBuffer area acc.length []
  let (bf, s) := s.sramBuffer area f.fbBytes.length [(ba, acc.length)]
  let (bp, s) := s.sramBuffer area 64 [(ba, acc.length), (bf, f.fbBytes.length)]
  let s := ((s.ownWrite ba 0x492 acc).ownWrite bf 0x492 f.fbBytes).ownWrite bp 0x492 f.agParam
  let sel := (s.ctx n).carrySel
  let cy := carryAt area n (!sel)
  let s := s.ownWrite cy 0x492 (s.bytes (carryAt area n sel) 256)
  let s := (s.ownWrite (agIn area) 0x492 (inputBlock n e f (ba, acc.length) (bf, f.fbBytes.length) 0)).ownWrite (agOut area) 0x492
    (List.replicate 16 0)
  let len := s.memVal (img + 8) 4
  let sc := s.memVal (img + 16) 4
  let wins := [(agIn area, 128, 1), (ba, acc.length, 1), (bf, f.fbBytes.length, 1), (bp, 64, 1),
    (img, ilen, 5), (agOut area, 16, 3), (agScratch area, sc, 3), (cy, 256, 3)]
  let h := entryHart (agScratch area) sc cy bp (agIn area) (agOut area) f.agBudget (img + 32 + len)
    (img + 32 + s.memVal (img + 20) 4) wins
  let old := s.hart (pairHart v)
  (s.setHart (pairHart v) h).withVp2 { s.vp2 with run := some ⟨e, area, wins, v, old, true, [], 0, 0, []⟩ }

/-- The source-0 HEAD_MAP records of a frame, in stream order: address in the slot and length (R150). -/
def headMaps (s : State) (n : Nat) (f : Frm) : Nat × Nat :=
  let l := (evRecs f).filter (fun r => r.type = 4 && r.src = 0)
  match l with
  | [] => (0, 0)
  | r :: _ => (s.evSlotAddr n f + 64 + r.off - 8, (l.map (fun r => 8 + r.payload.length)).sum)

/-- The decoder of head `h` is entered on the pair of the run `r` (R150). -/
def enterDecoder (s : State) (r : VpRun) (f : Frm) (h : Nat) (rest : List Nat) (written : Nat)
    (ends : List (Nat × Nat)) : State :=
  let n := r.entry.ctx
  let area := r.area
  let u := s.under f
  let ha := u.headAt f.plan h
  let entry := u.bytes ha 32
  let (img, ilen) := boundProgram f (leVal ((entry.drop 20).take 4))
  let (bp, s) := s.sramBuffer area 32 []
  let s := s.ownWrite bp 0x492 entry
  let maps := s.headMaps n f
  let s := s.ownWrite (agIn area) 0x492 (inputBlock n r.entry f maps (agDecode area, written) (leVal (entry.take 2)))
  let s := s.ownWrite (agOut area) 0x492 (List.replicate 16 0)
  let len := s.memVal (img + 8) 4
  let sc := s.memVal (img + 16) 4
  let wins := [(agIn area, 128, 1), (maps.1, maps.2, 1), (bp, 32, 1), (img, ilen, 5),
    (agOut area, 16, 3), (agScratch area, sc, 3), (agDecode area + written, 0x18000 - written, 3)]
  let hx := entryHart (agScratch area) sc 0 bp (agIn area) (agOut area) (leVal ((entry.drop 24).take 4)) (img + 32 + len)
    (img + 32 + s.memVal (img + 20) 4) wins
  (s.setHart (pairHart r.pair) hx).withVp2 { s.vp2 with run := some { r with
    regions := wins, heads := rest, head := h, written := written, ends := ends } }

/-- The decoded result compared record by record with the accelerator's (R127). -/
def compareDecoded (s : State) (n : Nat) (f : Frm) (decoded : List Byte) (ends : List (Nat × Nat)) : State :=
  let u := s.under f
  let mine := (streamRecords decoded).1
  let theirs := accSide f
  let headOf (r : Rec) : Nat := ((ends.find? (fun e => r.off ≤ e.2)).map (·.1)).getD 0
  if mine.length ≠ theirs.length then
    let (id, s) := s.draw 16
    s.failCheck n f.ord 3 id ⟨false, none⟩
  else
    (mine.zip theirs).foldl (fun s p =>
      let h := headOf p.1
      let t := u.tolOf f.plan (u.memVal (u.headAt f.plan h + 12) 2)
      s.failCheck n f.ord 3 (u.memVal (u.headAt f.plan h) 2) (cmpResult t p.2 p.1.payload)) s

/-- The next decoder of the entry, or the end of the entry (R127, R142). -/
def nextDecoder (s : State) (r : VpRun) (written : Nat) (ends : List (Nat × Nat)) : State :=
  match s.frm r.entry.ctx r.entry.ord with
  | none => s.vpFree
  | some f =>
    match r.heads with
    | h :: rest => s.enterDecoder r f h rest written ends
    | [] =>
      let decoded := s.bytes (agDecode r.area) written
      let s := (s.vpFree).compareDecoded r.entry.ctx f decoded ends
      s.modFrm r.entry.ctx r.entry.ord (fun f => { f with decoded := decoded, vp2Due := false })

/-- The check of the decoder entry ends without a result (R134, R148, R150). -/
def decoderInternal (s : State) (n o : Nat) : State :=
  ((s.vpFree).modFrm n o (fun f => { f with vp2Due := false })).ckInternal n o

/-- The program on VP2's pair ends with an exception code (R145, R147, R148, R150, R151): the task exit, an exhausted
BUDGET, or anything else. -/
def vpEnd (s : State) (code : Nat) : State :=
  match s.vp2.run with
  | none => s
  | some r =>
    let n := r.entry.ctx
    let o := r.entry.ord
    let area := r.area
    let out := s.memVal (agOut area) 4
    if r.entry.decoder then
      let len := s.memVal (agOut area + 4) 4
      if code ≠ 0x07 ∨ 1 < out then s.decoderInternal n o
      else if out = 1 then
        let s := s.failCheck n o 3 ((s.frm n o).elim 0 (fun f => (s.under f).memVal ((s.under f).headAt f.plan r.head) 2)) ⟨false, none⟩
        s.nextDecoder r r.written (r.ends ++ [(r.head, r.written)])
      else if len % 8 ≠ 0 ∨ 90112 < r.written + len ∨ (len ≠ 0 ∧ (resultRecords (s.bytes (agDecode area + r.written) len)).isNone) then
        s.decoderInternal n o
      else s.nextDecoder r (r.written + len) (r.ends ++ [(r.head, r.written + len)])
    else
      let detail := s.memVal (agOut area + 4) 4
      let margin := s.memVal (agOut area + 8) 4
      let s := s.vpFree
      if code = 0x0B then s.agBudgetOut n o
      else if code ≠ 0x07 ∨ 1 < out then s.agInternal n o
      else (s.modCtx n (fun c => { c with carrySel := !c.carrySel })).agOutcome n o (out = 0) detail margin

/-- On the pair that runs a program of the queue, a task-mode access of `n` bytes at `a` lies in one of exactly the regions that
the program may reach, with the permission it needs (R148, R150, R258). -/
def runReaches (s : State) (h a n perm : Nat) : Bool :=
  s.vp2.run.all (fun r => pairHart r.pair ≠ h || r.regions.any (fun w =>
    Nat.ble w.1 a && Nat.ble (a + n) (w.1 + w.2.1) && (w.2.2 &&& perm) == perm))

/-- Pair `v`'s processor runs a program of VP2's queue. -/
def vpRuns (s : State) (v : Nat) : Bool := s.vp2.run.any (fun r => r.custom && r.pair = v)

/-- The head entry of the queue starts on pair `v` (R142, R143). -/
def startEntry (s : State) (v : Nat) (e : VpEntry) : State :=
  let s := s.withVp2 { s.vp2 with queue := s.vp2.queue.filter (fun x => x ≠ e) }
  match s.entryFrm e with
  | none => s.showVp
  | some f =>
    if e.decoder then
      let u := s.under f
      let heads := (List.range (u.pHeads f.plan)).filter (fun h => u.memVal (u.headAt f.plan h + 20) 4 ≠ 0)
      let area := s.dword A.CK_AG_AREA_BASE
      let s := s.ownWrite (agDecode area) 0x492 (List.replicate 0x18000 0)
      (s.nextDecoder ⟨e, area, [], v, s.hart (pairHart v), true, heads, 0, 0, []⟩ 0 []).showVp
    else
      let form := bits f.agCfg 29 3
      if form = 0 then
        ((s.modFrm e.ctx e.ord (fun f => { f with ag := .running })).enterProgram v e.ctx e f).showVp
      else (s.runStandard e.ctx f form).showVp

end State

/-- VP2 takes the entry that heads its queue, when it is free (R142, R143). -/
def execVp2EntryStart (t : Nat) (s : State) : Host.Outcome State Fault Refusal :=
  let s := s.start t
  match s.rolePair 2, s.vp2.run, leastBy s.entryKey s.vp2.queue with
  | some v, none, some e => if s.pairWorks v then done (s.startEntry v e) else done s
  | _, _, _ => done s

end Sys2Proof.Machine
end

