-- ==== Sys2Proof/Machine/Roles.lean ====
section
/-! DEFINITION. The roles of a mirrored pair: the full copy, the arbitration, the hand-over, and what a device that becomes
secondary lets go (R440, R442, R444, R447, R448, R452, R454). -/

namespace Sys2Proof.Machine

open Sys2Proof

namespace State

/-- The link's hidden state changed by `u`. -/
def modMl (s : State) (u : Ml → Ml) : State := s.withMl (u s.ml)

/-- PATH_SEL is high (R440): primary in full service, or in full service without pair operation; low in every reset. -/
def pathSel (s : State) : Bool :=
  s.holds = 0 && s.f F.SYS_SVC_level = 1 && (!s.on F.ML_CTRL_en || s.f F.ML_STATUS_role = 1)

/-! ### The full copy (R442, R444) -/

/-- The device's own watchdog counts, fault records and fallow list as LOG frames (R444). -/
def sendLogs (s : State) : State :=
  let s := s.fc.fallow.foldl (fun s x => s.mlSend (.log (.fallow x.1 x.2 true))) s
  let s := ((List.range 32).filter (fun k => s.word (retRec k) ≠ 0 || s.word (retRec k + 16) ≠ 0)).foldl (fun s k => s.logRecord k) s
  (List.range 9).foldl (fun s w => s.mlSend (.log (.watch w (bits (s.ret (0x20 + 4 * (w / 4))) (8 * (w % 4)) 8)))) s

/-- The primary's full copy of the mirrored state (R442, R444, R456): its contexts, accelerators, safe-output requests and logs,
the end. -/
def sendCopy (s : State) : State :=
  let s := s.enabled.foldl (fun s n => (s.mlSend (s.ctxMsg n)).mlSend (s.keysMsg n)) s
  let s := [0, 1, 2, 3].foldl (fun s a => s.mlSend (s.accMsg a)) s
  let s := s.enabled.foldl (fun s n => s.mlSend (.state (.sout n (Table.get (fun _ => 0) s.soutReq n)))) s
  s.sendLogs.mlSend (.state .copyEnd)

/-! ### Roles (R448, R452) -/

/-- A device that becomes secondary runs no check and no agreement program and takes no evidence (R447): what its undecided
frames have of them ends. -/
def restWork (s : State) : State :=
  let s := (s.ctxs.map (·.1)).foldl (fun s n => (s.frms n).foldl (fun s f =>
    let s := (s.stopJobs (fun j => j.ctx = n && j.ord = f.ord && j.purpose ≠ .fallback)).vpDrop n f.ord
    (s.modFrm n f.ord (fun f => { f with
      ev := .failed, todo := [], running := [], outs := [], vp2Due := false, ag := .complete })).releaseEv n f.ord) s) s
  s.evOpen.foldl (fun s q => s.setEvF (q.1 / 16) (q.1 % 16) none) s

/-- The role becomes `r` (R448, R456); a device that becomes primary with the link up sends the full copy (R442). -/
def takeRole (s : State) (r : Nat) : State :=
  let s := (s.setF F.ML_STATUS_role r).modMl (fun m => { m with arbStart := none })
  let s := if r = 2 then s.restWork else s
  if r = 1 ∧ s.on F.ML_STATUS_link then s.sendCopy else s

/-- Becoming primary, unless the device is in sentinel service and its partner in full service (R448). -/
def leadOrYield (s : State) : State :=
  if s.f F.SYS_SVC_level = 2 ∧ s.on F.ML_STATUS_link ∧ s.f F.ML_PARTNER_level = 1 then s.takeRole 2 else s.takeRole 1

/-- Equal straps: conflict set and ML_LINK raised (R448, R452). -/
def strapConflict (s : State) : State := (s.setF F.ML_STATUS_conflict 1).raise { src := Src.ML_LINK }

/-- The straps or, when they are equal, the sender IDs let this device be primary (R448, R452). -/
def winsStraps (s : State) : Bool :=
  if s.on F.SYS_STRAP_pair_role = s.on F.ML_PARTNER_strap then Nat.blt (s.f F.ETH_SRC_id) (s.f F.ML_PARTNER_id)
  else s.on F.SYS_STRAP_pair_role

/-- The wait without a link is over (R448). -/
def arbWaited (s : State) : Bool :=
  match s.ml.arbStart with
  | none => false
  | some t => Nat.ble (t + ms (s.f F.ML_CFG_wait_ms)) s.tick

/-- One look at the arbitration (R448); outside it nothing happens.  A device in full service whose partner would become primary
in sentinel service, and so becomes secondary, becomes primary itself (log 156). -/
def arbitrate (s : State) : State :=
  if !s.on F.ML_CTRL_en || s.f F.ML_STATUS_role ≠ 3 then s
  else if s.on F.ML_STATUS_link then
    if s.f F.ML_PARTNER_role = 1 then s.takeRole 2
    else
      let s := if s.on F.SYS_STRAP_pair_role = s.on F.ML_PARTNER_strap then s.strapConflict else s
      if s.winsStraps then s.leadOrYield
      else if s.f F.SYS_SVC_level = 1 ∧ s.f F.ML_PARTNER_level = 2 then s.takeRole 1
      else s.takeRole 2
  else if s.arbWaited then
    if s.on F.SYS_STRAP_pair_role ∨ s.on F.ML_STATUS_pfn then s.takeRole 1 else s
  else s

/-- Arbitration begins when the device reaches service level 1 or 2 (R448). -/
def startArb (s : State) : State :=
  if !s.on F.ML_CTRL_en then s
  else ((s.setF F.ML_STATUS_role 3).modMl (fun m => { m with arbStart := some s.tick })).arbitrate

/-- The link returns with two primaries (R452). -/
def resolvePrimaries (s : State) : State :=
  if s.f F.ML_STATUS_role = 1 ∧ s.f F.ML_PARTNER_role = 1 then
    let s := if s.on F.SYS_STRAP_pair_role = s.on F.ML_PARTNER_strap then s.strapConflict else s
    if s.winsStraps then s else s.takeRole 2
  else s

/-! ### Hand-over (R454) -/

/-- A HAND_OVER frame. -/
def isHandOver : MlMsg → Bool
  | .handOver _ => true
  | _ => false

/-- The conditions of a hand-over (R454). -/
def mayHandOver (s : State) : Bool :=
  s.on F.ML_CTRL_en && s.f F.ML_STATUS_role = 1 && s.on F.ML_STATUS_link && s.on F.ML_STATUS_sync && s.f F.ML_PARTNER_level = 1

/-- The last decided frame ID of every context with an undecided frame (R441): the one before its oldest. -/
def lastDecided (s : State) : List (Nat × Nat) :=
  s.enabled.filterMap (fun n => match s.frms n with
    | f :: _ => some (n, if f.ord / 16 = 0 then 0 else frameId (f.ord / 16 - 1))
    | [] => none)

/-- HAND_OVER is sent and waits to be acknowledged (R454). -/
def sendHandOver (s : State) : State :=
  let s := s.mlSend (.handOver s.lastDecided)
  s.withMl { s.ml with handOver := some s.tick }

/-- HAND_OVER sent first by a primary that leaves full service (R454). -/
def offerHandOver (s : State) : State := if s.mayHandOver && s.ml.handOver.isNone then s.sendHandOver else s

end State

end Sys2Proof.Machine
end

