-- ==== Sys2Proof/Machine/Warden.lean ====
section
/-! DEFINITION. Verdict pairs at work: mismatches, restarts, role moves, and sentinel service (R313 to R321, R333 to
R335). -/

namespace Sys2Proof.Machine

open Sys2Proof

namespace State

/-- The program that runs on pair `v` ends as an internal fault (R148, R260, R316). -/
def abandonProgram (s : State) (v : Nat) : State := if s.vpRuns v then s.vpEnd 0x0E else s

/-- Sentinel service is entered with a cause (R334, R335); a primary hands over first (R454), and the roles are arbitrated
(R448). -/
def enterSentinel (s : State) (cause : Nat) : State :=
  if s.f F.SYS_SVC_level = 2 then s
  else
    let s := s.offerHandOver
    let s := ((s.setF F.SYS_SVC_level 2).setF F.SYS_SVC_cause cause).setF F.VD_CTRL_sentinel 1
    let s := s.stopJobs (fun _ => true)
    let s := match s.vp2.run with
      | some _ => s.vpEnd 0x0E
      | none => s
    let s := (s.withVp2 { s.vp2 with queue := [] }).showVp
    let s := (s.raiseStanding { src := Src.SYS_SENTINEL, detail := cause }).driveOuts
    if s.ml.handOver.isSome then s else s.startArb

/-- The service level after a pair has stopped running (R321): it follows the number of pairs that run and are not fallow, so
a pair that restarts counts no more than a fallow one (log 137). -/
def checkPairs (s : State) : State :=
  if s.workingPairs < 2 ∧ s.f F.SYS_SVC_level = 1 then s.enterSentinel 1 else s.driveOuts

/-- Pair `v` was restarted in this tick, and not for a mismatch: by its watchdog, so that a mismatch of the same tick is still one
(R366). -/
def restartedNow (s : State) (v : Nat) : Bool :=
  s.f (F.SYS_VP_STAT_state v) = 4 && (s.pairX v).restartDue = s.tick + ms 2
    && Table.get (fun _ => 0) s.fc.lastRaise (Src.VP_MISMATCH v) ≠ s.tick + 1

/-- A mismatch of pair `v` in comparator group `g` (R316, R317, R366). -/
def mismatch (s : State) (v g : Nat) : State :=
  let twice := s.restartedNow v
  if s.f (F.SYS_VP_STAT_state v) ≠ 2 ∧ !twice then s
  else
    let s := if twice then s else (s.abandonProgram v).haltPair v
    let s := s.raise { src := Src.VP_MISMATCH v, inst := v, detail := g, master := 2 * v }
    let s := ((s.setF F.SYS_CMP_LAST_pair v).setF F.SYS_CMP_LAST_group g).setDword A.SYS_CMP_TIME s.time
    let s := (s.countUp (F.SYS_VP_STAT_mism v)).retryEvent 9 v
    if s.isFallow 9 v then ((s.setF (F.SYS_VP_STAT_state v) 0).moveRoles v).checkPairs
    else if twice then s
    else (s.restartPair v).checkPairs

/-- Difference injection of pair `v` has ended, with the groups that failed to flag (R315, R316). -/
def injectionEnd (s : State) (v failed : Nat) : State :=
  let st := s.f (F.SYS_VP_STAT_state v)
  if st ≠ 4 ∧ st ≠ 1 then s
  else if failed ≠ 0 then
    let s := (List.range 5).foldl (fun s g => if bitOf failed g then s.setF ⟨A.SYS_CMP_STAT, 5 * v + g, 1⟩ 1 else s) s
    (s.pairFails v).checkPairs
  else
    let h := s.hart (pairHart v)
    ((s.runPair v).setHart (pairHart v) { Hart.reset with ext := h.ext }).driveOuts

/-- The role that moves starts from its checkpoint on the receiving pair (R319, R320). -/
def resumeRole (s : State) (r : Nat) : State :=
  match s.roleMoves.find? (fun m => m.role = r) with
  | none => s
  | some m =>
    let to_ := if s.pairWorks m.pair ∧ (s.pairX m.pair).barred = false then some m.pair else s.nextPair m.pair
    match to_ with
    | none => s
    | some v => (s.withRoleMoves (s.roleMoves.filter (fun m => m.role ≠ r))).placeRole r v

end State

/-- A mismatch of a verdict pair (R314, R316, R317). -/
def execVpMismatch (t : Nat) (pair : Fin 4) (group : Fin 5) (s : State) : Host.Outcome State Fault Refusal :=
  done ((s.start t).mismatch pair group).takeEnded

/-- A pair has passed, or failed, difference injection and runs again (R315, R316). -/
def execPairRestartDone (t : Nat) (pair : Fin 4) (failed : BitVec 5) (s : State) : Host.Outcome State Fault Refusal :=
  done ((s.start t).injectionEnd pair failed.toNat).takeEnded

/-- A role that moves starts on its receiving pair (R319). -/
def execRoleResume (t : Nat) (role : Fin 4) (s : State) : Host.Outcome State Fault Refusal :=
  done ((s.start t).resumeRole role)

/-- Sentinel service is entered during service for a cause of R335. -/
def execSentinelEntry (t : Nat) (cause : Fin 8) (s : State) : Host.Outcome State Fault Refusal :=
  let s := s.start t
  if cause.val = 0 then done s else done (s.enterSentinel cause).takeEnded

end Sys2Proof.Machine
end

