-- ==== Sys2Proof/Machine/Regen.lean ====
section
/-! DEFINITION. Regeneration regions and their queue, what a lost word or block does (R380 to R386), and the frames and
graph instances a lost GDDR6 block touches (R383). -/

namespace Sys2Proof.Machine

open Sys2Proof

namespace State

/-- What a region or unit under regeneration, or a failed region, holds of the library entries is not placed (R80, R386). -/
def holdPatches (s : State) : State :=
  let spans := s.dma.regen.map (fun x => s.unitSpan x.1 x.2) ++ ((List.range 64).filter s.regionFailed).map s.regionOf
  if spans.isEmpty then s
  else
    (List.range (s.f F.FP_PLIB_CNT_count)).foldl (fun s i =>
      let held := (physSpans (s.dword A.FP_PLIB_BASE + 0x40000 * i) 0x40000).flatMap (fun x => spans.flatMap (fun r => meetSpan r.1 r.2 x))
      let old := Table.get (fun _ => []) s.plibBad i
      s.withPlibBad (Table.put (fun _ => []) s.plibBad i (old ++ held.filter (fun x => !old.contains x)))) s

/-- The images whose launches end with ERR_IMAGE, the library entries not placed, and the queue's registers (R80, R236,
R386, R403). -/
def showRegen (s : State) : State :=
  let images := (s.gs.graphs.map s.dirEntry).filter (fun e => s.underRegen e.1 e.2)
  let s := (s.withGs { s.gs with regen := images.map Prod.fst }).holdPatches
  (s.setF F.DMA_REGEN_STAT_depth s.dma.regen.length).flag F.DMA_STATUS_regen (!s.dma.regen.isEmpty)

/-- A unit is queued: merged when it is queued already, counted when the queue is full (R385).  Says whether it waits. -/
def queueUnit (s : State) (x : Nat × Nat) : State × Bool :=
  if s.dma.regen.contains x then (s, true)
  else if 16 ≤ s.dma.regen.length then (s.count F.DMA_REGEN_STAT_ovf F.DMA_STATUS_sat, false)
  else ((s.withDma { s.dma with regen := s.dma.regen ++ [x] }).showRegen, true)

/-- Queues the unit that holds address `a`, unless its region has failed.  Says whether it waits. -/
def queueAt (s : State) (a : Nat) : State × Bool :=
  match s.unitOf a with
  | none => (s, false)
  | some x => if s.regionFailed x.1 then (s, false) else s.queueUnit x

/-! ### Words of on-die memories (R380, R381) -/

/-- A word of an on-die memory is found lost (R380, R381): queued for regeneration, or its memory's source is raised,
once until it is written again. -/
def loseWord (s : State) (a master : Nat) : State :=
  let known := s.isLost a
  let s := s.markLost a
  match region a with
  | .warden =>
    let (s, waits) := s.queueAt a
    if waits || known then s else s.raise { src := Src.WSRAM_DET, addr := a, acc := 1, master := master }
  | .bootRom => if known then s else s.raise { src := Src.WROM_DET, addr := a, acc := 1, master := master }
  | .coreMem n =>
    if known then s
    else (s.raise { src := Src.CX_MEM_DET (n / 4), inst := n / 4, addr := a, acc := 1, master := master }).retryEvent 2 n
  | .clusterMem k =>
    if known then s else s.raise { src := Src.CX_MEM_DET (k / 2), inst := k / 2, addr := a, acc := 1, master := master }
  | _ => s

/-! ### Frames and instances that hold a lost block (R383) -/

/-- The fall-back of a frame that has not ended ends without a result (R140). -/
def dropFallback (s : State) (n : Nat) (f : Frm) : State :=
  if f.fb == .waiting || f.fb == .running then
    let s := s.stopJobs (fun j => j.ctx = n && j.ord = f.ord && j.purpose = .fallback)
    (s.modFrm n f.ord (fun f => { f with fb := .missing })).queueAgreement n f.ord
  else s

/-- Every undecided frame of an enabled context that `sel` names has `k` applied. -/
def eachFrame (s : State) (sel : Nat → Frm → Bool) (k : State → Nat → Frm → State) : State :=
  s.enabled.foldl (fun s n => ((s.frms n).filter (sel n)).foldl (fun s f => k s n f) s) s

/-- The camera frame, as port and ordinal, whose slot holds physical address `x` (R59). -/
def slotsAt (s : State) (x : Nat) : List (Nat × Nat) :=
  (List.range 16).filterMap (fun p =>
    ((s.slotsOf p).find? (fun k => spanHolds k.addr k.len x)).map (fun k => (p, k.ord)))

/-- Whether physical address `x` lies in the ring of an enabled camera port (R59). -/
def inRing (s : State) (x : Nat) : Bool :=
  (List.range 16).any (fun p =>
    let k := (s.cinRegs p)
    s.on (F.FP_CIN_CFG_en p) && spanHolds k.base (cinSlotBytes k * cinSlots k) x)

/-- Evidence slots, as port and slot, that hold physical address `x` (R107). -/
def evSlotsAt (s : State) (x : Nat) : List (Nat × Nat) :=
  [0, 1, 2, 3].filterMap (fun e =>
    let b := s.dword (A.EV_EIN_RING_BASE e)
    let n := 1024 * s.f (F.EV_EIN_RING_slot_kib e)
    ((List.range (s.f (F.EV_EIN_RING_slots e))).find? (fun k => spanHolds (b + n * k) n x)).map (fun k => (e, k)))

/-- The graph arena pool of a die that holds physical address `x` (R216). -/
def poolAt (s : State) (x : Nat) : Option Nat :=
  [0, 1, 2, 3].find? (fun d =>
    spanHolds (s.dword (A.GS_POOL_BASE d)) (0x100000 * s.f (F.GS_POOL_SIZE_mib d)) x)

/-- The node whose output holds physical address `x`, in an instance whose arena holds it (R232, R383). -/
def producer (s : State) (i : Inst) (x : Nat) : Option Nat :=
  (List.range (s.gNodes i.image)).find? (fun k => i.admitted.contains k &&
    (s.nodeOuts i.image k).any (fun tn =>
      spanHolds (s.tensBase i.image tn i.arena i.l.args) (s.tensFoot i.image tn) x))

/-- The node whose output held a lost block is admitted again before its readers (R232, R383): each successor waits
for it once more. -/
def replayProducer (s : State) (i : Inst) (k : Nat) : State :=
  if s.gs.ops.any (fun o => o.inst = i.id && o.node = k) || i.waiting.any (fun w => w.1 = k) then s
  else
    let dec := (s.nodeSuccs i.image k).foldl (fun t j => Table.put (fun _ => 0) t j (Table.get (fun _ => 0) t j - 1)) i.dec
    s.modInst i.id (fun i => { i with
      waiting := i.waiting ++ [(k, 6)], dec := dec, completed := i.completed - 1, again := k :: i.again })

/-- A lost GDDR6 block at physical address `b` is handled by the region that holds it (R383). -/
def loseRegion (s : State) (b : Nat) : State :=
  let zero (s : State) : State := s.setBytes b (List.replicate 256 0)
  let (s, waits) := s.queueAt b
  if waits then s
  else
    match s.slotsAt b, s.evSlotsAt b, s.poolAt b with
    | (p, o) :: _, _, _ =>
      (zero s).eachFrame (fun _ f => f.members.contains (p, o)) (fun s n f => (s.endChecks n f).dropFallback n f)
    | [], (e, k) :: _, _ =>
      (zero s).eachFrame (fun n f => s.accOf n = e && f.evSlot = some k) (fun s n f => s.endEvidence n f)
    | [], [], some d =>
      let at_ (i : Inst) : Nat := s.dword (A.GS_POOL_BASE d) + i.poolAt
      match s.gs.insts.find? (fun i => i.die = d && spanHolds (at_ i) i.need b && i.fin.isNone) with
      | none => zero s
      | some i =>
        match s.producer i b with
        | none => zero s
        | some k => (zero s).replayProducer i k
    | [], [], none => if s.inRing b then zero s else s

end State

end Sys2Proof.Machine
end

