-- ==== Sys2Proof/Machine/Compute.lean ====
section
/-! DEFINITION. The compute dies and graph schedulers at work: residue mismatches, links, droops, the power cap (R178 to
R202), and launches, instances, operations, threads, triggers and windows (R203 to R237). -/

namespace Sys2Proof.Machine

open Sys2Proof

namespace State

/-! ### Items that have gone fallow (R84, R109, R182, R232, R351) -/

/-- CORE `c` has gone fallow: the nodes with threads on it fail with ERR_CORE_LOST (R232). -/
def loseCore (s : State) (c : Nat) : State :=
  let ops := s.gs.ops.filter (fun o => (s.liveThreads c).any (ofOp o))
  (ops.foldl (fun s o => s.failOp o 7) s).showLive c

/-- Operations of a die that is fallow fail with ERR_CORE_LOST (R232). -/
def loseDie (s : State) (d : Nat) : State :=
  if s.dieFallow d then (s.gs.ops.filter (fun o => o.die = d)).foldl (fun s o => s.failOp o 7) s else s

/-- A lane group whose link training has not passed within 1 ms of its return goes fallow again (R354): no command names the end of
the 1 ms, so it is seen with the next event that looks at fallow items or at the mailbox (log 167). -/
def lapseTraining (s : State) : State :=
  (s.fc.training.filter (fun p => p.2 < s.tick)).foldl (fun s p =>
    (s.withFc { s.fc with training := Table.put (fun _ => 0) s.fc.training p.1 0 }).retire 8 p.1) s

/-- What follows when items have gone fallow: it takes effect once, however often it is asked for. -/
def settle (s : State) : State :=
  let s := s.lapseTraining
  let s := (List.range 16).foldl (fun s c =>
    if s.coreFallow c then (if (s.liveThreads c).isEmpty then s else s.loseCore c)
    else
      (List.range 16).foldl (fun s e =>
        if bitOf (s.f (F.CX_CORE_eng_fallow (c / 4) (c % 4))) e && !(s.residents c e).isEmpty then s.evict c e else s) s) s
  let s := [0, 1, 2, 3].foldl loseDie s
  let s := [0, 1, 2, 3].foldl (fun s e =>
    if s.isFallow 5 e && Table.get (fun _ => false) s.evTimerOn e then s.einFallen e else s) s
  let s := (List.range 16).foldl (fun s p => if s.isFallow 4 p then s.cinFallen p else s) s
  let s := (List.range 8).foldl (fun s w => if s.isFallow 6 w then s.loseFwd w else s) s
  s.takeEnded

/-! ### Residue mismatches (R179, R180, R182) -/

/-- CX_RES_LAST of a die (R202). -/
def resLast (s : State) (d c e dpu attempt ctx seq : Nat) : State :=
  s.setDword (A.CX_RES_LAST d) (c * 2 ^ 62 + e * 2 ^ 58 + dpu * 2 ^ 52 + attempt * 2 ^ 50 + ctx * 2 ^ 32 + seq)

/-- A residue or duplicate mismatch at DPU `dpu` in the thread that engine `e` of CORE `c` runs (R180 to R182); an injected one is
no retry event (R356). -/
def residue (s : State) (c e dpu : Nat) (injected : Bool) : State :=
  match (s.engine c e).cur with
  | none => s
  | some x =>
    match s.opOf x with
    | none => s
    | some o =>
      let d := c / 4
      let inst := 16 * (c % 4) + e
      let src := Src.CX_RESIDUE d
      let key := 16 * c + e
      let later := Table.get (fun _ => 0) s.fc.lastRaise src = s.tick + 1 && Table.get (fun _ => 0) s.fc.lastInst src ≤ inst
      let s := if later then s else s.resLast d (c % 4) e dpu (min x.attempt 3) o.ctx o.seq
      let s := s.count (F.CX_RES_CNT_count d (c % 4)) (F.CX_STATUS_sat d)
      let s := s.raise { src := src, inst := inst, detail := inst * 64 + dpu, ctx := o.ctx, seq := o.seq, epoch := o.epoch,
                         master := 0x200 + key, injected := injected }
      let tried := if x.tried.contains key then x.tried else key :: x.tried
      let s := s.clearEngine c e (fun y => y = x)
      let s := if s.opAtomic o || 3 ≤ tried.length then s.failOp o 1
        else s.reissue c e { x with attempt := min (x.attempt + 1) 3, tried := tried }
      let s := s.showLive c
      (if injected then s else s.retryEvent 1 key).settle

/-- Engine `e` is the lowest-numbered of CORE `c` that runs a thread (R355). -/
def firstRunning (s : State) (c e : Nat) : Bool := (List.range e).all (fun k => (s.engine c k).cur.isNone)

/-- An injection of class 8 meets the residue check of a step that engine `e` of CORE `c` makes (R355, R356).  Which DPU is inverted is a free value (log 2). -/
def injectStep (s : State) (c e : Nat) : State :=
  let (k, s) := s.injMade.draw 6
  s.residue c e k true

/-! ### Links (R189, R191) -/

/-- A GDDR6 block is lost (R382, R383): one retry event against its channel, and its region's recovery. -/
def loseBlock (s : State) (a : Nat) : State :=
  let b := phys a / 256 * 256
  match region b with
  | .gddr c => (((s.markLost b).retryEvent 3 c).loseRegion b).settle
  | _ => s

/-- A check-word difference seen at address `a` (R382): counted and raised, with whether the re-read passed. -/
def checkSeen (s : State) (a : Nat) (passes : Bool) : State :=
  match region (phys a) with
  | .gddr c =>
    let s := s.count (F.CX_G6_chk (c / 4) (c % 4)) (F.CX_STATUS_sat (c / 4))
    s.raise { src := Src.G6_CHECK c, inst := c, detail := g6Block (phys a) + 2 ^ 31 * bit passes, addr := a }
  | _ => s

/-- A check-word mismatch at address `a` (R382): the re-read passes, or the block is lost. -/
def checkMismatch (s : State) (a : Nat) (passes : Bool) : State :=
  if passes then s.checkSeen a true else (s.checkSeen a false).loseBlock a

/-! ### Power (R198 to R201) -/

/-- The duty of class `k` of die `d`. -/
def dutyField (d k : Nat) : Field := ⟨A.CX_PWR_DUTY d, 12 - 4 * k, 4⟩

/-- The first class of an order whose duty meets a test. -/
def dutyOf (s : State) (d : Nat) (order : List Nat) (test : Nat → Bool) : Option Nat := order.find? (fun k => test (s.f (dutyField d k)))

/-- The cap in force at an interval end (R201): a write in the same tick comes too late. -/
def capNow (s : State) (d : Nat) : Nat :=
  if Table.get (fun _ => 0) s.gs.capTick d = s.tick + 1 then Table.get (fun _ => 0) s.gs.capPrev d else s.f (F.CX_PWR_CAP_cap_w d)

/-- One power interval of die `d` ends with an average of `p` / 16 W (R198 to R200). -/
def powerInterval (s : State) (d p : Nat) : State :=
  let s := s.setF (F.CX_PWR_MEAS_p d) p
  let cap := s.capNow d
  if cap = 0 then ([0, 1, 2, 3].foldl (fun s k => s.setF (dutyField d k) 8) s).setF (F.CX_STATUS_safety_thr d) 0
  else if 16 * cap < p then
    match s.dutyOf d [3, 2, 1, 0] (fun v => 0 < v) with
    | none => s
    | some k =>
      let old := s.f (dutyField d k)
      let s := (s.setF (dutyField d k) (old - 1)).count (F.CX_PWR_STAT_steps d) (F.CX_STATUS_sat d)
      if k = 0 then
        let s := s.setF (F.CX_STATUS_safety_thr d) 1
        if old = 8 then
          (s.count (F.CX_PWR_STAT_safety d) (F.CX_STATUS_sat d)).raise { src := Src.CX_PWR_SAFETY d, inst := d, detail := d }
        else s
      else s
  else if 10 * p ≤ 9 * 16 * cap then
    match s.dutyOf d [0, 1, 2, 3] (fun v => v < 8) with
    | none => s
    | some k =>
      let s := s.setF (dutyField d k) (s.f (dutyField d k) + 1)
      s.flag (F.CX_STATUS_safety_thr d) (s.f (dutyField d 0) < 8)
  else s

/-- A write of CX_PWR_CAP (R198, R201). -/
def writeCap (s : State) (d v : Nat) : State :=
  let w := v % 64
  if 61 ≤ w then s.respond .errParam
  else
    let first := Table.get (fun _ => 0) s.gs.capTick d ≠ s.tick + 1
    let prev := if first then s.f (F.CX_PWR_CAP_cap_w d) else Table.get (fun _ => 0) s.gs.capPrev d
    let s := s.setF (F.CX_PWR_CAP_cap_w d) w
    s.withGs { s.gs with
      capPrev := Table.put (fun _ => 0) s.gs.capPrev d prev
      capTick := Table.put (fun _ => 0) s.gs.capTick d (s.tick + 1) }

/-- CX_CLR.all of die `d` (R202). -/
def clearCx (s : State) (d : Nat) : State :=
  let s := [0, 1, 2, 3].foldl (fun s c =>
    let s := (s.setWord (A.CX_RES_CNT d c) 0).setWord (A.CX_DROOP d c) 0
    (s.setF (F.CX_G6_link d c) 0).setF (F.CX_G6_chk d c) 0) s
  ((s.setF (F.CX_LINK_retries d) 0).setWord (A.CX_PWR_STAT d) 0).setF (F.CX_STATUS_sat d) 0

/-! ### Launches and instances -/

/-- A write of GS_LAUNCH (R212, R214). -/
def writeLaunch (s : State) (d addr : Nat) : State :=
  if 16 ≤ (s.intakeOf d).length then s.respond .errFull
  else s.launched.setIntake d (s.intakeOf d ++ [s.readLaunch addr])

/-- A completion message arrives on die `d` (R220). -/
def takeMessage (s : State) (d : Nat) : State :=
  match s.gs.insts.find? (fun i => i.msgs.any (fun m => m.1 = d)) with
  | none => s
  | some i =>
    match i.msgs.find? (fun m => m.1 = d) with
    | none => s
    | some m => s.modInst i.id (fun i => { i with
        msgs := i.msgs.erase m
        dec := Table.put (fun _ => 0) i.dec m.2 (Table.get (fun _ => 0) i.dec m.2 + 1) })

/-- What node `k` of an instance reads is whole again (R232): no unit of its image or of its inputs is being regenerated. -/
def readsWhole (s : State) (i : Inst) (k : Nat) : Bool :=
  !s.gs.regen.contains i.image && !s.regenWaits i.image i.imageLen
    && (s.nodeIns i.image k).all (fun tn => !s.regenWaits (s.tensBase i.image tn i.arena i.l.args) (s.tensFoot i.image tn))

/-- A node of die `d` that waits for its replay, and can have it (R232). -/
def replayOf (s : State) (d : Nat) : Option (Inst × Nat) :=
  (s.gs.insts.flatMap (fun i => (i.waiting.filter (fun w => w.2 ≠ 6 || s.readsWhole i w.1)).map (fun w => (i, w.1)))).find?
    (fun p => s.nodeDie p.1.die (s.nodeDieOff p.1.image p.2) = d)

/-- A node is admitted again (R232): it becomes ready, and its replay is counted. -/
def replay (s : State) (d : Nat) (i : Inst) (k : Nat) : State :=
  let s := s.modInst i.id (fun i => { i with
    waiting := i.waiting.filter (fun w => w.1 ≠ k), admitted := i.admitted.filter (· ≠ k), replays := i.replays + 1 })
  s.count (F.GS_ERR_replay d) (F.GS_STATUS_sat d)

/-- The write of GS_STOP (R234). -/
def writeStop (s : State) (d n fid : Nat) : State := s.stopWhere d (fun l => l.ctx = n && l.fid = fid)

/-- The references of the safety windows of die `d` that bear on the present tick (R229): the recent Frame Starts in mode 1; the
present period and the one before it in mode 0. -/
def windowRefs (s : State) (d : Nat) : List Nat :=
  let l := Table.get (fun _ => []) s.gs.winRef d
  if s.on (F.GS_WCFG_mode d) then l
  else
    let p := us (s.f (F.GS_WCFG_period d))
    l.flatMap (fun r => let now := r + (s.tick - r) / max 1 p * p; if r + p ≤ now then [now, now - p] else [now])

/-- Window `w` of die `d` is in its time (R229). -/
def windowDue (s : State) (d w : Nat) : Bool :=
  s.on (F.GS_WCFG_en d) && (s.windowRefs d).any (fun r =>
    let from_ := r + 2500 * s.f (F.GS_WIN_off d w)
    Nat.ble from_ s.tick && Nat.blt s.tick (from_ + 2500 * s.f (F.GS_WIN_len d w)))

/-- The state with window `w` of die `d` open or closed. -/
def setWindow (s : State) (d w : Nat) (b : Bool) : State :=
  s.withGs { s.gs with winOpen := Table.put (fun _ => false) s.gs.winOpen (4 * d + w) b }

/-- The last firing tick of periodic trigger `k`: in the tick of a commit, that under the settings before it (R217). -/
def trigLast (s : State) (k : Nat) : Nat :=
  Table.get (fun _ => 0) (if s.spsTick = s.tick + 1 then s.gs.trigWas else s.gs.trigTick) k

/-- GS_CLR.all (R237). -/
def clearGs (s : State) (d : Nat) : State :=
  let s := (List.range 16).foldl (fun s t => s.setWord (A.GS_TRIG_STAT d t) 0) s
  (s.setWord (A.GS_ERR d) 0).setF (F.GS_STATUS_sat d) 0

/-- Triggers of die `d` fired by a write of GS_TRIG_FIRE (R217). -/
def writeFire (s : State) (d mask : Nat) : State :=
  (List.range 16).foldl (fun s t =>
    if bitOf mask t ∧ s.trigF d t (F.GS_TRIG_src d t) = 3 then s.fireTrig d t none none none else s) s

end State

/-- Residue or duplicate mismatches of one step (R180 to R182): one event however many DPUs `dpus` names, at the lowest of them. -/
def execResidueMismatch (t : Nat) (core engine : Fin 16) (dpus : BitVec 64) (s : State) : Host.Outcome State Fault Refusal :=
  let s := s.start t
  match (List.range 64).find? dpus.getLsbD with
  | some k => done (s.residue core engine k false)
  | none => done s

/-- A GDDR6 burst at `addr` of channel c fails its code and is retried (R189).  When it fails after the third retry, that is a
first failing read, and `fate` says how the re-read fares (R382). -/
def execG6BurstRetry (t : Nat) (c : Fin 16) (retries : Fin 4) (addr : BitVec 48) (fate : BurstEnd) (s : State) :
    Host.Outcome State Fault Refusal :=
  let s := s.start t
  let s := (List.range retries.val).foldl (fun s _ =>
    let s := s.count (F.CX_G6_link (c.val / 4) (c.val % 4)) (F.CX_STATUS_sat (c.val / 4))
    let s := s.raise { src := Src.G6_LINK c, inst := c, detail := c, addr := addr.toNat }
    (s.ctAdd (0x18 + c) 256).retryEvent 3 c) s
  done (if fate ≠ .passed && retries.val = 3 then (s.checkMismatch addr.toNat (fate = .reread)).ctAdd (0x18 + c) 256 else s).settle

/-- A flit is resent on a lane group (R191): groups 0 to 15 are those of the warden links, 16 to 47 those of the ring.  The die that
counts it in CX_LINK.retries is that of the link, or the one the hop is named by (log 165); in which direction it moved, and so
which counter counts its bytes again (R297), is a free value (log 165). -/
def execFlitResend (t : Nat) (group : Fin 48) (s : State) : Host.Outcome State Fault Refusal :=
  let s := s.start t
  let g := group.val
  let d := if g < 16 then g / 4 else (g - 16) / 8
  let s := s.count (F.CX_LINK_retries d) (F.CX_STATUS_sat d)
  let (k, s) := s.draw 1
  let s := s.ctAdd ((if g < 16 then 0x28 else 0x30) + 2 * d + k) 256
  let s := s.raise { src := if g < 16 then Src.D2D_WL d else Src.D2D_RING d, inst := d, detail := g }
  done (s.retryEvent 8 g).settle

/-- A droop stretches `cycles` CLK_CORE cycles of a core (R196, R297).  By how much of a cycle is a free value up to a
quarter (log 2). -/
def execDroopStretch (t : Nat) (core : Fin 16) (cycles : Nat) (s : State) : Host.Outcome State Fault Refusal :=
  let s := s.start t
  let s := s.count (F.CX_DROOP_stretch (core.val / 4) (core.val % 4)) (F.CX_STATUS_sat (core.val / 4))
  let (k, s) := s.draw 32
  let loss := cycles + k % (cycles / 4 + 1)
  let total := Table.get (fun _ => 0) s.ct.lost core + loss
  let s := s.withCt { s.ct with lost := Table.put (fun _ => 0) s.ct.lost core total }
  done (s.ctAdd (0x90 + core) cycles)

/-- A droop has lasted beyond 1 µs: the core holds its engines' clock (R197). -/
def execDroopHold (t : Nat) (core : Fin 16) (s : State) : Host.Outcome State Fault Refusal :=
  let s := s.start t
  let d := core.val / 4
  if Table.get (fun _ => 0) s.gs.hold core ≠ 0 then done s
  else
    let s := s.count (F.CX_DROOP_stop d (core.val % 4)) (F.CX_STATUS_sat d)
    let s := s.withGs { s.gs with hold := Table.put (fun _ => 0) s.gs.hold core (s.tick + 1) }
    done (s.raise { src := Src.CX_DROOP_LONG d, inst := core.val % 4, detail := core.val % 4 })

/-- The supply has recovered for 100 ns: the core goes on, and its waiting threads take engines (R197, R226). -/
def execDroopHoldEnd (t : Nat) (core : Fin 16) (s : State) : Host.Outcome State Fault Refusal :=
  let s := s.start t
  let h := Table.get (fun _ => 0) s.gs.hold core
  if h = 0 then done s
  else
    let lost := Table.get (fun _ => 0) s.ct.lost core + 6 * (s.tick + 1 - h)
    let s := s.withGs { s.gs with hold := Table.put (fun _ => 0) s.gs.hold core 0 }
    done ((s.withCt { s.ct with lost := Table.put (fun _ => 0) s.ct.lost core lost }).fillCore core)

/-- A 100 µs power interval of a die ends with its average, in 1/16 W (R198 to R201). -/
def execPwrIntervalEnd (t : Nat) (die : Fin 4) (p : BitVec 16) (s : State) : Host.Outcome State Fault Refusal :=
  done ((s.start t).powerInterval die p.toNat)

/-- CX_PWR_CAP written (R198, R201). -/
def execCxPwrCap (t : Nat) (die : Fin 4) (value : Word) (s : State) : Host.Outcome State Fault Refusal :=
  done ((s.start t).writeCap die value.toNat)

/-- CX_CLR (R202). -/
def execCxClr (t : Nat) (die : Fin 4) (value : Word) (s : State) : Host.Outcome State Fault Refusal :=
  let s := s.start t
  done (if bitOf value.toNat 0 then s.clearCx die else s)

/-- GS_LAUNCH, high word written (R214, R237). -/
def execGsLaunch (t : Nat) (die : Fin 4) (addr : BitVec 48) (s : State) : Host.Outcome State Fault Refusal :=
  done ((s.start t).writeLaunch die (addr.toNat / 64 * 64))

/-- The intake of a die moves on, and the head of a class queue becomes an instance when it can (R214 to R216, R220). -/
def execInstanceStart (t : Nat) (die : Fin 4) (cls : Fin 4) (s : State) : Host.Outcome State Fault Refusal :=
  done (((s.start t).drainIntake die).startInst die cls).takeEnded

/-- The next ready node of a die is admitted (R221, R222, R230). -/
def execNodeAdmit (t : Nat) (die : Fin 4) (s : State) : Host.Outcome State Fault Refusal :=
  let s := s.start t
  match s.nextReady die with
  | none => done s
  | some (i, k) => done (s.admitNode die i k)

/-- A chunk of at most n threads is issued to a core (R223 to R228). -/
def execThreadIssue (t : Nat) (core : Fin 16) (n : Fin 65) (s : State) : Host.Outcome State Fault Refusal :=
  done ((s.start t).issueChunk core n)

/-- A thread that engine `e` of CORE `c` switches away from is saved in its 24 KiB area, behind its scratch in the engine's share
(R273): the layout there is not stated, so the bytes are free values (log 138), and the state itself stands in Engine.parked. -/
def State.saveArea (s : State) (c e : Nat) (x : Thr) : State :=
  match s.opOf x with
  | none => s
  | some o =>
    let a := s.sharePlace o.die c e x.place + s.opScratch o
    let (v, s) := s.draw (8 * 24576)
    (s.setBytes a (leBytes 24576 v)).trafficW a 24576

/-- The area of a thread that an engine resumes is read (R273, R297). -/
def State.loadArea (s : State) (c e : Nat) (x : Thr) : State :=
  match s.opOf x with
  | none => s
  | some o => s.traffic (s.sharePlace o.die c e x.place + s.opScratch o) 24576

/-- An engine switches to its parked thread number `park` after `stalled` cycles in which it issued nothing (R225, R273,
R297). -/
def execThreadSwitch (t : Nat) (core engine : Fin 16) (park : Fin 16) (stalled : Nat) (s : State) :
    Host.Outcome State Fault Refusal :=
  let s := s.start t
  let en := s.engine core engine
  let k := 16 * core.val + engine.val
  match en.cur, en.parked[park.val]? with
  | some x, some y =>
    let s := ((s.ctAdd (0x70 + core) stalled).saveArea core engine x).loadArea core engine y.thr
    let saved : Parked := ⟨x, s.hart (State.seqHart k), s.tile k⟩
    done (((s.setEngine core engine ⟨some y.thr, en.parked.set park saved⟩).setHart (State.seqHart k) y.hart).setTile k y.tile)
  | some _, none => done (s.ctAdd (0x70 + core) stalled)
  | none, _ => done s

/-- An operation of a die whose threads have all ended completes (R220). -/
def execNodeComplete (t : Nat) (die : Fin 4) (s : State) : Host.Outcome State Fault Refusal :=
  let s := s.start t
  match s.gs.ops.find? (fun o => o.die = die.val && s.opDone o) with
  | none => done s
  | some o => done (s.completeOp o)

/-- A completion message arrives on a die (R220). -/
def execCompletionMessage (t : Nat) (die : Fin 4) (s : State) : Host.Outcome State Fault Refusal :=
  done ((s.start t).takeMessage die)

/-- A node of a die is readmitted for its replay (R232). -/
def execNodeReplay (t : Nat) (die : Fin 4) (s : State) : Host.Outcome State Fault Refusal :=
  let s := s.start t
  match s.replayOf die with
  | none => done s
  | some (i, k) => done (s.replay die i k)

/-- An instance of a die that is over writes its completion record and is freed (R216, R233, R235). -/
def execInstanceEnd (t : Nat) (die : Fin 4) (s : State) : Host.Outcome State Fault Refusal :=
  let s := s.start t
  match s.gs.insts.find? (fun i => i.die = die.val && i.fin.isSome && s.gs.ops.all (fun o => o.inst ≠ i.id)) with
  | none => done s
  | some i => done (s.retireInst i).takeEnded

/-- GS_STOP, high word written (R234). -/
def execGsStop (t : Nat) (die : Fin 4) (ctx : Fin 1024) (fid : Word) (s : State) : Host.Outcome State Fault Refusal :=
  done ((s.start t).writeStop die ctx fid.toNat).takeEnded

/-- GS_TRIG_FIRE (R217). -/
def execGsTrigFire (t : Nat) (die : Fin 4) (mask : BitVec 16) (s : State) : Host.Outcome State Fault Refusal :=
  done ((s.start t).writeFire die mask.toNat)

/-- The period of a trigger passes (R217); not yet due, nothing happens. -/
def execTriggerPeriod (t : Nat) (die : Fin 4) (trig : Fin 16) (s : State) : Host.Outcome State Fault Refusal :=
  let s := s.start t
  let k := 16 * die.val + trig.val
  let last := s.trigLast k
  if s.trigF die trig (F.GS_TRIG_en die trig) = 1 ∧ s.trigF die trig (F.GS_TRIG_src die trig) = 2
      ∧ last + State.us (s.trigF die trig (F.GS_TRIG_period die trig)) ≤ s.tick then
    let s := s.withGs { s.gs with
      trigTick := Table.put (fun _ => 0) s.gs.trigTick k s.tick
      trigWas := Table.put (fun _ => 0) s.gs.trigWas k s.tick }
    done (s.fireTrig die trig none none (some s.time))
  else done s

/-- A safety window opens (R229); outside its time, nothing happens. -/
def execSafetyWindowOpen (t : Nat) (die : Fin 4) (w : Fin 4) (s : State) : Host.Outcome State Fault Refusal :=
  let s := s.start t
  done (if s.windowDue die w then s.setWindow die w true else s)

/-- A safety window closes (R229); before its end, nothing happens. -/
def execSafetyWindowClose (t : Nat) (die : Fin 4) (w : Fin 4) (s : State) : Host.Outcome State Fault Refusal :=
  let s := s.start t
  done (if s.windowDue die w then s else s.setWindow die w false)

/-- GS_CLR (R237). -/
def execGsClr (t : Nat) (die : Fin 4) (value : Word) (s : State) : Host.Outcome State Fault Refusal :=
  let s := s.start t
  done (if bitOf value.toNat 0 then s.clearGs die else s)

end Sys2Proof.Machine
end

