-- ==== Sys2Proof/Machine/Gleaner.lean ====
section
/-! DEFINITION. The gleaner at work: records into the trace buffer, markers, arming, clearing (R304 to R309). -/

namespace Sys2Proof.Machine

open Sys2Proof

namespace State

/-- The gleaner has written fewer than 16 records in the present microsecond (R304). -/
def ctRate (s : State) : Bool := s.ct.burst.1 ≠ s.tick / 250 || s.ct.burst.2 < 16

/-- One more record in the present microsecond. -/
def ctBurst (s : State) : State :=
  let b := if s.ct.burst.1 = s.tick / 250 then (s.ct.burst.1, s.ct.burst.2 + 1) else (s.tick / 250, 1)
  s.withCt { s.ct with burst := b }

/-- The record at the front in end-time order goes to the buffer (R304, R307, R309), once the tick it ended in is over:
not past a trigger whose marker is still to be written. -/
def glean (s : State) : State :=
  match s.ctFront with
  | none => s
  | some (d, r) =>
    if !s.ctRate || Nat.ble s.tick r.endTick || s.ct.marker.any (fun m => m.1 < r.endTick) then s
    else
      let s := (s.ctPop d).ctBurst
      if s.ct.armAt = s.tick + 1 then s else s.ctWrite r.body

/-- The marker of the trigger that was taken (R307, R308). -/
def putMarker (s : State) : State :=
  match s.ct.marker with
  | none => s
  | some (tick, src, ns) =>
    if !s.ctPassed tick || !s.ctRate then s
    else
      let pos := s.f F.CT_WP_next
      let s := (s.ctPut (markerBody src ns)).ctBurst
      let s := (((s.setF F.CT_TRIG_POS_pos pos).setF F.CT_TRIG_POS_valid 1).setF F.CT_STATUS_trig 1)
      let s := s.withCt { s.ct with marker := none, post := 1 }
      if s.ctPost ≤ 1 then s.setF F.CT_STATUS_full 1 else s

/-- CT_CLR.arm (R309): what was written in the same tick is lost and not counted. -/
def arm (s : State) : State :=
  let now := if s.ct.putTick.1 = s.tick + 1 then s.ct.putTick.2 else 0
  let s := s.setDword A.CT_TOTAL ((s.dword A.CT_TOTAL + 2 ^ 64 - now) % 2 ^ 64)
  let s := (s.setWord A.CT_WP 0).setWord A.CT_TRIG_POS 0
  let s := ((s.setF F.CT_STATUS_full 0).setF F.CT_STATUS_trig 0).setF F.CT_STATUS_ringwrap 0
  (s.withCt { s.ct with mode := s.f F.CT_CTRL_mode, marker := none, matched := [], written := 0, post := 0, putTick := (0, 0),
                             armAt := s.tick + 1 })

/-- CT_CLR.cnt (R312). -/
def clearCt (s : State) : State :=
  (((s.setWord A.CT_DROP 0).setF F.CT_STATUS_wrap 0).setF F.CT_STATUS_sat 0).withCt { s.ct with wrapBase := s.normalWraps }

/-- CT_TRIG_FIRE.fire (R307). -/
def fireCt (s : State) : State := if s.on F.CT_TRIG_sw then s.ctTrigger 0xFFFFFFFF else s

end State

/-- The gleaner writes the next record (R304, R306, R308). -/
def execGleanerWrite (t : Nat) (s : State) : Host.Outcome State Fault Refusal := done (s.start t).glean

/-- The gleaner writes the marker of a trigger (R307). -/
def execTriggerMarker (t : Nat) (s : State) : Host.Outcome State Fault Refusal := done (s.start t).putMarker

/-- CT_CLR.arm written as 1 (R309). -/
def execCtArm (t : Nat) (s : State) : Host.Outcome State Fault Refusal := done (s.start t).arm

/-- CT_CLR.cnt written as 1 (R312). -/
def execCtClrCnt (t : Nat) (s : State) : Host.Outcome State Fault Refusal := done (s.start t).clearCt

/-- CT_TRIG_FIRE written (R307). -/
def execCtTrigFire (t : Nat) (value : Word) (s : State) : Host.Outcome State Fault Refusal :=
  let s := s.start t
  done (if bitOf value.toNat 0 then s.fireCt else s)

end Sys2Proof.Machine
end

