-- ==== Sys2Proof/Machine/Reset.lean ====
section
/-! DEFINITION. Resets: of the whole device, of the warden die, of one compute die (R297, R323, R324, R346, R409, R497,
R508), and the mask of the register bits a partial reset keeps. -/

namespace Sys2Proof.Machine

open Sys2Proof

/-- The access masks of the register word at `a`: RW, RWL, W1C, WO. -/
def wordMasks (a : Nat) : Nat × Nat × Nat × Nat :=
  match regAt a with
  | none => (0, 0, 0, 0)
  | some (r, _, w) =>
    let m (x : Nat) : Nat := (x >>> (32 * w)) % 0x100000000
    (m r.rw, m r.rwl, m r.w1c, m r.wo)

/-- Byte offset of an address within the window of the compute die that holds it. -/
def dieOffset (d a : Nat) : Nat := a - (0x1000000000 + d * 0x400000000)

/-- The address lies in the window of die `d`. -/
def inDie (d a : Nat) : Bool := decide (0x1000000000 + d * 0x400000000 ≤ a) && decide (a < 0x1400000000 + d * 0x400000000)

/-- A processor of die `d`: control processors 0x100 + n and tile sequencers 0x200 + 16 n + e of its cores (R240). -/
def hartOfDie (d h : Nat) : Bool :=
  (decide (0x100 + 4 * d ≤ h) && decide (h < 0x104 + 4 * d)) || (decide (0x200 + 64 * d ≤ h) && decide (h < 0x240 + 64 * d))

namespace State

/-- A core or cluster memory address of die `d`, whose contents a reset of the die loses (R497). -/
def dieSram (d a : Nat) : Bool := inDie d a && Decidable.decide (0x100000000 ≤ dieOffset d a) && Decidable.decide (dieOffset d a < 0x112000000)

/-- last_cause, both copies (R324). -/
def setCause (s : State) (c : Nat) : State := s.setRet2 0x40 0x44 c

/-- A GDDR6 channel holds no valid data (R517): every byte written there becomes a free value (log 35). -/
def scrapChannel (s : State) (c : Nat) : State :=
  (s.mem.filter (fun p => region p.1 = .gddr c)).foldl (fun (s : State) (p : Nat × Byte) =>
    let (v, s) := s.draw 8
    s.setByte p.1 (BitVec.ofNat 8 v)) s

/-- A march over a whole GDDR6 channel that ran, however it ends, leaves nothing valid there (R510, R517). -/
def lbScrap (s : State) : State :=
  match s.lb with
  | some ⟨_, some _⟩ =>
    if s.f F.SYS_LB_CFG_iface = 6 ∧ s.f F.SYS_LB_CFG_depth = 2 then s.scrapChannel (s.f F.SYS_LB_CFG_num) else s
  | _ => s

/-- A warden warm reset (`warm`) or a reset of the whole device with a cause (R324, R346, R409, R497, R508).  The retained
block, flash, fuses, straps, GDDR6 and warden SRAM keep their contents; Core and Cluster Memory lose them (log 26).  A warden warm
reset also keeps the TM registers, the time base and servo, the activity counters and ACC_PWREN, and watchdog 4 counts on from it
(R361, R377). -/
def deviceReset (s : State) (warm : Bool) (cause : Nat) : State :=
  let keep (a : Nat) : Bool :=
    (Decidable.decide (retBase ≤ a) && Decidable.decide (a < retBase + 0x1000)) || a = A.SYS_STRAP
      || (warm && Decidable.decide (0x20020000 ≤ a) && Decidable.decide (a < 0x20030000))
  let s := s.lbScrap
  let pwren := [0, 1, 2, 3].filter (fun a => warm && s.on (F.SIO_ACC_STAT_pwr a))
  let now := s.tick
  let r : State := { State.reset with
    pending := s.pending
    tick := now
    free := s.free
    resp := s.resp
    rdata := s.rdata
    regs := s.regs.filter (fun p => keep p.1)
    mem := s.mem.filter (fun p => !([0, 1, 2, 3].any (fun d => dieSram d p.1)))
    lost := s.lost.filter (fun p => !(Nat.ble (traceKey 0) p.1 || [0, 1, 2, 3].any (fun d => dieSram d p.1)))
    retFlag := s.retFlag
    flash := s.flash
    xsp := { State.reset.xsp with badBlocks := s.xsp.badBlocks, factory := s.xsp.factory }
    since := [0, 1, 2, 3, 4].foldl (fun t k => Table.put (fun _ => 0) t k now)
      (if warm then s.since else Table.put (fun _ => 0) s.since 9 now)
    ct := if warm then { Ct.reset with counters := s.ct.counters, lost := s.lostTo (List.range 16), cycBase := s.cycNow (List.range 16),
                                       wrapBase := s.normalWraps } else Ct.reset
    tm := if warm then { s.tm with ets := [] } else Tm.reset
    sec := { Sec.reset with fuses := s.sec.fuses, fuses2 := s.sec.fuses2, reseedTick := now }
    holds := s.holds
    railsLow := s.railsLow
    jtag := s.jtag
    boundary := s.boundary }
  let r := pwren.foldl (fun r a => r.drivePwr a true) r
  let r := if warm && s.holds = 0 then r.setDword (A.WD_REF 4) s.time else r
  (r.setCause cause).driveOuts

/-- A warden warm reset (R324): a primary that may hand over does so first, and the reset waits for the end of the hand-over
(R454). -/
def warmReset (s : State) (cause : Nat) : State :=
  let s := s.offerHandOver
  if s.ml.handOver.isSome then s.withMl { s.ml with resetAfter := some cause } else s.deviceReset true cause

/-- A loop-back ends with a status (R513, R514, R516). -/
def endLb (s : State) (st : Nat) : State :=
  let s := s.lbScrap
  { (s.setF F.SYS_LB_STAT_busy 0).setF F.SYS_LB_STAT_st st with lb := none }

/-- The die that holds the item of the running loop-back: a GDDR6 channel or a lane group (R511, R516). -/
def lbDie (s : State) : Option Nat :=
  let n := s.f F.SYS_LB_CFG_num
  match s.f F.SYS_LB_CFG_iface with
  | 5 => some (if n < 16 then n / 4 else (n - 16) / 8)
  | 6 => some (n / 4)
  | _ => none

/-- A partial reset of die `d` starts (R497): merged into one that runs.  Its fallow marks and its die-to-die and GDDR6
registers stay, but no core is under test and no SAFETY throttle holds once its slots and duties are reset (R200, R202); RWL fields keep their committed values, every other field returns to its reset value. -/
def partialReset (s : State) (d : Nat) : State :=
  if Table.get (fun _ => 0) s.dieReset d ≠ 0 then s
  else
    let s := s.notePeak d
    let stays (a : Nat) : Bool :=
      let o := dieOffset d a
      a = A.CX_LINK d || [0, 1, 2, 3].any (fun c => a = A.CX_G6 d c || a = A.CX_CORE d c) || a = A.CX_STATUS d
        || (Decidable.decide (0x300020000 ≤ o))
    let regs := s.regs.foldl (fun t (a, v) =>
      if inDie d a && !stays a then
        let (_, rwl, _, _) := wordMasks a
        Table.put regReset t a ((regReset a &&& ~~~ BitVec.ofNat 32 rwl) ||| (v &&& BitVec.ofNat 32 rwl))
      else t) s.regs
    let s := { s with
      regs := regs
      mem := s.mem.filter (fun p => !dieSram d p.1)
      lost := s.lost.filter (fun p => !dieSram d p.1)
      harts := s.harts.filter (fun p => !hartOfDie d p.1)
      instret := s.instret.filter (fun p => !hartOfDie d p.1)
      dieReset := Table.put (fun _ => 0) s.dieReset d (s.tick + 1)
      ct := { s.ct with lost := s.lostTo [4 * d, 4 * d + 1, 4 * d + 2, 4 * d + 3] }
      gs := { s.gs with hold := [0, 1, 2, 3].foldl (fun t c => Table.put (fun _ => 0) t (4 * d + c) 0) s.gs.hold }
      wd := { s.wd with tests := [0, 1, 2, 3].foldl (fun t c => Table.put (fun _ => CoreTest.reset) t (4 * d + c) CoreTest.reset) s.wd.tests } }
    let s := s.setF (F.CX_STATUS_safety_thr d) 0
    let s := [0, 1, 2, 3].foldl (fun s c => s.setF (F.CX_CORE_test d c) 16) s
    let s := (s.setF (F.SYS_DIE_state d) 1).countUp (F.SYS_DIE_resets d)
    let s := s.measState (2 + d) 0 2
    let s := if s.lb.isSome && s.lbDie = some d then s.endLb 0x04 else s
    s.settle

/-- A partial reset of die `d` is complete (R408, R497): firmware reloaded and measured, the die in service again. -/
def partialDone (s : State) (d : Nat) : State :=
  if Table.get (fun _ => 0) s.dieReset d = 0 then s
  else
    let s := { s with
      dieReset := Table.put (fun _ => 0) s.dieReset d 0
      since := Table.put (fun _ => 0) s.since (1 + d) s.tick
      ct := { s.ct with cycBase := s.cycNow [4 * d, 4 * d + 1, 4 * d + 2, 4 * d + 3]
                        lost := s.lostTo [4 * d, 4 * d + 1, 4 * d + 2, 4 * d + 3] }
      tm := { s.tm with replicas := Table.put (fun _ => 0) s.tm.replicas d 0 } }
    let s := (s.setF (F.SYS_DIE_state d) 4).setDword (A.WD_REF (5 + d)) s.time
    match s.slotImages (s.f F.SYS_BOOT_slot) 2 with
    | (o, _, _) :: _ => s.measure (2 + d) (s.f F.SYS_BOOT_slot) (s.flashBytes 0 o 128)
    | [] => s

/-- A reset taken by target number (R328, R498): 0 warden warm, 1 to 4 partial of CD0 to CD3, 5 chip. -/
def targetReset (s : State) (target cause : Nat) : State :=
  if target = 0 then s.warmReset cause
  else if target = 5 then s.deviceReset false cause
  else s.partialReset (target - 1)

end State

end Sys2Proof.Machine
end

