-- ==== Sys2Proof/Machine/Mem.lean ====
section
/-! DEFINITION. One access to memory by a bus master: what refuses it, what a detection code does to it, and its bytes (R11,
R12, R188, R190, R206, R264, R267, R379 to R386).  Registers are reached through `Sys2Proof.Machine.Bus`. -/

namespace Sys2Proof.Machine

open Sys2Proof

/-- What a read of memory gives: its bytes; held until a unit is regenerated (R386); or an error and its address. -/
inductive MemOut where
  | ok (l : List Byte)
  | held
  | bad (r : Resp) (a : Nat)
  deriving DecidableEq, Repr

namespace State

/-- The word or block at `a` fails its re-read (R380, R382). -/
def loseAt (s : State) (a master : Nat) : State :=
  match region a with
  | .gddr _ => s.checkMismatch a false
  | _ => s.loseWord a master

/-- `n` bytes read at `a`.  `det` says how the detection codes fare: 0 good, 1 the first read flagged and the re-read
good, 2 both flagged (R379, R382).  With `wait`, a read of a unit that is queued or being regenerated is held, otherwise it is lost
at once; a read of a region that has failed is lost (R386).  What is read again is counted again (R297). -/
def memRead (s : State) (a n acc master det : Nat) (wait : Bool) : MemOut × State :=
  match s.spanFault a n false master with
  | some (x, r) => (.bad r x, s.busErr r x acc master)
  | none =>
    if s.spanWaits a n then (if wait then (.held, s) else (.bad .errData a, s))
    else if s.spanFailed a n then (.bad .errData a, s)
    else
    let again := s.injMeets a n || det ≠ 0
    let s := (((s.traffic a n).linkTraffic a n master false).injectEdc a n).injectRead a n
    let s := if det = 1 then (match region a with | .gddr _ => s.checkMismatch a true | _ => s) else s
    let s := if again then s.traffic a n else s
    let s := if 2 ≤ det then s.loseAt a master else s
    if 2 ≤ det && !(wait && s.spanWaits a n) then (.bad .errData a, s)
    else
      match (List.range n).find? (fun i => s.isLost (a + i)) with
      | none => (.ok (s.bytes a n), s)
      | some i =>
        if wait && s.spanWaits (a + i) 1 then (.held, s)
        else (.bad .errData (a + i), if 2 ≤ det then s else s.loseAt (a + i) master)

/-- A write that covers only part of a lost unit is dropped there (R379). -/
def partLost (s : State) (a n i : Nat) : Bool :=
  let x := phys (a + i) / lostUnit (phys (a + i)) * lostUnit (phys (a + i))
  Table.get (fun _ => false) s.lost x && !covers a n x

/-- Bytes stored from `a`, except into lost units that the write covers only in part. -/
def storeBytes (s : State) (a : Nat) (l : List Byte) : State :=
  if (List.range l.length).any (fun i => s.partLost a l.length i) then
    ((List.range l.length).zip l).foldl (fun t p => if s.partLost a l.length p.1 then t else t.setByte (a + p.1) p.2)
      (s.withLost (s.lost.filter (fun p => !covers a l.length p.1)))
  else s.setBytes a l

/-- The read of a word or block that a write covers only in part, where `det` says how its detection code fares (R188, R379,
R382): a first read flagged is counted and raised for GDDR6, and a second one loses the unit. -/
def partRead (s : State) (a n master det : Nat) : State :=
  match partUnits a n with
  | [] => s
  | x :: _ =>
    if det = 0 then s
    else if det = 1 then (match region x with | .gddr _ => s.checkMismatch x true | _ => s)
    else s.loseAt x master

/-- Bytes written at `a`: the response, and the state after it.  `det` says how the detection code of a unit fares that the write
covers only in part: where it is lost, the write is dropped there and answered with ERR_DATA (R379). -/
def memWrite (s : State) (a : Nat) (l : List Byte) (acc master det : Nat) : Resp × State :=
  match s.spanFault a l.length true master with
  | some (x, r) => (r, s.busErr r x acc master)
  | none =>
    let s := (((s.trafficW a l.length).linkTraffic a l.length master true).injectWrite a l.length).partRead a l.length master det
    let bad := (List.range l.length).any (fun i => s.partLost a l.length i)
    ((if bad then .errData else .ok), s.storeBytes a l)

end State

end Sys2Proof.Machine
end

