-- ==== Sys2Proof/Machine/Dma.lean ====
section
/-! DEFINITION. The DMA engine but for its bursts, the regeneration channel, and the CRC units (R381, R385 to R404). -/

namespace Sys2Proof.Machine

open Sys2Proof

namespace State

/-! ### Channels -/

/-- Channel `k` beside its registers. -/
def chan (s : State) (k : Nat) : DmaCh := Table.get (fun _ => DmaCh.reset) s.dma.ch k

/-- The state with channel `k` replaced. -/
def setChan (s : State) (k : Nat) (x : DmaCh) : State :=
  s.withDma { s.dma with ch := Table.put (fun _ => DmaCh.reset) s.dma.ch k x }

/-- The state with channel `k` changed by `u`. -/
def modChan (s : State) (k : Nat) (u : DmaCh → DmaCh) : State := s.setChan k (u (s.chan k))

/-- The channel with the open descriptor of index `i` changed by `u`. -/
def modDesc (c : DmaCh) (i : Nat) (u : DmaDesc → DmaDesc) : DmaCh :=
  { c with open_ := c.open_.map (fun (d : DmaDesc) => if d.index = i then u d else d) }

/-- Status bytes of a descriptor (R388). -/
def dmaStatus : Resp → Option Nat
  | .ok => some 0
  | .errDecode => some 1
  | .errAlign => some 2
  | .errLocked => some 3
  | .errChFallow => some 4
  | .errData => some 5
  | .errCrc => some 6
  | _ => none

/-- The address and arm bit of DMA_CH_NEXT_k set. -/
def setNext (s : State) (k v : Nat) : State := s.setDword (A.DMA_CH_NEXT k) (bits v 5 43 * 32 + v % 2)

/-- The shadow disarmed (R396, R397). -/
def disarm (s : State) (k : Nat) : State :=
  (s.setNext k (s.dword (A.DMA_CH_NEXT k) / 2 * 2)).setF (F.DMA_CH_STAT_armed k) 0

/-- A transfer starts from the shadow's address (R396): its flags and first error are cleared. -/
def startTransfer (s : State) (k : Nat) : State :=
  let a := s.dword (A.DMA_CH_NEXT k) / 32 * 32
  let s := ((s.disarm k).setF (F.DMA_CH_STAT_active k) 1).setF (F.DMA_CH_STAT_eoc k) 0
  let s := (s.setWord (A.DMA_CH_ERR k) 0).setDword (A.DMA_CH_CUR k) a
  s.setChan k { DmaCh.reset with cfg := s.word (A.DMA_CH_CFG k), fetch := some a, hand := (s.chan k).hand }

/-- A write of DMA_CH_NEXT_k's high word (R396); channels 55 to 63 take none (R387). -/
def writeNext (s : State) (k high : Nat) : State :=
  if 55 ≤ k then s
  else
    let v := s.heldValue (A.DMA_CH_NEXT k) (BitVec.ofNat 32 high)
    let wst (s : State) (x : Nat) : State := s.setF (F.DMA_CH_STAT_wst k) x
    if s.on (F.DMA_CH_STAT_armed k) then wst s 2
    else if (s.chan k).hand.1 = s.tick + 1 then wst (s.setNext k (v / 2 * 2)) 3
    else if v % 2 = 0 then wst (s.setNext k v) 0
    else if s.on (F.DMA_CH_STAT_active k) then wst ((s.setNext k v).setF (F.DMA_CH_STAT_armed k) 1) 0
    else wst ((s.setNext k v).startTransfer k) 0

/-- One request to channel `k` (R390): the 16th that waits is lost and counted. -/
def dmaRequest (s : State) (k : Nat) : State :=
  if s.f (F.DMA_CH_STAT_pend k) < 15 then s.setF (F.DMA_CH_STAT_pend k) (s.f (F.DMA_CH_STAT_pend k) + 1)
  else s.count (F.DMA_CH_STAT_ovf k) F.DMA_STATUS_sat

/-- The first error of a transfer is kept in DMA_CH_ERR_k (R395). -/
def firstErr (s : State) (k st index : Nat) : State :=
  if s.f (F.DMA_CH_ERR_status k) = 0 then (s.setF (F.DMA_CH_ERR_status k) st).setF (F.DMA_CH_ERR_index k) index else s

/-- The descriptor of index `index` on channel `k` is bad (R395): only its first error is recorded in it. -/
def badDesc (s : State) (k index st : Nat) : State :=
  (s.firstErr k st index).modChan k (fun c =>
    { modDesc c index (fun d => { d with bad := true, status := if d.bad then d.status else st }) with anyBad := true })

/-- An access error of channel `k` (R395): the descriptor is bad, the error is counted and DMA_BUS is raised. -/
def accessError (s : State) (k index st addr acc : Nat) : State :=
  let s := (s.badDesc k index st).count (F.DMA_CH_STAT_errs k) F.DMA_STATUS_sat
  s.raise { src := Src.DMA_BUS, inst := k, detail := k * 2 ^ 26 + st * 65536 + index, addr := addr, acc := acc,
            master := 0x400 + k }

/-- Descriptors whose last write is issued and whose responses have all returned are written back (R388, R393). -/
def writeBack (s : State) (k : Nat) : State :=
  let c := s.chan k
  let ended (d : DmaDesc) : Bool := d.issued && d.waiting.isEmpty
  let s := (c.open_.filter ended).foldl (fun s d =>
    s.storeBytes (d.addr + 22) [BitVec.ofNat 8 d.status, BitVec.ofNat 8 (1 + 2 * bit d.bad)]) s
  s.modChan k (fun c => { c with open_ := c.open_.filter (fun d => !ended d) })

/-! ### Snoop units (R400 to R402) -/

/-- The `w` bits of `v` in reverse order. -/
def reverseBits (w v : Nat) : Nat := (List.range w).foldl (fun a i => a * 2 + bit (bitOf v i)) 0

/-- One byte of a snoop unit's CRC (R400). -/
def snoopByte (w poly : Nat) (refin : Bool) (crc x : Nat) : Nat :=
  let x := if refin then reverseBits 8 x else x
  [7, 6, 5, 4, 3, 2, 1, 0].foldl (fun c i =>
    let fb := bitOf c (w - 1) != bitOf x i
    let c := c * 2 % 2 ^ w
    if fb then c ^^^ poly else c) crc

/-- The width of snoop unit `u`, and its check bytes n = ⌈w / 8⌉. -/
def snoopW (s : State) (u : Nat) : Nat := s.f (F.CRC_SNP_CFG_w u)
def snoopN (s : State) (u : Nat) : Nat := (s.snoopW u + 7) / 8

/-- The working CRC of unit `u` after the bytes of `l`. -/
def snoopFeed (s : State) (u : Nat) (l : List Byte) : State :=
  let c := l.foldl (fun c b => snoopByte (s.snoopW u) (s.dword (A.CRC_SNP_POLY u)) (s.on (F.CRC_SNP_CFG_refin u)) c b.toNat)
    (Table.get (fun _ => 0) s.dma.crc u)
  (s.withDma { s.dma with crc := Table.put (fun _ => 0) s.dma.crc u c })

/-- The CRC of unit `u`'s stream so far, output reflected and inverted as set. -/
def snoopValue (s : State) (u : Nat) : Nat :=
  let w := s.snoopW u
  let c := Table.get (fun _ => 0) s.dma.crc u
  let c := if s.on (F.CRC_SNP_CFG_refout u) then reverseBits w c else c
  if s.on (F.CRC_SNP_CFG_inv u) then c ^^^ (2 ^ w - 1) else c

/-- The check bytes that spell a CRC (R400). -/
def snoopCheck (s : State) (u v : Nat) : List Byte :=
  if s.on (F.CRC_SNP_CFG_ord u) then beBytes (s.snoopN u) v else leBytes (s.snoopN u) v

/-- Channel `k` takes the snoop unit its transfer names, or waits for it (R402).  Says whether it may go on. -/
def takeSnoop (s : State) (k : Nat) : State × Bool :=
  let c := s.chan k
  if c.snoop = 0 || c.snooping then (s, true)
  else
    let u := c.snoop - 1
    if s.on (F.CRC_SNP_STAT_busy u) then (s.setF (F.DMA_CH_STAT_swait k) 1, false)
    else
      let s := ((s.setF (F.DMA_CH_STAT_swait k) 0).setF (F.CRC_SNP_STAT_busy u) 1).setF (F.CRC_SNP_STAT_ch u) k
      let s := (s.withDma { s.dma with
        crc := Table.put (fun _ => 0) s.dma.crc u (s.dword (A.CRC_SNP_INIT u))
        tail := Table.put (fun _ => []) s.dma.tail u [] })
      (s.modChan k (fun c => { c with snooping := true }), true)

/-- The snoop job of channel `k` ends (R401, R402): with a result, or with its result discarded. -/
def endSnoop (s : State) (k : Nat) (result : Bool) : State :=
  let c := s.chan k
  let s := s.setF (F.DMA_CH_STAT_swait k) 0
  if !c.snooping then s.modChan k (fun c => { c with snoop := 0 })
  else
    let u := c.snoop - 1
    let s := if result then s.setDword (A.CRC_SNP_RES u) (s.snoopValue u) else s
    (s.setF (F.CRC_SNP_STAT_busy u) 0).modChan k (fun c => { c with snoop := 0, snooping := false })

/-! ### The course of a transfer -/

/-- The current descriptor of channel `k`: the one that may still move bytes. -/
def curDesc (s : State) (k : Nat) : Option DmaDesc := (s.chan k).open_.find? (fun d => !d.issued)

/-- The current descriptor of channel `k` is issued (R393): the count reaches zero after the last one, and otherwise the
next descriptor is due.  A snoop job whose stream is whole leaves its CRC, also where its check fails (R401). -/
def issueDesc (s : State) (k : Nat) : State :=
  match s.curDesc k with
  | none => s
  | some d =>
    let last := bitOf d.flags 3
    let s := s.modChan k (fun c => { modDesc c d.index (fun x => { x with issued := true }) with
      zero := c.zero || last, fetch := if last then none else some d.next })
    let s := s.setF (F.DMA_CH_CNT_count k) (if last then 0 else s.f (F.DMA_CH_CNT_count k))
    let s := if last then s.endSnoop k (d.moved == d.count) else s
    s.writeBack k

/-- The transfer of channel `k` ends at once with ERR_DESC (R389). -/
def cutTransfer (s : State) (k : Nat) : State :=
  let s := s.firstErr k 7 ((s.chan k).fetched % 65536)
  (s.endSnoop k false).modChan k (fun c => { c with fetch := none, zero := true, anyBad := true })

/-- An address that is accessed as aligned 32-bit words (R392). -/
def wordSide (a : Nat) (inc : Bool) : Bool := !inc || region a == .regs

/-- The status of a descriptor before it moves anything: broken, misaligned, or too short to strip (R388, R392, R401). -/
def descStatus (s : State) (k : Nat) (b : List Byte) : Nat :=
  let c := s.chan k
  let first := c.fetched = 0
  let fl := leAt b 20 1
  let x := leAt b 21 1
  let src := leAt b 0 8
  let dst := leAt b 8 8
  let n := leAt b 16 4
  let broken := 2 ^ 48 ≤ src || 2 ^ 48 ≤ dst || 16 ≤ fl || (first && (32 ≤ x || 8 < x % 16))
  let odd := (wordSide src (bitOf fl 0) && (src % 4 ≠ 0 || n % 4 ≠ 0)) || (wordSide dst (bitOf fl 1) && (dst % 4 ≠ 0 || n % 4 ≠ 0))
  let unit := if first then x % 16 else c.snoop
  let strip := if first then bitOf x 4 else c.strip
  if broken then 7
  else if n ≠ 0 && odd then 2
  else if unit ≠ 0 && strip && bitOf fl 3 && n < s.snoopN (unit - 1) then 6
  else 0

/-- Response `i` of channel `k` returns (R393, R395). -/
def writeResponse (s : State) (k i : Nat) : State :=
  let c := s.chan k
  match (c.open_.flatMap (fun d => (List.range d.waiting.length).map (fun j => (d, j))))[i]? with
  | none => s
  | some (d, j) =>
    match d.waiting[j]? with
    | none => s
    | some (st, a) =>
      let s := s.modChan k (fun c => modDesc c d.index (fun x => { x with waiting := x.waiting.eraseIdx j }))
      let s := if st = 0 then s else s.accessError k d.index st a 6
      s.writeBack k

/-- The end of count of channel `k` is due (R393). -/
def eocDue (s : State) (k : Nat) : Bool :=
  s.on (F.DMA_CH_STAT_active k) && (s.chan k).zero && (s.chan k).open_.isEmpty

/-- The end of count (R393, R396): flags, interrupt, triggers, and the hand-over of an armed shadow. -/
def endCount (s : State) (k : Nat) : State :=
  if !s.eocDue k then s
  else
    let c := s.chan k
    let s := ((s.setF (F.DMA_CH_STAT_active k) 0).setF (F.DMA_CH_STAT_eoc k) 1).flag (F.DMA_CH_STAT_err k) c.anyBad
    let s := s.hwSet (A.DMA_IRQ (k / 32)) (2 ^ (k % 32))
    let s := if bitOf c.cfg 29 then s.pendExt (bits c.cfg 30 2) else s
    let s := s.fireTrigs 1 k none none none
    let s := if s.dma.owner = some k then (s.withDma { s.dma with owner := none }) else s
    let old := [s.word (A.DMA_CH_STAT k), s.word (A.DMA_CH_ERR k), s.word (A.DMA_CH_CUR k), s.word (A.DMA_CH_CUR k + 4),
                s.word (A.DMA_CH_CNT k)]
    if s.on (F.DMA_CH_STAT_armed k) && !c.aborting then
      (s.startTransfer k).modChan k (fun c => { c with hand := (s.tick + 1, old) })
    else s.setChan k { DmaCh.reset with hand := (0, []) }

/-- A write of 1 to DMA_CH_CTRL_k.abort (R397; log 90): the current descriptor is bad with ERR_ABORT, also where only its responses
are outstanding; one that meets an end of count leaves its status and prevents the hand-over. -/
def abortChan (s : State) (k : Nat) : State :=
  let c := s.chan k
  if 55 ≤ k then s
  else if c.hand.1 = s.tick + 1 then
    let s := ((s.setWord (A.DMA_CH_STAT k) (c.hand.2.getD 0 0)).setWord (A.DMA_CH_ERR k) (c.hand.2.getD 1 0)).disarm k
    let s := ((s.setWord (A.DMA_CH_CUR k) (c.hand.2.getD 2 0)).setWord (A.DMA_CH_CUR k + 4) (c.hand.2.getD 3 0)).setWord
      (A.DMA_CH_CNT k) (c.hand.2.getD 4 0)
    s.setChan k DmaCh.reset
  else if s.on (F.DMA_CH_STAT_active k) && !c.zero then
    let s := (s.disarm k).endSnoop k false
    let s := match s.curDesc k with
      | none =>
        let i := s.f (F.DMA_CH_CUR_index k)
        if c.open_.any (fun d => d.index = i) then s.badDesc k i 8 else s
      | some d => (s.firstErr k 8 d.index).modChan k (fun c =>
          modDesc c d.index (fun x => { x with bad := true, status := 8, issued := true }))
    (s.modChan k (fun c => { c with aborting := true, anyBad := true, zero := true, fetch := none })).writeBack k
  else if s.on (F.DMA_CH_STAT_active k) then
    let i := s.f (F.DMA_CH_CUR_index k)
    let s := if c.open_.any (fun d => d.index = i) then s.badDesc k i 8 else s
    (s.disarm k).modChan k (fun c => { c with aborting := true, anyBad := c.anyBad || !s.eocDue k })
  else s.disarm k

/-- The mode that DMA_CTRL.rtc and the service level ask for (R391). -/
def rtcWanted (s : State) : Bool := s.on F.DMA_CTRL_rtc || s.f F.SYS_SVC_level = 0

/-- DMA_CLR.all (R403). -/
def clearDma (s : State) : State :=
  let s := (List.range 64).foldl (fun s k => (s.setF (F.DMA_CH_STAT_ovf k) 0).setF (F.DMA_CH_STAT_errs k) 0) s
  let s := (List.range 64).foldl (fun s r => s.setF (F.DMA_REGEN_ST_units r) 0) s
  ((s.setF F.DMA_REGEN_STAT_ovf 0).setF F.DMA_REGEN_STAT_fails 0).setF F.DMA_STATUS_sat 0

/-! ### Regeneration (R385) -/

/-- A write of DMA_REGEN_REQ (R385, R403): at any time, also for a region that has failed. -/
def regenRequest (s : State) (a : Nat) : State :=
  match s.unitOf a with
  | none => s.respond .errParam
  | some x => (s.queueUnit x).1

/-- The unit at the head of the queue leaves it. -/
def popRegen (s : State) : State :=
  ((s.withDma { s.dma with regen := s.dma.regen.tail }).setF F.DMA_REGEN_STAT_busy 0).showRegen

/-- A regenerated unit is copied to its destination, piece by piece, and ends every loss of what it writes: write protection,
which guards against every master, does not hold the channel off; a piece that is unmapped or lies in a fallow channel keeps what
it held, and is an access error of channel 55 (R11, R190, R385, R395). -/
def copyUnit (s : State) (a : Nat) (l : List Byte) : State :=
  (spanPieces a l.length).foldl (fun (x : State × List Byte) p =>
    ((match x.1.spanFault p.1 p.2 false 0x437 with
      | none => x.1.setBytes p.1 (x.2.take p.2)
      | some (y, r) => (x.1.recordBus r y 6 0x437).accessError 55 0 ((dmaStatus r).getD 1) y 6), x.2.drop p.2)) (s, l) |>.1

/-- The transfer that channel 55 makes for one unit starts (R385, R396; log 168). -/
def startChan55 (s : State) : State :=
  if s.on (F.DMA_CH_STAT_active 55) then s
  else
    let s := ((s.setF (F.DMA_CH_STAT_active 55) 1).setF (F.DMA_CH_STAT_eoc 55) 0).setF (F.DMA_CH_STAT_err 55) 0
    (s.setWord (A.DMA_CH_ERR 55) 0).setChan 55 DmaCh.reset

/-- Its end of count (R393): flags, interrupt, triggers.  `bad` says that the unit could not be regenerated. -/
def endChan55 (s : State) (bad : Bool) : State :=
  let c := s.chan 55
  let s := if bad then s.firstErr 55 6 0 else s
  let s := ((s.setF (F.DMA_CH_STAT_active 55) 0).setF (F.DMA_CH_STAT_eoc 55) 1).flag (F.DMA_CH_STAT_err 55) (bad || c.anyBad)
  let s := s.hwSet (A.DMA_IRQ 1) (2 ^ 23)
  let s := if s.on (F.DMA_CH_CFG_irq 55) then s.pendExt (s.f (F.DMA_CH_CFG_vp 55)) else s
  s.fireTrigs 1 55 none none none

/-- The unit being regenerated ends (R385): each flag says that an attempt's bytes differ on their way. -/
def endRegen (s : State) (bad1 bad2 : Bool) : State :=
  match s.dma.regen with
  | [] => s
  | (r, u) :: _ =>
    let (a, n) := s.unitSpan r u
    let data := s.flashBytes 0 (s.f (F.DMA_REGEN_SRC_off r) + 0x10000 * u) n
    let list := s.dword (A.DMA_REGEN_LIST r) + 4 * u
    let (entry, s) := s.ownRead list 4 0x437
    let wrong := entry ≠ some (leBytes 4 (crc32c data)) || s.isLost list
    let s := s.ownWrite (s.dword A.DMA_REGEN_SCR) 0x437 data
    if (bad1 || wrong) && (bad2 || wrong) then
      let s := s.popRegen.endChan55 true
      let s := if s.regionFailed r then s else (s.setF (F.DMA_REGEN_ST_fail r) 1).count F.DMA_REGEN_STAT_fails F.DMA_STATUS_sat
      let s := s.showRegen
      match region a with
      | .gddr c =>
        s.raise { src := Src.G6_CHECK c, inst := c, detail := 2 ^ 30 + g6Block a, addr := a, master := 0x437 }
      | _ => s.raise { src := Src.WSRAM_DET, detail := 2 ^ 30, addr := a, master := 0x437 }
    else
      let s := ((((s.copyUnit a data).traffic a n).linkTraffic a n 0x437 true).popRegen).endChan55 false
      let s := s.withPlibBad ((s.plibBad.map (fun p => (p.1, p.2.flatMap (lessSpan a n)))).filter (fun p => !p.2.isEmpty))
      s.count (F.DMA_REGEN_ST_units r) F.DMA_STATUS_sat

/-! ### Scan units (R399) -/

/-- A scan job ends with status `st`. -/
def endScan (s : State) (u st : Nat) : State := (s.setF (F.CRC_SCAN_STAT_busy u) 0).setF (F.CRC_SCAN_STAT_st u) st

/-- A mismatch of scan unit `u`, first differing region unit `first`. -/
def scanMismatch (s : State) (u first : Nat) : State :=
  (s.endScan u 1).raise { src := Src.CRC_SCAN u, inst := u, detail := first, master := 0x4A0 + u }

/-- A mode-0 job ends with result `c` (R399). -/
def endRange (s : State) (u c : Nat) : State :=
  let s := s.setF (F.CRC_SCAN_RES_res u) c
  if s.on (F.CRC_SCAN_CTRL_cmp u) && c ≠ s.f (F.CRC_SCAN_EXP_exp u) then s.scanMismatch u 0 else s.endScan u 0

/-- Units of region `r`. -/
def regionUnits (s : State) (r : Nat) : Nat := ((s.regionOf r).2 + 0xFFFF) / 0x10000

/-- A write of CRC_SCAN_CTRL_u with go = 1 (R399, R402). -/
def scanGo (s : State) (u v : Nat) : State :=
  if s.on (F.CRC_SCAN_STAT_busy u) then s.setF (F.CRC_SCAN_STAT_wst u) 1
  else
    let s := ((s.setF (F.CRC_SCAN_STAT_wst u) 0).setF (F.CRC_SCAN_STAT_mism u) 0).setF (F.CRC_SCAN_STAT_st u) 0
    let s := s.setWord (A.CRC_SCAN_CTRL u) (bits v 16 6 * 65536 + bits v 29 2 * 2 ^ 29)
    let len := s.word (A.CRC_SCAN_LEN u)
    if bitOf v 30 then
      let r := bits v 16 6
      let first := s.dword (A.CRC_SCAN_ADDR u) % 65536
      if !s.on (F.DMA_REGEN_LEN_valid r) || len = 0 || 65536 < len || s.regionUnits r < first + len then s.endScan u 7
      else s.setF (F.CRC_SCAN_STAT_busy u) 1
    else if len = 0 then s.endRange u 0
    else s.setF (F.CRC_SCAN_STAT_busy u) 1

/-- CRC_CLR.all (R404). -/
def clearCrc (s : State) : State :=
  let s := (List.range 12).foldl (fun s u => s.setF (F.CRC_SCAN_STAT_mism u) 0) s
  let s := (List.range 8).foldl (fun s u => s.setF (F.CRC_SNP_STAT_mism u) 0) s
  s.setF F.CRC_STATUS_sat 0

/-! ### Scrubbers (R375, R381) -/

/-- A scrubber finds a flagged word of the retained block, which stays flagged for its next reader (R325, R380); one that is known
is not raised again (R381). -/
def scrubRetained (s : State) (o : Nat) : State :=
  if s.retBad o then s
  else (s.withRetFlag (Table.put (fun _ => false) s.retFlag (o / 4 * 4) true)).raise { src := Src.SYS_RET_ERR, detail := o }

/-- A scrubber finds a flagged word of record `r` of the trace buffer (R380): the record is lost and reads as zeros; its source is
raised once until it is written again (R381). -/
def scrubTrace (s : State) (r : Nat) : State :=
  if Table.get (fun _ => false) s.lost (traceKey r) then s
  else
    let s := s.withCt { s.ct with buf := s.ct.buf.filter (fun p => p.1 / 128 ≠ r) }
    (s.withLost (Table.put (fun _ => false) s.lost (traceKey r) true)).raise { src := Src.TRACE_DET, detail := r }

end State

/-! ### Commands -/

/-- A scrubber's re-read of a word fails too (R375, R380, R381). -/
def execScrubberLostWord (t : Nat) (at_ : ScrubbedWord) (s : State) : Host.Outcome State Fault Refusal :=
  let s := s.start t
  match at_ with
  | .memory a =>
    match State.region a.toNat with
    | .warden | .bootRom | .coreMem _ | .clusterMem _ => done ((s.loseWord a.toNat State.ownMaster).settle)
    | _ => done s
  | .trace r => done (s.scrubTrace r)
  | .retained o => done (s.scrubRetained (4 * o.toNat))

/-- A write of DMA_REGEN_REQ (R385, R403). -/
def execDmaRegenReq (t : Nat) (addr : BitVec 48) (s : State) : Host.Outcome State Fault Refusal :=
  done ((s.start t).regenRequest addr.toNat)

/-- The regeneration channel takes the unit at the head of its queue (R385). -/
def execRegenUnitStart (t : Nat) (s : State) : Host.Outcome State Fault Refusal :=
  let s := s.start t
  done (if s.dma.regen.isEmpty then s else (s.setF F.DMA_REGEN_STAT_busy 1).startChan55)

/-- A write of DMA_CH_NEXT_k's high word (R396). -/
def execDmaChNext (t : Nat) (k : Fin 64) (high : Word) (s : State) : Host.Outcome State Fault Refusal :=
  done ((s.start t).writeNext k high.toNat)

/-- The pacing of channel `k` in force (R390, R397): that of its active transfer, otherwise that of its register. -/
def State.pacing (s : State) (k : Nat) : Nat :=
  if s.on (F.DMA_CH_STAT_active k) then bits (s.chan k).cfg 0 7 else s.f (F.DMA_CH_CFG_req k)

/-- Pacing source `req` makes one request to each general channel that it paces (R390). -/
def execDmaRequest (t : Nat) (req : BitVec 7) (s : State) : Host.Outcome State Fault Refusal :=
  let s := s.start t
  let r := req.toNat
  if r = 0 ∨ r = 127 then done s
  else done (((List.range 55).filter (fun k => s.pacing k = r)).foldl (fun s k => s.dmaRequest k) s)

/-- A write of 1 to DMA_CH_CTRL_k.req (R390). -/
def execDmaChCtrlReq (t : Nat) (k : Fin 64) (s : State) : Host.Outcome State Fault Refusal :=
  let s := s.start t
  done (if k.val < 55 && s.pacing k = 127 then s.dmaRequest k else s)

/-- A write response returns (R393 to R395): of channels 0 to 54 response `i` of those outstanding; of a posted channel
`status` is the error it carries, of port 2 (k − 56) + i mod 2 and its frame i / 2, oldest first. -/
def execDmaWriteResponse (t : Nat) (k : Fin 64) (i : Nat) (status : Fin 6) (s : State) : Host.Outcome State Fault Refusal :=
  let s := s.start t
  if k.val < 56 then done (s.writeResponse k i)
  else
    let c := k.val - 56
    let p := 2 * c + i % 2
    match ((s.cinP p).closing ++ (s.cinP p).cur.toList)[i / 2]? with
    | none => done s
    | some f =>
      if status = 0 then done s
      else
        let s := (s.firstErr k status 0).raise { src := Src.DMA_POSTED c, inst := c, detail := status * 65536, acc := 6, master := 0x400 + k }
        done ((s.postedBadCam p f.ord).settle)

/-- The end of count of channel `k`, when it is due (R393, R396). -/
def execDmaEndOfCount (t : Nat) (k : Fin 55) (s : State) : Host.Outcome State Fault Refusal := done ((s.start t).endCount k)

/-- A write of 1 to DMA_CH_CTRL_k.abort (R397). -/
def execDmaAbort (t : Nat) (k : Fin 64) (s : State) : Host.Outcome State Fault Refusal := done ((s.start t).abortChan k)

/-- The mode in force becomes the one asked for, once no burst is in flight (R391). -/
def execDmaModeChange (t : Nat) (s : State) : Host.Outcome State Fault Refusal :=
  let s := s.start t
  if s.rtcWanted != s.on F.DMA_STATUS_rtc_act && (List.range 55).all (fun k => (s.chan k).open_.all (fun d => d.waiting.isEmpty)) then
    done ((s.withDma { s.dma with owner := none }).flag F.DMA_STATUS_rtc_act s.rtcWanted)
  else done s

/-- DMA_CLR (R403). -/
def execDmaClr (t : Nat) (value : Word) (s : State) : Host.Outcome State Fault Refusal :=
  let s := s.start t
  done (if bitOf value.toNat 0 then s.clearDma else s)

/-- A write of CRC_SCAN_CTRL_u with go = 1 (R399). -/
def execCrcScanGo (t : Nat) (u : Fin 12) (value : Word) (s : State) : Host.Outcome State Fault Refusal :=
  done ((s.start t).scanGo u value.toNat)

/-- CRC_CLR (R404). -/
def execCrcClr (t : Nat) (value : Word) (s : State) : Host.Outcome State Fault Refusal :=
  let s := s.start t
  done (if bitOf value.toNat 0 then s.clearCrc else s)

end Sys2Proof.Machine
end

