-- ==== Sys2Proof/Machine/Eth.lean ====
section
/-! DEFINITION. The Ethernet ports (R420 to R427): links, received and transmitted frames, peers and their two copies, the
receive ring, and bulk data. -/

namespace Sys2Proof.Machine

open Sys2Proof

namespace State

/-! ### Links (R420) -/

/-- MAC `x` is enabled. -/
def macOn (s : State) (x : Nat) : Bool := s.on (if x = 0 then F.ETH_CTRL_ena else F.ETH_CTRL_enb)

/-- What the PHY of MAC `x` reports: one more than the rate code, 0 for no link. -/
def phyOf (s : State) (x : Nat) : Nat := Table.get (fun _ => 0) s.eth.phy x

/-- Whether the link of MAC `x` is up under the present configuration. -/
def linkGood (s : State) (x : Nat) : Bool :=
  s.macOn x && s.phyOf x ≠ 0 && Nat.ble (s.f (F.ETH_CFG_min x)) (s.phyOf x - 1)

/-- ETH_STAT_x and ETH_STATUS follow the PHY and the configuration (R420); a port that is returned to service is used
again when its link is up (R354), and a queue is emptied when the link goes down. -/
def showLink (s : State) (x : Nat) : State :=
  let up := s.linkGood x
  let s := (s.flag (F.ETH_STAT_up x) up).setF (F.ETH_STAT_rate x) (s.phyOf x - 1)
  let s := s.flag (if x = 0 then F.ETH_STATUS_upa else F.ETH_STATUS_upb) up
  let s := if up then (s.withFc { s.fc with returning := s.fc.returning.filter (· ≠ (7, x)) }) else s
  if up then s else s.setSafetyQ x []

/-- The PHY of MAC `x` reports (R420): a change from up to down that it reports is a link loss. -/
def phyReport (s : State) (x v : Nat) : State :=
  let was := s.on (F.ETH_STAT_up x)
  let old := s.phyOf x
  let s := (s.withEth { s.eth with phy := Table.put (fun _ => 0) s.eth.phy x v }).showLink x
  if was && !s.on (F.ETH_STAT_up x) then
    let s := s.count (F.ETH_ERR1_loss x) F.ETH_STATUS_sat
    ((s.raise { src := Src.ETH_LINK x, inst := x, detail := x }).retryEvent 7 x).settle
  else if was && old ≠ v then s.count (F.ETH_STAT_rchg x) F.ETH_STATUS_sat
  else s

/-! ### Peers (R425) -/

/-- Peer `k`'s receive state. -/
def peer (s : State) (k : Nat) : Peer := Table.get (fun _ => ⟨false, 0, [], 0⟩) s.eth.peers k

/-- The state with peer `k` replaced. -/
def setPeer (s : State) (k : Nat) (x : Peer) : State :=
  s.withEth { s.eth with peers := Table.put (fun _ => ⟨false, 0, [], 0⟩) s.eth.peers k x }

/-- `a − b` among sequence numbers of 32 bits. -/
def seqGap (a b : Nat) : Nat := (a + 2 ^ 32 - b % 2 ^ 32) % 2 ^ 32

/-- A sequence number becomes decided (R426): H rises to it when it is higher, and the window follows. -/
def decideSeq (p : Peer) (n : Nat) : Peer :=
  let d := seqGap n p.high
  let h := if 1 ≤ d ∧ d ≤ 65535 then n else p.high
  { p with high := h, decided := ((if p.decided.contains n then p.decided else n :: p.decided).filter (fun x => seqGap h x ≤ 63)) }

/-- A peer has sent nothing for its timeout (R425). -/
def peerSilent (s : State) (k : Nat) : Bool :=
  (s.peer k).started && Nat.ble ((s.peer k).heard + ms (s.f (F.ETH_PEER_tmo_ms k))) s.tick

/-- One entry delivered to the receive ring (R426): not written when the ring is full. -/
def deliver (s : State) (k flags stamp : Nat) (body : List Byte) : State :=
  let n := 2 ^ s.f F.ETH_RXCFG_size
  let wr := s.f F.ETH_RXCNT_wr
  let next := (wr + 1) % n
  if next = s.f F.ETH_RXRD_rd then s.count F.ETH_CMPCNT_ovf F.ETH_STATUS_sat
  else
    let entry := leBytes 2 body.length ++ leBytes 1 k ++ leBytes 1 flags ++ leBytes 4 0 ++ leBytes 8 stamp ++ body
    ((s.ownWrite (s.dword A.ETH_RXRING + 2048 * wr) ownMaster entry).setF F.ETH_RXCNT_wr next).pendRole3

/-- The ring flag of MAC `x`'s copy. -/
def copyFlag (x : Nat) : Nat := if x = 0 then 2 else 4

/-- A held first copy is resolved (R426): it leaves the buffer and its number is decided. -/
def dropCmp (s : State) (e : CmpEntry) : State :=
  let s := s.withEth { s.eth with cmp := s.eth.cmp.erase e }
  s.setPeer e.peer (decideSeq (s.peer e.peer) e.seq)

/-- Peer `k` starts anew (R425): its next datagram is a first copy. -/
def restartPeer (s : State) (k : Nat) : State := s.setPeer k ⟨false, 0, [], 0⟩

/-- A datagram of peer `k` with sequence `n` arrives on MAC `x` (R425, R426): the first after a start is a first copy, whatever is
held (log 171). -/
def peerDatagram (s : State) (k n x : Nat) (body : List Byte) : State :=
  let p := s.peer k
  let fresh := !p.started
  let p := if fresh then { p with started := true, high := n, decided := [] } else p
  let s := s.setPeer k { p with heard := s.tick }
  match if fresh then none else s.eth.cmp.reverse.find? (fun e => e.peer = k && e.seq = n) with
  | some e =>
    if e.mac = x then s.count F.ETH_CMPCNT_stale F.ETH_STATUS_sat
    else
      let s := s.dropCmp e
      if e.body = body then s.deliver k 6 e.stamp body
      else
        (s.count F.ETH_CMPCNT_mism F.ETH_STATUS_sat).raise { src := Src.ETH_CMP, detail := k * 65536 + n % 65536 }
  | none =>
    let d := seqGap n p.high
    let stale := p.decided.contains n || (!(1 ≤ d && d ≤ 65535) && 63 < seqGap p.high n)
    if !fresh && stale then s.count F.ETH_CMPCNT_stale F.ETH_STATUS_sat
    else if 64 ≤ s.eth.cmp.length then
      let s := s.setPeer k (decideSeq (s.peer k) n)
      (s.count F.ETH_CMPCNT_ovf F.ETH_STATUS_sat).deliver k (1 + copyFlag x) s.time body
    else s.withEth { s.eth with cmp := s.eth.cmp ++ [⟨k, n, x, body, s.tick, s.time⟩] }

/-- The enabled peer that a sender ID names. -/
def peerOf (s : State) (id : Nat) : Option Nat :=
  (List.range 8).find? (fun k => s.on (F.ETH_PEER_en k) && s.f (F.ETH_PEER_id k) = id)

/-! ### Received frames (R421) -/

/-- Big-endian field of `n` bytes at offset `i`. -/
def beAt (l : List Byte) (i n : Nat) : Nat := beVal ((l.drop i).take n)

/-- A received frame fails a test of R421 or R425. -/
def dropFrame (s : State) (x : Nat) : State := s.count (F.ETH_ERR0_drop x) F.ETH_STATUS_sat

/-- A safety datagram arrives on MAC `x` (R423, R425). -/
def takeSafety (s : State) (x : Nat) (l : List Byte) : State :=
  let type := beAt l 1 1
  let n := beAt l 16 2
  match s.peerOf (beAt l 2 2) with
  | none => s.dropFrame x
  | some k =>
    if beAt l 0 1 ≠ 1 || type < 0x10 || 0x7F < type || 1480 < n || l.length < 20 + n then s.dropFrame x
    else s.peerDatagram k (beAt l 4 4) x (l.take (20 + n))

/-- Management frames that MAC `x` buffers (R427). -/
def rxMgmt (s : State) (x : Nat) : List (List Byte) := Table.get (fun _ => []) s.eth.rxMgmt x

/-- The state with MAC `x`'s received management frames replaced. -/
def setRxMgmt (s : State) (x : Nat) (l : List (List Byte)) : State :=
  s.withEth { s.eth with rxMgmt := Table.put (fun _ => []) s.eth.rxMgmt x l }

/-- The management datagram of a buffered frame: what follows its Ethernet header (R423, R427). -/
def mgmtBody (l : List Byte) : List Byte := l.drop (if beAt l 12 2 = 0x8100 then 18 else 14)

/-- A management datagram that the device takes (R427): version 0x01, a mailbox request at offset 0 or bulk data. -/
def mgmtSound (b : List Byte) : Bool := beAt b 0 1 == 1 && ((beAt b 1 1 == 1 && beAt b 4 4 == 0) || beAt b 1 1 == 3)

/-- The oldest sound management datagram of MAC `x` leaves its buffer when `p` holds of it, with every frame before it that is not sound
(R427, log 141); its tag. -/
def takeMgmt (s : State) (x : Nat) (p : List Byte → Bool) : Option (Nat × State) :=
  match (s.rxMgmt x).dropWhile (fun l => !mgmtSound (mgmtBody l)) with
  | [] => none
  | l :: r => if p (mgmtBody l) then some (beAt (mgmtBody l) 2 2, s.setRxMgmt x r) else none

/-- A frame, from its destination address to the end of its payload, arrives on MAC `x` (R421); a gPTP frame is stamped as its start
passes, whatever those tests find (R414). -/
def takeFrame (s : State) (x : Nat) (fcsOk : Bool) (l : List Byte) : State :=
  let n := l.length + 4
  let s := s.ctAdd (0x57 + 2 * x) n
  let hit := s.injHits 11 x
  let s := if hit then s.injMade else s
  let tagged := beAt l 12 2 = 0x8100
  let ty := if tagged then beAt l 16 2 else beAt l 12 2
  let body := l.drop (if tagged then 18 else 14)
  let s := if ty = 0x88F7 then s.etsStamp (2 * x) (beAt body 0 1 % 16) (beAt body 30 2) else s
  if !fcsOk || hit || n < 64 || 1522 < n then s.count (F.ETH_ERR0_fcs x) F.ETH_STATUS_sat
  else
    let dst := beAt l 0 6
    let toMe := dst = s.dword (A.ETH_MAC x) || dst = s.dword A.ETH_DA || (dst = 0x0180C200000E && ty = 0x88F7)
    let vlanOk := if tagged then beAt l 14 2 % 4096 = s.f F.ETH_VLAN_vid else s.on F.ETH_VLAN_untag
    if !toMe || !vlanOk then s.dropFrame x
    else if ty = 0x88B5 then s.takeSafety x body
    else if ty = 0x88B6 then
      if 16384 < ((s.rxMgmt x).map List.length).sum + l.length then s.count (F.ETH_ERR1_mdrop x) F.ETH_STATUS_sat
      else s.setRxMgmt x (s.rxMgmt x ++ [l])
    else if ty = 0x88F7 then s
    else s.dropFrame x

/-! ### Transmitted frames (R422) -/

/-- Management frames that wait at MAC `x`. -/
def txMgmt (s : State) (x : Nat) : List (List Byte) := Table.get (fun _ => []) s.eth.mgmt x

/-- The state with MAC `x`'s management queue replaced. -/
def setTxMgmt (s : State) (x : Nat) (l : List (List Byte)) : State :=
  s.withEth { s.eth with mgmt := Table.put (fun _ => []) s.eth.mgmt x l }

/-- A management datagram of kind `kind` queued at MAC `x` (R427). -/
def sendMgmt (s : State) (x kind tag offset : Nat) (body : List Byte) : State :=
  s.setTxMgmt x (s.txMgmt x ++ [beBytes 1 1 ++ beBytes 1 kind ++ beBytes 2 tag ++ beBytes 4 offset ++ body])

/-- The frame that carries a payload of an EtherType from MAC `x`: addresses, tag, padding to the minimum (R422, R423). -/
def frameOf (s : State) (x dst ty : Nat) (body : List Byte) : List Byte :=
  let tag := if s.on F.ETH_VLAN_tag then beBytes 2 0x8100 ++ beBytes 2 (s.f F.ETH_VLAN_pcp * 8192 + s.f F.ETH_VLAN_vid) else []
  beBytes 6 dst ++ beBytes 6 (s.dword (A.ETH_MAC x)) ++ tag ++ beBytes 2 ty ++ body ++ List.replicate (46 - body.length) 0

/-- A frame leaves MAC `x`: its bytes are counted, preamble excluded, and shown as the words returned (R297). -/
def emit (s : State) (x : Nat) (l : List Byte) : State := (s.ctAdd (0x56 + 2 * x) (l.length + 4)).returned (l.map BitVec.toNat)

/-- The last byte of the mailbox response at the head of `l` has left on transport `via`: when it is that of a RESET command, the
reset starts 100 µs later (R331, log 42). -/
def responseGone (s : State) (via : Nat) (l : List Byte) : State :=
  match s.mbx.resetHeld with
  | some (target, v, r) =>
    if v = via ∧ l.take r.length = r then s.withMbx { s.mbx with resetHeld := none, resetDue := some (target, s.tick + us 100) } else s
  | none => s

/-- The next frame leaves MAC `x` (R422): a gPTP frame that is ready, then safety, then management.  A gPTP frame takes
its transmit stamp (R414). -/
def transmit (s : State) (x : Nat) (ptp : Option (List Byte)) (dst : Nat) : State :=
  if !s.ethUp x || s.isFallow 7 x then s
  else
    match ptp, s.safetyQ x, s.txMgmt x with
    | some b, _, _ => (s.etsStamp (2 * x + 1) (beAt b 0 1 % 16) (beAt b 30 2)).emit x (s.frameOf x 0x0180C200000E 0x88F7 b)
    | none, d :: r, _ => (s.setSafetyQ x r).emit x (s.frameOf x (s.dword A.ETH_DA) 0x88B5 d.body)
    | none, [], b :: r =>
      let s := (s.setTxMgmt x r).emit x (s.frameOf x dst 0x88B6 b)
      if beAt b 1 1 = 2 then s.responseGone (x + 1) (b.drop 8) else s
    | none, [], [] => s

/-- Datagram `i` of MAC `x`'s safety queue has not been taken within R25 (R424): it and every later fragment of its
verdict are withheld from this MAC. -/
def lateDgram (s : State) (x i : Nat) : State :=
  match (s.safetyQ x)[i]? with
  | none => s
  | some d =>
    if s.tick < d.tick + us 20 then s
    else
      let gone (j : Nat) (y : TxDgram) : Bool := j = i || (y.ctx = d.ctx && y.fid = d.fid && d.frag < y.frag && d.ctx < 1024)
      let q := (List.range (s.safetyQ x).length).zip (s.safetyQ x)
      let lost := (q.filter (fun p => gone p.1 p.2)).length
      let s := s.setSafetyQ x ((q.filter (fun p => !gone p.1 p.2)).map Prod.snd)
      let s := s.countBy (F.ETH_ERR1_late x) F.ETH_STATUS_sat lost
      ((s.raise { src := Src.ETH_TXLATE x, inst := x, detail := x }).retryEvent 7 x).settle

/-! ### Bulk data (R427, R494) -/

/-- The bulk datagram of tag, offset and data (R427). -/
def bulkDatagram (tag offset : Nat) (data : List Byte) : List Byte := beBytes 1 1 ++ beBytes 1 3 ++ beBytes 2 tag ++ beBytes 4 offset ++ data

/-- Bulk data at `offset` of the target slot of a running update: stored from the bytes acknowledged on, without a gap,
into sectors that are erased; every frame accepted is acknowledged. -/
def storeBulk (s : State) (x tag offset : Nat) (data : List Byte) : State :=
  if s.sec.session.isNone || s.f F.SYS_UPD_STAT_state ≠ 1 then s
  else
    match s.desc with
    | none => s
    | some d =>
      let (base, len) := descSlot d (s.f F.SYS_UPD_STAT_slot)
      let top := offset + data.length
      if offset < s.word A.SYS_UPD_ACK || s.boot.stored < offset || len < top
          || 0x10000 * s.f F.SYS_UPD_STAT_erase_next < top then s
      else
        let stored := max s.boot.stored top
        let s := (s.setFlash 0 (base + offset) data).withBoot { s.boot with stored := stored }
        let acked := stored / 0x10000 * 0x10000
        let s := if acked = s.word A.SYS_UPD_ACK then s else (s.setWord A.SYS_UPD_ACK acked).recordsPut
        s.sendMgmt x 4 tag offset (beBytes 4 (s.word A.SYS_UPD_ACK))

/-- The oldest management datagram of MAC `x` is that bulk data. -/
def takeBulk (s : State) (x tag offset : Nat) (data : List Byte) : State :=
  match s.takeMgmt x (fun b => b.take (8 + data.length) = bulkDatagram tag offset data) with
  | none => s
  | some (_, s) => s.storeBulk x tag offset data

/-- ETH_CLR.all (R436). -/
def clearEth (s : State) : State :=
  let s := [0, 1].foldl (fun s x =>
    ((s.setWord (A.ETH_ERR0 x) 0).setWord (A.ETH_ERR1 x) 0).setF (F.ETH_STAT_rchg x) 0) s
  (s.setWord A.ETH_CMPCNT 0).setF F.ETH_STATUS_sat 0

end State

/-- The PHY of MAC `x` reports that its link is lost (R420). -/
def execEthLinkDown (t : Nat) (x : Fin 2) (s : State) : Host.Outcome State Fault Refusal := done ((s.start t).phyReport x 0)

/-- The PHY of MAC `x` reports link at a rate (R420). -/
def execEthLinkUp (t : Nat) (x : Fin 2) (rate : Fin 4) (s : State) : Host.Outcome State Fault Refusal :=
  done ((s.start t).phyReport x (rate.val + 1))

/-- The PHY of MAC `x` reports another rate (R420): nothing while it reports no link. -/
def execEthRateChange (t : Nat) (x : Fin 2) (rate : Fin 4) (s : State) : Host.Outcome State Fault Refusal :=
  let s := s.start t
  done (if s.phyOf x = 0 then s else s.phyReport x (rate.val + 1))

/-- A frame arrives on MAC `x`, from its destination address to the end of its payload (R421); nothing on a link that is
down or a fallow port. -/
def execEthFrameReceive (t : Nat) (x : Fin 2) (fcsOk : Bool) (frame : List Byte) (s : State) :
    Host.Outcome State Fault Refusal :=
  let s := s.start t
  done (if s.ethUp x && !s.isFallow 7 x then s.takeFrame x fcsOk frame else s)

/-- No second copy of a held datagram has arrived by the C-th tick (R426); not yet due, nothing happens. -/
def execCompareTimeout (t : Nat) (peer : Fin 8) (seq : Word) (s : State) : Host.Outcome State Fault Refusal :=
  let s := s.start t
  match s.eth.cmp.find? (fun e => e.peer = peer.val && e.seq = seq.toNat) with
  | none => done s
  | some e =>
    if s.tick < e.tick + 250 * s.f F.ETH_RXCFG_cmp_us then done s
    else done (((s.dropCmp e).count F.ETH_CMPCNT_single F.ETH_STATUS_sat).deliver e.peer (1 + State.copyFlag e.mac) e.stamp e.body)

/-- Datagram `i` of MAC `x`'s safety queue has missed R25 (R424); not yet due, nothing happens. -/
def execEthTxlate (t : Nat) (x : Fin 2) (i : Nat) (s : State) : Host.Outcome State Fault Refusal := done ((s.start t).lateDgram x i)

/-- Bulk data that arrived through MAC `x` is taken from its buffer (R427); nothing where the oldest datagram is another. -/
def execBulkData (t : Nat) (x : Fin 2) (tag : BitVec 16) (offset : Word) (data : List Byte) (s : State) :
    Host.Outcome State Fault Refusal :=
  done ((s.start t).takeBulk x tag.toNat offset.toNat data)

/-- ETH_CLR (R436). -/
def execEthClr (t : Nat) (value : Word) (s : State) : Host.Outcome State Fault Refusal :=
  let s := s.start t
  done (if bitOf value.toNat 0 then s.clearEth else s)

/-- Peer `k` has sent nothing for its timeout (R425): its next datagram is a first copy; not yet due, nothing happens. -/
def execPeerTimeout (t : Nat) (k : Fin 8) (s : State) : Host.Outcome State Fault Refusal :=
  let s := s.start t
  done (if s.peerSilent k then s.setPeer k { s.peer k with started := false } else s)

/-- The next frame leaves MAC `x` (R414, R422): `ptp` a gPTP frame that the firmware has ready, `dst` the destination of
a management frame. -/
def execEthFrameTransmit (t : Nat) (x : Fin 2) (ptp : Option (List Byte)) (dst : BitVec 48) (s : State) :
    Host.Outcome State Fault Refusal :=
  done ((s.start t).transmit x ptp dst.toNat)

end Sys2Proof.Machine
end

