-- ==== Sys2Proof/Machine/I3c.lean ====
section
/-! DEFINITION. The I3C target port I3CT (R428 to R430) and the controller port I3CC (R431). -/

namespace Sys2Proof.Machine

open Sys2Proof

namespace State

/-! ### Target -/

/-- The target answers on its bus (R437). -/
def i3cOn (s : State) : Bool := s.on F.I3C_T_CFG_en

/-- The state with the I3C ports changed by `u`. -/
def modI3c (s : State) (u : I3c → I3c) : State := s.withI3c (u s.i3c)

/-- The target answers private transfers (R428, R430, R437): enabled, with a dynamic address, and in HDR-DDR only where that is
accepted. -/
def i3cTakes (s : State) (hdr : Bool) : Bool := s.i3cOn && s.on F.I3C_T_STAT_dav && (!hdr || s.on F.I3C_T_CFG_ddr)

/-- A command code that the target answers while it is enabled (R429). -/
def ccc (s : State) (k : State → State) : State := if s.i3cOn then k s else s

/-- The answer to a direct read code, most significant byte first (R429). -/
def answer (s : State) (n v : Nat) : State := s.returned ((beBytes n v).map BitVec.toNat)

/-- The dynamic address set; none with `none`. -/
def setDa (s : State) (a : Option Nat) : State :=
  (s.flag F.I3C_T_STAT_dav a.isSome).setF F.I3C_T_STAT_da (a.getD 0)

/-- The port reset of RSTACT 0x01 (R429): the address is lost, interrupts are enabled again, HDR mode is left. -/
def portReset (s : State) : State := ((s.setDa none).setF F.I3C_T_STAT_ibien 1).modI3c (fun _ => { s.i3c with hdr := false, proto := false })

/-- The GETSTATUS answer (R429): pending IBIs, a protocol error since the last read, the service level. -/
def i3cStatus (s : State) : Nat := bit (s.ibi ≠ 0) + 32 * bit s.i3c.proto + 256 * s.f F.SYS_SVC_level

/-! ### Controller -/

/-- A write of I3C_C_CMD (R431, R437). -/
def writeI3cCmd (s : State) (v : Nat) : State :=
  if s.on F.I3C_C_STAT_busy || !s.on F.I3C_C_CFG_en then (s.respond .errState).setF F.I3C_C_STAT_st 3
  else if 64 < bits v 8 7 then s.respond .errParam
  else (s.setF F.I3C_C_STAT_busy 1).modI3c (fun x => { x with cmd := some v })

/-- I3C_C_DATA as bytes, byte 0 first. -/
def i3cData (s : State) : List Byte := (List.range 16).flatMap (fun i => leBytes 4 (s.word (A.I3C_C_DATA i)))

/-- I3C_C_DATA holding a list of bytes; words beyond them keep their values. -/
def setI3cData (s : State) (l : List Byte) : State :=
  let all := l ++ s.i3cData.drop l.length
  (List.range 16).foldl (fun s i => s.setWord (A.I3C_C_DATA i) (leAt all (4 * i) 4)) s

/-- The running controller transfer ends with status `st`; a read brings bytes (R431). -/
def i3cEnd (s : State) (st : Nat) (data : List Byte) : State :=
  match s.i3c.cmd with
  | none => s
  | some v =>
    let s := ((s.setF F.I3C_C_STAT_busy 0).setF F.I3C_C_STAT_st st).modI3c (fun x => { x with cmd := none })
    if bitOf v 22 then
      let l := data.take (bits v 8 7)
      (s.setI3cData l).setF F.I3C_C_STAT_rxlen l.length
    else (s.setF F.I3C_C_STAT_rxlen 0).returned ((s.i3cData.take (bits v 8 7)).map BitVec.toNat)

/-- The queue of IBIs and I3C_C_STAT.ibi. -/
def setIbis (s : State) (l : List (Nat × List Byte)) : State :=
  (s.modI3c (fun x => { x with ibis := l })).setF F.I3C_C_STAT_ibi l.length

/-- A read of I3C_C_IBI (R431, R437): it removes the oldest entry. -/
def readIbi (s : State) : Nat × State :=
  match s.i3c.ibis with
  | [] => (0, s)
  | (a, l) :: r => (2 ^ 31 + a * 2 ^ 24 + beVal ((l ++ List.replicate 3 0).take 3), s.setIbis r)

end State

/-- A private read, or an HDR-DDR read with command 0x81, of up to `len` bytes (R430): the response, or NACK before it is
ready. -/
def execI3cPrivateRead (t : Nat) (hdr : Bool) (len : Nat) (s : State) : Host.Outcome State Fault Refusal :=
  let s := (s.start t).modI3c (fun x => { x with hdr := hdr && x.hdr })
  if !s.i3cTakes hdr || s.mbx.response.isEmpty then done ((s.returned []).respond .nack)
  else
    let s := if s.mbx.response.length ≤ len then s.responseGone 0 s.mbx.response else s
    done (s.returned ((s.mbx.response.take len).map BitVec.toNat))

/-- A pending in-band interrupt is raised at Bus Available (R430): acknowledged it is over, NACKed or disabled it stays. -/
def execIbiRetry (t : Nat) (acked : Bool) (s : State) : Host.Outcome State Fault Refusal :=
  let s := s.start t
  if s.ibi = 0 || !s.i3cOn || !s.on F.I3C_T_STAT_ibien || !s.on F.I3C_T_STAT_dav then done s
  else if acked then done ((s.returned [s.ibi]).withIbi 0)
  else done (s.countUp F.I3C_T_ERR_ibinack)

/-- ENEC (R429): only the target-interrupt bit acts. -/
def execEnec (t : Nat) (events : BitVec 8) (s : State) : Host.Outcome State Fault Refusal :=
  done ((s.start t).ccc (fun s => if bitOf events.toNat 0 then s.setF F.I3C_T_STAT_ibien 1 else s))

/-- DISEC (R429): only the target-interrupt bit acts. -/
def execDisec (t : Nat) (events : BitVec 8) (s : State) : Host.Outcome State Fault Refusal :=
  done ((s.start t).ccc (fun s => if bitOf events.toNat 0 then s.setF F.I3C_T_STAT_ibien 0 else s))

/-- ENTAS0 to ENTAS3 (R429): accepted and ignored. -/
def execEntas (t : Nat) (_n : Fin 4) (s : State) : Host.Outcome State Fault Refusal := done (s.start t)

/-- RSTDAA (R429): the dynamic address is no longer valid. -/
def execRstdaa (t : Nat) (s : State) : Host.Outcome State Fault Refusal := done ((s.start t).ccc (fun s => s.setDa none))

/-- ENTDAA (R428, R429): a target without a dynamic address takes the one assigned. -/
def execEntdaa (t : Nat) (addr : BitVec 7) (s : State) : Host.Outcome State Fault Refusal :=
  done ((s.start t).ccc (fun s => if s.on F.I3C_T_STAT_dav then s else s.setDa (some addr.toNat)))

/-- SETDASA (R428, R429): a target without a dynamic address whose static address matches, and is not 0, takes one. -/
def execSetdasa (t : Nat) (sa addr : BitVec 7) (s : State) : Host.Outcome State Fault Refusal :=
  done ((s.start t).ccc (fun s =>
    if s.f F.I3C_T_CFG_sa ≠ 0 && s.f F.I3C_T_CFG_sa = sa.toNat && !s.on F.I3C_T_STAT_dav then s.setDa (some addr.toNat)
    else s.respond .nack))

/-- SETNEWDA (R429): a target with a dynamic address takes another. -/
def execSetnewda (t : Nat) (addr : BitVec 7) (s : State) : Host.Outcome State Fault Refusal :=
  done ((s.start t).ccc (fun s => if s.on F.I3C_T_STAT_dav then s.setDa (some addr.toNat) else s.respond .nack))

/-- SETMWL (R429): accepted and ignored. -/
def execSetmwl (t : Nat) (_len : BitVec 16) (s : State) : Host.Outcome State Fault Refusal := done (s.start t)

/-- SETMRL (R429): accepted and ignored. -/
def execSetmrl (t : Nat) (_len : BitVec 16) (s : State) : Host.Outcome State Fault Refusal := done (s.start t)

/-- GETMWL (R429): 256. -/
def execGetmwl (t : Nat) (s : State) : Host.Outcome State Fault Refusal := done ((s.start t).ccc (fun s => s.answer 2 256))

/-- GETMRL (R429): 256. -/
def execGetmrl (t : Nat) (s : State) : Host.Outcome State Fault Refusal := done ((s.start t).ccc (fun s => s.answer 2 256))

/-- GETPID (R428, R429): the provisional ID. -/
def execGetpid (t : Nat) (s : State) : Host.Outcome State Fault Refusal :=
  done ((s.start t).ccc (fun s => s.answer 6 (s.dword A.I3C_PID)))

/-- GETBCR (R428, R429). -/
def execGetbcr (t : Nat) (s : State) : Host.Outcome State Fault Refusal := done ((s.start t).ccc (fun s => s.answer 1 0x26))

/-- GETDCR (R428, R429). -/
def execGetdcr (t : Nat) (s : State) : Host.Outcome State Fault Refusal := done ((s.start t).ccc (fun s => s.answer 1 0))

/-- GETSTATUS (R429): reading it clears the protocol error. -/
def execGetstatus (t : Nat) (s : State) : Host.Outcome State Fault Refusal :=
  done ((s.start t).ccc (fun s => (s.answer 2 s.i3cStatus).modI3c (fun x => { x with proto := false })))

/-- GETMXDS (R429): no read turnaround limit (log 28). -/
def execGetmxds (t : Nat) (s : State) : Host.Outcome State Fault Refusal := done ((s.start t).ccc (fun s => s.answer 2 0))

/-- GETCAPS (R429): version 1.1, HDR-DDR only (log 28). -/
def execGetcaps (t : Nat) (s : State) : Host.Outcome State Fault Refusal := done ((s.start t).ccc (fun s => s.answer 4 0x01010000))

/-- ENTHDR0 (R428, R429): the bus enters HDR-DDR. -/
def execEnthdr0 (t : Nat) (s : State) : Host.Outcome State Fault Refusal :=
  done ((s.start t).ccc (fun s => if s.on F.I3C_T_CFG_ddr then s.modI3c (fun x => { x with hdr := true }) else s))

/-- RSTACT (R429): 0x00 nothing, 0x01 the port reset; every other action is refused. -/
def execRstact (t : Nat) (action : BitVec 8) (s : State) : Host.Outcome State Fault Refusal :=
  done ((s.start t).ccc (fun s =>
    if action = 0 then s else if action = 1 then s.portReset else s.respond .nack))

/-- A write of I3C_C_CMD (R431). -/
def execI3cCCmd (t : Nat) (value : Word) (s : State) : Host.Outcome State Fault Refusal := done ((s.start t).writeI3cCmd value.toNat)

/-- The running controller transfer ends (R431): ST_OK, ERR_NACK or ERR_PROTO, and the bytes a read brought. -/
def execI3cCTransferEnd (t : Nat) (st : Fin 3) (data : List Byte) (s : State) : Host.Outcome State Fault Refusal :=
  done ((s.start t).i3cEnd st data)

/-- An IBI from a target (R431): queued with up to 3 bytes, NACKed when 16 wait; a Hot-Join, at address 0x02, is NACKed. -/
def execI3cCIbiReceive (t : Nat) (addr : BitVec 7) (payload : List Byte) (s : State) : Host.Outcome State Fault Refusal :=
  let s := s.start t
  if !s.on F.I3C_C_CFG_en || addr = 2 || 16 ≤ s.i3c.ibis.length then done (s.respond .nack)
  else done (s.setIbis (s.i3c.ibis ++ [(addr.toNat, payload.take 3)]))

/-- A read of I3C_C_IBI (R431, R437). -/
def execI3cCIbi (t : Nat) (s : State) : Host.Outcome State Fault Refusal :=
  let (v, s) := (s.start t).readIbi
  done (s.returned [v])

/-- A protocol error TE0 to TE6 on the target's bus (R430): counted, and I3C_ERR is raised. -/
def execI3cProtocolError (t : Nat) (_te : Fin 7) (s : State) : Host.Outcome State Fault Refusal :=
  done ((s.start t).ccc (fun s =>
    ((s.countUp F.I3C_T_ERR_proto).modI3c (fun x => { x with proto := true })).raise { src := Src.I3C_ERR }))

end Sys2Proof.Machine
end

