-- ==== Sys2Proof/Machine/Xsp.lean ====
section
/-! DEFINITION. The xSPI ports: device commands, their ends and errors, and the archive's bad blocks (R432 to R435, R438). -/

namespace Sys2Proof.Machine

open Sys2Proof

namespace State

/-- The command that runs on port `x`. -/
def xspRun (s : State) (x : Nat) : Option XspRun := Table.get (fun _ => none) s.xsp.run x

/-- The state with port `x`'s running command replaced, and XSP_STAT_x.busy. -/
def setXspRun (s : State) (x : Nat) (r : Option XspRun) : State :=
  (s.withXsp { s.xsp with run := Table.put (fun _ => none) s.xsp.run x r }).flag (F.XSP_STAT_busy x) r.isSome

/-- A write of XSP_CMD_x's high word (R432, R438): op, kind and chip select; the held low word is the address. -/
def xspStart (s : State) (x kind op cs : Nat) : State :=
  if s.on (F.XSP_STAT_busy x) || !s.on (F.XSP_CFG_en x) then s.respond .errState
  else
    let a := (Table.get (fun _ => (0 : Word)) s.held (A.XSP_CMD x)).toNat
    s.setXspRun x (some ⟨s.tick, kind, cs, op, a, s.word (A.XSP_LEN x)⟩)

/-- The device that port `x` and chip select `cs` reach. -/
def xspDev (x cs : Nat) : Nat := 2 * x + cs

/-- Bytes that one erase clears: a block of the archive, or a 64 KiB sector (R434, R435). -/
def eraseSize (s : State) (dev : Nat) : Nat := if dev = 2 then 4096 * 2 ^ s.f F.XSP_NAND_ppb else 0x10000

/-- A device error of port `x`: counted, the status kept, XSP_ERR raised (R432). -/
def xspError (s : State) (x st : Nat) (cnt : Field) : State :=
  ((s.setF (F.XSP_STAT_st x) st).count cnt F.XSP_STATUS_sat).raise { src := Src.XSP_ERR x, inst := x, detail := x }

/-- The next block of the archive ring after `b` that is not bad and carries no factory mark (R435). -/
def nextBlock (s : State) (b : Nat) : Nat :=
  let n := s.f F.XSP_NAND_blocks
  (((List.range n).map (fun i => 2 + (b - 2 + 1 + i) % (n - 2))).find? (fun c => !s.xsp.badBlocks.contains c && !s.xsp.factory.contains c)).getD b

/-- A block of the archive whose program or erase fails joins the bad-block table, is counted and is skipped (R435). -/
def badBlock (s : State) (b : Nat) : State :=
  if s.xsp.badBlocks.contains b then s
  else (s.withXsp { s.xsp with badBlocks := s.xsp.badBlocks ++ [b] }).count (F.XSP_STAT_bad 1) F.XSP_STATUS_sat

/-- The running command of port `x` is over (R432, R435): `data` are the bytes a program moved, `fails` says that the
device reports a failure of the program, the erase or the read.  The bytes that a register access moves are the device's (log 141). -/
def xspDone (s : State) (x : Nat) (fails : Bool) (data : List Byte) : State :=
  match s.xspRun x with
  | none => s
  | some r =>
    let dev := xspDev x r.cs
    let s := (s.setXspRun x none).setF (F.XSP_STAT_st x) 0
    let size := s.eraseSize dev
    let block := r.addr / size
    let nand := dev = 2
    match r.kind with
    | 0 => if fails then s.xspError x 4 (F.XSP_ERR_ecc x) else s.returned ((s.flashBytes dev r.addr r.len).map BitVec.toNat)
    | 1 =>
      let l := data.take r.len
      if fails then
        let s := s.xspError x 2 (F.XSP_ERR_prog x)
        if nand then
          let s := s.badBlock block
          s.setFlash dev (s.nextBlock block * size + r.addr % size) l
        else s
      else s.setFlash dev r.addr l
    | 2 =>
      if fails then
        let s := s.xspError x 3 (F.XSP_ERR_erase x)
        if nand then s.badBlock block else s
      else s.eraseFlash dev (block * size) size
    | _ => s.returned ((data.take r.len).map BitVec.toNat)

/-- The device of port `x` has been busy past tmo_ms (R432). -/
def xspLate (s : State) (x : Nat) : Bool :=
  match s.xspRun x with
  | none => false
  | some r => Nat.ble (r.start + ms (s.f (F.XSP_CFG_tmo_ms x))) s.tick

/-- XSP_CLR.all (R438). -/
def clearXsp (s : State) : State :=
  let s := [0, 1].foldl (fun s x => (s.setWord (A.XSP_ERR x) 0).setF (F.XSP_STAT_bad x) 0) s
  s.setF F.XSP_STATUS_sat 0

end State

/-- XSP_CMD_x with kind 0 (R432). -/
def execXspRead (t : Nat) (x : Fin 2) (op : BitVec 8) (cs : Fin 2) (s : State) : Host.Outcome State Fault Refusal :=
  done ((s.start t).xspStart x 0 op.toNat cs)

/-- XSP_CMD_x with kind 1 (R432). -/
def execXspProgram (t : Nat) (x : Fin 2) (op : BitVec 8) (cs : Fin 2) (s : State) : Host.Outcome State Fault Refusal :=
  done ((s.start t).xspStart x 1 op.toNat cs)

/-- XSP_CMD_x with kind 2 (R432). -/
def execXspErase (t : Nat) (x : Fin 2) (op : BitVec 8) (cs : Fin 2) (s : State) : Host.Outcome State Fault Refusal :=
  done ((s.start t).xspStart x 2 op.toNat cs)

/-- XSP_CMD_x with kind 3 (R432). -/
def execXspRegisterAccess (t : Nat) (x : Fin 2) (op : BitVec 8) (cs : Fin 2) (s : State) : Host.Outcome State Fault Refusal :=
  done ((s.start t).xspStart x 3 op.toNat cs)

/-- The running command of port `x` completes (R432, R435). -/
def execXspCmdDone (t : Nat) (x : Fin 2) (fails : Bool) (data : List Byte) (s : State) : Host.Outcome State Fault Refusal :=
  done ((s.start t).xspDone x fails data)

/-- The device of port `x` stays busy past tmo_ms (R432); not yet due, nothing happens. -/
def execXspBusyTimeout (t : Nat) (x : Fin 2) (s : State) : Host.Outcome State Fault Refusal :=
  let s := s.start t
  done (if s.xspLate x then (s.setXspRun x none).xspError x 1 (F.XSP_ERR_tmo x) else s)

/-- XSP_CLR (R438). -/
def execXspClr (t : Nat) (value : Word) (s : State) : Host.Outcome State Fault Refusal :=
  let s := s.start t
  done (if bitOf value.toNat 0 then s.clearXsp else s)

end Sys2Proof.Machine
end

