-- ==== Sys2Proof/Machine/Ml.lean ====
section
/-! DEFINITION. The Melhan link and the mirrored pair: frames in sequence, the mirror, heartbeats, roles, takeover and
hand-over (R439 to R456). -/

namespace Sys2Proof.Machine

open Sys2Proof

namespace State

/-! ### Takeover (R450) -/

/-- An accelerator sequence that the mirror shows as running is restarted in full (R450). -/
def restartSeq (s : State) (a : Nat) : State :=
  let m := Table.get (fun _ => 0) s.ml.mirSeq a
  if m = 0 then s
  else
    let who := (s.boundTo a).filter (fun n => (s.trust n = 4 || s.trust n = 5) && (s.ctx n).reactDone.isNone)
    let pend := s.f (F.VD_ACC_STAT_pend a)
    let s := s.driveRst a false
    let s := s.setSeq a ⟨.pulse (s.tick + us (s.f (F.VD_ACC_RST_width_us a))), who⟩
    if m = 2 then
      let s := s.drivePwr a false
      s.setSeq a { s.seq a with phase := .off (s.tick + ms (s.f (F.VD_ACC_PWR_off_ms a))) }
    else s.setF (F.VD_ACC_STAT_pend a) pend

/-- A held frame of the device that takes over (R450): FWD_FAIL, due 2 ms after the takeover, under the new counter. -/
def holdOver (s : State) (n : Nat) (f : Frm) : State :=
  if noInput f then s.modFrm n f.ord (fun f => { f with vDl := s.tick + us 2000, admitCtr := s.word (A.VD_ADMIT n) })
  else
    (s.addCause n f.ord Cause.fwdFail).modFrm n f.ord (fun f => { f with
      vDl := s.tick + us 2000, evDl := s.tick, admitCtr := s.word (A.VD_ADMIT n), ev := .failed, ag := .complete, todo := [],
      running := [], vp2Due := false })

/-- The secondary takes over (R450). -/
def takeOver (s : State) : State :=
  let s := s.count F.ML_CNT1_takeover F.ML_STATUS_sat
  let s := s.setF F.ML_STATUS_role 1
  let s := s.enabled.foldl (fun s n => if s.inJudged n then s.moveAdmitting n else s) s
  let s := s.enabled.foldl (fun s n => (s.frms n).foldl (fun s f => s.holdOver n f) s) s
  let s := [0, 1, 2, 3].foldl (fun s a => s.restartSeq a) s
  (s.modMl (fun m => { m with mirSeq := [] })).driveOuts

/-- The conditions of a takeover without a hand-over (R450). -/
def watchPartner (s : State) : State :=
  if s.isSecondary && s.f F.SYS_SVC_level = 1 && s.on F.ML_STATUS_hb_lost && s.on F.ML_STATUS_pfn then s.takeOver else s

/-! ### The mirror on the secondary (R444, R445) -/

/-- A mirrored trust state (R444): the reaction of a new rejection, and the rejection history (R38). -/
def mirTrust (s : State) (n st : Nat) (reacting : Bool) : State :=
  let was := s.trust n
  let s := if was ≠ 4 ∧ st = 4 then s.modCtx n (fun c => { c with rejTicks := c.rejTicks ++ [s.tick] }) else s
  let s := if reacting then s.modCtx n (fun c => { c with reactDone := none })
    else if (s.ctx n).reactDone.isNone then s.modCtx n (fun c => { c with reactDone := some s.tick }) else s
  s.setTrust n st

/-- A mirrored window (R444); bits at and above its length read 0 (R43). -/
def mirHist (s : State) (n hist : Nat) : State := s.setDword (A.VD_CTX_HIST n) (hist % 2 ^ s.f (F.VD_CTX_THR_n n))

/-- Trust states, clean runs, windows, causes and counters of a context as mirrored (R444), reserved bits zero (R8), and
sticky causes set as hardware sets them (R7). -/
def mirCtx (s : State) (n state cause hist doubt late gap rej : Nat) (reacting : Bool) : State :=
  let s := s.mirTrust n (bits state (F.VD_CTX_STATE_state 0).lo (F.VD_CTX_STATE_state 0).width) reacting
  let s := (s.setWord (A.VD_CTX_STATE n) (state &&& 0xFFF8FF83)).mirHist n hist
  let s := (s.setWord (A.VD_CTX_CAUSE n) cause).hwSet (A.VD_CTX_CAUSE n) (cause % 2 ^ 16)
  (((s.setWord (A.VD_DOUBT n) doubt).setWord (A.VD_LATE n) late).setWord (A.VD_GAP n) gap).setF (F.VD_REJ_rej n) (rej / 2 ^ 16)

/-- An accelerator's sequence and levels as mirrored (R444, R447). -/
def mirAcc (s : State) (a stat : Nat) (rst pwr : Bool) (phase : Nat) : State :=
  let was := Table.get (fun _ => 0) s.ml.mirSeq a
  let s := ((s.driveRst a rst).drivePwr a pwr).setWord (A.VD_ACC_STAT a) (stat &&& 0xFFFFFF03)
  let s := s.modMl (fun m => { m with mirSeq := Table.put (fun _ => 0) m.mirSeq a phase })
  if was ≠ 0 ∧ phase = 0 then
    (s.boundTo a).foldl (fun s n => if s.inJudged n then s.modCtx n (fun c => { c with resetEnd := some s.tick }) else s) s
  else s

/-- A mirrored decision (R444): the context's registers, causes and counters, and its frames up to that one leave. -/
def mirDecision (s : State) (n fid state causes hist : Nat) (d : DecCounts) (nofb noinput : Bool) : State :=
  let st := bits state (F.VD_CTX_STATE_state 0).lo (F.VD_CTX_STATE_state 0).width
  let sat := F.VD_CTX_STATE_sat n
  let reacting := st == 4 && s.trust n ≠ 4 && (s.on (F.VD_CTX_REACT_rst n) || s.on (F.VD_CTX_REACT_pwr n))
  let rej := s.f (F.VD_REJ_rej n)
  let s := (s.mirTrust n st (reacting || (s.ctx n).reactDone.isNone)).setF (F.VD_REJ_rej n) rej
  let s := (s.countBy (F.VD_REJ_rej n) sat d.rej).countBy (F.VD_LATE_count n) sat d.late
  let s := (s.setWord (A.VD_CTX_STATE n) (state &&& 0xFFF8FF83)).mirHist n hist
  let s := (s.setF (F.VD_CTX_CAUSE_last n) causes).hwSet (A.VD_CTX_CAUSE n) (causes % 2 ^ 16)
  let s := if noinput then s.count (F.VD_GAP_noinput n) sat else if nofb then s.count (F.VD_GAP_nofb n) sat else s
  let s := if d.doubt then s.count (F.VD_DOUBT_count n) sat else s
  if (s.frms n).any (fun f => f.fid = fid) then
    let upto := (s.frms n).takeWhile (fun f => f.fid ≠ fid)
    (s.frms n).foldl (fun s f => if upto.any (fun g => g.ord = f.ord) || f.fid = fid then s.forget n f else s) s
  else s

/-- A mirrored admission counter and key epoch (R96, R444, R453): taken as they stand. -/
def mirKeys (s : State) (n admitCtr epoch : Nat) : State :=
  let s := if s.word (A.VD_ADMIT n) ≠ admitCtr then s.riseAdmit n admitCtr else s
  if s.f (F.EV_CTX_KEY_epoch n) = epoch then s
  else
    let c := s.ctx n
    let f0 := (s.frms n).getLast?.elim 0 Frm.ord
    let s := s.setCtx n { c with old := if c.frames.isEmpty then .none else .grace admitCtr (s.f (F.EV_CTX_KEY_epoch n)) f0,
                                 change := .none, epochFrames := 0 }
    (s.setF (F.EV_CTX_KEY_epoch n) epoch).showKey n

/-- The mirrored fallow list's count and entries in the mirror area (R444, R488). -/
def mirFallow (s : State) (kind num : Nat) (listed : Bool) : State :=
  let base := s.dword A.ML_MIR_BASE
  let n := min 16383 (s.memVal base 4)
  let old := (List.range n).map (fun i => s.memVal (base + 4 + 4 * i) 4)
  let e := kind % 256 + 65536 * (num % 65536)
  let rest := old.filter (· ≠ e)
  let new := if listed then (rest ++ [e]).take 16383 else rest
  s.ownWrite base ownMaster (leBytes 4 new.length ++ new.flatMap (leBytes 4) ++ List.replicate (4 * (n - new.length)) 0)

/-- A LOG frame stored in the mirror area (R444). -/
def storeLog (s : State) (x : MlLog) : State :=
  let base := s.dword A.ML_MIR_BASE
  match x with
  | .record k body => s.ownWrite (base + 0x10000 + 64 * (k % 32)) ownMaster (body.take 64)
  | .watch w c => s.ownWrite (base + 0x10800 + w % 16) ownMaster (leBytes 1 (min c 255))
  | .fallow kind num listed => s.mirFallow kind num listed

/-- A frame applied (R443 to R446, R450): a DECISION, STATE, KEYS or LOG frame later than 2 µs is late. -/
def applyMl (s : State) (x : MlIn) : State :=
  let s := if mlRank x.msg < 4 ∧ x.sent + 2000 < s.time then
      (s.setF F.ML_STATUS_lag 1).raise { src := Src.ML_LINK } else s
  let sec := s.isSecondary
  match x.msg with
  | .heartbeat .. | .ack _ => s
  | .log y => s.storeLog y
  | .bulk o l => s.ownWrite (s.dword A.ML_MIR_BASE + 0x20000 + o) ownMaster (l.take (0xE0000 - o))
  | .decision n fid st c h d b i => if sec then s.mirDecision n fid st c h d b i else s
  | .state (.ctx n st c h d l g r k) => if sec then s.mirCtx n st c h d l g r k else s
  | .state (.acc a st rst pwr ph) => if sec then s.mirAcc a st rst pwr ph else s
  | .state (.sout n m) => if sec then (s.setSoutReq n m).driveOuts else s
  | .state .copyEnd => if sec then s.setF F.ML_STATUS_sync 1 else s
  | .keys n a e => if sec then s.mirKeys n a e else s
  | .time _ =>
    if sec && s.on F.ML_CFG_tsrc then
      s.sample (((x.arrived : Int) - x.sent) * 65536 - (s.f F.ML_RTT_ns : Int) * 32768)
    else s
  | .frame p fid st => if sec then s.alignFrame p fid st else s
  | .handOver _ => if sec && s.f F.SYS_SVC_level = 1 then s.takeOver else s

/-! ### Frames in (R441, R442) -/

/-- Sequence `a` lies before `b`, modulo 2^32. -/
def seqBefore (a b : Nat) : Bool := Nat.ble (2 ^ 31) ((a + 2 ^ 32 - b) % 2 ^ 32)

/-- Frames that can be applied are applied in sequence order (R442); a gap that no resend can fill any more, left by a lost
HEARTBEAT or ACK, is passed over (log 29). -/
def drainMl (s : State) : Nat → State
  | 0 => s
  | k + 1 =>
    match s.ml.expect with
    | none => s
    | some e =>
      match s.ml.waiting.find? (fun x => x.seq = e) with
      | some x =>
        ((s.modMl (fun m => { m with
          expect := some ((e + 1) % 2 ^ 32), waiting := m.waiting.filter (fun y => y.seq ≠ e) })).applyMl x).drainMl k
      | none =>
        match leastBy (fun x => [(x.seq + 2 ^ 32 - e) % 2 ^ 32]) s.ml.waiting with
        | some x => if x.tick + 375 ≤ s.tick then (s.modMl (fun m => { m with expect := some x.seq })).drainMl k else s
        | none => s

/-- ML_PARTNER from a received header (R441, R456). -/
def notePartner (s : State) (h : MlHdr) : State :=
  (((s.setF F.ML_PARTNER_level h.level).setF F.ML_PARTNER_role h.role).flag F.ML_PARTNER_strap h.strap).setF F.ML_PARTNER_id h.id.toNat

/-- A Melhan frame arrives (R441, R442); `now` is what its type does at its arrival.  A failed CRC, an
injection of class 9 (R355) or a type that is not listed drops it. -/
def receiveMl (s : State) (h : MlHdr) (msg : MlMsg) (now : State → State) : State :=
  if !s.mlUp then s
  else
    let s := s.ctAdd 0x5B 260
    let inj := s.injHits 9 0
    let s := if inj then s.injMade else s
    if !h.crcOk || !h.listed || inj then s.count F.ML_CNT0_crc F.ML_STATUS_sat
    else
      let s := ((s.notePartner h).expireFrames).arbitrate
      let q := h.seq.toNat
      let s := match msg with
        | .heartbeat .. | .ack _ => s
        | _ => (s.showFrame (s.mlFrame (.ack [q]))).mlSend (.ack [q])
      let s := now s
      let e := s.ml.expect.getD q
      if seqBefore q e || s.ml.waiting.any (fun x => x.seq = q) then s
      else
        let x : MlIn := ⟨q, s.tick, s.time, h.time.toNat, msg⟩
        let s := s.modMl (fun m => { m with expect := some e, waiting := m.waiting ++ [x] })
        (s.drainMl (2 * s.ml.waiting.length)).watchPartner.takeEnded

/-- The link goes down (R442). -/
def mlDown (s : State) : State :=
  ((s.setF F.ML_STATUS_link 0).setF F.ML_STATUS_sync 0).modMl (fun m => { m with out := [], waiting := [], expect := none })

/-- A heartbeat received (R446, R449): the miss count starts again, hb_lost clears, the round-trip time is measured. -/
def takeHeartbeat (s : State) (h : MlHdr) (echo arrived : Nat) : State :=
  let now := s.time
  let s := match s.ml.hbLog.find? (fun p => p.1 = echo) with
    | some (_, t1) =>
      let rtt : Int := ((now : Int) - t1) - ((h.time.toNat : Int) - arrived)
      s.setF F.ML_RTT_ns (min rtt.toNat 0xFFFF)
    | none => s
  (s.setF F.ML_STATUS_hb_lost 0).modMl (fun m => { m with
    hbTick := some s.tick, misses := 0, hbPeer := (h.seq.toNat, now) })

/-- Frames acknowledged (R442, R454): the end of a full copy sets sync; a hand-over makes the device secondary. -/
def takeAck (s : State) (seqs : List Nat) : State :=
  let got := s.ml.out.filter (fun x => seqs.contains x.seq)
  let s := s.modMl (fun m => { m with out := m.out.filter (fun x => !seqs.contains x.seq) })
  let s := if got.any (fun x => x.msg == .state .copyEnd) then s.setF F.ML_STATUS_sync 1 else s
  match s.ml.handOver with
  | some _ =>
    if got.any (fun x => isHandOver x.msg) then
      ((s.modMl (fun m => { m with handOver := none })).takeRole 2).count F.ML_CNT1_handover F.ML_STATUS_sat
    else s
  | none => s

/-- The warden warm reset that waited for a hand-over starts once that has ended (R454). -/
def resetAfterHandOver (s : State) : State :=
  match s.ml.handOver, s.ml.resetAfter with
  | none, some c => s.deviceReset true c
  | _, _ => s

/-- ML_CLR.all (R456). -/
def clearMl (s : State) : State :=
  (((s.setWord A.ML_CNT0 0).setWord A.ML_CNT1 0).setF F.ML_STATUS_lag 0).setF F.ML_STATUS_sat 0

end State

/-- PARTNER_FAULT_N low is taken (R440, R448, R450). -/
def execPartnerFault (t : Nat) (s : State) : Host.Outcome State Fault Refusal :=
  let s := s.start t
  if s.on F.ML_STATUS_pfn then done s
  else
    let s := (s.setF F.ML_STATUS_pfn 1).raise { src := Src.PARTNER_FAULT }
    done (s.arbitrate.watchPartner).takeEnded

/-- PARTNER_FAULT_N high is taken (R440). -/
def execPartnerFaultRelease (t : Nat) (s : State) : Host.Outcome State Fault Refusal := done ((s.start t).setF F.ML_STATUS_pfn 0)

/-- A HEARTBEAT arrives (R446, R449). -/
def execHeartbeat (t : Nat) (h : MlHdr) (echo : Word) (arrived : DWord) (s : State) : Host.Outcome State Fault Refusal :=
  done ((s.start t).receiveMl h (.heartbeat echo.toNat arrived.toNat) (fun s => s.takeHeartbeat h echo.toNat arrived.toNat))

/-- A DECISION frame arrives (R444). -/
def execDecision (t : Nat) (h : MlHdr) (n : Fin 1024) (fid state : Word) (causes : BitVec 16) (hist : DWord)
    (doubt : DecCounts) (nofb noinput : Bool) (s : State) : Host.Outcome State Fault Refusal :=
  done ((s.start t).receiveMl h (.decision n fid.toNat state.toNat causes.toNat hist.toNat doubt nofb noinput) id)

/-- A STATE frame arrives (R444). -/
def execState (t : Nat) (h : MlHdr) (x : MlState) (s : State) : Host.Outcome State Fault Refusal :=
  done ((s.start t).receiveMl h (.state x) id)

/-- A KEYS frame arrives (R444). -/
def execKeys (t : Nat) (h : MlHdr) (n : Fin 1024) (admitCtr : Word) (epoch : BitVec 16) (s : State) :
    Host.Outcome State Fault Refusal :=
  done ((s.start t).receiveMl h (.keys n admitCtr.toNat epoch.toNat) id)

/-- A TIME frame arrives (R446). -/
def execTime (t : Nat) (h : MlHdr) (ns : DWord) (s : State) : Host.Outcome State Fault Refusal :=
  done ((s.start t).receiveMl h (.time ns.toNat) id)

/-- A FRAME frame arrives (R445). -/
def execFrame (t : Nat) (h : MlHdr) (p : Fin 16) (fid : Word) (stamp : DWord) (s : State) : Host.Outcome State Fault Refusal :=
  done ((s.start t).receiveMl h (.frame p fid.toNat stamp.toNat) id)

/-- A LOG frame arrives (R444). -/
def execLog (t : Nat) (h : MlHdr) (x : MlLog) (s : State) : Host.Outcome State Fault Refusal :=
  done ((s.start t).receiveMl h (.log x) id)

/-- A HAND_OVER frame arrives (R450). -/
def execHandOver (t : Nat) (h : MlHdr) (last : List (Nat × Nat)) (s : State) : Host.Outcome State Fault Refusal :=
  done ((s.start t).receiveMl h (.handOver last) id)

/-- An ACK frame arrives (R442, R454). -/
def execAck (t : Nat) (h : MlHdr) (seqs : List Nat) (s : State) : Host.Outcome State Fault Refusal :=
  done (((s.start t).receiveMl h (.ack seqs) (fun s => s.takeAck seqs)).resetAfterHandOver)

/-- A BULK frame arrives (R441, R444). -/
def execBulk (t : Nat) (h : MlHdr) (offset : BitVec 20) (data : List Byte) (s : State) : Host.Outcome State Fault Refusal :=
  done ((s.start t).receiveMl h (.bulk offset.toNat data) id)

/-- A frame is still unacknowledged 500 ns after its last send (R442): resent, or after the second resend the link is down. -/
def execMlResend (t : Nat) (seq : Word) (s : State) : Host.Outcome State Fault Refusal :=
  let s := s.start t
  match s.ml.out.find? (fun x => x.seq = seq.toNat) with
  | none => done s
  | some x =>
    if s.tick < x.sentTick + 125 then done s
    else if x.sends < 3 then
      let s := ((s.count F.ML_CNT0_resend F.ML_STATUS_sat).ctAdd 0x5A 260).showFrame x
      done (s.modMl (fun m => { m with out := m.out.map (fun y =>
        if y.seq = x.seq then { y with sends := y.sends + 1, sentTick := s.tick } else y) }))
    else done ((s.raise { src := Src.ML_LINK }).mlDown)

/-- The link has trained (R442, R448, R452, R455); the sequence of `h` is that of the partner's next frame (log 158).  A device
that sends no full copy sends its own logs (R444). -/
def execMlLinkUp (t : Nat) (h : MlHdr) (s : State) : Host.Outcome State Fault Refusal :=
  let s := s.start t
  if !s.on F.ML_CTRL_en || s.on F.ML_STATUS_link then done s
  else
    let s := ((s.setF F.ML_STATUS_link 1).notePartner h).modMl (fun m => { m with expect := some h.seq.toNat })
    let s := s.resolvePrimaries
    let s := if s.f F.ML_STATUS_role = 1 then s.sendCopy else s.sendLogs
    done s.arbitrate.watchPartner

/-- A HEARTBEAT is sent every 100 µs (R449); not due, nothing happens. -/
def execHeartbeatSend (t : Nat) (s : State) : Host.Outcome State Fault Refusal :=
  let s := s.start t
  let lv := s.f F.SYS_SVC_level
  if s.mlUp && (lv = 1 || lv = 2) && Nat.ble (s.ml.hbSent + 25000) s.tick then
    let q := s.ml.nextSeq
    let msg := MlMsg.heartbeat s.ml.hbPeer.1 s.ml.hbPeer.2
    let s := (s.showFrame (s.mlFrame msg)).mlSend msg
    done (s.modMl (fun m => { m with hbSent := s.tick, hbLog := ((q, s.time) :: m.hbLog).take 8 }))
  else done s

/-- 25,000 ticks have passed with no heartbeat (R449, R450); not due, nothing happens. -/
def execHeartbeatMiss (t : Nat) (s : State) : Host.Outcome State Fault Refusal :=
  let s := s.start t
  match s.ml.hbTick with
  | none => done s
  | some k =>
    if !s.on F.ML_CTRL_en || Nat.blt s.tick (k + 25000) then done s
    else
      let m := min (s.ml.misses + 1) 4
      let s := s.modMl (fun x => { x with hbTick := some (k + 25000), misses := m })
      let s := if m = 3 then
          ((s.setF F.ML_STATUS_hb_lost 1).raise { src := Src.ML_HB }).count F.ML_CNT1_hbmiss F.ML_STATUS_sat
        else s
      done s.watchPartner.takeEnded

/-- A TIME frame is sent by the primary every 1 ms (R444); not due, nothing happens. -/
def execTimeSend (t : Nat) (s : State) : Host.Outcome State Fault Refusal :=
  let s := s.start t
  if s.mlUp && s.leads && Nat.ble (s.ml.timeSent + State.ms 1) s.tick then
    done (((s.showFrame (s.mlFrame (.time s.time))).mlSend (.time s.time)).modMl (fun m => { m with timeSent := s.tick }))
  else done s

/-- wait_ms has passed without a link (R448); not due, nothing happens. -/
def execArbitrationWaitExpire (t : Nat) (s : State) : Host.Outcome State Fault Refusal := done (s.start t).arbitrate.watchPartner

/-- HAND_OVER written to ML_CMD (R454). -/
def execMlCmdHandOver (t : Nat) (s : State) : Host.Outcome State Fault Refusal :=
  let s := s.start t
  if s.ml.handOver.isSome then done ((s.respond .stBusy).setF F.ML_STATUS_st 0x01)
  else if s.mayHandOver then done (s.setF F.ML_STATUS_st 0x00).sendHandOver
  else done ((s.respond .errState).setF F.ML_STATUS_st 0x10)

/-- 10 µs have passed with the hand-over not acknowledged (R454): what it was sent for goes on, the arbitration of sentinel service
(R448) or the warm reset; not due, nothing happens. -/
def execHandOverTimeout (t : Nat) (s : State) : Host.Outcome State Fault Refusal :=
  let s := s.start t
  match s.ml.handOver with
  | some k =>
    if k + State.us 10 ≤ s.tick then
      let s := (s.modMl (fun m => { m with handOver := none })).setF F.ML_STATUS_st 0x10
      done (if s.f F.SYS_SVC_level = 2 then s.startArb else s.resetAfterHandOver)
    else done s
  | none => done s

/-- RESYNC written to ML_CMD (R456): the primary resends the full copy; any other device has none to send. -/
def execResync (t : Nat) (s : State) : Host.Outcome State Fault Refusal :=
  let s := (s.start t).setF F.ML_STATUS_st 0x00
  if s.mlUp && s.f F.ML_STATUS_role = 1 then done s.sendCopy else done s

/-- ML_CLR (R456). -/
def execMlClr (t : Nat) (value : Word) (s : State) : Host.Outcome State Fault Refusal :=
  let s := s.start t
  done (if bitOf value.toNat 0 then s.clearMl else s)

end Sys2Proof.Machine
end

