-- ==== Sys2Proof/Machine/Sec.lean ====
section
/-! DEFINITION. Provisioning, the way out of FIELD, key epochs, the archive's keys and page jobs, and the random source
(R457 to R459, R469 to R481). -/

namespace Sys2Proof.Machine

open Sys2Proof

/-- Bytes of fuse field `k` (R457), by its number (log 20). -/
def fuseWidth (k : Nat) : Nat :=
  match k with
  | 0 => 1
  | 1 => 8
  | 2 => 6
  | 7 => 1
  | 8 => 8
  | 10 => 48
  | _ => 32

/-- The secret fields (R457): idseed, ps, vs, ar, hk. -/
def fuseSecret (k : Nat) : Bool := decide (10 ≤ k) && decide (k ≤ 14)

namespace State

/-- Both copies of a fuse field programmed. -/
def setFuse (s : State) (k : Nat) (l : List Byte) : State :=
  (s.withSec { s.sec with
    fuses := Table.put (fun _ => []) s.sec.fuses k l, fuses2 := Table.put (fun _ => []) s.sec.fuses2 k l })

/-- SEC_PROV_STAT.st, and the response to the write (R481). -/
def provSt (s : State) (st : Nat) : State :=
  let s := s.setF F.SEC_PROV_STAT_st st
  match st with
  | 0x10 => s.respond .errState
  | 0x11 => s.respond .errParam
  | 0x13 => s.respond .errDenied
  | _ => s

/-- SEC_KSTAT.st (R470 to R472). -/
def kSt (s : State) (st : Nat) : State := s.setF F.SEC_KSTAT_st st

/-- The bytes that SEC_PROV_DATA holds for a field of `n` bytes, word 0 first (R481). -/
def provData (s : State) (n : Nat) : List Byte :=
  ((List.range 16).flatMap (fun i => leBytes 4 (s.word (A.SEC_PROV_DATA i)))).take n

/-- The value that SEC_PROV_DATA holds for fuse field `k` (R457, R481): revoke has four bits. -/
def fuseData (s : State) (k : Nat) : List Byte :=
  if k = 7 then leBytes 1 (leVal (s.provData 1) % 16) else s.provData (fuseWidth k)

/-- A field programmed in MANUF (R459): life only by LOCK and idseed only by PROV_ID; a secret field once; the bits of an open
field add to those programmed before (log 30). -/
def programFuse (s : State) (k : Nat) : State :=
  if s.life ≠ 0x00 then s.provSt 0x10
  else if k = 0 ∨ k = 10 ∨ 14 < k then s.provSt 0x11
  else
    let old := s.fuse k
    if fuseSecret k ∧ old ≠ [] then s.provSt 0x10
    else
      let new := s.fuseData k
      let v := if old = [] then new else leBytes (fuseWidth k) (leVal old ||| leVal new)
      (s.setFuse k v).provSt 0x00

/-- PROV_ID (R459, R479): idseed drawn from the CTR_DRBG. -/
def provisionId (s : State) : State :=
  if s.life ≠ 0x00 ∨ s.drbgStopped ∨ s.fuse 10 ≠ [] then s.provSt 0x10
  else
    let (l, s) := s.drbg 48
    (s.setFuse 10 l).provSt 0x00

/-- The lifecycle set (R458). -/
def setLife (s : State) (v : Nat) : State := (s.setFuse 0 (leBytes 1 v)).setF F.SEC_STATUS_life v

/-- LOCK (R459): every field but revoke and minver has been programmed. -/
def lockFuses (s : State) : State :=
  if s.life = 0x00 ∧ [1, 2, 3, 4, 5, 6, 9, 10, 11, 12, 13, 14].all (fun k => !(s.fuse k).isEmpty) then (s.setLife 0x5A).provSt 0x00
  else s.provSt 0x10

/-- CHALLENGE (R480, R481): drawn in FIELD and placed in the buffer. -/
def returnChallenge (s : State) : State :=
  if s.life ≠ 0x5A ∨ s.drbgStopped then s.provSt 0x10
  else
    let (l, s) := s.drbg 32
    let s := s.ownWrite (s.dword A.SEC_AJOB_ADDR) ownMaster l
    (s.withSec { s.sec with retChallenge := some l }).provSt 0x00

/-- RETURN (R480): `sigOk` says whether the token's signature verifies (log 23). -/
def returnDevice (s : State) (sigOk : Bool) : State :=
  if s.life ≠ 0x5A ∨ s.sec.retChallenge.isNone then s.provSt 0x10
  else
    let s := s.withSec { s.sec with retChallenge := none }
    if sigOk ∧ s.fuse 9 ≠ [] then ((s.setLife 0xA5).withSec { (s.setLife 0xA5).sec with returnDue := some (s.tick + us 2) }).provSt 0x00
    else (s.raise { src := Src.SEC_AUTH }).provSt 0x13

/-! ### Key epochs (R470 to R472) -/

/-- KEY_EPOCH (R470, R471): the outcome stands in SEC_KSTAT.st only. -/
def keyEpochCmd (s : State) (all : Bool) (n : Nat) : State :=
  if all then
    let (s, refused) := (s.enabled.filter (fun m => s.trust m ≠ 0)).foldl (fun (s, r) m =>
      let (s, x) := s.requestEpoch m
      (s, r || x)) (s, false)
    s.kSt (if refused then 0x10 else 0x00)
  else if !s.enabled.contains n then s.kSt 0x11
  else if s.trust n = 0 then s.kSt 0x00
  else
    let (s, refused) := s.requestEpoch n
    s.kSt (if refused then 0x10 else 0x00)

/-- VERDICT_EPOCH (R472). -/
def verdictEpochCmd (s : State) : State :=
  if s.f F.SEC_VEPOCH_epoch = 0xFFFF then s.kSt 0x10 else s.bumpVerdict.kSt 0x00

/-! ### The archive (R475 to R477) -/

/-- The old archive key is zeroized in the first tick in which no sweep runs and no old-epoch read is outstanding (R477). -/
def settleArchive (s : State) : State :=
  if s.on F.SEC_ASTAT_old_valid && !s.on F.SEC_ASTAT_sweep && s.f F.SEC_ASTAT_reads = 0 && Nat.ble s.sec.zeroAt s.tick then
    s.setF F.SEC_ASTAT_old_valid 0
  else s

/-- The old key may go from the next tick on (R477). -/
def zeroizeSoon (s : State) : State := s.withSec { s.sec with zeroAt := s.tick + 1 }

/-- ROTATE (R476): a decrypt job that runs under the key which becomes the old one is outstanding (R477). -/
def rotateArchive (s : State) : State :=
  let s := s.settleArchive
  let e := s.f F.SEC_ASTAT_epoch
  if s.on F.SEC_ASTAT_old_valid ∨ e = 0xFFFF then s.respond .errState
  else
    let s := s.withSec { s.sec with oldEpoch := e, rotTick := s.tick + 1 }
    let s := if s.sec.job.any (fun j => j.decrypt && j.epoch = e) then s.setF F.SEC_ASTAT_reads 1 else s
    ((s.setF F.SEC_ASTAT_old_valid 1).setF F.SEC_ASTAT_epoch (e + 1)).setF F.SEC_ASTAT_sweep 1

/-- SWEEP_DONE (R477, R481). -/
def endSweep (s : State) : State :=
  let s := s.settleArchive
  if s.on F.SEC_ASTAT_sweep then (s.setF F.SEC_ASTAT_sweep 0).zeroizeSoon else s.respond .errState

/-- The page buffer (R481). -/
def pageBuf (s : State) : Nat := s.dword A.SEC_AJOB_ADDR

/-- A page job starts (R475 to R477): an encrypt job under the current key, in the tick of a ROTATE still the key before it; a
decrypt job under the epoch of the page's spare area. -/
def startPage (s : State) (decrypt : Bool) : State :=
  let s := s.settleArchive
  if s.sec.job.isSome then s.respond .errState
  else
    let b := s.pageBuf
    let cur := if s.sec.rotTick = s.tick + 1 then s.sec.oldEpoch else s.f F.SEC_ASTAT_epoch
    let e := if decrypt then s.memVal (b + 4096) 2 else cur
    let old := decrypt && s.on F.SEC_ASTAT_old_valid && e = s.sec.oldEpoch
    let s := if old then s.setF F.SEC_ASTAT_reads (min (s.f F.SEC_ASTAT_reads + 1) 255) else s
    let s := (s.setF F.SEC_AJOB_go 1).flag F.SEC_AJOB_dir decrypt
    s.withSec { s.sec with job := some ⟨decrypt, e, b, s.tick + us 12⟩ }

/-- IV of a page (R475). -/
def pageIv (epoch seq : Nat) : List Byte := [0x41, 0x52] ++ beBytes 2 epoch ++ beBytes 8 seq

/-- The page buffer is written, and the status with which that ends the job (R475): a refused write ends it as a lost read does. -/
def putPage (s : State) (a : Nat) (l : List Byte) : Nat × State :=
  match s.writeAllowed a 2 ownMaster l with
  | (none, s) => (0x00, s)
  | (some _, s) => (0x05, s)

/-- The page job's work (R435, R475): the buffer and the status it ends with. -/
def pageWork (s : State) (j : PageJob) (det : Nat) : Nat × State :=
  match s.memRead j.base 4112 1 ownMaster det false with
  | (.ok l, s) =>
    let seq := leAt l 4098 8
    let key := s.archiveKey j.epoch
    let iv := pageIv j.epoch seq
    if j.decrypt then
      let held := j.epoch = s.f F.SEC_ASTAT_epoch || (s.on F.SEC_ASTAT_old_valid && j.epoch = s.sec.oldEpoch)
      let ct := l.take 4080
      if !held then (0x02, s)
      else if Config.gcmTag key iv ((l.drop 4096).take 10) ct ≠ (l.drop 4080).take 16 then (0x01, s)
      else s.putPage j.base (gcmCrypt key iv ct)
    else
      let ct := gcmCrypt key iv (l.take 4080)
      let spare := leBytes 2 j.epoch ++ leBytes 8 seq
      let data := ct ++ Config.gcmTag key iv spare ct
      s.putPage j.base (data ++ spare ++ leBytes 4 (crc32c data))
  | (_, s) => (0x05, s)

/-- A page job ends (R475, R477). -/
def endPage (s : State) (det : Nat) : State :=
  match s.sec.job with
  | none => s
  | some j =>
    let (st, s) := s.pageWork j det
    let old := j.decrypt && s.on F.SEC_ASTAT_old_valid && j.epoch = s.sec.oldEpoch
    let s := if old then (s.setF F.SEC_ASTAT_reads (s.f F.SEC_ASTAT_reads - 1)).zeroizeSoon else s
    ((s.setF F.SEC_AJOB_go 0).setF F.SEC_AJOB_st st).withSec { s.sec with job := none }

/-! ### Random numbers (R478, R479) -/

/-- A failed health test (R479): no more reseeding; without any reseed since reset the DRBG stops at once. -/
def healthFail (s : State) : State :=
  let s := (s.raise { src := Src.SEC_RNG }).setF F.SEC_STATUS_rng
    (if s.f F.SEC_STATUS_rng = 2 ∨ s.sec.seeded = false then 2 else 1)
  (s.withSec { s.sec with reseedTick := s.tick })

/-- A reseed is due (R478, R479): every second, or 1 ms after a failed try; the first after reset at once. -/
def reseedDue (s : State) : Bool :=
  if s.f F.SEC_STATUS_rng = 0 then !s.sec.seeded || Nat.ble (s.sec.reseedTick + ms 1000) s.tick
  else Nat.ble (s.sec.reseedTick + ms 1) s.tick

end State

/-- PROGRAM (R459). -/
def execProgram (t : Nat) (field : BitVec 8) (s : State) : Host.Outcome State Fault Refusal :=
  done ((s.start t).programFuse field.toNat)

/-- PROV_ID (R459). -/
def execProvId (t : Nat) (s : State) : Host.Outcome State Fault Refusal := done (s.start t).provisionId

/-- LOCK (R459). -/
def execLock (t : Nat) (s : State) : Host.Outcome State Fault Refusal := done (s.start t).lockFuses

/-- CHALLENGE (R480). -/
def execChallenge (t : Nat) (s : State) : Host.Outcome State Fault Refusal := done (s.start t).returnChallenge

/-- RETURN (R480). -/
def execReturnToken (t : Nat) (sigOk : Bool) (s : State) : Host.Outcome State Fault Refusal :=
  done ((s.start t).returnDevice sigOk)

/-- KEY_EPOCH (R470, R471). -/
def execKeyEpoch (t : Nat) (all : Bool) (n : Fin 1024) (s : State) : Host.Outcome State Fault Refusal :=
  done ((s.start t).keyEpochCmd all n)

/-- VERDICT_EPOCH (R472). -/
def execVerdictEpoch (t : Nat) (s : State) : Host.Outcome State Fault Refusal := done (s.start t).verdictEpochCmd

/-- ROTATE (R476). -/
def execRotate (t : Nat) (s : State) : Host.Outcome State Fault Refusal := done (s.start t).rotateArchive

/-- SWEEP_DONE (R477). -/
def execSweepDone (t : Nat) (s : State) : Host.Outcome State Fault Refusal := done (s.start t).endSweep

/-- SEC_AJOB written with go = 1 (R475, R481). -/
def execPageJobStart (t : Nat) (decrypt : Bool) (s : State) : Host.Outcome State Fault Refusal :=
  done ((s.start t).startPage decrypt)

/-- A page job ends (R475, R477). -/
def execPageJobEnd (t : Nat) (det : Fin 3) (s : State) : Host.Outcome State Fault Refusal := done ((s.start t).endPage det)

/-- A health test of the entropy source fails (R479). -/
def execRngHealthFail (t : Nat) (s : State) : Host.Outcome State Fault Refusal := done (s.start t).healthFail

/-- A reseed succeeds (R478, R479); not due, nothing happens. -/
def execDrbgReseed (t : Nat) (s : State) : Host.Outcome State Fault Refusal :=
  let s := s.start t
  if s.reseedDue then
    done ((s.setF F.SEC_STATUS_rng 0).withSec { s.sec with seeded := true, requests := 0, reseedTick := s.tick })
  else done s

/-- 2^32 requests have passed without a reseed (R479): the DRBG stops; before that nothing happens. -/
def execDrbgStop (t : Nat) (s : State) : Host.Outcome State Fault Refusal :=
  let s := s.start t
  if s.f F.SEC_STATUS_rng = 1 ∧ 2 ^ 32 ≤ s.sec.requests then done (s.setF F.SEC_STATUS_rng 2) else done s

/-- SEC_CLR (R481). -/
def execSecClr (t : Nat) (value : Word) (s : State) : Host.Outcome State Fault Refusal :=
  let s := s.start t
  if bitOf value.toNat 0 then
    done ((((s.setF F.SEC_KSTAT_vwrap 0).setF F.SEC_KSTAT_exh 0).setF F.SEC_KSTAT_kerr 0).setF F.SEC_STATUS_sat 0)
  else done s

/-- The chip reset that follows a successful RETURN by 2 µs (R480); not due, nothing happens. -/
def execLifecycleReturnReset (t : Nat) (s : State) : Host.Outcome State Fault Refusal :=
  let s := s.start t
  match s.sec.returnDue with
  | some d => if d ≤ s.tick then done (s.deviceReset false 0x23) else done s
  | none => done s

end Sys2Proof.Machine
end

