-- ==== Sys2Proof/Machine/ImageChk.lean ====
section
/-! DEFINITION. What a commit asks of the images a set names: graph images (R203 to R210, R224), check plans (R111 to
R117, R121, R126, R128, R131), programs of the agreement directory (R144) and parameter records (R154 to R157). -/

namespace Sys2Proof.Machine

open Sys2Proof

/-- The range lies in the usable GDDR6 (R9, R185). -/
def inGddr (a n : Nat) : Bool := decide (0x10000000000 ≤ a) && decide (a + n ≤ 0x103E0000000)

/-- Two ranges share a byte. -/
def meets (a n b m : Nat) : Bool := decide (0 < n) && decide (0 < m) && decide (a < b + m) && decide (b < a + n)

/-- The entries of a list are distinct. -/
def noRepeat : List Nat → Bool
  | [] => true
  | a :: l => !l.contains a && noRepeat l

namespace State

/-- `n` bytes of memory from address `a` are zero. -/
def zeroAtMem (s : State) (a n : Nat) : Bool := (s.bytes a n).all (· = 0)

/-- CRC-32C of the `n` bytes at `a`, the four at offset `o` taken as zero. -/
def crcWithout (s : State) (a n o : Nat) : Nat := crc32c (s.bytes a o ++ [0, 0, 0, 0] ++ s.bytes (a + o + 4) (n - o - 4))

/-! ### Graph images -/

/-- The header of the graph image at `im` with length `len` and its sections (R205, R206). -/
def graphHeadOk (s : State) (im len : Nat) : Bool :=
  let b := Nat.ble
  im % 64 = 0 && b 64 len && s.memVal im 4 = 0x4847575A && s.memVal (im + 4) 2 = 1 && s.zeroAtMem (im + 6) 2
    && b 1 (s.gNodes im) && b (s.gNodes im) 1048575 && b (s.gSuccs im) 16777215 && b 1 (s.gTensors im)
    && b (s.gTensors im) 4194304 && b 1 (s.gProgs im) && b (s.gProgs im) 4096 && s.zeroAtMem (im + 22) 2
    && b (s.gArena im) 4160749568 && s.gData im % 64 = 0 && b (s.gData im + s.gDataLen im) len
    && b (s.codeAt im) (im + s.gData im) && s.zeroAtMem (im + 48) 12
    && s.memVal (im + 60) 4 = s.crcWithout im len 60

/-- Node `k` keeps the limits of R207. -/
def nodeOk (s : State) (im k : Nat) : Bool :=
  let b := Nat.ble
  let n := s.gNodes im
  let lst (o top cnt : Nat) : Bool := (List.range top).all (fun i =>
    let v := s.nodeF im k (o + 4 * i) 4
    if Nat.blt i cnt then Nat.blt v (s.gTensors im) else v = 0)
  let (gx, gy, gz) := s.nodeGrid im k
  s.nodeF im k 0 4 / 2 ^ 20 = 0 && b (s.nodePred im k) (n - 1) && b (s.nodeF im k 4 4 + s.nodeF im k 8 4) (s.gSuccs im)
    && b (s.nodeF im k 8 4) (n - 1) && Nat.blt (s.nodeF im k 16 2) (s.gProgs im)
    && bits (s.nodeF im k 18 1) 6 2 ≠ 3 && bits (s.nodeF im k 19 1) 3 5 = 0
    && b (s.nodeF im k 20 1) 8 && b 1 (s.nodeF im k 21 1) && b (s.nodeF im k 21 1) 4
    && s.nodeF im k 22 2 = 0 && b 1 gx && b 1 gy && b 1 gz && b (gx * gy * gz) 4294967295 && s.nodeF im k 36 4 = 0
    && lst 40 8 (s.nodeF im k 20 1) && lst 72 4 (s.nodeF im k 21 1)
    && noRepeat (s.nodeSuccs im k) && (s.nodeSuccs im k).all (fun j => Nat.blt j n)

/-- Every successor entry's upper bits are zero (R207). -/
def succsOk (s : State) (im : Nat) : Bool :=
  (List.range (s.gSuccs im)).all (fun i => s.memVal (s.succAt im i) 4 / 2 ^ 20 = 0)

/-- Tensor `i` keeps the limits of R209 and R210. -/
def tensOk (s : State) (im i : Nat) : Bool :=
  let b := Nat.ble
  let fmt := s.tensF im i 0 1
  let r := s.tensF im i 1 1
  let sp := s.tensF im i 2 1
  let d (k : Nat) : Nat := s.tensF im i (24 + 2 * k) 2
  let st (k : Nat) : Nat := s.tensF im i (28 + 4 * k) 4
  let foot := s.tensFoot im i
  b 1 fmt && b fmt 0xA && b 1 r && b r 4 && b sp 3 && (if sp = 0 then b (s.tensF im i 3 1) 27 else s.tensF im i 3 1 = 0)
    && s.tensF im i 4 4 = 0 && s.tensF im i 8 8 % 8 = 0 && s.tensF im i 22 2 = 0
    && (List.range 4).all (fun k => if Nat.blt k r then b 1 (d k) else d k = 0)
    && [1, 2, 3].all (fun k =>
        if Nat.blt k r then b (if k = 1 then rowBytes fmt (d 0) else st (k - 1) * d (k - 1)) (st k) else st k = 0)
    && s.tensF im i 44 4 = 0 && (fmt ≠ 9 || d 0 % 32 = 0) && b foot 4294967295
    && (sp ≠ 1 || b (s.tensF im i 8 8 + foot) (s.gArena im))
    && (sp ≠ 3 || b (s.tensF im i 8 8 + foot) (s.gDataLen im))
    && (sp ≠ 2 || inSram (s.tensF im i 8 8) foot || inGddr (s.tensF im i 8 8) foot)

/-- Tile program `i` keeps the limits of R224. -/
def progOk (s : State) (im i : Nat) : Bool :=
  let b := Nat.ble
  let a := s.progAt im i
  let off := s.memVal a 4
  let len := s.memVal (a + 4) 4
  let scratch := s.memVal (a + 16) 4
  off % 4 = 0 && b (s.codeAt im) (im + off) && b 4 len && b len 65536 && b (off + len) (s.gData im)
    && Nat.blt (s.memVal (a + 8) 4) len && s.memVal (a + 8) 4 % 4 = 0 && b 1 (s.memVal (a + 12) 4)
    && b scratch 524288 && scratch % 64 = 0 && s.zeroAtMem (a + 20) 12

/-- Every predecessor count is the number of entries of the successor table that name the node (R206). -/
def predsOk (s : State) (im : Nat) : Bool :=
  let named := (List.range (s.gSuccs im)).map (fun i => s.memVal (s.succAt im i) 4 % 2 ^ 20)
  (List.range (s.gNodes im)).all (fun k => s.nodePred im k = named.count k)

/-- The nodes left after `fuel` rounds, each of which takes away those no node left names. -/
def peel (s : State) (im : Nat) : Nat → List Nat → List Nat
  | 0, l => l
  | fuel + 1, l =>
    let named := l.flatMap (s.nodeSuccs im)
    s.peel im fuel (l.filter (fun k => named.contains k))

/-- No output tensor of a node overlaps an input or another output of it, so far as the arena and image spaces show (R208). -/
def outputsOk (s : State) (im k : Nat) : Bool :=
  let clash (i j : Nat) : Bool :=
    let sp := s.tensF im i 2 1
    (sp = 1 || sp = 3) && sp = s.tensF im j 2 1
      && meets (s.tensF im i 8 8) (s.tensFoot im i) (s.tensF im j 8 8) (s.tensFoot im j)
  let outs := s.nodeOuts im k
  outs.all (fun o => (s.nodeIns im k).all (fun i => !clash o i))
    && (List.range outs.length).all (fun a => (outs.drop (a + 1)).all (fun o => !clash (outs.getD a 0) o))

/-- The graph image keeps R205 to R210 and R224 in itself. -/
def graphOk (s : State) (im len : Nat) : Bool :=
  s.graphHeadOk im len
    && (List.range (s.gNodes im)).all (s.nodeOk im) && s.succsOk im
    && (List.range (s.gTensors im)).all (s.tensOk im)
    && (List.range (s.gProgs im)).all (s.progOk im)
    && s.predsOk im && (s.peel im (s.gNodes im) (List.range (s.gNodes im))).isEmpty
    && (List.range (s.gNodes im)).any (fun k => s.nodePred im k = 0)
    && (List.range (s.gNodes im)).all (s.outputsOk im)

/-- The profiles a graph names by index (R176, R207). -/
def graphProfiles (s : State) (im : Nat) : List Nat :=
  ((List.range (s.gNodes im)).filter (fun k => bits (s.nodeF im k 18 1) 6 2 = 0)).map (fun k => bits (s.nodeF im k 18 1) 0 6)

/-- Every tile program's scratch fits die `d`'s share less 24 KiB (R225, R273). -/
def graphFits (s : State) (im d : Nat) : Bool :=
  (List.range (s.gProgs im)).all (fun i => Nat.ble (s.memVal (s.progAt im i + 16) 4 + 24576) (s.f (F.GS_CTRL_scratch d) * 0x8000))

/-! ### Check plans -/

/-- The image length of the plan at `pb`. -/
def pLen (s : State) (pb : Nat) : Nat := s.memVal (pb + 12) 4

/-- The plan's header and sections (R111 to R113). -/
def planHeadOk (s : State) (pb : Nat) : Bool :=
  let b := Nat.ble
  let len := s.pLen pb
  inGddr pb 64 && b 64 len && b len 0x4000000 && inGddr pb len
    && s.memVal pb 4 = 0x4C50575A && s.memVal (pb + 4) 2 = 1 && s.zeroAtMem (pb + 6) 2 && s.memVal (pb + 8) 4 ≠ 0
    && b 1 (s.pLayers pb) && b (s.pLayers pb) 4096 && b 1 (s.pLinks pb) && b (s.pLinks pb) 1024
    && b (s.pRoots pb) 1048575 && (s.pRoots pb ≠ 0 || s.pF pb = 0) && b (s.pF pb) 64 && b (s.pHeads pb) 16
    && b (s.pSeeds pb) 256 && b 1 (s.pTols pb) && b (s.pTols pb) 4096 && b (s.pEnvs pb) 4096
    && s.memVal (pb + 32) 4 % 8 = 0 && s.zeroAtMem (pb + 40) 20
    && b (s.seedAt pb (s.pSeeds pb)) (s.pExpected pb) && b (s.pExpected pb) (pb + len)
    && s.memVal (pb + 60) 4 = s.crcWithout pb len 60

/-- Tolerance record `i`: its mode and its reserved bytes (R121). -/
def tolOk (s : State) (pb i : Nat) : Bool := Nat.ble (s.tolOf pb i).mode 5 && s.zeroAtMem (s.tolAt pb i + 14) 2

/-- Index `i` names a tolerance record for tensors of format `fmt`, mode 1 being for integer codes alone, or a record for
results (R113, R121). -/
def tensTol (s : State) (pb fmt i : Nat) : Bool :=
  Nat.blt i (s.pTols pb) && ((s.tolOf pb i).mode = 0 || ((s.tolOf pb i).mode = 1 && isIntFmt fmt))
def resTol (s : State) (pb i : Nat) : Bool :=
  Nat.blt i (s.pTols pb) && Nat.ble 2 (s.tolOf pb i).mode && Nat.ble (s.tolOf pb i).mode 5

/-- Layer entry `i` (R114). -/
def layerOk (s : State) (pb i : Nat) : Bool :=
  let b := Nat.ble
  let g := s.layerF pb i
  let fmt := g 2 1
  let pair (d t : Nat) : Bool := b 1 (g d 2) && b 1 (g t 2) && b (g t 2) 4096 && b (g t 2) (g d 2)
  (i = 0 || Nat.blt (s.layerF pb (i - 1) 0 2) (g 0 2)) && b 1 fmt && b fmt 0xA && b (g 3 1) 1
    && pair 4 10 && pair 6 12 && pair 8 14 && g 23 1 = 0
    && (g 24 2 = 0xFFFF || Nat.blt (g 24 2) (s.pEnvs pb)) && (g 26 2 = 0xFFFF || s.tensTol pb fmt (g 26 2)) && g 28 4 = 0

/-- The index of the layer with an identifier, if one has it. -/
def layerOf (s : State) (pb id : Nat) : Option Nat := (List.range (s.pLayers pb)).find? (fun i => s.layerF pb i 0 2 = id)

/-- Link entries from link `i` on cover the layers from index `at_` in order and without gaps (R116). -/
def linksOk (s : State) (pb : Nat) : Nat → Nat → Nat → Bool
  | 0, _, at_ => at_ = s.pLayers pb
  | k + 1, i, at_ =>
    let a := s.linkAt pb i
    match s.layerOf pb (s.memVal a 2), s.layerOf pb (s.memVal (a + 2) 2) with
    | some x, some y =>
      x = at_ && Nat.ble x y && Nat.blt y (x + 8) && s.tensTol pb (s.layerF pb y 2 1) (s.memVal (a + 4) 2)
        && (s.memVal (a + 6) 2 = 0xFFFF || s.tensTol pb (s.layerF pb y 2 1) (s.memVal (a + 6) 2)) && s.zeroAtMem (a + 12) 4
        && s.linksOk pb k (i + 1) (y + 1)
    | _, _ => false

/-- Chain entry at position `pos` of root `root` (R117): `mem` holds the member ports. -/
def chainOk (s : State) (pb mem root pos : Nat) : Bool :=
  let link := s.pLinks pb - pos
  let a := s.chainEntry pb root pos
  let x := s.chainBox pb root pos
  let (c, h, w) := s.layerDims pb (s.linkLayer pb link)
  let p := s.memVal (a + 12) 1
  (pos ≠ 0 || x = s.tileBox pb (s.rootLayer pb) root)
    && x.tc = c && x.c0 = 0 && Nat.ble 1 x.th && Nat.ble 1 x.tw && Nat.ble (x.y0 + x.th) h && Nat.ble (x.x0 + x.tw) w
    && (if link = 1 then Nat.ble p 15 && bitOf mem p else p = 0) && s.zeroAtMem (a + 13) 3

/-- Head entry `h` (R126). -/
def headOk (s : State) (pb h : Nat) : Bool :=
  let a := s.headAt pb h
  let (_, rh, rw) := s.layerDims pb (s.rootLayer pb)
  let fmt := s.memVal (a + 2) 1
  Nat.ble 1 fmt && Nat.ble fmt 0xA && s.zeroAtMem (a + 3) 1 && Nat.ble 1 (s.memVal (a + 4) 2)
    && s.memVal (a + 6) 2 = rh && s.memVal (a + 8) 2 = rw
    && s.tensTol pb fmt (s.memVal (a + 10) 2) && s.resTol pb (s.memVal (a + 12) 2) && s.zeroAtMem (a + 14) 2
    && s.memVal (a + 24) 4 ≠ 0 && s.zeroAtMem (a + 28) 4

/-- Seed entry `i` (R128). -/
def seedOk (s : State) (pb i : Nat) : Bool :=
  let a := s.seedAt pb i
  let off := s.memVal (a + 4) 4
  let len := s.memVal (a + 8) 4
  Nat.ble (s.memVal a 2) 4095 && s.zeroAtMem (a + 2) 2 && Nat.ble 24 len && Nat.ble len 0x100000
    && Nat.ble (s.pExpected pb + off + len) (pb + s.pLen pb)
    && s.resTol pb (s.memVal (a + 12) 2) && (s.memVal (a + 14) 2 = 0xFFFF
      || (Nat.blt (s.memVal (a + 14) 2) (s.pTols pb) && (List.range (s.pHeads pb)).all (fun h =>
        s.tensTol pb (s.memVal (s.headAt pb h + 2) 1) (s.memVal (a + 14) 2))))

/-- Envelope entry `i`: its upper enables and its reserved byte are zero (R125). -/
def envOk (s : State) (pb i : Nat) : Bool := Nat.blt (s.memVal (s.envAt pb i + 30) 1) 64 && s.zeroAtMem (s.envAt pb i + 31) 1

/-- The plan at `pb` keeps the limits of R112 to R117, R121, R125, R126 and R128 for member ports `mem`. -/
def planOk (s : State) (pb mem : Nat) : Bool :=
  s.planHeadOk pb
    && (List.range (s.pLayers pb)).all (s.layerOk pb)
    && s.linksOk pb (s.pLinks pb) 0 0
    && s.layerF pb (s.rootLayer pb) 10 2 = s.layerF pb (s.rootLayer pb) 4 2
    && (s.pF pb = 0 || s.pRoots pb = s.tileCount pb (s.rootLayer pb))
    && Nat.ble (s.pF pb * s.pLinks pb + ((List.range (s.pLayers pb)).map (fun i => s.layerF pb i 22 1)).sum) 16384
    && (List.range (s.pRoots pb)).all (fun root => (List.range (s.pLinks pb)).all (s.chainOk pb mem root))
    && (List.range (s.pHeads pb)).all (s.headOk pb)
    && (List.range (s.pTols pb)).all (s.tolOk pb)
    && (List.range (s.pEnvs pb)).all (s.envOk pb)
    && (List.range (s.pSeeds pb)).all (s.seedOk pb)

/-- What full shadow asks of a plan: a shadow graph, and a shadow tolerance for every layer and link (R131). -/
def shadowOk (s : State) (pb : Nat) : Bool :=
  s.pShadow pb ≠ 0 && (List.range (s.pLayers pb)).all (fun i => s.layerF pb i 26 2 ≠ 0xFFFF)
    && (List.range (s.pLinks pb)).all (fun i => s.memVal (s.linkAt pb i + 6) 2 ≠ 0xFFFF)

/-! ### Agreement programs and parameter records -/

/-- Directory entry `i` and its image keep R144. -/
def agEntryOk (s : State) (i : Nat) : Bool :=
  let e := s.dword A.CK_AG_DIR_BASE + 16 * i
  let im := s.memVal e 8
  let len := s.memVal (e + 8) 4
  let code := s.memVal (im + 8) 4
  let b := Nat.ble
  inSram e 16 && s.zeroAtMem (e + 12) 4 && inSram im len && b 32 len
    && s.memVal im 4 = 0x4752575A && s.memVal (im + 4) 2 = 1 && s.zeroAtMem (im + 6) 2
    && b 4 code && b code 262144 && code % 4 = 0 && b (s.memVal (im + 12) 4) 262144 && b (s.memVal (im + 16) 4) 65536
    && s.memVal (im + 20) 4 % 4 = 0 && Nat.blt (s.memVal (im + 20) 4) code && s.zeroAtMem (im + 24) 4
    && b (32 + code + s.memVal (im + 12) 4) len && s.memVal (im + 28) 4 = s.crcWithout im len 28

end State

/-- A parameter record keeps the limits of its form (R154 to R157). -/
def paramOk (form : Nat) (p : List Byte) : Bool :=
  let v (o n : Nat) : Nat := leVal ((p.drop o).take n)
  let z (o n : Nat) : Bool := ((p.drop o).take n).all (· = 0)
  match form with
  | 1 =>
    let schema := v 0 1
    let mask := v 1 1
    (schema = 1 || schema = 2) && mask ≠ 0 && decide (v 2 1 ≤ 1) && z 3 1 && z 49 1 && z 52 12
      && (schema = 1 || (mask / 16 = 0 && v 48 1 ≠ 0 && v 50 2 ≠ 0
          && [0, 1, 2, 3].all (fun k => !bitOf mask k
              || (decide (v (16 + 8 * k) 2 < v (20 + 8 * k) 2) && decide (v (18 + 8 * k) 2 < v (22 + 8 * k) 2)))))
  | 2 => v 0 1 = 1 && z 1 3 && decide (v 18 1 ≤ 100) && z 19 45
  | 3 =>
    let fl := v 4 4
    v 0 1 = 3 && decide (1 ≤ v 1 1) && decide (v 1 1 ≤ 8) && z 2 2 && z 8 56
      && bits fl 23 8 ≠ 255 && (!bitOf fl 31 || fl = 0x80000000)
  | 4 => v 0 1 = 1 && decide (v 1 1 ≤ 15) && decide (1 ≤ v 8 4) && decide (v 8 4 ≤ 0x3F800000) && z 12 52
  | _ => true

end Sys2Proof.Machine
end

