-- ==== Sys2Proof/Machine/CommitChk.lean ====
section
/-! DEFINITION. The commit checks (R15, R46, R51, R59, R65, R66, R71, R111 to R131, R136, R144, R178, R203 to R206, R370,
R374, R384, R516, R550): each with the register words it reads, which name the failing record (R491, log 31). -/

namespace Sys2Proof.Machine

open Sys2Proof

/-- The pixel group of a camera image type (R49). -/
def pixelGroup (dt : Nat) : Nat := if dt = 0x1E ∨ dt = 0x2C ∨ dt = 0x2F then 2 else if dt = 0x2B ∨ dt = 0x2D then 4 else 1

/-- The two words of a 64-bit register. -/
def wide (a : Nat) : List Nat := [a, a + 4]

/-- A commit check: the register words it reads, and whether it passes. -/
abbrev Chk := List Nat × Bool

/-- A check that reads `reads` and passes when `ok`. -/
def ck (reads : List Nat) (ok : Bool) : Chk := (reads, ok)

namespace State

/-- Contexts that the set enables. -/
def setContexts (s : State) : List Nat := (List.range 1024).filter (fun n => s.on (F.VD_CTX_CFG_en n))

/-- A line rate within R46: D-PHY 80 to 4,500, C-PHY 80 to 6,000. -/
def rateOk (cphy : Bool) (rate : Nat) : Bool := Nat.ble 80 rate && Nat.ble rate (if cphy then 6000 else 4500)

/-- Words that hold the graph directory's place on the four dies. -/
def dirRegs : List Nat := [0, 1, 2, 3].flatMap (fun d => A.GS_DIR_CNT d :: wide (A.GS_DIR_BASE d))

/-- The checks of a graph reference that the words `src` name (R203, R206, R225). -/
def chkGraph (s : State) (src : List Nat) (ref : Nat) : List Chk :=
  let (im, len) := s.dirEntry ref
  let good := Nat.ble ref (s.f (F.GS_DIR_CNT_count 0))
  let sound := good && s.graphOk im len
  [ck (src ++ [A.GS_DIR_CNT 0]) (good), ck (src ++ dirRegs) (!good || s.graphOk im len)]
    ++ [0, 1, 2, 3].map (fun d => ck (src ++ dirRegs ++ [A.GS_POOL_SIZE d]) (!sound || Nat.ble (s.instNeed im) (0x100000 * s.f (F.GS_POOL_SIZE_mib d))))
    ++ [0, 1, 2, 3].map (fun d => ck (src ++ dirRegs ++ [A.GS_CTRL d]) (!sound || s.graphFits im d))
    ++ (if sound then (s.graphProfiles im).map (fun k => ck (src ++ dirRegs ++ wide (A.CX_NP 0 k)) (s.on (F.CX_NP_valid 0 k))) else [])

/-- The checks of context `n`, when the set enables it (R15, R65, R111 to R131, R136, R144, R178). -/
def chkCtx (s : State) (n : Nat) : List Chk :=
  let thr := A.VD_CTX_THR n
  let pb := s.dword (A.CK_CTX_PLAN_BASE n)
  let base := wide (A.CK_CTX_PLAN_BASE n)
  let mem := s.f (F.FP_CTXM_ports n)
  let head := pb ≠ 0 && s.planHeadOk pb
  let form := s.f (F.CK_AG_CFG_form n)
  let prog := s.f (F.CK_AG_CFG_prog n)
  let dir := A.CK_AG_DIR_CNT :: wide A.CK_AG_DIR_BASE
  let entry (src : List Nat) (i : Nat) : List Chk :=
    let inside := Nat.blt i (s.f F.CK_AG_DIR_CNT_count)
    [ck (src ++ [A.CK_AG_DIR_CNT]) (inside), ck (src ++ dir) (!inside || s.agEntryOk i)]
  let fb := s.f (F.CK_FB_GRAPH_ref n)
  [ ck [thr] (s.f (F.VD_CTX_THR_adm_k n) ≠ 0), ck [thr] (s.f (F.VD_CTX_THR_clr_k n) ≠ 0),
    ck [thr] (Nat.ble 1 (s.f (F.VD_CTX_THR_m n)) && Nat.ble (s.f (F.VD_CTX_THR_m n)) 64
      && Nat.ble (s.f (F.VD_CTX_THR_m n)) (s.f (F.VD_CTX_THR_n n))),
    ck [thr] (Nat.ble 1 (s.f (F.VD_CTX_THR_n n)) && Nat.ble (s.f (F.VD_CTX_THR_n n)) 64),
    ck [A.VD_CTX_TIME n] (s.f (F.VD_CTX_TIME_ev_dl n) ≠ 0), ck [A.VD_CTX_TIME n] (s.f (F.VD_CTX_TIME_chk n) ≠ 0),
    ck [A.FP_CTXM n, A.VD_CTX_CFG n] (bitOf mem (s.f (F.VD_CTX_CFG_anchor n))),
    ck [A.EV_CTX_PLAN n] (s.word (A.EV_CTX_PLAN n) ≠ 0),
    ck (base) (pb ≠ 0), ck (base) (pb = 0 || s.planHeadOk pb),
    ck (base ++ [A.FP_CTXM n]) (!head || s.planOk pb mem),
    ck (base ++ [A.EV_CTX_PLAN n]) (!head || s.memVal (pb + 8) 4 = s.word (A.EV_CTX_PLAN n)),
    ck [A.CK_CTX_CFG n] (Nat.ble (s.f (F.CK_CTX_CFG_seeds n)) 4),
    ck (base ++ [A.CK_CTX_CFG n]) (!head || Nat.ble (s.f (F.CK_CTX_CFG_seeds n)) (s.pSeeds pb)),
    ck (base ++ [A.CK_CTX_CFG n]) (!head || !s.on (F.CK_CTX_CFG_mode n) || s.shadowOk pb),
    ck [A.CK_FB_GRAPH n] (fb ≠ 0), ck [A.CK_AG_BUDGET n] (s.word (A.CK_AG_BUDGET n) ≠ 0),
    ck [A.CK_AG_CFG n] (Nat.ble form 4),
    ck [A.CK_AG_CFG n] (Nat.ble 1 (s.f (F.CK_AG_CFG_frag n)) && Nat.ble (s.f (F.CK_AG_CFG_frag n)) 64),
    ck (A.CK_AG_CFG n :: wide A.CK_AG_PARAM_BASE) (paramOk form (s.bytes (s.dword A.CK_AG_PARAM_BASE + 64 * s.f (F.CK_AG_CFG_param n)) 64)),
    ck (A.CX_NP_CTX 0 n :: wide (A.CX_NP 0 (s.f (F.CX_NP_CTX_chk 0 n)))) (s.on (F.CX_NP_valid 0 (s.f (F.CX_NP_CTX_chk 0 n)))),
    ck (A.CX_NP_CTX 0 n :: wide (A.CX_NP 0 (s.f (F.CX_NP_CTX_shd 0 n)))) (s.on (F.CX_NP_valid 0 (s.f (F.CX_NP_CTX_shd 0 n)))),
    ck ([0, 1, 2, 3].map (fun d => A.CX_NP_CTX d n)) ([1, 2, 3].all (fun d => s.word (A.CX_NP_CTX d n) = s.word (A.CX_NP_CTX 0 n))) ]
  ++ ((List.range 16).filter (fun p => bitOf mem p)).flatMap (fun p =>
      [ ck [A.FP_CTXM n, A.FP_CIN_CFG p] (s.on (F.FP_CIN_CFG_en p)),
        ck [A.FP_CTXM n, A.FP_CIN_TIME p] (s.f (F.FP_CIN_TIME_fs_to p) ≠ 0) ])
  ++ (if form = 0 then entry [A.CK_AG_CFG n] prog else [])
  ++ (if fb = 0 then [] else s.chkGraph [A.CK_FB_GRAPH n] fb)
  ++ (if head then (s.planGraphs pb).flatMap (s.chkGraph base) ++ (s.planDecoders pb).flatMap (entry base) else [])

/-- The checks of CIN port `p`, when the set enables it (R46, R49, R51, R59, R66). -/
def chkCin (s : State) (p : Nat) : List Chk :=
  let cfg := A.FP_CIN_CFG p
  let geom := A.FP_CIN_GEOM p
  let dt := s.f (F.FP_CIN_CFG_dt p)
  let w := s.f (F.FP_CIN_GEOM_width p)
  let l := s.f (F.FP_CIN_GEOM_lines p)
  let b := w * pixelBits dt / 8
  let kib := s.f (F.FP_CIN_RING_slot_kib p)
  let slots := s.f (F.FP_CIN_RING_slots p)
  let fwd := s.f (F.FP_CIN_CFG_fwd p)
  [ ck [cfg] (s.f (F.FP_CIN_CFG_lanes p) ≠ 3), ck [cfg] (pixelBits dt ≠ 0),
    ck [cfg, A.FP_CIN_PHY p] (rateOk (s.on (F.FP_CIN_CFG_phy p)) (s.f (F.FP_CIN_PHY_rate p))),
    ck [geom] (Nat.ble 1 w && Nat.ble w 16384), ck [geom] (Nat.ble 1 l && Nat.ble l 16384),
    ck [cfg, geom] (w % pixelGroup dt = 0),
    ck [A.FP_CIN_RING p] (Nat.ble 6 slots && Nat.ble slots 16),
    ck [cfg, geom, A.FP_CIN_RING p] (Nat.ble ((64 + l * roundUp b 64 + 1023) / 1024) kib),
    ck (A.FP_CIN_RING p :: wide (A.FP_CIN_RING_BASE p)) (inGddr (s.dword (A.FP_CIN_RING_BASE p)) (1024 * kib * slots)) ]
  ++ (if s.on (F.FP_CIN_CFG_fwd_en p) then
      ck [cfg, A.FP_FWD_CFG fwd] (s.on (F.FP_FWD_CFG_en fwd))
        :: ((List.range p).filter (fun q => s.on (F.FP_CIN_CFG_en q) && s.on (F.FP_CIN_CFG_fwd_en q))).map (fun q =>
            ck [cfg, A.FP_CIN_CFG q] (!(s.f (F.FP_CIN_CFG_fwd q) = fwd && s.f (F.FP_CIN_CFG_vc_out q) = s.f (F.FP_CIN_CFG_vc_out p))))
    else [])

/-- The checks of FWD port `f`, when the set enables it (R46, R71). -/
def chkFwd (s : State) (f : Nat) : List Chk :=
  let cfg := A.FP_FWD_CFG f
  let strip := s.f (F.FP_FWD_CFG_strip f)
  [ ck [cfg] (s.f (F.FP_FWD_CFG_lanes f) ≠ 3), ck [cfg] (rateOk (s.on (F.FP_FWD_CFG_phy f)) (s.f (F.FP_FWD_CFG_rate f))),
    ck [cfg] (strip = 0 || (Nat.ble 8 strip && Nat.ble strip 128)) ]
  ++ ((s.setContexts.filter (fun n => s.f (F.VD_CTX_CFG_acc n) = s.f (F.FP_FWD_CFG_acc f))).map (fun n =>
      ck [cfg, A.VD_CTX_CFG n] (strip ≠ 0)))

/-- The checks of MON port `m` and of EIN port `e`, when the set enables them (R46, R107, R110). -/
def chkMon (s : State) (m : Nat) : List Chk :=
  [ ck [A.FP_MON_CFG m] (s.f (F.FP_MON_CFG_lanes m) ≠ 3),
    ck [A.FP_MON_CFG m, A.FP_MON_PHY m] (rateOk (s.on (F.FP_MON_CFG_phy m)) (s.f (F.FP_MON_PHY_rate m))) ]
def chkEin (s : State) (e : Nat) : List Chk :=
  let kib := s.f (F.EV_EIN_RING_slot_kib e)
  let slots := s.f (F.EV_EIN_RING_slots e)
  [ ck [A.EV_EIN_CFG e] (s.f (F.EV_EIN_CFG_lanes e) ≠ 3),
    ck [A.EV_EIN_CFG e, A.EV_EIN_PHY e] (rateOk (s.on (F.EV_EIN_CFG_phy e)) (s.f (F.EV_EIN_PHY_rate e))),
    ck [A.EV_EIN_RING e] (Nat.ble 1 kib && Nat.ble kib 9217), ck [A.EV_EIN_RING e] (Nat.ble 4 slots && Nat.ble slots 64),
    ck (A.EV_EIN_RING e :: wide (A.EV_EIN_RING_BASE e)) (inGddr (s.dword (A.EV_EIN_RING_BASE e)) (1024 * kib * slots)) ]

/-- The checks of accelerator `a`, when an enabled context names it (R43). -/
def chkAcc (s : State) (a : Nat) : List Chk :=
  [ ck [A.VD_ACC_RST a] (s.f (F.VD_ACC_RST_width_us a) ≠ 0), ck [A.VD_ACC_PWR a] (s.f (F.VD_ACC_PWR_settle_ms a) ≠ 0),
    ck [A.VD_ACC_PWR a] (s.f (F.VD_ACC_PWR_off_ms a) ≠ 0) ]

/-- The checks of numerics profile `k`, valid on some die (R178, R202). -/
def chkProfile (s : State) (k : Nat) : List Chk :=
  let np := wide (A.CX_NP 0 k)
  [ ck ([0, 1, 2, 3].flatMap (fun d => wide (A.CX_NP d k))) ([1, 2, 3].all (fun d => s.dword (A.CX_NP d k) = s.dword (A.CX_NP 0 k))),
    ck (np) (!s.on (F.CX_NP_stoch 0 k) || (Nat.ble 1 (s.f (F.CX_NP_sr_bits 0 k)) && Nat.ble (s.f (F.CX_NP_sr_bits 0 k)) 16)),
    ck (np) (s.f (F.CX_NP_facc 0 k) ≠ 3), ck (np) (Nat.ble (s.f (F.CX_NP_rnd 0 k)) 4) ]

/-- The checks of die `d`: scratch share, pool, safety windows, triggers (R216, R217, R225, R229, R370). -/
def chkDie (s : State) (d : Nat) : List Chk :=
  let pool := s.f (F.GS_POOL_SIZE_mib d)
  let lo := 0x1000000000 + 0x400000000 * d
  let at_ := s.dword (A.GS_POOL_BASE d)
  let trig := (List.range 16).filter (fun t => s.on (F.GS_TRIG_en d t))
  [ ck [A.GS_CTRL d] (Nat.ble 2 (s.f (F.GS_CTRL_scratch d)) && Nat.ble (s.f (F.GS_CTRL_scratch d)) 16),
    ck [A.GS_POOL_SIZE d] (Nat.ble pool 3968),
    ck (A.GS_POOL_SIZE d :: wide (A.GS_POOL_BASE d)) (pool = 0 || (Nat.ble lo at_ && Nat.ble (at_ + 0x100000 * pool) (lo + 0xF8000000))) ]
  ++ (if s.on (F.GS_WCFG_en d) then
      ck [A.GS_WCFG d] (Nat.ble 1 (s.f (F.GS_WCFG_period d)) && Nat.ble (s.f (F.GS_WCFG_period d)) 1000000)
        :: [0, 1, 2, 3].map (fun w => ck [A.GS_WCFG d, A.GS_WIN d w] (!s.on (F.GS_WCFG_mode d) || s.f (F.GS_WIN_len d w) = 0 || Nat.ble 200 (s.f (F.GS_WIN_off d w))))
    else [])
  ++ trig.flatMap (fun t =>
      let tmpl := s.dword (A.GS_TRIG_TMPL d t)
      let ref := s.memVal tmpl 4
      [ ck [A.GS_TRIG d t] (s.f (F.GS_TRIG_src d t) ≠ 0 || Nat.ble (s.f (F.GS_TRIG_sel d t)) 15),
        ck [A.GS_TRIG d t] (s.f (F.GS_TRIG_src d t) ≠ 2
          || (Nat.ble 1 (s.f (F.GS_TRIG_period d t)) && Nat.ble (s.f (F.GS_TRIG_period d t)) 1000000)) ]
      ++ (if ref = 0 then [] else s.chkGraph (wide (A.GS_TRIG_TMPL d t)) ref))

/-- The words that place region `r`, and of every region. -/
def regenRegs (r : Nat) : List Nat := A.DMA_REGEN_LEN r :: wide (A.DMA_REGEN_DST r)
def allRegen : List Nat := (List.range 64).flatMap regenRegs

/-- The range lies wholly inside one valid region (R384). -/
def inRegion (s : State) (a n : Nat) : Bool :=
  n = 0 || (List.range 64).any (fun r => let (b, m) := s.regionOf r; Nat.ble b a && Nat.ble (a + n) (b + m))

/-- The checks of regeneration region `r`, when it is valid (R384, R403). -/
def chkRegion (s : State) (r : Nat) : List Chk :=
  let (b, m) := s.regionOf r
  [ ck [A.DMA_REGEN_SRC r] (s.f (F.DMA_REGEN_SRC_off r) % 256 = 0),
    ck [A.DMA_REGEN_LEN r] (s.f (F.DMA_REGEN_LEN_len r) ≠ 0),
    ck (regenRegs r) (inSram b m || inGddr b m) ]
  ++ ((List.range r).filter (fun q => s.on (F.DMA_REGEN_LEN_valid q))).map (fun q =>
      ck (regenRegs r ++ regenRegs q) (let (c, k) := s.regionOf q; !meets b m c k))

/-- The graph references the set names, each with the words that name it (R203). -/
def namedGraphs (s : State) : List (List Nat × Nat) :=
  (s.setContexts.flatMap (fun n =>
      let pb := s.dword (A.CK_CTX_PLAN_BASE n)
      ([A.CK_FB_GRAPH n], s.f (F.CK_FB_GRAPH_ref n))
        :: (if pb ≠ 0 && s.planHeadOk pb then (s.planGraphs pb).map (fun g => (wide (A.CK_CTX_PLAN_BASE n), g)) else []))
    ++ [0, 1, 2, 3].flatMap (fun d => ((List.range 16).filter (fun t => s.on (F.GS_TRIG_en d t))).map (fun t =>
        (wide (A.GS_TRIG_TMPL d t), s.memVal (s.dword (A.GS_TRIG_TMPL d t)) 4)))).filter
    (fun g => g.2 ≠ 0 && Nat.ble g.2 (s.f (F.GS_DIR_CNT_count 0)))

/-- Everything that must lie inside one valid region (R384): words that name it, address, length. -/
def regionNeeds (s : State) : List (List Nat × Nat × Nat) :=
  let graphs := s.namedGraphs
  let agn := s.f F.CK_AG_DIR_CNT_count
  let dir := A.CK_AG_DIR_CNT :: wide A.CK_AG_DIR_BASE
  graphs.map (fun g => (g.1 ++ dirRegs, s.dirEntry g.2))
    ++ (if graphs.isEmpty then [] else [(dirRegs, s.dword (A.GS_DIR_BASE 0), 16 * s.f (F.GS_DIR_CNT_count 0))])
    ++ (s.setContexts.filter (fun n => s.planHeadOk (s.dword (A.CK_CTX_PLAN_BASE n)))).map (fun n =>
        (wide (A.CK_CTX_PLAN_BASE n), s.dword (A.CK_CTX_PLAN_BASE n), s.pLen (s.dword (A.CK_CTX_PLAN_BASE n))))
    ++ [(A.FP_PLIB_CNT :: wide A.FP_PLIB_BASE, s.dword A.FP_PLIB_BASE, 0x40000 * s.f F.FP_PLIB_CNT_count),
        (dir, s.dword A.CK_AG_DIR_BASE, 16 * agn)]
    ++ (List.range agn).map (fun i => (dir, s.agImage i, s.memVal (s.dword A.CK_AG_DIR_BASE + 16 * i + 8) 4))

/-- The register word whose enable the item under loop-back test would take, and whether the set enables it (R511, R516). -/
def chkLoop (s : State) : List Chk :=
  if s.lb.isNone then []
  else
    let n := s.f F.SYS_LB_CFG_num
    let no (x : Field) : List Chk := [ck [x.addr] (!s.on x)]
    match s.f F.SYS_LB_CFG_iface with
    | 1 => if n < 16 then no (F.FP_CIN_CFG_en n) else no (F.EV_EIN_CFG_en (n - 16))
    | 2 => if n < 8 then no (F.FP_FWD_CFG_en n) else no (F.FP_MON_CFG_en (n - 8))
    | 3 => no (if n = 0 then F.ETH_CTRL_ena else F.ETH_CTRL_enb)
    | 4 => no F.ML_CTRL_en
    | 7 => no (F.XSP_CFG_en n)
    | _ => []

/-- The checks of Ethernet, its peers and the Melhan link (R436, R456, R550). -/
def chkLinks (s : State) : List Chk :=
  let ena := s.on F.ETH_CTRL_ena
  let enb := s.on F.ETH_CTRL_enb
  let vid := s.f F.ETH_VLAN_vid
  let size := s.f F.ETH_RXCFG_size
  (if ena || enb then
    [ ck (wide A.ETH_DA) (bitOf (s.dword A.ETH_DA) 40), ck [A.ETH_VLAN] (!s.on F.ETH_VLAN_tag || (vid ≠ 0 && vid ≠ 0xFFF)),
      ck [A.ETH_RXCFG] (s.f F.ETH_RXCFG_cmp_us ≠ 0), ck [A.ETH_RXCFG] (Nat.ble 4 size && Nat.ble size 12) ]
   else [])
  ++ (if ena || enb || s.on F.ML_CTRL_en then [ck [A.ETH_SRC] (s.f F.ETH_SRC_id ≠ 0)] else [])
  ++ ((List.range 8).filter (fun k => s.on (F.ETH_PEER_en k))).flatMap (fun k =>
      [ ck [A.ETH_PEER k] (s.f (F.ETH_PEER_tmo_ms k) ≠ 0), ck [A.ETH_PEER k] (s.f (F.ETH_PEER_id k) ≠ 0),
        ck [A.ETH_PEER k, A.ETH_SRC] (s.f (F.ETH_PEER_id k) ≠ s.f F.ETH_SRC_id) ])
  ++ (if s.on F.ML_CTRL_en then
      [ck [A.ML_CFG] (s.f F.ML_CFG_wait_ms ≠ 0), ck (wide A.ML_MIR_BASE) (inSram (s.dword A.ML_MIR_BASE) 0x100000)]
     else [])

/-- The checks of fields that serve a block as a whole (R79, R164, R204, R348, R374, R377, R438). -/
def chkBlocks (s : State) : List Chk :=
  let plib := A.FP_PLIB_CNT :: wide A.FP_PLIB_BASE
  let blocks := s.f F.XSP_NAND_blocks
  [ ck [A.FP_PLIB_CNT] (Nat.ble (s.f F.FP_PLIB_CNT_count) 4096),
    ck (plib) (s.f F.FP_PLIB_CNT_count = 0 || inGddr (s.dword A.FP_PLIB_BASE) (0x40000 * s.f F.FP_PLIB_CNT_count)),
    ck [A.CK_AG_DIR_CNT] (Nat.ble (s.f F.CK_AG_DIR_CNT_count) 4096),
    ck (wide A.CK_AG_AREA_BASE) (s.setContexts.isEmpty || inSram (s.dword A.CK_AG_AREA_BASE) 692224),
    ck ([0, 1, 2, 3].flatMap (fun d => wide (A.GS_DIR_BASE d))) ([1, 2, 3].all (fun d => s.dword (A.GS_DIR_BASE d) = s.dword (A.GS_DIR_BASE 0))),
    ck ([0, 1, 2, 3].map A.GS_DIR_CNT) ([1, 2, 3].all (fun d => s.word (A.GS_DIR_CNT d) = s.word (A.GS_DIR_CNT 0))),
    ck [A.WD_ST_CFG] (Nat.ble 34 (s.f F.WD_ST_CFG_logic_ms)),
    ck [A.WD_ST_CFG] (Nat.ble 12 (s.f F.WD_ST_CFG_kat_ms)),
    ck [A.WD_CFG 4] (s.f (F.WD_CFG_act 4) ≠ 1),
    ck [A.XSP_NAND] (Nat.ble 6 (s.f F.XSP_NAND_ppb) && Nat.ble (s.f F.XSP_NAND_ppb) 8),
    ck [A.XSP_NAND] (!(Nat.ble 1 blocks && Nat.ble blocks 3)),
    ck [A.XSP_STRIPE, A.XSP_CFG 1] (!s.on F.XSP_STRIPE_en || s.on (F.XSP_CFG_cs1 1)),
    ck [A.XSP_CFG 0] (!s.on (F.XSP_CFG_cs1 0)) ]
  ++ (List.range 7).map (fun k => ck [A.FC_RETRY k] (s.f (F.FC_RETRY_budget k) ≠ 0 && s.f (F.FC_RETRY_window_ms k) ≠ 0))
  ++ (List.range 9).map (fun w => ck [A.WD_TIME w] (s.f (F.WD_TIME_open w) ≠ 0))
  ++ [0, 1].flatMap (fun x =>
      [ ck [A.XSP_CFG x] (Nat.ble (s.f (F.XSP_CFG_freq x)) 5), ck [A.XSP_CFG x] (s.on (F.XSP_CFG_mode x) || s.f (F.XSP_CFG_freq x) = 0),
        ck [A.XSP_CFG x] (s.f (F.XSP_CFG_tmo_ms x) ≠ 0) ])

/-- The checks of the safety inputs and safe outputs that the set enables (R509). -/
def chkSio (s : State) : List Chk :=
  ((List.range 8).filter (fun i => s.on (F.SIO_IN_CFG_en i))).map (fun i =>
    ck [A.SIO_IN_CFG i] (Nat.ble 1 (s.f (F.SIO_IN_CFG_disc_ms i)) && Nat.ble (s.f (F.SIO_IN_CFG_disc_ms i)) 2000))
  ++ ((List.range 4).filter (fun o => s.on (F.SIO_OUT_CFG_en o))).flatMap (fun o =>
    let tp := s.f (F.SIO_OUT_CFG_tp_us o)
    [ ck [A.SIO_OUT_CFG o] (Nat.ble tp 500), ck [A.SIO_OUT_CFG o] (s.f (F.SIO_OUT_CFG_rb_us o) ≠ 0),
      ck [A.SIO_OUT_CFG o] (tp = 0 || Nat.blt (s.f (F.SIO_OUT_CFG_rb_us o)) tp),
      ck [A.SIO_OUT_CFG o] (tp = 0 || Nat.ble 10 (s.f (F.SIO_OUT_CFG_tp_ms o))) ])

/-- Every commit check of a staged set (R491, R550). -/
def commitChecks (s : State) : List Chk :=
  let ctxs := s.setContexts
  ctxs.flatMap s.chkCtx
  ++ ((List.range 16).filter (fun p => s.on (F.FP_CIN_CFG_en p))).flatMap s.chkCin
  ++ ((List.range 8).filter (fun f => s.on (F.FP_FWD_CFG_en f))).flatMap s.chkFwd
  ++ ([0, 1].filter (fun m => s.on (F.FP_MON_CFG_en m))).flatMap s.chkMon
  ++ ([0, 1, 2, 3].filter (fun e => s.on (F.EV_EIN_CFG_en e))).flatMap s.chkEin
  ++ ([0, 1, 2, 3].filter (fun a => ctxs.any (fun n => s.f (F.VD_CTX_CFG_acc n) = a))).flatMap s.chkAcc
  ++ ((List.range 64).filter (fun k => [0, 1, 2, 3].any (fun d => s.on (F.CX_NP_valid d k)))).flatMap s.chkProfile
  ++ [0, 1, 2, 3].flatMap s.chkDie
  ++ ((List.range 64).filter (fun r => s.on (F.DMA_REGEN_LEN_valid r))).flatMap s.chkRegion
  ++ s.regionNeeds.map (fun x => ck (x.1 ++ allRegen) (s.inRegion x.2.1 x.2.2))
  ++ s.chkLinks ++ s.chkBlocks ++ s.chkSio ++ s.chkLoop

/-! ### Records (R491) -/

/-- The address and the value of each record of a set body. -/
def spsRecords (body : List Byte) : List (Nat × Nat) :=
  (List.range (leAt body 4 4)).map (fun i => (leAt body (16 + 16 * i) 8, leAt body (24 + 16 * i) 4))

/-- The body's header and layout (R491). -/
def spsBodyOk (body : List Byte) : Bool :=
  let n := leAt body 4 4
  leAt body 0 4 = 0x5053575A && Nat.ble 1 n && Nat.ble n 7679 && ((body.drop 8).take 8).all (· = 0)
    && Nat.ble (16 + 16 * n) body.length
    && (List.range n).all (fun i => leAt body (28 + 16 * i) 4 = 0)

/-- The RWL bits of the register word at an aligned address, 0 where no register with RWL bits stands. -/
def rwlMask (a : Nat) : Nat := if a % 4 = 0 then (wordMasks a).2.1 else 0

/-- The word a record leaves (R339, R491): RWL bits take the value, and fixed fields of FC_SEV_n keep theirs; nothing where
the record is refused. -/
def recordWord (s : State) (a v : Nat) : Option Nat :=
  let m := rwlMask a
  let ro := if a = A.VD_CTRL then 0xC0000000 else 0
  if m = 0 ∨ (v ||| (m ||| ro)) ^^^ (m ||| ro) ≠ 0 then none
  else
    let keep := if 0x20001000 ≤ a ∧ a < 0x20001600 then sevFixed ((a - 0x20001000) / 4) else 0
    let m := m ^^^ (m &&& keep)
    some (((s.word a ||| m) ^^^ m) ||| (v &&& m))

/-- Records from number `i` on written in order; the number of the first one refused. -/
def writeSet (s : State) : Nat → List (Nat × Nat) → Option Nat × State
  | _, [] => (none, s)
  | i, (a, v) :: r =>
    match s.recordWord a v with
    | none => (some i, s)
    | some w => (s.setWord a w).writeSet (i + 1) r

/-- Every RWL field at its reset value (R491). -/
def resetRwl (s : State) : State :=
  (s.withRegs (s.regs.foldl (fun t (a, v) =>
      let m := BitVec.ofNat 32 (wordMasks a).2.1
      Table.put regReset t a ((v &&& ~~~ m) ||| (regReset a &&& m))) s.regs))

/-- The record a failing check names: the highest that wrote a word it reads, else the record count (R491). -/
def blamed (records : List (Nat × Nat)) (reads : List Nat) : Nat :=
  let l := (records.zip (List.range records.length)).filter (fun p => reads.contains p.1.1)
  match l.getLast? with
  | some p => p.2
  | none => records.length

/-- Steps 2 to 4 of a commit (R491): the state with the set's registers, or the index a refusal reports. -/
def stageSet (s : State) (body : List Byte) : Except Nat State :=
  let recs := spsRecords body
  match (s.resetRwl).writeSet 0 recs with
  | (some i, _) => .error i
  | (none, t) =>
    match (t.commitChecks.filter (fun c => !c.2)).map (fun c => blamed recs c.1) with
    | [] => .ok t
    | x :: l => .error (l.foldl min x)

end State

end Sys2Proof.Machine
end

