-- ==== Sys2Proof/Machine/Collector.lean ====
section
/-! DEFINITION. The fault collector's own commands: acknowledgement, clears, firmware sources, injection, the quiet
period, its self-check, the chip reset it takes, and the write of the persisted records (R337 to R357, R489). -/

namespace Sys2Proof.Machine

open Sys2Proof

namespace State

/-- FC_ACK.ack (R343): the release time goes into FC_CAP and the retained copy, and the capture is released.  A capture
made in this very tick is the one that follows the acknowledgement, so it stays; raises of this tick that were merged into an
older one are not, and become a new capture. -/
def ackCapture (s : State) : State :=
  if !s.on F.FC_STATUS_cap ∨ s.fc.capTick = s.tick + 1 then s
  else
    let raised := s.fc.ackTick = s.tick + 1
    let s := if raised then s.setMerges s.fc.ackOld.1 s.fc.ackOld.2 else s
    let s := s.setDword (A.FC_CAP0 + 40) s.time
    let o := recOffset s.fc.capSlot
    let s := ((s.setDword (retRec s.fc.capSlot + 40) s.time).freshRet (o + 40)).freshRet (o + 44)
    let s := (s.setF F.FC_STATUS_cap 0).logRecord s.fc.capSlot
    if raised then s.putCap s.fc.ackRec else s

/-- FC_CLR.cnt (R357): every FC_CNT_n; sat clears when no count remains saturated, those of FC_INJ and FC_CAP among them. -/
def clearFcCounts (s : State) : State :=
  let s := (List.range 384).foldl (fun s n => s.setWord (A.FC_CNT n) 0) s
  if s.noneFull [F.FC_REC_count, F.FC_RETIRE_LAST_count, F.FC_INJ_done] ∧ s.capMerges.1 ≠ 0xFFFF then s.setF F.FC_STATUS_sat 0 else s

/-- A write of FC_RAISE (R357): sources 320 to 383. -/
def raiseFw (s : State) (v : Nat) : State :=
  let n := bits v 0 9
  if n < 320 ∨ 383 < n then s.respond .errParam else s.raise { src := n, inst := 0, detail := bits v 16 16 }

/-- The number of instances of an injection class (R355); none of classes 12 to 15. -/
def injInstances : Nat → Nat
  | 0 => 1 | 1 => 16 | 2 => 8 | 3 => 16 | 4 => 16 | 5 => 48 | 6 => 20 | 7 => 20 | 8 => 16 | 9 => 1 | 10 => 1 | 11 => 2
  | _ => 0

/-- A write of FC_INJ (R355, R357). -/
def writeInj (s : State) (v : Nat) : State :=
  let arm := bitOf v 31
  if injInstances (bits v 24 4) ≤ bits v 16 8 ∨ (arm ∧ bits v 8 8 = 0) then s.respond .errParam
  else if arm ∧ s.injLeft ≠ 0 then s.respond .errState
  else
    let done := if arm then 0 else s.f F.FC_INJ_done
    s.setWord A.FC_INJ (bits v 8 8 * 256 + bits v 16 8 * 65536 + bits v 24 4 * 2 ^ 24 + bits v 30 2 * 2 ^ 30 + done)

/-- The quiet period has passed (R345): the fault state holds, a period runs, ms is not 0, and no standing source is in
its condition. -/
def quietDue (s : State) : Bool :=
  match s.fc.quietStart with
  | none => false
  | some q => s.on F.FC_STATUS_fstate && s.f F.FC_QUIET_ms ≠ 0 && s.fc.standing = 0 && Nat.ble (q + ms (s.f F.FC_QUIET_ms)) s.tick

end State

/-- A chip reset that a raise asked for starts 2 µs after it (R340), and is held after a thermal trip (R537); not due,
nothing happens. -/
def execChipResetStart (t : Nat) (s : State) : Host.Outcome State Fault Refusal :=
  let s := s.start t
  match s.fc.chipDue with
  | some d =>
    if d ≤ s.tick then
      let r := s.deviceReset false 0x20
      done (if s.boot.trip then (r.withHolds (r.holds ||| 4)).driveOuts else r)
    else done s
  | none => done s

/-- FC_ACK (R343). -/
def execFcAck (t : Nat) (value : Word) (s : State) : Host.Outcome State Fault Refusal :=
  let s := s.start t
  if bitOf value.toNat 0 then done s.ackCapture else done s

/-- FC_CLR.rec (R357). -/
def execFcClrRec (t : Nat) (s : State) : Host.Outcome State Fault Refusal := done ((s.start t).setF F.FC_REC_count 0)

/-- FC_CLR.irq (R357). -/
def execFcClrIrq (t : Nat) (s : State) : Host.Outcome State Fault Refusal := done ((s.start t).setF F.FC_STATUS_irq 0)

/-- FC_CLR.cnt (R357). -/
def execFcClrCnt (t : Nat) (s : State) : Host.Outcome State Fault Refusal := done (s.start t).clearFcCounts

/-- FC_RAISE (R338, R357). -/
def execFcRaise (t : Nat) (value : Word) (s : State) : Host.Outcome State Fault Refusal :=
  done ((s.start t).raiseFw value.toNat)

/-- FC_INJ (R355). -/
def execFcInj (t : Nat) (value : Word) (s : State) : Host.Outcome State Fault Refusal :=
  done ((s.start t).writeInj value.toNat)

/-- The quiet period ends and with it the fault state (R345); not due, nothing happens. -/
def execQuietPeriodEnd (t : Nat) (s : State) : Host.Outcome State Fault Refusal :=
  let s := s.start t
  if s.quietDue then done ((s.setF F.FC_STATUS_fstate 0).count F.FC_REC_count F.FC_STATUS_sat).driveOuts else done s

/-- The persisted records are written to flash (R488 to R490), once they have been read in stage 6. -/
def execFlashRecordWrite (t : Nat) (s : State) : Host.Outcome State Fault Refusal :=
  let s := s.start t
  if s.boot.loaded then done s.recordsPut else done s

/-- The collector's duplicated logic differs (R347): FAULT_N goes low directly, until reset. -/
def execFcSelfDifference (t : Nat) (s : State) : Host.Outcome State Fault Refusal :=
  let s := s.start t
  let s := s.withFc { s.fc with selfDiff := true }
  done (s.raiseStanding { src := Src.FC_SELF }).driveOuts

end Sys2Proof.Machine
end

