-- ==== Sys2Proof/Machine/Watchdog.lean ====
section
/-! DEFINITION. The nine watchdogs: keys, the service window, expiry and the resets they take (R358 to R366). -/

namespace Sys2Proof.Machine

open Sys2Proof

namespace State

/-- Watchdog `w` at reset: its settings start as the registers' reset values. -/
def watchReset (w : Nat) : Watch :=
  let c := (regReset (A.WD_CFG w)).toNat
  let t := (regReset (A.WD_TIME w)).toNat
  ⟨0, 0, c, t, c, t, 0⟩

/-- Watchdog `w` beside its registers. -/
def watch (s : State) (w : Nat) : Watch := Table.get watchReset s.wd.watch w

/-- The state with watchdog `w` replaced; WD_STAT_w.pend shows a pending key. -/
def setWatch (s : State) (w : Nat) (x : Watch) : State :=
  let s := s.flag (F.WD_STAT_pend w) (x.key ≠ 0)
  s.withWd { s.wd with watch := Table.put watchReset s.wd.watch w x }

/-- The supervised unit of watchdog `w` runs (R358, R365); watchdog 4 always counts.  A pair that halted by a mismatch in
this very tick still takes an expiry of that tick (R366). -/
def watchRuns (s : State) (w : Nat) : Bool :=
  if w < 4 then
    s.pairWorks w || (s.f (F.SYS_VP_STAT_state w) = 4 && (s.pairX w).restartDue = s.tick + ms 2)
  else if w = 4 then s.holds = 0
  else s.f (F.SYS_DIE_state (w - 5)) = 4 && !s.dieFallow (w - 5)

/-- The tick in which the supervised unit of watchdog `w` began to run. -/
def unitSince (s : State) (w : Nat) : Nat :=
  if w < 4 then (s.pairX w).runSince
  else if w = 4 then Table.get (fun _ => 0) s.since 0
  else max (Table.get (fun _ => 0) s.since (w - 4)) (Table.get (fun _ => 0) s.wd.dieBack (w - 5))

/-- The reference tick R (R361, R365). -/
def watchRef (s : State) (w : Nat) : Nat := max (s.watch w).ref (s.unitSince w)

/-- The closed period and the open window in force, in ticks (R361). -/
def watchClosed (s : State) (w : Nat) : Nat := 25000 * bits (s.watch w).time 16 16
def watchOpen (s : State) (w : Nat) : Nat := 25000 * bits (s.watch w).time 0 16

/-- The deadline tick (R361). -/
def watchDue (s : State) (w : Nat) : Nat := s.watchRef w + s.watchClosed w + s.watchOpen w

/-- WD_STAT_w.state as it reads (R365, R377). -/
def watchState (s : State) (w : Nat) : Nat :=
  if (w < 4 ∧ s.on (F.SYS_VP_STAT_fallow w)) ∨ (4 < w ∧ s.on (F.CX_STATUS_die_fallow (w - 5))) then 0
  else if !s.watchRuns w then 3
  else if s.tick ≤ s.watchRef w + s.watchClosed w then 1 else 2

/-- A KEY_A is pending: not lapsed, and not cleared by a stop of the unit (R360, R365). -/
def keyPending (s : State) (w : Nat) : Bool :=
  let k := (s.watch w).key
  k ≠ 0 && s.watchRuns w && Nat.ble (s.unitSince w) (k - 1) && Nat.ble s.tick (k - 1 + 64)

/-- The pending key of watchdog `w` cleared. -/
def clearKey (s : State) (w : Nat) : State := s.setWatch w { s.watch w with key := 0 }

/-- A reset that watchdog `w` asks for (R363, R366): of several in one tick the widest, for the lowest watchdog; an earlier
one that waits stands. -/
def askReset (s : State) (w : Nat) (chip : Bool) : State :=
  let new := some (s.tick + us 2, s.tick, chip, w)
  let r := match s.wd.resetDue with
    | none => new
    | some (d, at_, c, v) =>
      if at_ ≠ s.tick then some (d, at_, c, v)
      else if chip && !c then new
      else if c && !chip then some (d, at_, c, v)
      else some (d, at_, c, min v w)
  (s.withWd { s.wd with resetDue := r })

/-- The retained counts of a watchdog reset, both copies, saturating; copy A of each is read first (R324, R325, R364). -/
def countWatchReset (s : State) (w : Nat) : State :=
  let s := s.mendDup 0x10
  let s := s.hwRet2 0x10 0x14 (setBits (s.ret 0x10) 0 16 (min (bits (s.ret 0x10) 0 16 + 1) 0xFFFF))
  let o := 0x20 + 4 * (w / 4)
  let lo := 8 * (w % 4)
  let s := s.mendDup o
  let s := s.hwRet2 o (o + 0x10) (setBits (s.ret o) lo 8 (min (bits (s.ret o) lo 8 + 1) 0xFF))
  s.mlSend (.log (.watch w (bits (s.ret o) lo 8)))

/-- Another watchdog asks for a warm or chip reset in this tick, or is to: the widest reset is the one taken (R366). -/
def widerAsked (s : State) (w : Nat) : Bool :=
  s.wd.resetDue.any (fun r => r.2.1 = s.tick)
    || (List.range 9).any (fun v => v ≠ w && Nat.ble 2 (bits (s.watch v).cfg 0 2) && s.watchRuns v && s.watchDue v = s.tick)

/-- The action in force of watchdog `w` (R363): none, restart of the unit, warden warm reset, chip reset.  A restart gives way to a
wider reset of the same tick (R366). -/
def watchAct (s : State) (w : Nat) : State :=
  match bits (s.watch w).cfg 0 2 with
  | 0 => s
  | 1 =>
    let s := s.countWatchReset w
    if s.widerAsked w then s
    else if w < 4 then (if s.pairWorks w then ((s.abandonProgram w).restartPair w).checkPairs else s)
    else if w = 4 then s
    else s.partialReset (w - 5)
  | 2 => (s.countWatchReset w).askReset w false
  | _ => (s.countWatchReset w).askReset w true

/-- The time base in tick `x`, not later than the present one, at the rate in force. -/
def timeIn (s : State) (x : Nat) : Nat :=
  unsigned 96 ((s.timeFull : Int) - ((s.tick - x : Nat) : Int) * tickInc s.tm.rate) / 2 ^ 32

/-- The settings of watchdog `w` are written (R366): the values before this tick stay known for a service in it. -/
def noteSettings (s : State) (w : Nat) : State :=
  let x := s.watch w
  if x.setTick = s.tick + 1 then s
  else s.setWatch w { x with oldCfg := s.word (A.WD_CFG w), oldTime := s.word (A.WD_TIME w), setTick := s.tick + 1 }

/-- An expiry (R363): WD_EXPIRE with the ticks from R to the deadline, counted, and the action; with act = 0 the deadline
tick becomes R, shown in WD_REF_w. -/
def watchExpire (s : State) (w : Nat) : State :=
  let due := s.watchDue w
  let ticks := due - s.watchRef w
  let s := s.count (F.WD_STAT_expire w) F.WD_STATUS_sat
  let s := (s.setWatch w { s.watch w with ref := due }).setDword (A.WD_REF w) (s.timeIn due)
  (s.raise { src := Src.WD_EXPIRE w, inst := w, detail := ticks }).watchAct w

/-- An expiry is due. -/
def watchOverdue (s : State) (w : Nat) : Bool := s.watchRuns w && Nat.ble (s.watchDue w) s.tick

/-- A completed service (R361, R362, R366). -/
def serviceWatch (s : State) (w : Nat) : State :=
  let r := s.watchRef w
  let x := s.watch w
  if s.tick ≤ r + s.watchClosed w then
    let s := s.count (F.WD_STAT_early w) F.WD_STATUS_sat
    let s := s.raise { src := Src.WD_EARLY w, inst := w, detail := s.tick - r }
    if bitOf x.cfg 2 then (s.count (F.WD_STAT_expire w) F.WD_STATUS_sat).watchAct w else s
  else
    let fresh := x.setTick ≠ s.tick + 1
    let s := s.setWatch w { x with
      ref := s.tick
      cfg := if fresh then s.word (A.WD_CFG w) else x.oldCfg
      time := if fresh then s.word (A.WD_TIME w) else x.oldTime }
    s.setDword (A.WD_REF w) s.time

/-- Whether a master may serve watchdog `w` (R358): the pair itself, any pair, or a control processor of the die; a pair in
warden mode. -/
def mayServe (s : State) (w master : Nat) : Bool :=
  let wardenMode (h : Nat) : Bool := (Table.get (fun _ => (0 : DWord)) (s.hart h).csr 0).toNat % 2 = 0
  if w < 4 then master = 2 * w && wardenMode master
  else if w = 4 then [0, 2, 4, 6].contains master && wardenMode master
  else Nat.ble (0x100 + 4 * (w - 5)) master && Nat.blt master (0x104 + 4 * (w - 5))

/-- A write of WD_KEY_w (R359, R360).  An expiry that is overdue is taken before it. -/
def writeKey (s : State) (w master key : Nat) : State :=
  if !s.mayServe w master then
    (s.respond .errLocked).raise { src := Src.BUS_LOCKED, addr := A.WD_KEY w, acc := 2, master := master }
  else
    let s := if s.watchRuns w && Nat.blt (s.watchDue w) s.tick then s.watchExpire w else s
    if key = 0x6B2F then
      if s.watchRuns w then s.setWatch w { s.watch w with key := s.tick + 1 } else s
    else if key = 0xD4A1 ∧ s.keyPending w then (s.clearKey w).serviceWatch w
    else (s.clearKey w).count (F.WD_STAT_bad w) F.WD_STATUS_sat

/-- WD_CLR.all (R377). -/
def clearWd (s : State) : State :=
  let s := (List.range 9).foldl (fun s w =>
    ((s.setF (F.WD_STAT_early w) 0).setF (F.WD_STAT_bad w) 0).setF (F.WD_STAT_expire w) 0) s
  let s := [0, 1, 2, 3].foldl (fun s d => (s.setWord (A.WD_ST_AGE d) 0).setWord (A.WD_ST_CNT d) 0) s
  s.setF F.WD_STATUS_sat 0

end State

/-- KEY_A written to WD_KEY_w by a master (R359, R360). -/
def execKeyA (t : Nat) (w : Fin 9) (master : Nat) (s : State) : Host.Outcome State Fault Refusal :=
  done ((s.start t).writeKey w master 0x6B2F).takeEnded

/-- KEY_B written to WD_KEY_w by a master (R359 to R362). -/
def execKeyB (t : Nat) (w : Fin 9) (master : Nat) (s : State) : Host.Outcome State Fault Refusal :=
  done ((s.start t).writeKey w master 0xD4A1).takeEnded

/-- Another value written to WD_KEY_w by a master (R359, R360); the two keys keep their meaning. -/
def execBadKey (t : Nat) (w : Fin 9) (master : Nat) (key : BitVec 16) (s : State) : Host.Outcome State Fault Refusal :=
  done ((s.start t).writeKey w master key.toNat).takeEnded

/-- A pending key lapses in its 64th tick (R360); earlier, nothing happens. -/
def execKeyLapse (t : Nat) (w : Fin 9) (s : State) : Host.Outcome State Fault Refusal :=
  let s := s.start t
  let k := (s.watch w).key
  if k ≠ 0 ∧ k - 1 + 64 ≤ s.tick then done (s.clearKey w) else done s

/-- The deadline tick of a watchdog passes without service (R361, R363); not due, nothing happens. -/
def execWatchdogExpire (t : Nat) (w : Fin 9) (s : State) : Host.Outcome State Fault Refusal :=
  let s := s.start t
  if s.watchOverdue w then done (s.watchExpire w).takeEnded else done s

/-- The warm or chip reset of a watchdog starts 2 µs after the expiry tick (R363, R364). -/
def execWatchdogResetStart (t : Nat) (s : State) : Host.Outcome State Fault Refusal :=
  let s := s.start t
  match s.wd.resetDue with
  | some (d, _, chip, w) => if d ≤ s.tick then done (if chip then s.deviceReset false (0x10 + w) else s.warmReset (0x10 + w)) else done s
  | none => done s

/-- WD_CLR (R377). -/
def execWdClr (t : Nat) (value : Word) (s : State) : Host.Outcome State Fault Refusal :=
  let s := s.start t
  if bitOf value.toNat 0 then done s.clearWd else done s

end Sys2Proof.Machine
end

