-- ==== Sys2Proof/Machine/Commit.lean ====
section
/-! DEFINITION. The commit of a Safety Parameter Set and its two flash copies (R16, R39, R82, R108, R118, R137, R153, R229,
R366, R491 to R493). -/

namespace Sys2Proof.Machine

open Sys2Proof

namespace State

/-! ### Contexts -/

/-- A context that the set no longer enables: OFF, its undecided frames still decided (R39, R40). -/
def dropContext (s : State) (n : Nat) : State :=
  if s.trust n = 0 then s.endWait n else (s.setTrust n 0).mirrorState n

/-- The bits of a window at and above a length that the set lowers read 0, of a context that it does not enable too (R43). -/
def trimWindow (s : State) (n : Nat) : State :=
  let h := s.dword (A.VD_CTX_HIST n) % 2 ^ s.f (F.VD_CTX_THR_n n)
  (s.setDword (A.VD_CTX_HIST n) h).setF (F.VD_CTX_STATE_wfail n) (popcount h)

/-- What places a context: its accelerator, its anchor and its member ports (R16). -/
def placing (s : State) (n : Nat) : Nat × Nat × Nat := (s.f (F.VD_CTX_CFG_acc n), s.f (F.VD_CTX_CFG_anchor n), s.f (F.FP_CTXM_ports n))

/-- The contexts after a commit: `s` before it, `t` with the new registers.  In service the newly enabled ones are admitted
in the tick; at boot they wait for stage 8 (R482). -/
def commitContexts (s t : State) : State :=
  let now := t.setContexts
  let r := (s.enabled.filter (fun n => !now.contains n)).foldl (fun (r : State) n => r.dropContext n) t
  let r := (r.withEnabled now)
  let r := (now.filter (fun n => s.enabled.contains n && s.placing n ≠ t.placing n)).foldl
    (fun (r : State) n => r.modCtx n (fun c => { c with rebind := true })) r
  let r := ((List.range 1024).filter (fun n => t.f (F.VD_CTX_THR_n n) < s.f (F.VD_CTX_THR_n n))).foldl (fun (r : State) n => r.trimWindow n) r
  if s.f F.SYS_SVC_level = 1 then
    (now.filter (fun n => !s.enabled.contains n)).foldl (fun (r : State) n => (r.enterService n).requeueOf n) r
  else r

/-! ### Blocks -/

/-- Before the first commit a port works under its registers: those hold until its next Frame Start (R82). -/
def keepSets (s t : State) : State :=
  if s.committed then t
  else ((List.range 16).filter (fun p => s.on (F.FP_CIN_CFG_en p))).foldl (fun (r : State) p =>
    r.modCin p (fun x => { x with set := s.cinRegs p })) t

/-- Ports that the set newly enables: a camera port has accepted no frame (R55, R56), an evidence port's silence timer
starts (R108); the timer of a port that is no longer enabled stops. -/
def commitPorts (s t : State) : State :=
  let r := ((List.range 16).filter (fun p => t.on (F.FP_CIN_CFG_en p) && !s.on (F.FP_CIN_CFG_en p))).foldl
    (fun (r : State) p => r.modCin p (fun x => { x with fresh := true, timer := r.tick, set := t.cinRegs p })) (s.keepSets t)
  [0, 1, 2, 3].foldl (fun (r : State) e =>
    if !t.on (F.EV_EIN_CFG_en e) then r.withEvTimerOn (Table.put (fun _ => false) r.evTimerOn e false)
    else if s.on (F.EV_EIN_CFG_en e) || r.isFallow 5 e then r
    else ((r.withEvTimer (Table.put (fun _ => 0) r.evTimer e r.tick)).withEvTimerOn (Table.put (fun _ => false) r.evTimerOn e true))) r

/-- Graphs, programs and parameter records that the set names: launches accepted, ranges write-protected, records copied
(R144, R153, R206, R213). -/
def commitImages (s : State) : State :=
  let refs := (s.namedGraphs.map (fun g => g.2)).eraseDups
  let ags := List.range (s.f F.CK_AG_DIR_CNT_count)
  let images := refs.map s.dirEntry ++ refs.map (fun g => (s.dword (A.GS_DIR_BASE 0) + 16 * (g - 1), 16))
  let programs := if ags.isEmpty then [] else
    (s.dword A.CK_AG_DIR_BASE, 16 * ags.length) :: ags.map (fun i => (s.agImage i, s.agImageLen i))
  let params := s.setContexts.foldl (fun (t : Table (List Byte)) n =>
    let k := s.f (F.CK_AG_CFG_param n)
    Table.put (fun _ => []) t k (s.bytes (s.dword A.CK_AG_PARAM_BASE + 64 * k) 64)) []
  (((s.withGs { s.gs with graphs := refs }).withProtect (images ++ programs)).withAgParams params).showRegen

/-- Safety windows of mode 0 count from the commit, and those of mode 1 from the Frame Starts under the same settings (R229); a
periodic trigger that the set changes counts from the commit, whose own tick still sees the old settings (R217). -/
def commitDie (s : State) (r : State) (d : Nat) : State :=
  let refs := if !r.on (F.GS_WCFG_en d) then []
    else if !r.on (F.GS_WCFG_mode d) then [r.tick]
    else if r.word (A.GS_WCFG d) = s.word (A.GS_WCFG d) then Table.get (fun _ => []) r.gs.winRef d
    else []
  let old := (List.range 16).foldl (fun o t =>
    Table.put (fun _ => (0, 0)) o (16 * d + t) (s.word (A.GS_TRIG d t), s.dword (A.GS_TRIG_TMPL d t))) r.gs.trigOld
  let r := r.withGs { r.gs with winRef := Table.put (fun _ => []) r.gs.winRef d refs, trigOld := old, trigWas := r.gs.trigTick }
  ((List.range 16).filter (fun t => r.on (F.GS_TRIG_en d t) && r.word (A.GS_TRIG d t) ≠ s.word (A.GS_TRIG d t))).foldl
    (fun (r : State) t => (r.withGs { r.gs with trigTick := Table.put (fun _ => 0) r.gs.trigTick (16 * d + t) r.tick })) r

/-- Links: the MACs' states follow the configuration (R420), a peer that the set changes starts anew (R425), and pair
operation that the set turns on in service arbitrates, or ends with no role (R448, log 32). -/
def commitLinks (s r : State) : State :=
  let r := (r.showLink 0).showLink 1
  let r := ((List.range 8).filter (fun k => r.word (A.ETH_PEER k) ≠ s.word (A.ETH_PEER k))).foldl
    (fun (r : State) k => r.restartPeer k) r
  if r.on F.ML_CTRL_en && !s.on F.ML_CTRL_en && s.f F.SYS_SVC_level ≠ 0 then r.startArb
  else if !r.on F.ML_CTRL_en && s.on F.ML_CTRL_en then r.setF F.ML_STATUS_role 0
  else r

/-- The set is confirmed while its check value equals the confirmed one of a valid record copy (R488, R493); VD_CTRL.unconf and the safe outputs follow. -/
def showConf (s : State) : State :=
  let ok := s.word A.SYS_SPS_CHK = s.word A.SYS_SPS_CONF && s.recCopy.isSome
  ((s.flag F.SYS_SPS_STAT_conf ok).flag F.VD_CTRL_unconf (!ok)).driveOuts

/-- A set that has passed its checks takes effect in one tick (R491): `s` before the commit, `t` with the registers of the
set.  A safety input that the set changes is judged by its new setting, and one that it disables reads OFF (R499 to R501). -/
def applySet (s t : State) (body : List Byte) : State :=
  let r := ((t.withCommitted true).withSpsTick (t.tick + 1))
  let r := (List.range 9).foldl (fun (r : State) w =>
    r.setWatch w { r.watch w with oldCfg := s.word (A.WD_CFG w), oldTime := s.word (A.WD_TIME w), setTick := r.tick + 1 }) r
  let r := r.setWord A.SYS_SPS_CHK (crc32c body)
  let r := s.commitPorts r
  let r := r.commitImages
  let r := [0, 1, 2, 3].foldl (fun (r : State) d => s.commitDie r d) r
  let r := s.commitContexts r
  let r := s.commitLinks r
  let r := ((List.range 8).filter (fun i => r.word (A.SIO_IN_CFG i) ≠ s.word (A.SIO_IN_CFG i))).foldl (fun (r : State) i => r.evalInput i) r
  r.showConf

/-! ### COMMIT (R491, R492) -/

/-- SYS_SPS_STAT.st of a refusal, with the index it names. -/
def spsRefuse (s : State) (index : Nat) : State := ((s.setF F.SYS_SPS_STAT_st 0x11).setF F.SYS_SPS_STAT_index index).respond .errParam

/-- The image at SYS_SPS_ADDR: header, body. -/
def spsImage (s : State) : List Byte × List Byte :=
  let a := s.dword A.SYS_SPS_ADDR
  let h := s.bytes a 128
  (h, if inSram a (8192 + leAt h 16 8) then s.bytes (a + 8192) (leAt h 16 8) else [])

/-- Steps 1 to 4 on an image: the committed state, or the index of the refusal. -/
def commitImage (s : State) (h body : List Byte) (sigOk : Bool) : Except Nat State :=
  if !s.imageOk 7 h sigOk || !spsBodyOk body then .error 0xFFFF
  else
    match s.stageSet body with
    | .error i => .error i
    | .ok t => .ok (s.applySet t body)

/-- COMMIT in service (R492): the image stands in warden SRAM, and its flash write follows; refused while one runs. -/
def commitSet (s : State) (sigOk : Bool) : State :=
  if s.boot.spsWrite.isSome then (s.setF F.SYS_SPS_STAT_st 0x01).respond .stBusy
  else
    let a := s.dword A.SYS_SPS_ADDR
    let (h, body) := s.spsImage
    let s := if s.imageOk 7 h sigOk then s else s.raise { src := Src.SEC_AUTH }
    match s.commitImage h body sigOk with
    | .error i => s.spsRefuse i
    | .ok r =>
      let r := (r.withBoot { r.boot with spsWrite := some (r.bytes a (8192 + leAt h 16 8)) })
      (r.setF F.SYS_SPS_STAT_st 0).setF F.SYS_SPS_STAT_busy 1

/-- Flash offset of copy `k` of the Safety Parameter Set (R434). -/
def spsBase (k : Nat) : Nat := 0x60000 + 0x20000 * k

/-- The flash write of a committed set is complete: both copies hold the image (R492). -/
def spsWritten (s : State) : State :=
  match s.boot.spsWrite with
  | none => s
  | some img =>
    let s := [0, 1].foldl (fun (s : State) k => (s.eraseFlash 0 (spsBase k) 0x20000).setFlash 0 (spsBase k) (img.take 0x20000)) s
    (s.withBoot { s.boot with spsWrite := none }).setF F.SYS_SPS_STAT_busy 0

end State

/-- COMMIT (R491, R492): `sigOk` is the crypto block's verdict on the signature and the body digest (log 23). -/
def execCommit (t : Nat) (sigOk : Bool) (s : State) : Host.Outcome State Fault Refusal := done ((s.start t).commitSet sigOk)

/-- The flash write of the committed set completes (R492). -/
def execSpsFlashWriteDone (t : Nat) (s : State) : Host.Outcome State Fault Refusal := done (s.start t).spsWritten

end Sys2Proof.Machine
end

