-- ==== Sys2Proof/Machine/Boot.lean ====
section
/-! DEFINITION. The boot chain, the A/B update, resets by command and partial resets (R315, R318, R323 to R325, R384, R457,
R458, R462, R465, R482 to R498, R538). -/

namespace Sys2Proof.Machine

open Sys2Proof

namespace State

/-! ### Stops (R335, R483) -/

/-- Roles on their own pairs, or where R319 moves them (R318). -/
def placeRoles (s : State) : State :=
  [0, 1, 2, 3].foldl (fun s r =>
    if s.pairWorks r then s.placeRole r r
    else match s.nextPair r with
      | some v => s.placeRole r v
      | none => s.dropRole r) s

/-- The Safety Parameter Set copies in flash: header and body of copy `k` (R434, R487). -/
def flashSet (s : State) (k : Nat) : List Byte × List Byte :=
  let h := s.flashBytes 0 (spsBase k) 128
  (h, s.flashBytes 0 (spsBase k + 8192) (min (leAt h 16 8) (0x20000 - 8192)))

/-- The first copy of the set in flash that verifies (R492); `auth` bit k is the crypto block's verdict on copy k (log 23). -/
def goodSet (s : State) (auth : Nat) : Option (List Byte × List Byte) :=
  ([0, 1].find? (fun k => s.imageOk 7 (s.flashSet k).1 (bitOf auth k))).map s.flashSet

/-- The boot chain stops in sentinel service (R334, R483).  The sentinel firmware takes the registers of the set it can
read, so that it publishes for the set's contexts (R334, log 33); with FP_CTRL.pass it powers their accelerators (R508). -/
def bootStop (s : State) (cause auth : Nat) : State :=
  let s := s.withBoot { s.boot with stopped := true }
  let s := s.placeRoles
  let s := match s.goodSet auth with
    | some (_, body) =>
      if s.committed || cause = 6 || !spsBodyOk body then s
      else match s.resetRwl.writeSet 0 (spsRecords body) with
        | (none, t) => ((t.withEnabled t.setContexts).showLink 0).showLink 1
        | _ => s
    | none => s
  let s := s.enterSentinel cause
  if s.on F.FP_CTRL_pass then
    ([0, 1, 2, 3].filter (fun a => s.enabled.any (fun n => s.bound n a))).foldl (fun s a => s.accPowerUp a) s
  else s

/-! ### Stages 1 to 5 -/

/-- Stage 1 (R315, R318, R457, R458, R462, R482, R484, R538): fuses, boot attempt counter, difference injection with the
groups in `diff` failing, the pairs on the fallow list, the boot pair.  A boot pair that is itself listed stays fallow and holds
every role (log 140). -/
def stage1 (s : State) (diff auth : Nat) : State :=
  let s := if (List.range 15).any (fun k => Table.get (fun _ => []) s.sec.fuses k ≠ Table.get (fun _ => []) s.sec.fuses2 k) then
      s.raise { src := Src.SEC_KEY } else s
  let s := (s.setF F.SEC_STATUS_life (leVal (s.fuse 0))).setDword A.I3C_PID (leVal (s.fuse 2))
  let s := (s.withSec { s.sec with
    meas := Table.put (fun _ => (0, 0, 0, [])) s.sec.meas 0 (0, 1, 0, Config.sha256 ((List.range 0x40000).map Config.bootRom)) })
  let s := s.mendDup 0x008
  let att := s.ret 0x008 % 256
  let s := (s.setF F.SYS_BOOT_att att).hwRet2 0x008 0x00C (min (att + 1) 255)
  let s := [0, 1, 2, 3].foldl (fun s v =>
    if bits diff (5 * v) 5 = 0 then s
    else (((List.range 5).foldl (fun s g => if bitOf diff (5 * v + g) then s.setF ⟨A.SYS_CMP_STAT, 5 * v + g, 1⟩ 1 else s) s).setF
      (F.SYS_VP_STAT_state v) 0).retire 9 v) s
  let passed := [0, 1, 2, 3].filter (fun v => bits diff (5 * v) 5 = 0)
  let listed := (s.savedFallow.filter (fun x => x.1 = 9)).map Prod.snd
  let s := (listed.filter (fun v => Nat.blt v 4)).foldl (fun s v => s.setFallow 9 v true) s
  let s := s.withFc { s.fc with fallow := s.fc.fallow ++ s.savedFallow.filter (fun (x : Nat × Nat) => x.1 = 9 && !s.fc.fallow.contains x) }
  if s.life = 0xA5 || (s.life = 0 && s.on F.SYS_STRAP_tmode) then
    (s.withBoot { s.boot with stopped := true }).driveOuts
  else
    match passed.filter (fun v => !listed.contains v), passed with
    | v :: _ :: _, _ => (s.runPair v).driveOuts
    | v :: [], _ => (s.runPair v).bootStop 1 auth
    | [], v :: _ => [0, 1, 2, 3].foldl (fun s r => s.placeRole r v) ((s.runPair v).bootStop 1 auth)
    | [], [] => (s.withBoot { s.boot with stopped := true }).driveOuts

/-- The slots in the order the boot ROM tries them (R484). -/
def slotOrder (att active : Nat) : List Nat :=
  if att ≤ 2 then [active, 1 - active] else if att ≤ 5 then [1 - active, active] else []

/-- A slot whose image failed R460 (R484), which raises SEC_AUTH, or whose directory breaks R486. -/
def failSlot (s : State) (k : Nat) : State :=
  (if s.slotOk k then s.raise { src := Src.SEC_AUTH } else s).withBoot { s.boot with badSlots := s.boot.badSlots ||| 2 ^ k }

/-- Stage 2 (R484 to R487): the slot, its warden image loaded and verified; `auth` bits 0 and 1 are the crypto block's
verdict on the images of slots A and B. -/
def stage2 (s : State) (auth : Nat) : State :=
  match s.desc with
  | none => s.bootStop 2 (auth / 4)
  | some b =>
    if 6 ≤ s.f F.SYS_BOOT_att then s.bootStop 7 (auth / 4)
    else
      let tryList := (slotOrder (s.f F.SYS_BOOT_att) (descActive b)).filter (fun k => !bitOf s.boot.badSlots k)
      let good (k : Nat) : Bool := s.slotOk k && s.slotVerifies k 1 (bitOf auth k)
      let s := (tryList.takeWhile (fun k => !good k)).foldl (fun s k => s.failSlot k) s
      match tryList.find? good with
      | none => s.bootStop 2 (auth / 4)
      | some k =>
        let s := (s.setF F.SYS_BOOT_slot k).flag F.SYS_BOOT_trial (descTrial b && k = descActive b)
        match s.slotImages k 1 with
        | (o, _, _) :: _ => ((s.loadImage o false).measure 1 k (s.flashBytes 0 o 128)).setF F.SYS_BOOT_stage 3
        | [] => s

/-- Stage 3 (R318, R319): the remaining pairs run, roles are placed. -/
def stage3 (s : State) : State :=
  let s := ([0, 1, 2, 3].filter (fun v => !s.on (F.SYS_VP_STAT_fallow v) && s.f (F.SYS_VP_STAT_state v) ≠ 2)).foldl
    (fun s v => s.runPair v) s
  (s.placeRoles.setF F.SYS_BOOT_stage 4).driveOuts

/-- The running slot failed in a later stage: the other slot at once, or none is left (R484). -/
def otherSlot (s : State) : State := (s.failSlot (s.f F.SYS_BOOT_slot)).setF F.SYS_BOOT_stage 2

/-- Stage 4 (R482, R487): firmware sent to every die that is reached; with none the cause is 4. -/
def stage4 (s : State) (auth : Nat) : State :=
  let k := s.f F.SYS_BOOT_slot
  let dies := [0, 1, 2, 3].filter (fun d => s.dieReached d)
  if dies.isEmpty then s.bootStop 4 (auth / 4)
  else if !s.slotVerifies k 2 (bitOf auth k) then s.otherSlot
  else
    match s.slotImages k 2 with
    | [] => s.otherSlot
    | (o, _, _) :: _ =>
      let h := s.flashBytes 0 o 128
      let s := s.withCt { s.ct with lost := s.lostTo (dies.flatMap (fun d => [4 * d, 4 * d + 1, 4 * d + 2, 4 * d + 3])) }
      (dies.foldl (fun s d => (s.setF (F.SYS_DIE_state d) 3).measure (2 + d) k h) s).setF F.SYS_BOOT_stage 5

/-- Stage 5 (R482): the start-up tests have passed, the dies run. -/
def stage5 (s : State) : State :=
  ([0, 1, 2, 3].foldl (fun s d =>
    if s.f (F.SYS_DIE_state d) = 3 then
      ((s.setF (F.SYS_DIE_state d) 4).setDword (A.WD_REF (5 + d)) s.time).withSince (Table.put (fun _ => 0) s.since (1 + d) s.tick)
    else s) s).setF F.SYS_BOOT_stage 6

/-! ### Stages 6 to 8 -/

/-- The persisted fallow list taken over (R350, R489): items fallow again, contexts listed. -/
def loadFallow (s : State) : State :=
  let l := s.savedFallow
  let s := l.foldl (fun s x => if x.1 = 10 then s else s.setFallow x.1 x.2 true) s
  (s.withFc { s.fc with fallow := l ++ s.fc.fallow.filter (fun x => !l.contains x) }).afterFallow

/-- Reservations and counters of every context (R490). -/
def loadAdmits (s : State) : State :=
  (List.range 1024).foldl (fun s n =>
    let r := s.savedReserve n
    (s.setWord (A.VD_ADMIT n) r).modCtx n (fun c => { c with reserve := r })) s

/-- The CRC lists of every valid region (R384), written by the pair of role 3 (log 159); a list at an unmapped address or in the
boot ROM is refused as any write is (R11, R12). -/
def writeCrcLists (s : State) : State :=
  ((List.range 64).filter (fun r => s.on (F.DMA_REGEN_LEN_valid r))).foldl (fun s r =>
    let n := ((s.regionOf r).2 + 0xFFFF) / 0x10000
    (List.range n).foldl (fun s u =>
      let (a, m) := s.unitSpan r u
      s.ownWrite (s.dword (A.DMA_REGEN_LIST r) + 4 * u) (2 * (s.rolePair 3).getD 0) (leBytes 4 (crc32c (s.bytes a m)))) s) s

/-- The update state of the records (R494, R496). -/
def loadUpdate (s : State) : State :=
  let b := s.savedUpd
  let st := leAt b 0 1
  let s := ((s.setF F.SYS_UPD_STAT_state st).setF F.SYS_UPD_STAT_slot (leAt b 1 1)).setF F.SYS_UPD_STAT_erase_next (leAt b 4 4)
  let s := s.setWord A.SYS_UPD_ACK (leAt b 8 4)
  let s := s.withBoot { s.boot with mirrors := leAt b 2 1, stored := leAt b 8 4 }
  let s := s.flag F.SYS_UPD_STAT_mirror (bitOf s.boot.mirrors (leAt b 1 1))
  if st = 1 then s.measState 8 (leAt b 1 1) 3
  else if st = 2 ∨ st = 3 then
    match s.slotImages (leAt b 1 1) 1 with
    | (o, _, _) :: _ => s.measure 8 (leAt b 1 1) (s.flashBytes 0 o 128)
    | [] => s.measState 8 (leAt b 1 1) 1
  else s

/-- A kind-6 image of the running slot with directory flags `flags` is loaded striped (R495); `en` is the set's XSP_STRIPE.en. -/
def striped (s : State) (en : Bool) (flags : Nat) : Bool :=
  en && bitOf s.boot.mirrors (s.f F.SYS_BOOT_slot) && bitOf flags 0

/-- The kind-6 images of the running slot are loaded (R433, R482, R487, R495); they are loaded before the set is committed, whose
checks read them (log 34). -/
def loadNetworks (s : State) (en : Bool) : State :=
  let k := s.f F.SYS_BOOT_slot
  (s.slotImages k 6).foldl (fun s (o, f, _) => (s.loadImage o (s.striped en f)).measure 6 k (s.flashBytes 0 o 128)) s

/-- Some kind-6 image is loaded striped (R495). -/
def stripedLoad (s : State) : Bool :=
  (s.slotImages (s.f F.SYS_BOOT_slot) 6).any (fun x => s.striped (s.on F.XSP_STRIPE_en) x.2.1)

/-- The set in flash that verifies sets XSP_STRIPE.en (R433, R492). -/
def setStripes (s : State) (auth : Nat) : Bool :=
  match s.goodSet auth with
  | some (_, body) => spsBodyOk body && (spsRecords body).any (fun x => x.1 = A.XSP_STRIPE && bitOf x.2 31)
  | none => false

/-- Stage 6 (R384, R433, R482, R489 to R493): records read, networks loaded, the set committed, CRC lists written.  A granule
that fails on XSPI1 is read from XSPI0, and striping stops; with `granFails` it is the first (log 34). -/
def stage6 (s : State) (auth : Nat) (granFails : Bool) : State :=
  let k := s.f F.SYS_BOOT_slot
  if !s.slotVerifies k 6 (bitOf auth k) then s.otherSlot
  else
    let s := (((s.loadFallow.loadAdmits).setWord A.SYS_SPS_CONF (s.savedConf.getD 0)).loadUpdate).loadNetworks
      (s.setStripes (auth / 4) && !granFails)
    let s := (s.withBoot { s.boot with loaded := true }).recordsPut
    let s := if s.imageOk 7 (s.flashSet 0).1 (bitOf auth 2) then s else s.raise { src := Src.SEC_AUTH }
    match s.goodSet (auth / 4) with
    | none => s.bootStop 6 (auth / 4)
    | some (h, body) =>
      match s.commitImage h body true with
      | .error i => (s.spsRefuse i).bootStop 6 (auth / 4)
      | .ok r =>
        let r := (r.setF F.SYS_SPS_STAT_st 0).measure 7 k h
        let r := r.flag F.SYS_BOOT_stripe r.stripedLoad
        let r := if r.stripedLoad && granFails then r.setF F.XSP_STATUS_nostripe 1 else r
        r.writeCrcLists.setF F.SYS_BOOT_stage 7

/-- Stage 7 (R482, R506): the accelerators that enabled contexts name are powered up, or released. -/
def stage7 (s : State) : State :=
  ([0, 1, 2, 3].foldl (fun s a =>
    if !s.enabled.any (fun n => s.bound n a) then s
    else if !s.on (F.SIO_ACC_STAT_pwr a) && !s.on (F.SIO_ACC_STAT_rst a) then s.accPowerUp a
    else if s.on (F.SIO_ACC_STAT_pwr a) && !s.on (F.SIO_ACC_STAT_rst a) then s.accRelease a
    else s) s).setF F.SYS_BOOT_stage 8

/-- A trial slot that was left: trial = 0 is written for the slot that runs, and the update ends with ERR_STATE (R496). -/
def leaveTrial (s : State) : State :=
  if s.f F.SYS_UPD_STAT_state = 3 ∧ s.f F.SYS_UPD_STAT_slot ≠ s.f F.SYS_BOOT_slot then
    ((((s.writeDesc (s.f F.SYS_BOOT_slot) false).setF F.SYS_UPD_STAT_state 0).setF F.SYS_UPD_STAT_st 0x10).measState 8 0 0).recordsPut
  else s

/-- Stage 8 (R482): contexts enter ADMITTING or FALLOW, service begins, boot_att is cleared, roles are arbitrated. -/
def stage8 (s : State) : State :=
  let s := s.enabled.foldl (fun s n => s.enterService n) s
  let s := (s.setF F.SYS_SVC_level 1).hwRet2 0x008 0x00C 0
  let s := s.withFc { s.fc with quietStart := some s.tick }
  (s.leaveTrial.startArb).driveOuts

/-- The end of the stage in progress (R482): `stop` is a cause of R335 that the stage found by itself, `diff` the comparator
groups that failed difference injection, `auth` the crypto block's verdicts: slot A, slot B, set copy 1, set copy 2 (log 23).  Once
stage 3 has started every pair, fewer than two working ones are cause 1 (R321, R483). -/
def endStage (s : State) (stop diff auth : Nat) (granFails : Bool) : State :=
  if s.holds ≠ 0 ∨ s.boot.stopped ∨ s.f F.SYS_SVC_level ≠ 0 then s
  else if stop ≠ 0 then s.bootStop stop (auth / 4)
  else if 4 ≤ s.f F.SYS_BOOT_stage ∧ s.workingPairs < 2 then s.bootStop 1 (auth / 4)
  else
    match s.f F.SYS_BOOT_stage with
    | 1 =>
      let s := s.stage1 diff (auth / 4)
      if s.boot.stopped then s else s.setF F.SYS_BOOT_stage 2
    | 2 => s.stage2 auth
    | 3 => s.stage3
    | 4 => s.stage4 auth
    | 5 => s.stage5
    | 6 => s.stage6 auth granFails
    | 7 => s.stage7
    | _ => s.stage8

/-! ### A/B update (R494 to R496) -/

/-- SYS_UPD_STAT.st, and the response to the write (R494). -/
def updSt (s : State) (st : Nat) : State :=
  let s := s.setF F.SYS_UPD_STAT_st st
  match st with
  | 0x01 => s.respond .stBusy
  | 0x10 => s.respond .errState
  | 0x11 => s.respond .errParam
  | _ => s

/-- An update command: ST_BUSY while another runs, ERR_STATE in a state it is not accepted in. -/
def updCmd (s : State) (accepted : Bool) (k : State → State) : State :=
  if s.boot.upd.isSome then s.updSt 0x01 else if !accepted then s.updSt 0x10 else k (s.updSt 0)

/-- The target slot: offset and length; sectors in it. -/
def updSlot (s : State) : Nat × Nat :=
  match s.desc with
  | none => (0, 0)
  | some b => descSlot b (s.f F.SYS_UPD_STAT_slot)
def updSectors (s : State) : Nat := (s.updSlot.2 + 0xFFFF) / 0x10000

/-- BEGIN (R494, R495): the slot that is not active is the target. -/
def updBegin (s : State) : State :=
  s.updCmd (s.f F.SYS_UPD_STAT_state = 0 && s.desc.isSome) (fun s =>
    let t := 1 - ((s.desc.map descActive).getD 0)
    let s := ((s.setF F.SYS_UPD_STAT_state 1).setF F.SYS_UPD_STAT_slot t).setF F.SYS_UPD_STAT_erase_next 0
    let s := (s.setWord A.SYS_UPD_ACK 0).setF F.SYS_UPD_STAT_mirror 0
    let s := s.withBoot { s.boot with mirrors := lessBit s.boot.mirrors t, stored := 0 }
    (s.measState 8 t 3).recordsPut)

/-- A sector of the target is erased (R494): erase_next rises, and is written after every 16 sectors and the last. -/
def sectorErased (s : State) : State :=
  let n := s.f F.SYS_UPD_STAT_erase_next
  if s.f F.SYS_UPD_STAT_state ≠ 1 ∨ s.updSectors ≤ n then s
  else
    let s := (s.eraseFlash 0 (s.updSlot.1 + 0x10000 * n) 0x10000).setF F.SYS_UPD_STAT_erase_next (n + 1)
    if (n + 1) % 16 = 0 ∨ n + 1 = s.updSectors then s.recordsPut else s

/-- A command that runs until UPDATE_COMMAND_DONE. -/
def updRun (s : State) (op : Nat) (ok : Bool) : State :=
  (s.setF F.SYS_UPD_STAT_busy 1).withBoot { s.boot with upd := some ⟨op, ok⟩ }

/-- Every image of slot `k` passes R460 and its directory R486. -/
def slotSound (s : State) (k : Nat) (sig : Bool) : Bool :=
  s.slotOk k && [1, 2, 6].all (fun kind => s.slotVerifies k kind sig)

/-- VERIFY, ACTIVATE, CONFIRM and ABORT (R494). -/
def updVerify (s : State) (sigOk : Bool) : State :=
  s.updCmd (s.f F.SYS_UPD_STAT_state = 1 && Nat.ble s.updSectors (s.f F.SYS_UPD_STAT_erase_next)) (fun s =>
    s.updRun 2 (s.slotSound (s.f F.SYS_UPD_STAT_slot) sigOk))
def updActivate (s : State) : State := s.updCmd (s.f F.SYS_UPD_STAT_state = 2) (fun s => s.updRun 3 true)
def updConfirm (s : State) : State :=
  s.updCmd (s.f F.SYS_UPD_STAT_state = 3 && s.f F.SYS_BOOT_slot = s.f F.SYS_UPD_STAT_slot && s.f F.SYS_SVC_level = 1) (fun s =>
    s.updRun 4 true)
def updAbort (s : State) : State :=
  s.updCmd (Nat.ble 1 (s.f F.SYS_UPD_STAT_state) && Nat.ble (s.f F.SYS_UPD_STAT_state) 3) (fun s => s.updRun 5 true)

/-- minver raised to `v` (R461): a request for 64 or above, or below the present level, has no effect. -/
def raiseMinver (s : State) (v : Nat) : State :=
  if 64 ≤ v ∨ v ≤ s.minver then s
  else
    let l := leBytes 8 (2 ^ v - 1)
    s.withSec { s.sec with fuses := Table.put (fun _ => []) s.sec.fuses 8 l, fuses2 := Table.put (fun _ => []) s.sec.fuses2 8 l }

/-- The lowest image version of slot `k` (R494). -/
def lowestVersion (s : State) (k : Nat) : Nat :=
  match ([1, 2, 6].flatMap (fun kind => s.slotImages k kind)).map (fun x => leVal (s.flashBytes 0 (x.1 + 8) 1)) with
  | [] => 0
  | v :: l => l.foldl min v

/-- The slot copied to XSPI1 CS1 (R494). -/
def mirrorSlot (s : State) (k : Nat) : State :=
  let (base, len) := s.updSlot
  let s := (s.eraseFlash 3 base len).setFlash 3 base (s.flashBytes 0 base len)
  (s.setF F.SYS_UPD_STAT_mirror 1).withBoot { s.boot with mirrors := withBit s.boot.mirrors k }

/-- The running update command completes (R494, R495). -/
def updDone (s : State) : State :=
  match s.boot.upd with
  | none => s
  | some u =>
    let t := s.f F.SYS_UPD_STAT_slot
    let s : State := (s.setF F.SYS_UPD_STAT_busy 0).withBoot { s.boot with upd := none }
    match u.op with
    | 2 =>
      if u.ok then
        let s := s.setF F.SYS_UPD_STAT_state 2
        let s := match s.slotImages t 1 with
          | (o, _, _) :: _ => s.measure 8 t (s.flashBytes 0 o 128)
          | [] => s
        (if s.on F.XSP_STRIPE_en then s.mirrorSlot t else s).recordsPut
      else (s.raise { src := Src.SEC_AUTH }).setF F.SYS_UPD_STAT_st 0x12
    | 3 => ((s.writeDesc t true).setF F.SYS_UPD_STAT_state 3).recordsPut
    | 4 =>
      let s := ((s.writeDesc t false).raiseMinver (s.lowestVersion t)).setF F.SYS_UPD_STAT_state 0
      ((s.setF F.SYS_BOOT_trial 0).measState 8 0 0).recordsPut
    | _ =>
      let s := if s.f F.SYS_UPD_STAT_state = 3 then s.writeDesc (1 - t) false else s
      ((s.setF F.SYS_UPD_STAT_state 0).measState 8 0 0).recordsPut

/-! ### Resets by command (R497, R498) -/

/-- A write of SYS_RST_CMD (R498): the key and the target are checked. -/
def rstCmd (s : State) (v : Nat) : State :=
  if bits v 24 8 ≠ 0xA5 ∨ 6 ≤ bits v 0 3 then s.respond .errParam else s.targetReset (bits v 0 3) 0x22

end State

/-- The boot stage in progress ends (R482, R483). -/
def execBootStageEnd (t : Nat) (stop : Fin 8) (diff : BitVec 20) (auth : BitVec 4) (granFails : Bool) (s : State) :
    Host.Outcome State Fault Refusal :=
  done ((s.start t).endStage stop diff.toNat auth.toNat granFails)

/-- BEGIN (R494). -/
def execUpdBegin (t : Nat) (s : State) : Host.Outcome State Fault Refusal := done (s.start t).updBegin

/-- A sector of the target slot is erased (R494). -/
def execSectorEraseDone (t : Nat) (s : State) : Host.Outcome State Fault Refusal := done (s.start t).sectorErased

/-- VERIFY (R494): `sigOk` is the crypto block's verdict on the slot's images (log 23). -/
def execUpdVerify (t : Nat) (sigOk : Bool) (s : State) : Host.Outcome State Fault Refusal := done ((s.start t).updVerify sigOk)

/-- ACTIVATE (R494). -/
def execUpdActivate (t : Nat) (s : State) : Host.Outcome State Fault Refusal := done (s.start t).updActivate

/-- CONFIRM (R494). -/
def execUpdConfirm (t : Nat) (s : State) : Host.Outcome State Fault Refusal := done (s.start t).updConfirm

/-- ABORT (R494). -/
def execUpdAbort (t : Nat) (s : State) : Host.Outcome State Fault Refusal := done (s.start t).updAbort

/-- The running update command completes (R494). -/
def execUpdateCommandDone (t : Nat) (s : State) : Host.Outcome State Fault Refusal := done (s.start t).updDone

/-- SYS_RST_CMD written (R498). -/
def execSysRstCmd (t : Nat) (value : Word) (s : State) : Host.Outcome State Fault Refusal := done ((s.start t).rstCmd value.toNat).takeEnded

/-- A die's partial reset is complete (R497). -/
def execPartialResetDone (t : Nat) (die : Fin 4) (s : State) : Host.Outcome State Fault Refusal := done ((s.start t).partialDone die)

end Sys2Proof.Machine
end

