-- ==== Sys2Proof/Machine/Loopback.lean ====
section
/-! DEFINITION. Loop-back tests and JTAG (R510 to R520). -/

namespace Sys2Proof.Machine

open Sys2Proof

namespace State

/-- The depths an interface offers (R510). -/
def lbDepths : Nat → List Nat
  | 1 => [1, 2, 3]
  | 2 => [2]
  | 3 | 4 | 6 | 7 => [1, 2]
  | 5 | 8 => [1]
  | _ => []

/-- The number of items of an interface (R511, R354). -/
def lbItems : Nat → Nat
  | 1 => 20
  | 2 => 10
  | 3 | 7 => 2
  | 4 | 8 => 1
  | 5 => 48
  | 6 => 16
  | _ => 0

/-- The item under test as an item of R354: kind and number. -/
def lbItem (s : State) : Option (Nat × Nat) :=
  let n := s.f F.SYS_LB_CFG_num
  match s.f F.SYS_LB_CFG_iface with
  | 1 => if n < 16 then some (4, n) else some (5, n - 16)
  | 2 => if n < 8 then some (6, n) else none
  | 3 => some (7, n)
  | 5 => some (8, n)
  | 6 => some (3, n)
  | _ => none

/-- The en bit of the port under test; none for an item that is no port (R512). -/
def lbEnabled (s : State) : Option Bool :=
  let n := s.f F.SYS_LB_CFG_num
  match s.f F.SYS_LB_CFG_iface with
  | 1 => some (if n < 16 then s.on (F.FP_CIN_CFG_en n) else s.on (F.EV_EIN_CFG_en (n - 16)))
  | 2 => some (if n < 8 then s.on (F.FP_FWD_CFG_en n) else s.on (F.FP_MON_CFG_en (n - 8)))
  | 3 => some (s.on (if n = 0 then F.ETH_CTRL_ena else F.ETH_CTRL_enb))
  | 4 => some (s.on F.ML_CTRL_en)
  | 7 => some (s.on (F.XSP_CFG_en n))
  | 8 => some (s.on F.I3C_T_CFG_en || s.on F.I3C_C_CFG_en)
  | _ => none

/-- The test of SYS_LB_CFG may run (R512). -/
def lbAllowed (s : State) : Bool :=
  (match s.lbItem with | some (k, n) => s.isFallow k n | none => false)
    || (s.committed && s.lbEnabled == some false)
    || s.f F.SYS_SVC_level == 2
    || s.life == 0x00 || s.life == 0xA5

/-- A write of GO to SYS_LB_CMD (R510 to R514, R520). -/
def lbGo (s : State) : State :=
  if s.lb.isSome then s.respond .stBusy
  else if !(lbDepths (s.f F.SYS_LB_CFG_iface)).contains (s.f F.SYS_LB_CFG_depth)
      || Nat.ble (lbItems (s.f F.SYS_LB_CFG_iface)) (s.f F.SYS_LB_CFG_num) || s.f F.SYS_LB_CFG_ms = 0 then
    (s.setF F.SYS_LB_STAT_st 0x11).respond .errParam
  else if !s.lbAllowed then (s.setF F.SYS_LB_STAT_st 0x10).respond .errState
  else
    let now := s.f F.SYS_LB_CFG_iface = 6 ∨ s.f F.SYS_LB_CFG_iface = 7
    let s := ((s.setDword A.SYS_LB_BITS 0).setWord A.SYS_LB_ERRS 0).setDword A.SYS_LB_FIRST 0
    let s := ((s.setF F.SYS_LB_STAT_st 0).setF F.SYS_LB_STAT_busy 1).flag F.SYS_LB_STAT_lock now
    s.withLb (some ⟨s.tick, if now then some s.tick else none⟩)

/-- A write of SYS_LB_CMD (R513, R520). -/
def lbCmd (s : State) (op : Nat) : State :=
  match op with
  | 1 => s.lbGo
  | 2 => if s.lb.isSome then s.endLb 0x04 else s
  | _ => s.respond .errParam

/-- The run of the test is over (R514): its time for serial tests and xSPI depth 1; memory tests and xSPI depth 2 end when
their march or reads do. -/
def lbOver (s : State) (locked : Nat) : Bool :=
  s.f F.SYS_LB_CFG_iface = 6 || (s.f F.SYS_LB_CFG_iface = 7 && s.f F.SYS_LB_CFG_depth = 2)
    || Nat.ble (locked + ms (s.f F.SYS_LB_CFG_ms)) s.tick

/-- The test ends with its results (R514, R515). -/
def lbResult (s : State) (count errs first : Nat) : State :=
  let s := (s.setDword A.SYS_LB_BITS (count % 2 ^ 48)).setWord A.SYS_LB_ERRS (min errs (2 ^ 32 - 1))
  let s := s.setDword A.SYS_LB_FIRST (if errs = 0 then 0 else first)
  s.endLb (if errs = 0 then 0x00 else 0x02)

/-- A JTAG instruction becomes current (R518): in FIELD every one but BYPASS and IDCODE acts as BYPASS. -/
def setJtag (s : State) (op : Nat) : State :=
  s.withJtag (if s.life = 0x5A ∧ op ≠ 0x01 then 0xFF else op)

end State

/-- SYS_LB_CMD = GO (R510 to R513). -/
def execLbGo (t : Nat) (s : State) : Host.Outcome State Fault Refusal := done (s.start t).lbGo

/-- SYS_LB_CMD = ABORT (R513). -/
def execLbAbort (t : Nat) (s : State) : Host.Outcome State Fault Refusal := done ((s.start t).lbCmd 2)

/-- The path under test locks (R514); a lock after the 10 ms is none. -/
def execLoopbackLock (t : Nat) (s : State) : Host.Outcome State Fault Refusal :=
  let s := s.start t
  match s.lb with
  | some ⟨g, none⟩ =>
    if g + State.ms 10 < s.tick then done (s.endLb 0x03)
    else done ((s.setF F.SYS_LB_STAT_lock 1).withLb (some ⟨g, some s.tick⟩))
  | _ => done s

/-- 10 ms have passed since GO without lock (R514); not due, nothing happens. -/
def execLoopbackLockTimeout (t : Nat) (s : State) : Host.Outcome State Fault Refusal :=
  let s := s.start t
  match s.lb with
  | some ⟨g, none⟩ => if g + State.ms 10 ≤ s.tick then done (s.endLb 0x03) else done s
  | _ => done s

/-- The run ends (R514, R515): units compared, mismatches, the time of the first, and the traffic it moved by counter of
R297; not due, nothing happens. -/
def execLoopbackEnd (t : Nat) (count : BitVec 48) (errs : Nat) (first : DWord) (moved : List (Fin 0x5C × Word)) (s : State) :
    Host.Outcome State Fault Refusal :=
  let s := s.start t
  match s.lb with
  | some ⟨_, some l⟩ =>
    if s.lbOver l then
      let s := moved.foldl (fun (s : State) (p : Fin 0x5C × Word) => s.ctAdd p.1 p.2.toNat) s
      done (s.lbResult count.toNat errs first.toNat)
    else done s
  | _ => done s

/-- BYPASS, and every opcode that no row lists (R518). -/
def execBypass (t : Nat) (s : State) : Host.Outcome State Fault Refusal := done ((s.start t).setJtag 0xFF)

/-- IDCODE (R518). -/
def execIdcode (t : Nat) (s : State) : Host.Outcome State Fault Refusal :=
  done (((s.start t).setJtag 0x01).returned [0x1A31666F])

/-- SAMPLE/PRELOAD (R518): `scan` is shifted into the boundary register; what it samples is a free value, for the order of
the balls is not given (log 2). -/
def execSamplePreload (t : Nat) (scan : Nat) (s : State) : Host.Outcome State Fault Refusal :=
  let s := (s.start t).setJtag 0x02
  if s.jtag = 0x02 then
    let (v, s) := s.draw 64
    done ((s.returned [v]).withBoundary scan)
  else done s

/-- EXTEST (R518, R519): the balls follow the boundary register. -/
def execExtest (t : Nat) (scan : Nat) (s : State) : Host.Outcome State Fault Refusal :=
  let s := (s.start t).setJtag 0x03
  if s.jtag = 0x03 then done (s.withBoundary scan) else done s

/-- CLAMP (R518, R519). -/
def execClamp (t : Nat) (s : State) : Host.Outcome State Fault Refusal := done ((s.start t).setJtag 0x04)

/-- HIGHZ (R518, R519). -/
def execHighz (t : Nat) (s : State) : Host.Outcome State Fault Refusal := done ((s.start t).setJtag 0x05)

end Sys2Proof.Machine
end

