-- ==== Sys2Proof/Machine/SelfTest.lean ====
section
/-! DEFINITION. The periodic tests: logic-test slices, known-answer tests and their coverage deadlines (R367 to R376). -/

namespace Sys2Proof.Machine

open Sys2Proof

namespace State

/-- The state with CORE `c`'s tests replaced; CX_CORE_c.test shows the engine in its slice. -/
def setCoreT (s : State) (c : Nat) (x : CoreTest) : State :=
  let s := s.setF (F.CX_CORE_test (c / 4) (c % 4)) (match x.slot with
    | some (e, _) => if x.idle then 16 else e
    | none => 16)
  (s.withWd { s.wd with tests := Table.put (fun _ => CoreTest.reset) s.wd.tests c x })

/-- SYS_TEST of CORE `c`'s control processor changed (R376): bits `lo` and up, `w` wide. -/
def setSysTest (s : State) (c lo w v : Nat) : State :=
  s.modHart (0x100 + c) (fun h =>
    let x := (Table.get (fun _ => (0 : DWord)) h.csr 0x102).toNat
    { h with csr := Table.put (fun _ => 0) h.csr 0x102 (BitVec.ofNat 64 (setBits x lo w v)) })

/-- Bit `k` of SYS_TEST set by hardware in this tick (R7, R376). -/
def hwTest (s : State) (c k : Nat) : State :=
  let (t, b) := Table.get (fun _ => (0, 0)) s.evt (testKey (0x100 + c))
  let now := if t = s.tick + 1 then b ||| 2 ^ k else 2 ^ k
  (s.setSysTest c k 1 1).withEvt (Table.put (fun _ => (0, 0)) s.evt (testKey (0x100 + c)) (s.tick + 1, now))

/-- A wrapping count in SYS_TEST (R376). -/
def countSysTest (s : State) (c lo : Nat) : State :=
  let x := (Table.get (fun _ => (0 : DWord)) (s.hart (0x100 + c)).csr 0x102).toNat
  s.setSysTest c lo 16 (bits x lo 16 + 1)

/-- A safety window of die `d`: whether tick `x` lies in it, and the later ticks in which it is known to open (R229, R370). -/
def windowAt (s : State) (d w x : Nat) : Bool × List Nat :=
  let len := us (10 * s.f (F.GS_WIN_len d w))
  let starts := (Table.get (fun _ => []) s.gs.winRef d).map (fun r => r + us (10 * s.f (F.GS_WIN_off d w)))
  if !s.on (F.GS_WCFG_en d) ∨ len = 0 then (false, [])
  else if s.on (F.GS_WCFG_mode d) then
    (starts.any (fun b => Nat.ble b x && Nat.blt x (b + len)), starts.filter (fun b => Nat.blt x b))
  else
    let p := max 1 (us (s.f (F.GS_WCFG_period d)))
    match starts with
    | [] => (false, [])
    | b :: _ => if x < b then (false, [b]) else (Nat.blt ((x - b) % p) len, [b + ((x - b) / p + 1) * p])

/-- A test of `n` ticks may begin on die `d` now: outside every window, and it ends before the next opens (R370, R372). -/
def testFits (s : State) (d n : Nat) : Bool :=
  [0, 1, 2, 3].all (fun w =>
    let (inside, opens) := s.windowAt d w s.tick
    !inside && opens.all (fun o => Nat.ble (s.tick + n) o))

/-- The first engine from `e` counting upward mod 16 that is not fallow (R368). -/
def nextEngine (s : State) (c e : Nat) : Option Nat :=
  ((List.range 16).map (fun k => (e + k) % 16)).find? (fun k => !s.engFallow c k)

/-- A greatest age field raised to the age of a test that completes, in 10 µs, saturating (R374). -/
def ageTo (s : State) (x : Field) (ticks : Nat) : State := s.setF x (min (max (s.f x) (ticks / 2500)) 0xFFFF)

/-- An engine of CORE `c` other than `e` that has been returned to service and waits for its slice (R354). -/
def awaitsSlice (s : State) (c e : Nat) : Option Nat :=
  (s.fc.returning.find? (fun x => x.1 = 1 && x.2 / 16 = c && x.2 % 16 ≠ e)).map (fun x => x.2 % 16)

/-- The slot of CORE `c`, when it has not run its 2,000 µs (R368, R369). -/
def slotRuns (s : State) (c : Nat) : Option Nat :=
  match (s.coreT c).slot with
  | some (_, b) => if (s.coreT c).idle && Nat.ble (b + us 2000) s.tick then none else some b
  | none => none

/-- The slots of the die's other cores began in this tick, or are over by it, so that one of CORE `c` falls at the same time as
theirs (R368). -/
def slotAligned (s : State) (c : Nat) : Bool :=
  (List.range 4).all (fun k => (s.slotRuns (c / 4 * 4 + k)).all (fun b => b = s.tick || Nat.ble (b + us 2000) s.tick))

/-- A slot begins on the core's next engine (R368 to R370), the last one in service too (log 161). -/
def startSlot (s : State) (c : Nat) : State :=
  let x := s.coreT c
  match s.nextEngine c x.next with
  | none => s
  | some e =>
    if s.coreTested c && (s.slotRuns c).isNone && s.slotAligned c && s.testFits (c / 4) (us 2000) then
      ((s.setCoreT c { x with slot := some (e, s.tick), logic := false, idle := false }).evict c e)
    else s

/-- An abandoned slot of CORE `c` ends, with no slice in it: the same engine takes the next slot (R369). -/
def endIdle (s : State) (c : Nat) : State := s.setCoreT c { s.coreT c with slot := none, idle := false }

/-- The slot of CORE `c` ends with a completed slice (R371, R374, R376). -/
def endSlice (s : State) (c e : Nat) (fails : Bool) : State :=
  let x := s.coreT c
  let s := s.ageTo (F.WD_ST_AGE_logic (c / 4)) (s.tick - s.sliceDone c e)
  let returned := s.fc.returning.contains (1, 16 * c + e)
  let x := { x with
    slot := none
    logic := false
    sliceDone := Table.put (fun _ => 0) x.sliceDone e s.tick
    lapsed := x.lapsed.filter (· ≠ e)
    out := if fails then (if x.out.contains e then x.out else x.out ++ [e]) else x.out.filter (· ≠ e)
    next := if fails then e else (s.awaitsSlice c e).getD ((e + 1) % 16) }
  let s := (s.setCoreT c x).countSysTest c 16
  let s := s.withFc { s.fc with returning := s.fc.returning.filter (· ≠ (1, 16 * c + e)) }
  if !fails then s.fillCore c
  else
    let s := (s.count (F.WD_ST_CNT_fail (c / 4)) F.WD_STATUS_sat).hwTest c 62
    let s := s.raise { src := Src.ST_LOGIC c, inst := c, detail := e }
    let s := if returned then s.retire 1 (16 * c + e) else s.retryEvent 1 (16 * c + e)
    let s := if s.engFallow c e then
        s.setCoreT c { s.coreT c with out := (s.coreT c).out.filter (· ≠ e), next := (s.awaitsSlice c e).getD ((e + 1) % 16) } else s
    s.settle

/-- A known-answer test begins on CORE `c` (R372, R373). -/
def startKat (s : State) (c : Nat) : State :=
  let x := s.coreT c
  if s.coreTested c && x.kat.isNone && (x.katRepeat || Nat.ble x.katDue s.tick) && s.testFits (c / 4) (us 40) then
    let s := s.setCoreT c { x with kat := some s.tick, katDue := s.tick + ms 10, katLeft := [] }
    let s := s.setSysTest c 5 1 1
    (List.range 16).foldl (fun s e => if s.f (F.CX_CORE_test (c / 4) (c % 4)) = e ∨ s.engFallow c e then s else s.evict c e) s
  else s

/-- No new thread is issued to CORE `c` until a repeat test passes (R373). -/
def barCore (s : State) (c : Nat) (b : Bool) : State :=
  s.withGs { s.gs with noIssue := Table.put (fun _ => false) s.gs.noIssue c b }

/-- Engines of CORE `c` in the running known-answer test that still hold a thread (R372). -/
def katHeld (s : State) (c : Nat) : List Nat :=
  ((if (s.coreT c).katLeft.isEmpty then List.range 16 else (s.coreT c).katLeft).filter (fun e =>
    s.f (F.CX_CORE_test (c / 4) (c % 4)) ≠ e && !s.engFallow c e)).filter (fun e => !(s.residents c e).isEmpty)

/-- A known-answer test of CORE `c` ends (R373, R374, R376): after a failure the test is repeated, at once where no safety window
forbids it (R229).  An engine whose atomic thread has outlasted the start runs its part when the thread ends (R372): until then the
test goes on, and the other engines take threads again. -/
def endKat (s : State) (c : Nat) (failed : Option (Fin 16)) : State :=
  let x := s.coreT c
  let late := s.katHeld c
  if x.kat.isNone then s
  else if failed.isNone && !late.isEmpty then (s.setCoreT c { x with katLeft := late }).fillCore c
  else
    let x := { x with katLeft := [] }
    let s := s.ageTo (F.WD_ST_AGE_kat (c / 4)) (s.tick - s.katDone c)
    let returned := s.fc.returning.contains (2, c)
    let repeat_ := failed.isSome && !returned && s.testFits (c / 4) (us 40)
    let s := s.setCoreT c { x with
      kat := if repeat_ then some s.tick else none
      katDue := if repeat_ then s.tick + ms 10 else x.katDue
      katDone := s.tick
      lapsed := x.lapsed.filter (· ≠ 16)
      katRepeat := failed.isSome }
    let s := (s.setSysTest c 5 1 (bit repeat_)).countSysTest c 32
    let s := s.withFc { s.fc with returning := s.fc.returning.filter (· ≠ (2, c)) }
    match failed with
    | none => (s.barCore c false).fillCore c
    | some e =>
      let s := (s.barCore c true).count (F.WD_ST_CNT_kfail (c / 4)) F.WD_STATUS_sat
      let s := s.hwTest c 61
      let s := s.raise { src := Src.ST_KAT c, inst := c, detail := e }
      let s := if returned then s.retire 2 c else s.retryEvent 2 c
      let s := if s.coreFallow c then (s.setCoreT c { s.coreT c with kat := none, katRepeat := false }).setSysTest c 5 1 0 else s
      s.settle

/-- An item's age has come within one slot length of its deadline, its test not begun and no lapse raised since its last
test (R374). -/
def lapseDue (s : State) (c : Nat) (kat : Bool) (e : Nat) : Bool :=
  let x := s.coreT c
  s.coreTested c &&
    (if kat then
      x.kat.isNone && !x.lapsed.contains 16
        && Nat.ble (ms (s.f F.WD_ST_CFG_kat_ms)) (s.tick - s.katDone c + us 40)
    else
      !s.engFallow c e && !(x.slot.any (fun p => p.1 = e)) && !x.lapsed.contains e
        && Nat.ble (ms (s.f F.WD_ST_CFG_logic_ms)) (s.tick - s.sliceDone c e + us 2000))

end State

/-- A slice slot begins on the next engine of a core (R368); where R370 or a running slot defers it, nothing happens. -/
def execSliceSlotStart (t : Nat) (core : Fin 16) (s : State) : Host.Outcome State Fault Refusal :=
  done ((s.start t).startSlot core).takeEnded

/-- The logic test starts once no thread is left on the engine, within the start margin (R369). -/
def execLogicTestStart (t : Nat) (core : Fin 16) (s : State) : Host.Outcome State Fault Refusal :=
  let s := s.start t
  let x := s.coreT core
  match x.slot with
  | some (e, b) =>
    if (s.residents core e).isEmpty ∧ !x.idle ∧ s.tick ≤ b + State.us 200 then done (s.setCoreT core { x with logic := true }) else done s
  | none => done s

/-- The slice is abandoned 200 µs into its slot, with a thread still on the engine (R369): counted, the engine in service, the same
engine next; the slot lasts its 2,000 µs. -/
def execSliceAbandon (t : Nat) (core : Fin 16) (s : State) : Host.Outcome State Fault Refusal :=
  let s := s.start t
  let x := s.coreT core
  match x.slot with
  | some (e, b) =>
    if !x.logic ∧ !x.idle ∧ b + State.us 200 ≤ s.tick ∧ !(s.residents core e).isEmpty then
      let s := (s.setCoreT core { x with idle := true, next := e }).fillCore core
      done (s.count (F.WD_ST_CNT_abandon (core.val / 4)) F.WD_STATUS_sat)
    else done s
  | none => done s

/-- A slot ends 2,000 µs after it began, with the result of its slice (R368, R371). -/
def execSliceEnd (t : Nat) (core : Fin 16) (fails : Bool) (s : State) : Host.Outcome State Fault Refusal :=
  let s := s.start t
  let x := s.coreT core
  match x.slot with
  | some (e, b) =>
    if b + State.us 2000 ≤ s.tick then
      (if x.idle then done (s.endIdle core) else if x.logic then done (s.endSlice core e fails).takeEnded else done s)
    else done s
  | none => done s

/-- A due known-answer test begins (R372); not due or not allowed by a window, nothing happens. -/
def execKatStart (t : Nat) (core : Fin 16) (s : State) : Host.Outcome State Fault Refusal :=
  done ((s.start t).startKat core).takeEnded

/-- A known-answer test ends, with the failing engine if it failed (R373). -/
def execKatEnd (t : Nat) (core : Fin 16) (failed : Option (Fin 16)) (s : State) : Host.Outcome State Fault Refusal :=
  done ((s.start t).endKat core failed).takeEnded

/-- An item's test lapses (R374): ST_LAPSE with its kind, core and engine, counted once per deadline. -/
def execStLapse (t : Nat) (core : Fin 16) (kat : Bool) (engine : Fin 16) (s : State) : Host.Outcome State Fault Refusal :=
  let s := s.start t
  if s.lapseDue core kat engine then
    let d := core.val / 4
    let x := s.coreT core
    let item := if kat then 16 else engine.val
    let s := s.setCoreT core { x with lapsed := x.lapsed ++ [item] }
    let s := s.count (F.WD_ST_CNT_lapse d) F.WD_STATUS_sat
    done (s.raise { src := Src.ST_LAPSE d, inst := 16 * (core.val % 4) + item
                    detail := 256 * bit kat + 16 * (core.val % 4) + (if kat then 0 else engine.val) })
  else done s

end Sys2Proof.Machine
end

