-- ==== Sys2Proof/Machine/Power.lean ====
section
/-! DEFINITION. Reset balls, rails, temperature and voltage (R323, R527 to R539). -/

namespace Sys2Proof.Machine

open Sys2Proof

namespace State

/-- Nothing holds the device in reset any more: the boot chain starts at stage 1 (R482). -/
def released (s : State) : State :=
  if s.holds ≠ 0 then s
  else (s.withSince ([0, 1, 2, 3, 4, 9].foldl (fun t k => Table.put (fun _ => 0) t k s.tick) s.since)).driveOuts

/-- A pulse on a reset ball of so many ns is taken (R534): under 100 ns never, from the required width always, in
between a free value says (log 2). -/
def pulseTaken (s : State) (ns width : Nat) : Bool × State :=
  if ns < 100 then (false, s)
  else if width ≤ ns then (true, s)
  else
    let (b, s) := s.draw 1
    (b = 1, s)

/-- The retained block takes the values of R324 (R323). -/
def clearRetained (s : State) : State :=
  (s.withRegs (s.regs.filter (fun p => p.1 < retBase || retBase + 0x1000 ≤ p.1))).withRetFlag []

/-- What a fall of rail `k` loses: VDD_WRD the warden SRAM, VDDQ_G6 and VPP_G6 the GDDR6 contents (R530, log 26). -/
def railLoses (k a : Nat) : Bool :=
  match region a with
  | .warden => k = 4
  | .gddr _ => k = 7 || k = 8
  | _ => false

/-- Code of the grade's junction maximum, °C + 64 (R536, R539). -/
def tjMax : Nat := if Config.grade = 0 then 189 else 174

/-- Sensor `d` reads outside the junction range (R537). -/
def tjOut (code : Nat) : Bool := Nat.blt tjMax code || Nat.blt code 24

/-- One reading of sensor `d` (R537): last, highest, and the onsets of SYS_THERM for this die. -/
def readTj (s : State) (d code : Nat) : State :=
  let was := tjOut (s.f (F.SYS_TJ_now d)) && s.f (F.SYS_TJ_max d) ≠ 0
  let s := (s.setF (F.SYS_TJ_now d) code).setF (F.SYS_TJ_max d) (max code (s.f (F.SYS_TJ_max d)))
  if tjOut code && !was then s.countUp (F.SYS_TJ_over d) else s

/-- One sample of the five sensors (R536, R537). -/
def sampleTemps (s : State) (codes : List Nat) : State :=
  let s := [0, 1, 2, 3, 4].foldl (fun s d => s.readTj d (codes.getD d 0)) s
  if bitOf s.holds 2 then
    if codes.all (fun c => Nat.ble c (tjMax - 5)) then (s.withHolds (s.holds &&& 3)).released else s
  else
    match [0, 1, 2, 3, 4].find? (fun d => tjOut (codes.getD d 0)) with
    | none => s.endStanding Src.SYS_THERM
    | some d =>
      let s := s.raiseStanding { src := Src.SYS_THERM, inst := d, detail := d }
      if codes.any (fun c => Nat.ble (tjMax + 10) c) then (s.withBoot { s.boot with trip := true }).requestChipReset
      else s

/-- Fused operating voltage of die `d`, mV (R528). -/
def fuseMv (d : Nat) : Nat := Config.fuseMv d % 4096

/-- A write of SYS_AVS_d.set_mv (R528). -/
def writeAvs (s : State) (d mv : Nat) : State :=
  if mv < fuseMv d ∨ mv < 650 ∨ 850 < mv then s.respond .errParam else s.setF (F.SYS_AVS_set_mv d) mv

/-- One step of die `d`'s regulator toward fuse_mv, at most 10 mV, in stage 4 (R528); a die that is
not started stays at its boot voltage. -/
def stepAvs (s : State) (d : Nat) : State :=
  let v := s.f (F.SYS_AVS_set_mv d)
  if s.f F.SYS_BOOT_stage ≠ 4 ∨ s.boot.stopped ∨ s.dieReached d = false then s
  else s.setF (F.SYS_AVS_set_mv d) (if v < fuseMv d then min (v + 10) (fuseMv d) else max (v - 10) (fuseMv d))

end State

/-- PORST_N has been low for `ns` (R534): the whole device is reset and held. -/
def execPorstNAssert (t : Nat) (ns : Nat) (s : State) : Host.Outcome State Fault Refusal :=
  let s := s.start t
  let (taken, s) := s.pulseTaken ns 10000
  if taken then
    let s := s.deviceReset false 0x01
    done (s.withHolds (s.holds ||| 1)).driveOuts
  else done s

/-- WRST_N has been low for `ns` (R534): a warden warm reset. -/
def execWrstN (t : Nat) (ns : Nat) (s : State) : Host.Outcome State Fault Refusal :=
  let s := s.start t
  let (taken, s) := s.pulseTaken ns 1000
  if taken then done (s.warmReset 0x02) else done s

/-- PORST_N is released (R482, R538): the straps are sampled and the boot chain starts. -/
def execPorstNRelease (t : Nat) (pairRole tmode : Bool) (s : State) : Host.Outcome State Fault Refusal :=
  let s := s.start t
  if bitOf s.holds 0 then
    let s := (s.flag F.SYS_STRAP_pair_role pairRole).flag F.SYS_STRAP_tmode tmode
    done (s.withHolds (s.holds &&& 6)).released
  else done s

/-- Rail k stays outside its monitor window for more than 2 µs (R531). -/
def execRailOutOfWindow (t : Nat) (k : Fin 10) (s : State) : Host.Outcome State Fault Refusal :=
  let s := s.start t
  let s := s.setF ⟨A.SYS_PWR_STAT, k, 1⟩ 1
  let s := s.hwSet A.SYS_PWR_STAT (2 ^ (16 + k.val))
  done (s.raiseStanding { src := Src.SYS_VMON, inst := k, detail := k })

/-- Rail k is inside its monitor window again (R531); the standing condition ends with the last rail. -/
def execRailInWindow (t : Nat) (k : Fin 10) (s : State) : Host.Outcome State Fault Refusal :=
  let s := s.start t
  let s := s.setF ⟨A.SYS_PWR_STAT, k, 1⟩ 0
  done (if s.f F.SYS_PWR_STAT_out = 0 then s.endStanding Src.SYS_VMON else s)

/-- Rail k falls below its reset threshold (R531): the device is held in reset, and loses what the rail supplied. -/
def execRailBelowThreshold (t : Nat) (k : Fin 10) (s : State) : Host.Outcome State Fault Refusal :=
  let s := (s.start t).deviceReset false 0x00
  let s := s.withMem (s.mem.filter (fun p => !State.railLoses k p.1))
  let s := s.withLost (s.lost.filter (fun p => !State.railLoses k p.1))
  let s := (s.withHolds (s.holds ||| 2)).withRailsLow (setBits s.railsLow k 1 1)
  done s.driveOuts

/-- Every rail has been in tolerance for 1 ms (R323, R531): after a fall of VDD_WRD the retained block is cleared and
SYS_SVC.cold set. -/
def execResetHoldEnd (t : Nat) (s : State) : Host.Outcome State Fault Refusal :=
  let s := s.start t
  if bitOf s.holds 1 then
    let s := if bitOf s.railsLow 4 then s.clearRetained.setF F.SYS_SVC_cold 1 else s
    done ((s.withHolds (s.holds &&& 5)).withRailsLow 0).released
  else done s

/-- The temperature sensors are read (R536, R537): warden die, then CD0 to CD3, °C + 64. -/
def execTempSample (t : Nat) (w c0 c1 c2 c3 : BitVec 8) (s : State) : Host.Outcome State Fault Refusal :=
  done ((s.start t).sampleTemps [w.toNat, c0.toNat, c1.toNat, c2.toNat, c3.toNat])

/-- The firmware steps a die's regulator (R528). -/
def execAvsStep (t : Nat) (die : Fin 4) (s : State) : Host.Outcome State Fault Refusal := done ((s.start t).stepAvs die)

/-- SYS_AVS_d written (R528, R539). -/
def execSysAvs (t : Nat) (die : Fin 4) (value : Word) (s : State) : Host.Outcome State Fault Refusal :=
  done ((s.start t).writeAvs die (bits value.toNat 4 12))

end Sys2Proof.Machine
end

