-- ==== Sys2Proof/Machine/Bus.lean ====
section
/-! DEFINITION. Registers as bus masters reach them (R5 to R12, R322 to R325), and an access to the address map. -/

namespace Sys2Proof.Machine

open Sys2Proof

/-- A bus error: a response whose code begins with ERR_ (R251). -/
def Resp.isErr : Resp → Bool
  | .ok | .stBusy | .stRetry | .nack => false
  | _ => true

namespace State

/-! ### Masters (R322, R341) -/

/-- JTAG, a warden-mode master (R518); the number it records is the free value `v`, none that names another unit (R341,
log 38). -/
def jtagMaster (v : Nat) : Nat := 0x800 + (if namedMaster (v % 0x800) then 0x7FF else v % 0x800)

/-- The processor is in task mode (R240). -/
def inTask (s : State) (m : Nat) : Bool := (Table.get (fun _ => (0 : DWord)) (s.hart m).csr 0x000).toNat % 2 = 1

/-- The address lies in the retained block (R323). -/
def inRetained (a : Nat) : Bool := Nat.ble retBase a && a < retBase + 0x1000

/-- Master `m` reaches the register space at `a` (R322), as a verdict core, a control processor, a DMA channel, the host or JTAG; a
scan unit as a verdict core in warden mode, or as its die's control processors (R399); no other master does.  A compute-die window is reached only while a route leads from the master to the die (R192).  A control
processor's write of another watchdog's key is answered by that register (R359). -/
def regReach (s : State) (a m : Nat) (write : Bool) : Bool :=
  if !wardenMay m || (isUnit m && !isScan m) then false
  else if 0x1000000000 ≤ a then s.routeTo m ((a - 0x1000000000) / 0x400000000)
  else if inRetained a then (isVerdict m && !s.inTask m) || Nat.ble 0x800 m || (isScan m && scanDie m = none)
  else
    match (if isControl m then some ((m - 0x100) / 4) else scanDie m) with
    | some d => s.dieReached d && (List.range 9).any (fun w => a = A.WD_KEY w && (write || w = 5 + d))
    | none => true

/-! ### The retained block (R323 to R325) -/

/-- A read of the retained word at offset `o`: a flagged duplicated word is mended, a flagged record is marked not valid, and
a flagged word of the firmware area reads as zero with a detection error (R325). -/
def readRet (s : State) (o : Nat) : Option Nat × State :=
  let s := s.mendDup o
  if s.retBad o then
    if 0x100 ≤ o ∧ o < 0x800 then (none, s)
    else if 0x800 ≤ o then
      let e := o / 64 * 64 + 60
      let s := s.setWord (retBase + e) (s.ret e % 2 ^ 24 + s.ret e / 2 ^ 25 * 2 ^ 25)
      (some (s.ret o), s)
    else (some (s.ret o), s)
  else (some (s.ret o), s)

/-- A write of the retained word at offset `o` (R324): the boot attempt counter, both copies, and the firmware area; every
other write is ignored, and a hardware update of the counter in the same tick wins (R7, R325). -/
def writeRet (s : State) (o v : Nat) : State :=
  if o = 0x008 ∨ o = 0x00C then
    (if (Table.get (fun _ => (0, 0)) s.evt (retBase + 0x008)).1 = s.tick + 1 then s else s.setRet2 0x008 0x00C (v % 256))
  else if 0x100 ≤ o ∧ o < 0x800 then s.setRet o v
  else s

/-! ### What a register reads -/

/-- The highest severity among the pending sources (R357). -/
def maxSev (s : State) : Nat :=
  (List.range 384).foldl (fun m n =>
    if bitOf (s.word (A.FC_PEND (n / 32))) (n % 32) then max m (s.f (F.FC_SEV_level n)) else m) 0

/-- VD_STATUS (R43). -/
def vdStatus (s : State) : Nat :=
  let any (p : Nat → Bool) : Nat := bit ((List.range 1024).any p)
  4 * any (fun n => s.on (F.VD_CTX_STATE_sat n)) + 2 * any (fun n => s.f (F.VD_CTX_STATE_state n) == 5)
    + any (fun n => s.f (F.VD_CTX_STATE_state n) == 4)

/-- The value of the register word at `a`, the word `w` of instance `i` of the register whose first instance lies at `b`: the
stored word, and beside it the fields that follow other state. -/
def regValue (s : State) (a b i w : Nat) : Nat :=
  if b = A.FC_STATUS then
    setBits (setBits (setBits (s.word a) 29 1 (bit (s.fc.standing ≠ 0))) 28 1 (bit (s.injLeft ≠ 0))) 8 3 s.maxSev
  else if b = A.VD_STATUS then s.vdStatus
  else if b = A.CT_CVAL then s.ctRead (s.f F.CT_CSEL_die) (s.f F.CT_CSEL_code) / 2 ^ (32 * w) % 2 ^ 32
  else if b = A.CT_REC 0 then
    leVal ((List.range 4).map (fun j => Table.get (fun _ => (0 : Byte)) s.ct.buf (0x8000 * s.f F.CT_WIN_page + 4 * i + j)))
  else if b = A.SYS_STRAP then setBits (s.word a) 2 1 Config.grade.val
  else if b = A.WD_ST_AGE 0 then s.agesNow i (s.word a)
  else if b = A.SYS_VP_STAT 0 then setBits (s.word a) 16 4 (min (s.recentRetries 9 i).length 15)
  else if b = A.SYS_AVS 0 then setBits (s.word a) 20 12 (fuseMv i)
  else if b = A.EV_CTX_KEY 0 then (s.showKey i).word a
  else if b = A.VD_REJ 0 then setBits (s.word a) 8 8 (s.inWindow i)
  else if b = A.CT_STATUS then (if s.ctWrapped then s.word a ||| 2 ^ F.CT_STATUS_wrap.lo else s.word a)
  else if b = A.WD_STAT 0 then setBits (setBits (s.word a) 29 3 (s.watchState i)) 28 1 (bit (s.keyPending i))
  else if b = A.I3C_T_STAT then setBits (s.word a) 0 8 s.ibi
  else s.word a

/-- A read of the register word at `a` of register `r`, with the effect that some reads have (R299, R414, R431, R477). -/
def readReg (s : State) (a : Nat) (r : RegRow) (i w : Nat) : Nat × State :=
  let b := a - r.stride * i - 4 * w
  if b = A.TM_ETS_ID 0 then s.readEts i
  else if b = A.I3C_C_IBI then s.readIbi
  else if b = A.SEC_ASTAT then
    let s := s.settleArchive
    (s.word a, s)
  else
    let (_, _, _, wo) := wordMasks a
    let v := s.regValue a b i w
    (v - (v &&& wo), if b = A.CT_CVAL && !ctDefined (s.f F.CT_CSEL_code) then s.respond .errParam else s)

/-- A read of the register word at `a` by master `m` (R5): a low word latches its high word, and the read of the high word
that follows takes the latched one (log 36). -/
def readWord (s : State) (a m : Nat) : Nat × State :=
  match regAt a with
  | none => (0, s)
  | some (r, i, w) =>
    let key := masterId m * 2 ^ 48 + (a - 4 * w)
    match if r.wide && w = 1 then Table.get (fun _ => none) s.latch key else none with
    | some h => ((h : Word).toNat, (s.withLatch (Table.put (fun _ => none) s.latch key none)))
    | none =>
      let (v, s) := s.readReg a r i w
      if r.wide && w = 0 then
        let (h, _) := s.readReg (a + 4) r i 1
        (v, (s.withLatch (Table.put (fun _ => none) s.latch key (some (BitVec.ofNat 32 h)))))
      else (v, s)

/-! ### What a register write does -/

/-- The bits of the word at `a` whose field a write of `v` sets to a refused value (R235, R312, R403, R404, R419, R437). -/
def refusedBits (s : State) (b i w v : Nat) : Nat :=
  if b = A.CT_CTRL then (if bits v 1 2 = 3 then 6 else 0)
  else if b = A.CT_SEL0 then ([0, 1, 2, 3].map (fun k => if ctDefined (bits v (8 * k) 8) then 0 else 0xFF * 256 ^ k)).sum
  else if b = A.CT_SEL1 then ([0, 1].map (fun k => if ctDefined (bits v (8 * k) 8) then 0 else 0xFF * 256 ^ k)).sum
  else if b = A.CT_TRIG then (if bits v 0 5 = 0 then 0x1F else 0)
  else if b = A.TM_LIMIT then
    (if bits v 24 8 = 0 then 0xFF000000 else 0) + (if bits v 12 12 = 0 then 0xFFF000 else 0) + (if bits v 0 12 = 0 then 0xFFF else 0)
  else if b = A.DMA_CH_CFG 0 then
    (if bits v 16 3 = 7 then 0x70000 else 0)
      + (let r := bits v 0 7; if r ≤ 12 ∨ (16 ≤ r ∧ r ≤ 31) ∨ r = 127 then 0 else 0x7F)
  else if b = A.CRC_SNP_CFG 0 then (if bits v 16 7 < 8 ∨ 64 < bits v 16 7 then 0x7F0000 else 0)
  else if b = A.CRC_SNP_POLY 0 ∨ b = A.CRC_SNP_INIT 0 then
    (if 2 ^ (s.f (F.CRC_SNP_CFG_w i) - 32 * w) ≤ v then 0xFFFFFFFF else 0)
  else if b = A.I3C_C_CFG then (if 4 < bits v 0 4 then 0xF else 0)
  else 0

/-- The bits of a word of FC_SEV that cannot be changed (R339, R406). -/
def fixedBits (b i : Nat) : Nat :=
  if b = A.FC_SEV 0 then sevFixed i else 0

/-- The W1C bits that a write cannot clear: those that hardware sets in this tick (R7), and pending bits of standing sources
(R337). -/
def heldBits (s : State) (a b i : Nat) : Nat :=
  let e := Table.get (fun _ => (0, 0)) s.evt a
  (if e.1 = s.tick + 1 then e.2 else 0)
    ||| (if b = A.FC_PEND 0 then s.fc.standing.toNat / 2 ^ (32 * i) % 2 ^ 32 else 0)

/-- A CRC unit that is not busy takes a write of one of its RW registers: the last write was not refused (R402, R404). -/
def takenByCrc (s : State) (b i : Nat) : State :=
  if 0x20040100 ≤ b ∧ b < 0x20040120 then s.setF (F.CRC_SCAN_STAT_wst i) 0
  else if 0x20040400 ≤ b ∧ b < 0x20040440 then s.setF (F.CRC_SNP_STAT_wst i) 0
  else s

/-- The fields of the word at `a` take the value written, as their access codes say (R6 to R8); refused values leave their
fields, and RWL fields are locked after the commit.  The effects of some new values follow (R417, R420, R425, R503). -/
def plainWrite (s : State) (a : Nat) (r : RegRow) (i w v acc m : Nat) : State :=
  let b := a - r.stride * i - 4 * w
  let (rw, rwl, w1c, _) := wordMasks a
  let bad := s.refusedBits b i w v
  let sets := (rw ||| (if s.committed then 0 else rwl)) &&& (0xFFFFFFFF - bad)
  let sets := sets &&& (0xFFFFFFFF - fixedBits b i)
  let clears := v &&& w1c &&& (0xFFFFFFFF - s.heldBits a b i)
  let old := s.word a
  let was := s.on F.TM_CTRL_servo_en
  let s := if (b = A.WD_CFG 0 ∨ b = A.WD_TIME 0) ∧ !s.committed then s.noteSettings i else s
  let s := s.setWord a ((old &&& (0xFFFFFFFF - sets) &&& (0xFFFFFFFF - clears)) ||| (v &&& sets))
  let s := if b = A.TM_CTRL && !was && s.on F.TM_CTRL_servo_en then s.restartLoss else s
  let s := if a / 0x10000 = 0x200A then s.driveOuts else s
  let s := if rw = 0 then s else s.takenByCrc b i
  let s := if b = A.ETH_CTRL ∨ b = A.ETH_CFG 0 then (s.showLink 0).showLink 1 else s
  let s := if b = A.ETH_PEER 0 && s.word a ≠ old then s.restartPeer i else s
  if s.committed && rwl ≠ 0 then s.busErr .errLocked a acc (masterId m)
  else if bad ≠ 0 then s.respond .errParam
  else s

/-- A free verdict of the crypto block, for a signed command that reaches the device as a register write (log 23). -/
def drawSig (s : State) : Bool × State :=
  let (v, s) := s.draw 1
  (v = 1, s)

/-- Writes with an effect of their own: blocks FC, WD, TM and DMA.  None where the write is a plain one. -/
def actLow (s : State) (b i w v m : Nat) : Option State :=
  if b = A.FC_ACK then some (if bitOf v 0 then s.ackCapture else s)
  else if b = A.FC_CLR then
    let s := if bitOf v 2 then s.setF F.FC_REC_count 0 else s
    let s := if bitOf v 1 then s.setF F.FC_STATUS_irq 0 else s
    some (if bitOf v 0 then s.clearFcCounts else s)
  else if b = A.FC_RAISE then some (s.raiseFw v)
  else if b = A.FC_INJ then some (s.writeInj v)
  else if b = A.WD_KEY 0 then some (s.writeKey i (masterId m) (v % 65536)).takeEnded
  else if b = A.WD_CLR then some (if bitOf v 0 then s.clearWd else s)
  else if b = A.TM_CLR then some (if bitOf v 0 then s.clearTm else s)
  else if b = A.TM_RATE then some (s.writeRate (BitVec.ofNat 32 v))
  else if b = A.TM_STEP then
    some (if w = 0 then s.hold b (BitVec.ofNat 32 v) else s.stepTime (signed 64 (s.heldValue b (BitVec.ofNat 32 v))))
  else if b = A.TM_OFS then
    some (if w = 0 then s.hold b (BitVec.ofNat 32 v) else s.sample (signed 64 (s.heldValue b (BitVec.ofNat 32 v))))
  else if b = A.DMA_CLR then some (if bitOf v 0 then s.clearDma else s)
  else if b = A.DMA_REGEN_REQ then
    some (if w = 0 then s.hold b (BitVec.ofNat 32 v) else s.regenRequest (s.heldValue b (BitVec.ofNat 32 v) % 2 ^ 48))
  else if b = A.DMA_CH_CTRL 0 then
    let s := if bitOf v 1 then s.abortChan i else s
    some (if bitOf v 0 && s.f (F.DMA_CH_CFG_req i) = 127 then s.dmaRequest i else s)
  else if b = A.DMA_CH_NEXT 0 then
    some (if w = 0 then s.hold (A.DMA_CH_NEXT i) (BitVec.ofNat 32 v) else s.writeNext i v)
  else if b = A.DMA_CH_CFG 0 ∧ 55 ≤ i then some s
  else none

/-- Writes with an effect of their own: blocks CRC, FP, EV, CK, VD, CT and SIO. -/
def actMid (s : State) (a b i v : Nat) : Option State :=
  if b = A.CRC_CLR then some (if bitOf v 0 then s.clearCrc else s)
  else if 0x20040100 ≤ b ∧ b < 0x20040120 then
    if s.on (F.CRC_SCAN_STAT_busy i) then some (if (wordMasks a).1 = 0 then s else s.setF (F.CRC_SCAN_STAT_wst i) 1)
    else if b = A.CRC_SCAN_CTRL 0 ∧ bitOf v 31 then some (s.scanGo i v)
    else if b = A.CRC_SCAN_CTRL 0 then some ((s.setF (F.CRC_SCAN_STAT_wst i) 0).setWord a (v &&& 0x603F0000))
    else none
  else if 0x20040400 ≤ b ∧ b < 0x20040440 ∧ s.on (F.CRC_SNP_STAT_busy i) then
    some (if (wordMasks a).1 = 0 then s else s.setF (F.CRC_SNP_STAT_wst i) 1)
  else if b = A.FP_CLR then some (s.clearFp v)
  else if b = A.EV_CLR then some ((s.clearEin v).clearEvCtx v)
  else if b = A.CK_CLR then some (if bitOf v 0 then s.clearCk else s)
  else if b = A.VD_CMD then some (((s.vdWrite v).requeueOf (bits v 0 10)).respond .ok)
  else if b = A.CT_CLR then
    let s := if bitOf v 1 then s.arm else s
    some (if bitOf v 0 then s.clearCt else s)
  else if b = A.CT_TRIG_FIRE then some (if bitOf v 0 then s.fireCt else s)
  else if b = A.SIO_CLR then some (if bitOf v 0 then s.clearSio else s)
  else if b = A.SIO_OUT_CTRL 0 then
    let s := s.setF (F.SIO_OUT_CTRL_on i) (v % 2)
    let s := if bitOf v 1 && !s.on (F.SIO_OUT_STAT_rb i) then s.setF (F.SIO_OUT_STAT_latch i) 0 else s
    some (s.driveOut i)
  else if b = A.SIO_ACC_CMD 0 then
    some (match v % 4 with | 1 => s.accPowerUp i | 2 => s.accPowerDown i | 3 => s.accRelease i | _ => s)
  else none

/-- SEC_PROV_CMD (R459, R480, R481). -/
def provCmd (s : State) (v : Nat) : State :=
  match bits v 28 4 with
  | 1 => s.programFuse (bits v 0 8)
  | 2 => s.provisionId
  | 3 => s.lockFuses
  | 4 =>
    let (x, s) := s.drawSig
    s.returnDevice x
  | 5 => s.returnChallenge
  | _ => s.provSt 0x11

/-- ML_CMD (R454, R456). -/
def mlCmd (s : State) (op : Nat) : State :=
  match op with
  | 1 =>
    if s.ml.handOver.isSome then (s.respond .stBusy).setF F.ML_STATUS_st 0x01
    else if s.mayHandOver then (s.setF F.ML_STATUS_st 0x00).sendHandOver
    else (s.respond .errState).setF F.ML_STATUS_st 0x10
  | 2 =>
    let s := s.setF F.ML_STATUS_st 0x00
    if s.mlUp && s.f F.ML_STATUS_role = 1 then s.sendCopy else s
  | _ => s.respond .errParam

/-- SYS_UPD_CMD (R494). -/
def updOp (s : State) (op : Nat) : State :=
  match op with
  | 1 => s.updBegin
  | 2 =>
    let (x, s) := s.drawSig
    s.updVerify x
  | 3 => s.updActivate
  | 4 => s.updConfirm
  | 5 => s.updAbort
  | _ => s.updSt 0x11

/-- Writes with an effect of their own: blocks ETH, I3C, XSP, ML, SEC and SYS. -/
def actHigh (s : State) (b i w v : Nat) : Option State :=
  if b = A.ETH_CLR then some (if bitOf v 0 then s.clearEth else s)
  else if b = A.I3C_C_CMD then some (s.writeI3cCmd v)
  else if b = A.XSP_CLR then some (if bitOf v 0 then s.clearXsp else s)
  else if b = A.XSP_CMD 0 then
    some (if w = 0 then s.hold (A.XSP_CMD i) (BitVec.ofNat 32 v) else s.xspStart i (bits v 22 2) (bits v 24 8) (bits v 21 1))
  else if b = A.ML_CLR then some (if bitOf v 0 then s.clearMl else s)
  else if b = A.ML_CMD then some (s.mlCmd (v % 16))
  else if b = A.SEC_CLR then
    some (if bitOf v 0 then
      (((s.setF F.SEC_KSTAT_vwrap 0).setF F.SEC_KSTAT_exh 0).setF F.SEC_KSTAT_kerr 0).setF F.SEC_STATUS_sat 0 else s)
  else if b = A.SEC_KCMD then
    some ((match bits v 28 4 with
      | 1 => s.keyEpochCmd (bitOf v 27) (bits v 0 10)
      | 2 => s.verdictEpochCmd
      | _ => s.kSt 0x11).respond .ok)
  else if b = A.SEC_ACMD then
    some (match v % 16 with | 1 => s.rotateArchive | 2 => s.endSweep | _ => s.respond .errParam)
  else if b = A.SEC_AJOB then
    some (if s.sec.job.isSome then s.respond .errState
      else if bitOf v 31 then s.startPage (bitOf v 30) else s.flag F.SEC_AJOB_dir (bitOf v 30))
  else if b = A.SEC_PROV_CMD then some (s.provCmd v)
  else if b = A.SEC_PROV_DATA 0 then some (s.setWord (A.SEC_PROV_DATA i) v)
  else if b = A.SYS_RST_CMD then some (s.rstCmd v)
  else if b = A.SYS_SPS_CMD then
    some (if v % 16 = 1 then (let (x, s) := s.drawSig; s.commitSet x) else s.respond .errParam)
  else if b = A.SYS_UPD_CMD then some (s.updOp (v % 16))
  else if b = A.SYS_LB_CMD then some (s.lbCmd (v % 16))
  else if b = A.SYS_LB_CFG ∧ s.lb.isSome then some (s.respond .stBusy)
  else if b = A.SYS_AVS 0 then some (s.writeAvs i (bits v 4 12))
  else none

/-- Writes with an effect of their own: blocks CX and GS of die `d`. -/
def actDie (s : State) (d a b i w v acc m : Nat) : Option State :=
  if b = A.CX_CLR d then some (if bitOf v 0 then s.clearCx d else s)
  else if b = A.CX_PWR_CAP d then some (s.writeCap d v)
  else if b = A.GS_CLR d then some (if bitOf v 0 then s.clearGs d else s)
  else if b = A.GS_LAUNCH d then
    some (if w = 0 then s.hold b (BitVec.ofNat 32 v)
      else s.writeLaunch d (s.heldValue b (BitVec.ofNat 32 v) % 2 ^ 48 / 64 * 64))
  else if b = A.GS_STOP d then
    some (if w = 0 then s.hold b (BitVec.ofNat 32 v)
      else (s.writeStop d (bits (s.heldValue b (BitVec.ofNat 32 v)) 0 10) v).takeEnded)
  else if b = A.GS_TRIG_FIRE d then some (s.writeFire d (v % 65536))
  else if b = A.GS_TRIG_TMPL d 0 ∧ !s.committed then
    some (if w = 0 then s.hold (A.GS_TRIG_TMPL d i) (BitVec.ofNat 32 v)
      else s.setDword (A.GS_TRIG_TMPL d i) (s.heldValue (A.GS_TRIG_TMPL d i) (BitVec.ofNat 32 v) % 2 ^ 48 / 64 * 64))
  else if b = A.GS_TRIG_TMPL d 0 then some (s.busErr .errLocked a acc (masterId m))
  else none

/-- The effect of its own that a write of `v` to the word at `a` has: word `w` of instance `i` of the register whose first
instance lies at `b`. -/
def actOn (s : State) (a b i w v acc m : Nat) : Option State :=
  if 0x1000000000 ≤ a then s.actDie ((a - 0x1000000000) / 0x400000000) a b i w v acc m
  else if a < 0x20040000 then s.actLow b i w v m
  else if a < 0x200B0000 then s.actMid a b i v
  else s.actHigh b i w v

/-- A write of `v` to the register word at `a` by master `m` (R5 to R8); `acc` is the access type of R341. -/
def writeWord (s : State) (a v acc m : Nat) : State :=
  match regAt a with
  | none => s
  | some (r, i, w) =>
    let b := a - r.stride * i - 4 * w
    match s.actOn a b i w v acc m with
    | some s => s
    | none => s.plainWrite a r i w v acc m

/-! ### An access to the address map -/

/-- A read of the trace buffer through its window finds a word of the record at `a` lost (R378, R380). -/
def traceLost (s : State) (a : Nat) : State :=
  if Nat.ble (A.CT_REC 0) a && Nat.blt a (A.CT_REC 8192) then s.scrubTrace ((0x8000 * s.f F.CT_WIN_page + (a - A.CT_REC 0)) / 128) else s

/-- A read of `n` bytes at `a` by master `m`: registers as words (R5), memory otherwise.  `acc` is the access type of R341. -/
def busRead (s : State) (a n acc m det : Nat) : MemOut × State :=
  if region a = .regs then
    if n ≠ 4 ∨ a % 4 ≠ 0 then (.bad .errAlign a, s.busErr .errAlign a acc m)
    else if !s.regReach a m false then (.bad .errDecode a, s.busErr .errDecode a acc m)
    else if inRetained a then
      match s.readRet (a - retBase) with
      | (some v, s) => (.ok (leBytes 4 v), s)
      | (none, s) => (.bad .errData a, s.respond .errData)
    else
      let (v, s) := ((if 2 ≤ det then s.traceLost a else s).respond .ok).readWord a m
      if s.resp = .ok then (.ok (leBytes 4 v), s) else (.bad s.resp a, s)
  else if isControl m && (region a = .bootRom || region a = .warden) && acc = 3 then (.bad .errDecode a, s.busErr .errDecode a acc m)
  else s.memRead a n acc m det true

/-- A write of bytes at `a` by master `m`; `det` says how the detection code of a word or block fares that it covers only in part. -/
def busWrite (s : State) (a : Nat) (l : List Byte) (acc m det : Nat) : Resp × State :=
  if region a = .regs then
    if l.length ≠ 4 ∨ a % 4 ≠ 0 then (.errAlign, s.busErr .errAlign a acc m)
    else if !s.regReach a m true then (.errDecode, s.busErr .errDecode a acc m)
    else if inRetained a then (.ok, s.writeRet (a - retBase) (leVal l))
    else
      let s := (s.respond .ok).writeWord a (leVal l) acc m
      (s.resp, s.settle.takeEnded)
  else s.memWrite a l acc m det

/-- The response and the data of a read as the master sees them (R11: zero together with an error). -/
def answerRead (x : MemOut × State) (n : Nat) : State :=
  match x with
  | (.ok l, s) => (s.returned [leVal l]).respond .ok
  | (.held, s) => s.returned []
  | (.bad r _, s) => (s.returned [leVal (List.replicate n (0 : Byte))]).respond r

end State

/-- A write by a bus master (R5 to R8, R322, R379). -/
def execRegisterWrite (t : Nat) (master : BitVec 11) (addr : BitVec 48) (form : Form) (value : DWord) (s : State) :
    Host.Outcome State Fault Refusal :=
  let (r, s) := (s.start t).busWrite addr.toNat (leBytes (2 ^ form.size.val) value.toNat) 2 master.toNat form.det
  done (s.respond r)

/-- A read by a bus master (R5, R379): that of a 64-bit register's low word latches its high word. -/
def execLowWordRead (t : Nat) (master : BitVec 11) (addr : BitVec 48) (form : Form) (s : State) :
    Host.Outcome State Fault Refusal :=
  done (State.answerRead ((s.start t).busRead addr.toNat (2 ^ form.size.val) 1 master.toNat form.det) (2 ^ form.size.val))

/-- DBG_ACCESS (R518): an aligned 32-bit access of the address map as a warden-mode master; in FIELD it acts as BYPASS. -/
def execDbgAccess (t : Nat) (write : Bool) (addr : BitVec 48) (value : Word) (s : State) : Host.Outcome State Fault Refusal :=
  let s := (s.start t).setJtag 0x20
  if s.jtag ≠ 0x20 then done s
  else
    let (v, s) := s.draw 11
    let m := State.jtagMaster v
    if addr.toNat % 4 ≠ 0 then done (s.busErr .errAlign addr.toNat (if write then 2 else 1) m)
    else if write then
      let (r, s) := s.busWrite addr.toNat (leBytes 4 value.toNat) 2 m 0
      done (s.respond r)
    else done (State.answerRead (s.busRead addr.toNat 4 1 m 0) 4)

end Sys2Proof.Machine
end

