-- ==== Sys2Proof/Machine/DmaRun.lean ====
section
/-! DEFINITION. The bursts of the DMA engine's general channels, and the end of a scan unit's job (R390 to R395, R399, R401). -/

namespace Sys2Proof.Machine

open Sys2Proof

namespace State

/-! ### Arbitration (R390, R391) -/

/-- Channel `k` has a burst to make: bytes left in its current descriptor and a request where it is paced, or a descriptor
that moves nothing and waited for its snoop unit, and that unit or the means to take it (R389, R390, R402). -/
def burstReady (s : State) (k : Nat) : Bool :=
  let c := s.chan k
  (s.curDesc k).any (fun d => d.bad || d.count = 0 || bits c.cfg 0 7 = 0 || s.f (F.DMA_CH_STAT_pend k) ≠ 0)
    && (c.snoop = 0 || c.snooping || !s.on (F.CRC_SNP_STAT_busy (c.snoop - 1)))

/-- The transfer of channel `k` has been started: a descriptor of it has been fetched (log 61). -/
def begun (s : State) (k : Nat) : Bool := Nat.blt 0 (s.chan k).fetched

/-- The general channel whose transfer owns the engine in run-to-completion mode (R391): the one that runs, one that was started in
shared mode, or the lowest-numbered one that has a transfer and a request. -/
def rtcTurn (s : State) : Option Nat :=
  match s.dma.owner with
  | some k => if s.on (F.DMA_CH_STAT_active k) then some k else none
  | none => none
  |>.orElse (fun _ => (List.range 55).find? (fun k => s.on (F.DMA_CH_STAT_active k) && s.begun k)
    |>.orElse (fun _ => (List.range 55).find? (fun k => s.on (F.DMA_CH_STAT_active k) && (s.pacing k = 0 || s.f (F.DMA_CH_STAT_pend k) ≠ 0))))

/-- The next of the ready channels from number `last` on, round robin. -/
def roundRobin (l : List Nat) (last : Nat) : Option Nat :=
  match l.find? (fun k => last ≤ k) with
  | some k => some k
  | none => l.head?

/-- The general channel whose burst comes next (R391).  Bursts stop while a change of mode waits.  Channels 55 to 63, which come
before these, make their bursts within the commands of regeneration and of the frame path, so none of theirs waits here. -/
def nextBurst (s : State) : Option Nat :=
  let ready := (List.range 55).filter (fun k => s.burstReady k)
  if !s.on F.DMA_CTRL_en || s.rtcWanted != s.on F.DMA_STATUS_rtc_act then none
  else if s.on F.DMA_STATUS_rtc_act then
    s.rtcTurn.filter ready.contains
  else
    match [3, 2, 1, 0].find? (fun p => ready.any (fun k => bits (s.chan k).cfg 24 2 = p)) with
    | some p => roundRobin (ready.filter (fun k => bits (s.chan k).cfg 24 2 = p)) (Table.get (fun _ => 0) s.dma.last p)
    | none => none

/-! ### One burst -/

/-- Aligned 32-bit reads of `n` words, from rising addresses or from one (R392). -/
def readWords (m : Nat) (inc : Bool) : Nat → State → Nat → MemOut × State
  | 0, s, _ => (.ok [], s)
  | n + 1, s, a =>
    match s.busRead a 4 5 m 0 with
    | (.ok l, s) =>
      match readWords m inc n s (if inc then a + 4 else a) with
      | (.ok r, s) => (.ok (l ++ r), s)
      | x => x
    | x => x

/-- Aligned 32-bit writes of the words of `l`: the first refused word's response and address, or success (R392). -/
def writeWords (m : Nat) (inc : Bool) : Nat → State → Nat → List Byte → (Resp × Nat) × State
  | 0, s, a, _ => ((.ok, a), s)
  | n + 1, s, a, l =>
    let (r, s) := s.busWrite a (l.take 4) 6 m 0
    let (q, s) := writeWords m inc n s (if inc then a + 4 else a) (l.drop 4)
    (if r.isErr then (r, a) else q, s)

/-- The bytes of a burst read from the source side. -/
def burstRead (s : State) (k a n det : Nat) (inc : Bool) : MemOut × State :=
  if wordSide a inc then readWords (0x400 + k) inc (n / 4) s a else s.memRead a n 5 (0x400 + k) det true

/-- The byte at which a write of `n` bytes at `a` by master `m` is refused or dropped (R379, R395). -/
def failAt (s : State) (a n m : Nat) : Nat :=
  match s.spanFault a n true m with
  | some (x, _) => x
  | none => a + ((List.range n).find? (fun i => s.partLost a n i)).getD 0

/-- Bytes written to the destination side; whole words on a word side.  `det` as in `memWrite`. -/
def burstWrite (s : State) (k a : Nat) (l : List Byte) (inc : Bool) (det : Nat) : (Resp × Nat) × State :=
  if l.isEmpty then ((.ok, a), s)
  else if wordSide a inc then
    let n := (l.length + 3) / 4
    writeWords (0x400 + k) inc n s a (l ++ List.replicate (4 * n - l.length) 0)
  else
    let (r, u) := s.memWrite a l 6 (0x400 + k) det
    ((r, if r.isErr then (if (s.spanFault a l.length true (0x400 + k)).isSome then s else u).failAt a l.length (0x400 + k) else a), u)

/-- The status that a response's code gives a descriptor; for a refusal that R388 has no code for, a free value (log 2). -/
def statusOf (s : State) (r : Resp) : Nat × State :=
  match dmaStatus r with
  | some st => (st, s)
  | none => if r.isErr then s.draw 8 else (0, s)

/-- A write of channel `k` is issued: its response is outstanding (R393). -/
def issueWrite (s : State) (k index a : Nat) (l : List Byte) (inc : Bool) (det : Nat) : State :=
  if l.isEmpty then s
  else
    let ((r, x), s) := s.burstWrite k a l inc det
    let (st, s) := s.statusOf r
    s.modChan k (fun c => modDesc c index (fun d => { d with waiting := d.waiting ++ [(st, x)] }))

/-- The bytes of a burst that are written; with check and strip the last n bytes of the last descriptor are not (R401). -/
def burstOut (s : State) (c : DmaCh) (d : DmaDesc) (l : List Byte) : List Byte :=
  if c.snooping && c.strip && bitOf d.flags 3 then l.take (d.count - s.snoopN (c.snoop - 1) - d.moved) else l

/-- The snoop unit takes the bytes of a burst (R401): those it covers, and those it compares. -/
def snoopTake (s : State) (c : DmaCh) (out l : List Byte) : State :=
  if c.snooping then
    let u := c.snoop - 1
    let s := s.snoopFeed u out
    s.withDma { s.dma with tail := Table.put (fun _ => []) s.dma.tail u (Table.get (fun _ => []) s.dma.tail u ++ l.drop out.length) }
  else s

/-- The end of the stream (R401): the check bytes are appended, or compared. -/
def snoopLast (s : State) (k : Nat) (d : DmaDesc) : State :=
  let c := s.chan k
  if !c.snooping || !bitOf d.flags 3 then s
  else
    let u := c.snoop - 1
    let check := s.snoopCheck u (s.snoopValue u)
    let inc := bitOf d.flags 1
    if !c.strip then s.issueWrite k d.index (if inc then d.dst + d.count else d.dst) check inc 0
    else if Table.get (fun _ => []) s.dma.tail u = check then s.setF (F.CRC_SNP_STAT_match u) 1
    else
      let s := ((s.setF (F.CRC_SNP_STAT_match u) 0).count (F.CRC_SNP_STAT_mism u) F.CRC_STATUS_sat).badDesc k d.index 6
      s.raise { src := Src.CRC_SNOOP u, inst := u, master := 0x400 + k }

/-- Channel `k` is served: its request is taken, and arbitration remembers it. -/
def served (s : State) (k : Nat) : State :=
  let c := s.chan k
  let s := if bits c.cfg 0 7 = 0 then s else s.setF (F.DMA_CH_STAT_pend k) (s.f (F.DMA_CH_STAT_pend k) - 1)
  (s.withDma { s.dma with
    owner := if s.on F.DMA_STATUS_rtc_act then some k else s.dma.owner
    last := Table.put (fun _ => 0) s.dma.last (bits c.cfg 24 2) (k + 1) })

/-- A descriptor of channel `k` that moves nothing is done at once (R389): one that is bad, or one of count 0, whose transfer may end
with appended check bytes (R401). -/
def moveNothing (s : State) (k : Nat) (d : DmaDesc) : State := (if d.bad then s else s.snoopLast k d).issueDesc k

/-- The read of a burst whose bytes pass through the DMA buffer (R378, R380): where `buf` says that a word is lost there, the burst is
read again from its source, and where that read is flagged too it fails with ERR_DATA. -/
def bufferedRead (s : State) (k a n : Nat) (det : BurstDet) (inc : Bool) : MemOut × State :=
  match s.burstRead k a n det.src inc with
  | (.ok l, s) =>
    if det.buf = 0 then (.ok l, s)
    else
      match s.burstRead k a n 0 inc with
      | (.ok l, s) => (if det.buf = 1 then .ok l else .bad .errData a, s)
      | x => x
  | x => x

/-- One burst of channel `k` is read and written (R391 to R395). -/
def burst (s : State) (k : Nat) (det : BurstDet) : State :=
  let s := (s.takeSnoop k).1
  let c := s.chan k
  match s.curDesc k with
  | none => s
  | some d =>
    if d.bad || d.count = 0 then s.moveNothing k d else
    let n := min (64 * 2 ^ bits c.cfg 16 3) (d.count - d.moved)
    let sinc := bitOf d.flags 0
    let dinc := bitOf d.flags 1
    match s.bufferedRead k (if sinc then d.src + d.moved else d.src) n det sinc with
    | (.held, s) => s
    | (.bad r a, s) =>
      let (st, s) := (s.served k).statusOf r
      (s.accessError k d.index st a 5).issueDesc k
    | (.ok l, s) =>
      let s := s.served k
      let out := s.burstOut c d l
      let s := (s.snoopTake c out l).issueWrite k d.index (if dinc then d.dst + d.moved else d.dst) out dinc det.part
      let s := s.modChan k (fun c => modDesc c d.index (fun x => { x with moved := d.moved + n }))
      let s := s.setF (F.DMA_CH_CNT_count k) (d.count - d.moved - n)
      if d.moved + n = d.count then (s.snoopLast k d).issueDesc k else s

/-! ### Descriptors (R389) -/

/-- The next descriptor of channel `k` is fetched (R389): in run-to-completion mode only by the transfer whose turn it is (R391).  A
transfer that waits for its snoop unit makes nothing of its first descriptor yet (R402). -/
def fetchDesc (s : State) (k det : Nat) : State :=
  let c := s.chan k
  match c.fetch with
  | none => s
  | some a =>
    if c.open_.any (fun d => bitOf d.flags 2) then s
    else if s.on F.DMA_STATUS_rtc_act && s.rtcTurn ≠ some k then s
    else if 65536 ≤ c.fetched || a % 32 ≠ 0 || !inSram a 32 then s.cutTransfer k
    else
      match s.memRead a 32 5 (0x400 + k) det true with
      | (.held, s) => s
      | (.bad _ _, s) => s.cutTransfer k
      | (.ok b, s) =>
        let st := s.descStatus k b
        let d : DmaDesc := {
          addr := a, index := c.fetched, src := leAt b 0 8 % 2 ^ 48, dst := leAt b 8 8 % 2 ^ 48, count := leAt b 16 4,
          flags := leAt b 20 1, next := leAt b 24 8, moved := 0, waiting := [], status := 0, bad := false, issued := false }
        let x := leAt b 21 1
        let s := s.modChan k (fun c => { c with
          fetch := none, fetched := c.fetched + 1, open_ := c.open_ ++ [d]
          snoop := if c.fetched = 0 ∧ st ≠ 7 then x % 16 else c.snoop
          strip := if c.fetched = 0 then bitOf x 4 else c.strip })
        let s := (s.setDword (A.DMA_CH_CUR k) (d.index * 2 ^ 48 + a)).setF (F.DMA_CH_CNT_count k) d.count
        let s := if s.on F.DMA_STATUS_rtc_act then s.withDma { s.dma with owner := some k } else s
        let s := if st = 0 then s else s.badDesc k d.index st
        let (s, free) := s.takeSnoop k
        match s.curDesc k with
        | some d => if free && (d.bad || d.count = 0) then s.moveNothing k d else s
        | none => s

/-! ### Scan units (R399) -/

/-- The entries of a region's CRC list from unit `first`, `n` of them, as scan unit `m` reads them; none where one cannot be read. -/
def listWords (s : State) (r first m : Nat) : Nat → Option (List Nat) × State
  | 0 => (some [], s)
  | n + 1 =>
    match s.ownRead (s.dword (A.DMA_REGEN_LIST r) + 4 * first) 4 m with
    | (some b, s) =>
      let (l, s) := s.listWords r (first + 1) m n
      (l.map (leVal b :: ·), s)
    | (none, s) => (none, s)

/-- The bytes of a range as scan unit `m` reads them (R399): the register space word by word, where every access that is not an
aligned 32-bit one is ERR_ALIGN (R5; log 139). -/
def scanRead (s : State) (a n m det : Nat) : MemOut × State :=
  if region a = .regs then
    if a % 4 = 0 ∧ n % 4 = 0 then readWords m true (n / 4) s a
    else
      let x := if a % 4 = 0 then a + n / 4 * 4 else a
      (.bad .errAlign x, s.busErr .errAlign x 1 m)
  else s.memRead a n 1 m det true

/-- The running job of scan unit `u` ends (R399). -/
def scanEnd (s : State) (u det : Nat) : State :=
  if !s.on (F.CRC_SCAN_STAT_busy u) then s
  else
    let m := 0x4A0 + u
    let len := s.word (A.CRC_SCAN_LEN u)
    if s.on (F.CRC_SCAN_CTRL_mode u) then
      let r := s.f (F.CRC_SCAN_CTRL_entry u)
      let first := s.dword (A.CRC_SCAN_ADDR u) % 65536
      let (a, _) := s.unitSpan r first
      let n := ((List.range len).map (fun i => (s.unitSpan r (first + i)).2)).sum
      match s.memRead a n 1 m det true with
      | (.held, s) => s
      | (.bad _ _, s) => s.endScan u 5
      | (.ok _, s) =>
        match s.listWords r first m len with
        | (none, s) => s.endScan u 5
        | (some words, s) =>
          let bad := (List.range len).filter (fun i =>
            let (b, k) := s.unitSpan r (first + i)
            crc32c (s.bytes b k) ≠ words.getD i 0)
          match bad.map (first + ·) with
          | [] => s.endScan u 0
          | i :: l =>
            let s := (i :: l).foldl (fun s j => (s.queueUnit (r, j)).1) s
            (s.countBy (F.CRC_SCAN_STAT_mism u) F.CRC_STATUS_sat (l.length + 1)).scanMismatch u i
    else
      match s.scanRead (s.dword (A.CRC_SCAN_ADDR u)) len m det with
      | (.held, s) => s
      | (.bad _ _, s) => s.endScan u 5
      | (.ok l, s) => s.endRange u (crc32c l)

end State

/-- A burst is read and written (R391): arbitration picks the channel; `det` says how the detection codes
fare. -/
def execDmaBurst (t : Nat) (det : BurstDet) (s : State) : Host.Outcome State Fault Refusal :=
  let s := s.start t
  match s.nextBurst with
  | some k => done (s.burst k det).takeEnded
  | none => done s

/-- The next descriptor of channel `k` is fetched, when one is due (R389). -/
def execDescriptorFetch (t : Nat) (k : Fin 55) (det : Fin 3) (s : State) : Host.Outcome State Fault Refusal :=
  done ((s.start t).fetchDesc k det)

/-- The running scan job of unit `u` ends (R399). -/
def execCrcScanEnd (t : Nat) (u : Fin 12) (det : Fin 3) (s : State) : Host.Outcome State Fault Refusal :=
  done (((s.start t).scanEnd u det).settle)

end Sys2Proof.Machine
end

