-- ==== Sys2Proof/Machine/BlockReset.lean ====
section
/-! DEFINITION. Block resets (R338, R340) and the GDDR6 temperature report (R189). -/

namespace Sys2Proof.Machine

open Sys2Proof

namespace State

/-- A port receiver is reset: an open camera frame is damaged and ends there (log 39). -/
def resetCin (s : State) (p : Nat) : State := (s.damageCam p).closeCam p

/-- A port receiver is reset: its open evidence frames are damaged and end there (log 39). -/
def resetEin (s : State) (e : Nat) : State :=
  (List.range 16).foldl (fun s v => if (s.evF e v).isSome then (s.damageEv e v).closeEv e v else s) s

/-- A port transmitter is reset: the frame it sends is abandoned (log 39). -/
def resetFwd (s : State) (w : Nat) : State :=
  (List.range 16).foldl (fun s p =>
    let x := s.cinP p
    ((x.closing ++ x.cur.toList).filter (fun f => f.fwd == .sending && cinFwd f.set = w)).foldl (fun s f => s.abandon p f) s) s

/-- A MAC is reset: its queues are emptied (log 39). -/
def resetMac (s : State) (x : Nat) : State :=
  let s := s.setSafetyQ x []
  (s.withEth { s.eth with
    mgmt := Table.put (fun _ => []) s.eth.mgmt x []
    rxMgmt := Table.put (fun _ => []) s.eth.rxMgmt x [] })

/-- A snoop unit in use is reset: the transfer's current descriptor ends with ERR_CRC (R402). -/
def resetSnoop (s : State) (u : Nat) : State :=
  let k := s.f (F.CRC_SNP_STAT_ch u)
  if s.on (F.CRC_SNP_STAT_busy u) && (s.chan k).snooping && (s.chan k).snoop = u + 1 then
    let s := s.endSnoop k false
    match s.curDesc k with
    | some d => (s.badDesc k d.index 6).issueDesc k
    | none => s
  else s

/-- Processor `h`, which stopped with a double fault, restarts (R259, R338). -/
def resetOne (s : State) (h : Nat) : State :=
  if h < 8 then
    let v := h / 2
    if s.f (F.SYS_VP_STAT_state v) = 2 ∨ s.f (F.SYS_VP_STAT_state v) = 3 then ((s.abandonProgram v).restartPair v).checkPairs else s
  else s.setHart h Hart.reset

/-- Every processor whose double fault asked for its restart (R259, R338, R340). -/
def resetCore (s : State) : State :=
  let l := s.fc.doubles
  l.foldl resetOne (s.withFc { s.fc with doubles := [] })

/-- The sources that share the block reset target of source `n` (R338). -/
def sameTarget (n : Nat) : List Nat :=
  if 96 ≤ n ∧ n < 144 then [96 + n % 16, 112 + n % 16, 128 + n % 16]
  else if 285 ≤ n ∧ n < 287 then [n, n + 3]
  else if 288 ≤ n ∧ n < 290 then [n, n - 3]
  else [n]

/-- What the reset of source `n`'s target does (R338). -/
def resetTarget (s : State) (n : Nat) : State :=
  if n = Src.CORE_DOUBLE then s.resetCore
  else if 16 ≤ n ∧ n < 20 then (if s.f (F.SYS_VP_STAT_state (n - 16)) = 3 then (s.restartPair (n - 16)).checkPairs else s)
  else if 96 ≤ n ∧ n < 144 then s.resetCin (n % 16)
  else if 168 ≤ n ∧ n < 176 then s.resetFwd (n - 168)
  else if 180 ≤ n ∧ n < 184 then s.resetEin (n - 180)
  else if 265 ≤ n ∧ n < 277 then (if s.on (F.CRC_SCAN_STAT_busy (n - 265)) then s.endScan (n - 265) 9 else s)
  else if 277 ≤ n ∧ n < 285 then s.resetSnoop (n - 277)
  else if 285 ≤ n ∧ n < 287 then s.resetMac (n - 285)
  else if 288 ≤ n ∧ n < 290 then s.resetMac (n - 288)
  else if n = Src.I3C_ERR then s.portReset
  else if 291 ≤ n ∧ n < 293 then s.setXspRun (n - 291) none
  else if n = Src.ML_LINK then s.mlDown
  else s

/-- A block reset runs for source `n` (R340). -/
def resetPending (s : State) (n : Nat) : Bool := s.fc.blockReset.getLsbD n

end State

/-- The block reset of source `src`'s target completes (R340): requests to the same target have been absorbed by it.  No
reset pending, nothing happens. -/
def execBlockResetDone (t : Nat) (src : Fin 384) (s : State) : Host.Outcome State Fault Refusal :=
  let s := s.start t
  if s.resetPending src then
    let s := (s.resetTarget src).settle.takeEnded
    let mask := (State.sameTarget src).foldl (fun (m : BitVec 384) n => m ||| BitVec.ofNat 384 (2 ^ n)) 0
    done (s.withFc { s.fc with blockReset := s.fc.blockReset &&& ~~~mask })
  else done s

/-- A GDDR6 device of channel `ch` reports a crossing of 85 °C (R189): the refresh rate is doubled above it. -/
def execG6TemperatureReport (t : Nat) (ch : Fin 16) (hot : Bool) (s : State) : Host.Outcome State Fault Refusal :=
  let s := s.start t
  done (s.withG6Hot (Table.put (fun _ => false) s.g6Hot ch hot))

end Sys2Proof.Machine
end

