-- ==== Sys2Proof/Machine/Operands.lean ====
section
/-! DEFINITION. Operand forms of Doraral: processors and their modes, general and predicate registers, control and status
registers, task windows, effective addresses, instruction words and weights (R238 to R244, R250, R257, R258, R262, R274,
R275). -/

namespace Sys2Proof.Machine

open Sys2Proof

namespace State

/-! ### Processors (R238, R240) -/

/-- Core number of a control processor or tile sequencer, by its HARTID. -/
def coreOf (h : Nat) : Nat := if isTile h then (h - 0x200) / 16 else h - 0x100

/-- Die of a control processor or tile sequencer. -/
def dieOf (h : Nat) : Nat := coreOf h / 4

/-- Engine of a tile sequencer, by 16 × core + engine. -/
def seqOf (h : Nat) : Nat := h - 0x200

/-- A control and status register as it is held. -/
def csr (s : State) (h n : Nat) : Nat := (Table.get (fun _ => (0 : DWord)) (s.hart h).csr n).toNat

/-- The state with a control and status register holding `v`. -/
def setCsr (s : State) (h n v : Nat) : State :=
  s.modHart h (fun x => { x with csr := Table.put (fun _ => 0) x.csr n (BitVec.ofNat 64 v) })

/-- The processor is in task mode; a tile sequencer always is (R241). -/
def taskMode (s : State) (h : Nat) : Bool := isTile h || s.inTask h

/-- The processor is in task mode with ben = 1 (R241, R262). -/
def budgeted (s : State) (h : Nat) : Bool := isTile h || (s.inTask h && bitOf (s.csr h 0x000) 2)

/-- The processor exists and is in service: a running pair, a control processor of a die that tests or runs, or the tile
sequencer of an engine with a current thread and a clock that is not held (R197, R224, R239, R498). -/
def inService (s : State) (h : Nat) : Bool :=
  if isVerdict h then s.f (F.SYS_VP_STAT_state (h / 2)) == 2
  else if isControl h then
    let st := s.f (F.SYS_DIE_state (dieOf h))
    st == 3 || st == 4
  else if isTile h then
    (s.engine (coreOf h) (seqOf h % 16)).cur.isSome && Table.get (fun _ => 0) s.gs.hold (coreOf h) == 0
  else false

/-! ### Registers (R239) -/

/-- General register `i`: g0 reads as zero. -/
def g (s : State) (h i : Nat) : DWord := if i = 0 then 0 else Table.get (fun _ => 0) (s.hart h).g i

/-- The state with general register `i` written; a write of g0 is discarded. -/
def setG (s : State) (h i : Nat) (v : DWord) : State :=
  if i = 0 then s else s.modHart h (fun x => { x with g := Table.put (fun _ => 0) x.g i v })

/-- Predicate register `i`: p0 reads as all ones. -/
def p (s : State) (h i : Nat) : DWord := if i = 0 then BitVec.allOnes 64 else Table.get (fun _ => 0) (s.hart h).p i

/-- The state with all 64 bits of predicate register `i` written; a write of p0 is discarded. -/
def setP (s : State) (h i : Nat) (v : DWord) : State :=
  if i = 0 then s else s.modHart h (fun x => { x with p := Table.put (fun _ => 0) x.p i v })

/-- The state with a scalar outcome in every bit of predicate register `i`. -/
def setPBool (s : State) (h i : Nat) (b : Bool) : State := s.setP h i (if b then BitVec.allOnes 64 else 0)

/-- Bit 0 of a predicate register. -/
def pBit (s : State) (h i : Nat) : Bool := (s.p h i).getLsbD 0

/-- pc of a processor. -/
def pc (s : State) (h : Nat) : Nat := (s.hart h).pc.toNat

/-- The state with a processor's pc set. -/
def setPc (s : State) (h v : Nat) : State := s.modHart h (fun x => { x with pc := BitVec.ofNat 48 v })

/-! ### Control and status registers (R240, R241, R257, R274) -/

/-- The time base as a processor reads it: the replica of its die on a compute die (R408). -/
def timeOf (s : State) (h : Nat) : Nat :=
  if isVerdict h then s.time
  else ((((s.timeFull : Int) + Table.get (fun _ => 0) s.tm.replicas (dieOf h)) / 2 ^ 32) % ((2 ^ 64 : Nat) : Int)).toNat

/-- CYCLE: CLK_FAB cycles, four a tick, or CLK_CORE cycles of the core, since the processor's reset. -/
def cycleOf (s : State) (h : Nat) : Nat :=
  if isTile h then (s.coreCycles (coreOf h) + 2 ^ 65 - Table.get (fun _ => 0) s.ct.cycBase (coreOf h)) % 2 ^ 64
  else 4 * s.ticksSince (if isVerdict h then 0 else 1 + dieOf h)

/-- IRQ_PEND (R240, R257, R261). -/
def irqPend (s : State) (h : Nat) : Nat :=
  bit (Nat.ble (s.csr h 0x00A) (s.timeOf h)) + 2 * bit (s.hart h).ext + 4 * bit (s.csr h 0x100 ≠ 0)

/-- The processor implements CSR `n`. -/
def hasCsr (h n : Nat) : Bool :=
  if isTile h then
    n == 0x010 || (Nat.ble 0x040 n && n < 0x045) || (Nat.ble 0x200 n && n < 0x204) || (Nat.ble 0x208 n && n < 0x212)
  else
    n < 0x00E || n == 0x010 || (Nat.ble 0x020 n && n < 0x030) || (Nat.ble 0x040 n && n < 0x045)
      || (isControl h && Nat.ble 0x100 n && n < 0x103)

/-- A task-mode instruction may read CSR `n`. -/
def taskReads (n : Nat) : Bool := n == 0x010 || (Nat.ble 0x040 n && n < 0x045) || n == 0x101 || Nat.ble 0x200 n

/-- A CTL instruction's access to CSR `n` is legal: implemented, and in task mode a read that the table allows. -/
def csrOk (s : State) (h n : Nat) (write : Bool) : Bool :=
  hasCsr h n && (!s.taskMode h || (!write && taskReads n))

/-- The bits of CSR `n` that hardware has set in this tick (R7, R376). -/
def csrHeld (s : State) (h n : Nat) : Nat :=
  let e := Table.get (fun _ => (0, 0)) s.evt (testKey h)
  if n = 0x102 ∧ e.1 = s.tick + 1 then e.2 else 0

/-- What CSR `n` reads. -/
def csrRead (s : State) (h n : Nat) : Nat :=
  match n with
  | 0x009 => s.irqPend h
  | 0x040 => s.cycleOf h % 2 ^ 64
  | 0x041 => (Table.get (fun _ => (0 : DWord)) s.instret h).toNat
  | 0x042 => s.timeOf h
  | 0x043 => h
  | 0x101 => dieOf h + 4 * (coreOf h / 2 % 2) + 8 * (coreOf h % 4)
  | 0x102 => setBits (s.csr h n) 0 5 (s.f (F.CX_CORE_test (coreOf h / 4) (coreOf h % 4)))
  | _ => s.csr h n

/-- The bits of CSR `n` that a warden-mode write changes; RUNCTL.mode changes only through TRET (log 43). -/
def csrMask (n : Nat) : Nat :=
  if n = 0x000 then 0x1E
  else if n = 0x002 then 0xFFFF01FF
  else if n = 0x004 then 0xFFFFFFFFFFFFFE00
  else if n = 0x005 ∨ n = 0x00D then 0xFF
  else if n = 0x008 then 7
  else if n = 0x009 then 0
  else if n = 0x00C then 0xFFFFFFFFFFFFFFC0
  else if n = 0x010 then 0xFFFFFFFF
  else if 0x020 ≤ n ∧ n < 0x030 then (if n % 2 = 0 then 0xFFFFFFFFFFC7 else 0xFFFFFFFFFFC0)
  else if n < 0x00E then 0xFFFFFFFFFFFFFFFF
  else if n = 0x100 then 0xFFFF
  else if n = 0x102 then 0x6000000000000000
  else 0

/-- A write of CSR `n`: the fields that can be written take the value, the others keep theirs (R256), and so does what hardware has
set in this tick (R7). -/
def csrWrite (s : State) (h n v : Nat) : State :=
  let m := csrMask n
  s.setCsr h n (((s.csr h n) &&& (2 ^ 64 - 1 - m)) ||| (v &&& m) ||| (s.csr h n &&& s.csrHeld h n))

/-! ### Reach (R258, R275) -/

/-- Task window `i` covers `n` bytes from `a` with the permission bits `perm`; an empty window covers none. -/
def windowCovers (s : State) (h a n perm i : Nat) : Bool :=
  let b := s.csr h (0x020 + 2 * i)
  let l := s.csr h (0x021 + 2 * i)
  Nat.ble (bits b 6 42 * 64) a && Nat.ble (a + n) (bits l 6 42 * 64) && (bits b 0 3 &&& perm) == perm

/-- The scratch range of a tile thread, from TSCR, covers `n` bytes from `a` (R275). -/
def inScratch (s : State) (h a n : Nat) : Bool :=
  let t := s.csr h 0x211
  Nat.ble (bits t 0 48) a && Nat.ble (a + n) (bits t 0 48 + 64 * bits t 48 16)

/-- The processor may make a data access of `n` bytes at `a`: 1 to read, 2 to write, 3 for an AMO. -/
def mayReach (s : State) (h a n perm : Nat) : Bool :=
  if isTile h then s.inScratch h a n
  else !s.inTask h || ((List.range 8).any (s.windowCovers h a n perm) && s.runReaches h a n perm)

/-- The processor may fetch `n` bytes at `a`; a tile sequencer fetches from its program's image. -/
def mayFetch (s : State) (h a n : Nat) : Bool :=
  isTile h || !s.inTask h || ((List.range 8).any (s.windowCovers h a n 4) && s.runReaches h a n 4)

/-- The effective address of a load or store (R250). -/
def ea (s : State) (h ra : Nat) (imm : BitVec 16) : Nat := (s.g h ra + imm.signExtend 64).toNat

/-! ### Weights (R262) -/

/-- The weight of a load or store of `n` bytes at `a`, or of an AMO; one for an address that maps no region or breaks R250. -/
def memWeight (h a n : Nat) (amo : Bool) : Nat :=
  if isTile h ∨ a % n ≠ 0 ∨ 2 ^ 48 ≤ a then 1
  else match region a with
    | .warden => if amo then 2 else 1
    | .coreMem _ => 16
    | .clusterMem _ => 16
    | .regs => 32
    | .gddr _ => 128
    | _ => 1

end State

/-! ### Instruction words (R242, R244) -/

/-- Format R: major, rd, ra, rb, fn. -/
def wordR (major rd ra rb fn : Nat) : Nat := major * 2 ^ 26 + rd * 2 ^ 21 + ra * 2 ^ 16 + rb * 2 ^ 11 + fn

/-- Format I: major, rd or rs, ra, imm16. -/
def wordI (major rd ra imm : Nat) : Nat := major * 2 ^ 26 + rd * 2 ^ 21 + ra * 2 ^ 16 + imm

/-- Format C: major, bits 25:21, ra, cc, imm12. -/
def wordC (major pd ra cc imm : Nat) : Nat := major * 2 ^ 26 + pd * 2 ^ 21 + ra * 2 ^ 16 + cc * 2 ^ 12 + imm

/-- Format B: major, p, n, off22. -/
def wordB (major p n off : Nat) : Nat := major * 2 ^ 26 + p * 2 ^ 23 + n * 2 ^ 22 + off

/-- Format J: major, rd, off21. -/
def wordJ (major rd off : Nat) : Nat := major * 2 ^ 26 + rd * 2 ^ 21 + off

/-- Format X: major, rd, ra, fn, csr. -/
def wordX (major rd ra fn csr : Nat) : Nat := major * 2 ^ 26 + rd * 2 ^ 21 + ra * 2 ^ 16 + fn * 2 ^ 12 + csr

end Sys2Proof.Machine
end

