-- ==== Sys2Proof/Machine/Flags.lean ====
section
/-! DEFINITION. Condition codes.  Doraral has no flag register: a compare writes a predicate (R247), and every result that
others call a flag is the bit that a condition code picks. -/

namespace Sys2Proof.Machine

open Sys2Proof

/-- The condition `cc` on two integers of `w` bits (R247); none for the codes 10 to 15. -/
def condition {w : Nat} (cc : Nat) (a b : BitVec w) : Option Bool :=
  match cc with
  | 0 => some (a == b)
  | 1 => some (a != b)
  | 2 => some (a.slt b)
  | 3 => some (b.sle a)
  | 4 => some (a.ult b)
  | 5 => some (b.ule a)
  | 6 => some (b.slt a)
  | 7 => some (a.sle b)
  | 8 => some (b.ult a)
  | 9 => some (a.ule b)
  | _ => none

/-- Whether a condition code is defined for integers (R247). -/
def condDefined (cc : Nat) : Bool := cc < 10

end Sys2Proof.Machine
end

