-- ==== Sys2Proof/Machine/Words.lean ====
section
/-! DEFINITION. Which instruction words spell an instruction: the formats, majors, functions, conditions and kinds of Doraral,
with the fields that must be zero (R242 to R248, R253 to R257, R279 to R283, R285, R288, R291, R292). -/

namespace Sys2Proof.Machine

open Sys2Proof

/-- The unused fields of a word are zero: bits `lo` up, `n` of them (R243). -/
def zeroField (w lo n : Nat) : Bool := bits w lo n == 0

/-- OP and OP32 (R245): the functions, and rb of the counts. -/
def opWord (w : Nat) (narrow : Bool) : Bool :=
  let fn := bits w 0 11
  if narrow then [0x000, 0x001, 0x006, 0x007, 0x008, 0x010, 0x018, 0x019, 0x01A, 0x01B].contains fn
  else fn ≤ 0x00C || (0x010 ≤ fn && fn ≤ 0x014) || (0x018 ≤ fn && fn ≤ 0x01B) || (0x040 ≤ fn && fn ≤ 0x047)
    || (0x020 ≤ fn && fn ≤ 0x022 && zeroField w 11 5)

/-- SHI (R246): the kind, the amount. -/
def shiWord (w : Nat) : Bool :=
  let k := bits w 12 4
  zeroField w 6 6 && ([0, 1, 2].contains k || ([4, 5, 6].contains k && zeroField w 5 1))

/-- PRED (R248). -/
def predWord (w : Nat) : Bool :=
  let fn := bits w 0 11
  if fn ≤ 3 then zeroField w 24 2 && zeroField w 19 2 && zeroField w 14 2
  else if fn = 0x010 then zeroField w 24 2 && zeroField w 11 5
  else fn == 0x011 && zeroField w 19 2 && zeroField w 11 5

/-- BARRIER (R254): register fields zero, a class, a scope. -/
def barrierWord (w : Nat) : Bool := zeroField w 16 10 && zeroField w 6 10 && bits w 4 2 != 3 && bits w 0 4 != 0

/-- SYS (R255): a function, and only TRAP with a code in bits 25:16. -/
def sysWord (w : Nat) : Bool :=
  let fn := bits w 0 11
  fn < 7 && zeroField w 11 5 && (fn == 2 || zeroField w 16 10)

/-- CTL (R256): a defined fn, with the register field that it does not use zero. -/
def ctlWord (w : Nat) : Bool :=
  let fn := bits w 12 4
  (fn == 0 && zeroField w 16 5) || ([1, 2, 3].contains fn && zeroField w 21 5) || [9, 10, 11].contains fn

/-- SYSX (R257). -/
def sysxWord (w : Nat) : Bool :=
  let fn := bits w 0 11
  fn == 1 || (fn == 0 && zeroField w 21 5 && zeroField w 11 5)

/-- VI, VF and VC (R281 to R283): the functions, vb of those of one operand, and the format codes. -/
def laneWord (w : Nat) : Bool :=
  let fn := bits w 0 5
  match bits w 26 6 with
  | 0x38 => fn < 0x11 || (fn == 0x11 && zeroField w 8 6)
  | 0x39 => fn < 6 || (fn < 0x0A && zeroField w 8 6)
  | _ => zeroField w 12 2 && [1, 2, 3, 4, 5, 6, 7, 0xA].contains (fn % 16)

/-- VM (R285): the functions, with the fields that they leave zero. -/
def vmWord (w : Nat) : Bool :=
  match bits w 0 5 with
  | 0x00 => bits w 8 3 < 5 && zeroField w 11 3
  | 0x01 => bits w 8 3 < 7 && zeroField w 11 3
  | 0x02 => zeroField w 19 1 && zeroField w 8 6
  | 0x03 => zeroField w 25 1 && zeroField w 5 3
  | 0x04 => zeroField w 19 1 && zeroField w 5 3
  | 0x05 => zeroField w 24 2 && bits w 20 4 < 10
  | 0x06 => zeroField w 24 2 && [0, 1, 2, 3, 6, 7].contains (bits w 20 4)
  | 0x07 => true
  | 0x08 => true
  | 0x09 => zeroField w 8 6 && zeroField w 14 6
  | 0x0A => zeroField w 8 6
  | _ => false

/-- Majors 0x3C and 0x3D (R288, R291). -/
def tileWord (w : Nat) : Bool :=
  let fn := bits w 0 6
  if bits w 26 6 = 0x3C then [0x00, 0x01, 0x02, 0x08, 0x09, 0x0A, 0x0C, 0x0D].contains fn
  else match fn with
    | 0x00 => zeroField w 25 1 && zeroField w 12 4
    | 0x01 => zeroField w 25 1 && zeroField w 12 4
    | 0x02 => zeroField w 25 1 && zeroField w 12 4
    | 0x03 => zeroField w 20 6 && zeroField w 6 6
    | 0x04 => zeroField w 25 1 && zeroField w 12 8 && bits w 6 6 < 2
    | 0x05 => zeroField w 16 4 && zeroField w 6 6
    | 0x06 => zeroField w 16 4 && bits w 6 6 < 2
    | _ => false

/-- The first word of an instruction spells one (R243, R244, R280): every major without an arm, the all-zeros word and the
all-ones word, and the second word of a long form are illegal. -/
def firstWord (w : Nat) : Bool :=
  match bits w 26 6 with
  | 0x01 => opWord w false
  | 0x02 => opWord w true
  | 0x03 => true
  | 0x04 => true
  | 0x05 => true
  | 0x06 => true
  | 0x07 => true
  | 0x08 => shiWord w
  | 0x09 => zeroField w 16 5
  | 0x0A => zeroField w 16 5
  | 0x0B => zeroField w 24 2 && bits w 0 11 < 10
  | 0x0C => zeroField w 24 2 && bits w 12 4 < 10
  | 0x0D => predWord w
  | 0x28 => zeroField w 4 4 && bits w 0 4 < 10
  | 0x2C => barrierWord w
  | 0x30 => sysWord w
  | 0x31 => ctlWord w
  | 0x32 => sysxWord w
  | 0x3B => vmWord w
  | 0x3C => tileWord w
  | 0x3D => tileWord w
  | 0x3E => bits w 0 8 < 2
  | m => (0x10 ≤ m && m ≤ 0x12) || (0x18 ≤ m && m ≤ 0x1E) || (0x20 ≤ m && m ≤ 0x23) || (0x38 ≤ m && m ≤ 0x3A && laneWord w)

/-- The words at pc, little-endian, spell an instruction (R242, R243, R279): the second word of a long form, major 0x3E, has major
0b111111 and zeros in bits 8:0. -/
def spelled (l : List Byte) : Bool :=
  let w := leVal (l.take 4)
  let v := leVal (l.drop 4)
  firstWord w && (l.length ≤ 4 || bits w 26 6 != 0x3E || (bits v 26 6 == 0x3F && zeroField v 0 9))

end Sys2Proof.Machine
end

