-- ==== Sys2Proof/Machine/Trap.lean ====
section
/-! DEFINITION. What every Doraral instruction shares: reads with replay, trap entry, non-maskable trap entry, double faults,
the end of a tile thread, waits, and the order of checks around one instruction (R258 to R268, R295, R296). -/

namespace Sys2Proof.Machine

open Sys2Proof

/-- What an instruction's own effect comes to. -/
inductive Ran where
  /-- It completes, and pc advances. -/
  | next (s : State)
  /-- It completes with a branch. -/
  | goto (s : State) (target : Nat)
  /-- It raises an exception with a TRAP_INFO. -/
  | trap (s : State) (code info : Nat)
  /-- It waits and has not completed. -/
  | hold (s : State)

/-- What a processor's read comes to. -/
inductive ReadOut where
  | ok (l : List Byte)
  /-- A bus error (R251). -/
  | access
  /-- A detection error that the replay did not cure (R267). -/
  | lost
  /-- Held until a unit is regenerated (R386). -/
  | held

namespace State

/-! ### Reads (R251, R267, R386) -/

/-- A replay: counted in REPLAYS and raised (R267). -/
def replayed (s : State) (h a acc : Nat) (inj : Bool) : State :=
  let s := s.setCsr h 0x044 (s.csr h 0x044 + 1)
  s.raise { src := Src.CORE_REPLAY (if isVerdict h then h / 2 else 4 + dieOf h), inst := h, detail := h, addr := a,
            acc := acc, master := h, injected := inj }

/-- A read of memory by a processor is flagged: by its operand, by an injection, or because a word is lost already. -/
def flaggedRead (s : State) (a n det : Nat) : Bool :=
  det ≠ 0 || s.injMeets a n || (List.range n).any (fun i => s.isLost (a + i))

/-- The read is one of registers, or is refused, held or lost whatever its detection code says. -/
def plainRead (s : State) (h a n : Nat) : Bool :=
  region a == .regs || (s.spanFault a n false h).isSome || s.spanWaits a n || s.spanFailed a n

/-- A read of `n` bytes by processor `h` (R251, R267, R379, R386): one replay, sixteen at most in a run with ben = 1. -/
def coreRead (s : State) (h a n acc det : Nat) : ReadOut × State :=
  if s.plainRead h a n then
    match s.busRead a n acc h 0 with
    | (.ok l, s) => (.ok l, s)
    | (.held, s) => (if s.taskMode h then .lost else .held, s)
    | (.bad .errData _, s) => (.lost, if region a == .regs then s.replayed h a acc false else s)
    | (.bad _ _, s) => (.access, s)
  else
    let flagged := s.flaggedRead a n det
    let inj := s.injMeets a n
    if flagged && s.budgeted h && Nat.ble 16 (s.csr h 0x044) then (.lost, (s.injectRead a n).checkSeen a false)
    else
      let s := if flagged then s.replayed h a acc inj else s
      match s.busRead a n acc h det with
      | (.ok l, s) => (.ok l, s)
      | (.held, s) => (if s.taskMode h then .lost else .held, s)
      | (.bad .errData _, s) => (.lost, s.settle)
      | (.bad _ _, s) => (.access, s)

/-! ### Retiring (R249, R262) -/

/-- An instruction retires with its weight: INSTRET counts it, and where it `pays`, as one executed in a run with ben = 1
does, BUDGET loses it. -/
def charge (s : State) (h w : Nat) (pays : Bool) : State :=
  let n := (Table.get (fun _ => (0 : DWord)) s.instret h).toNat + w
  let s' := s.withInstret (Table.put (fun _ => 0) s.instret h (BitVec.ofNat 64 n))
  if pays then s'.setCsr h 0x010 (s.csr h 0x010 - w) else s'

/-- An instruction of weight `w` completes and pc becomes `v`; `pays` says whether the mode it executed in does (R262): a
TRET that enters a run has executed before it. -/
def complete (s : State) (h v w : Nat) (pays : Bool) : State := (s.charge h w pays).setPc h v

/-- The condition that ends an IDLE (R255): an enabled interrupt is pending, or a non-maskable trap has arrived. -/
def idleEnds (s : State) (h : Nat) : Bool := (s.irqPend h &&& s.csr h 0x008) ≠ 0 || (s.hart h).nmi

/-- The state with what a processor does replaced. -/
def setRun (s : State) (h : Nat) (r : HartRun) : State := s.modHart h (fun x => { x with run := r })

/-- A waiting IDLE or EVWAIT completes when its condition holds (R255, R257); an event in the expiry tick wins. -/
def settleWait (s : State) (h : Nat) : State :=
  match (s.hart h).run with
  | .idle => if s.idleEnds h then (s.setRun h .run).complete h (s.pc h + 4) 1 (s.budgeted h) else s
  | .evwait rd mask due =>
    let v := BitVec.ofNat 64 (s.csr h 0x100) &&& mask
    if v ≠ 0 then ((s.setRun h .run).setG h rd v).complete h (s.pc h + 4) 1 (s.budgeted h)
    else if due ≤ s.tick then ((s.setRun h .run).setG h rd 0).complete h (s.pc h + 4) 1 (s.budgeted h)
    else s
  | _ => s

/-! ### Traps (R259, R260, R264) -/

/-- The trap table slot of a code (R259). -/
def trapSlot (code : Nat) : Nat :=
  if 5 ≤ code ∧ code ≤ 7 then 0 else if code = 0x0B then 1 else if code = 0x0C then 2 else if code = 0x0D then 3 else 4

/-- Trap entry (R259): `tpc` is saved, `stores` and `rf` go to TRAP_CODE.  An external interrupt that is taken is no longer
latched (log 49). -/
def trapEntry (s : State) (h code info tpc stores : Nat) (rf : Bool) : State :=
  let rc := s.csr h 0x000
  let s := s.setCsr h 0x005 (rc % 256)
  let s := s.setCsr h 0x000 (rc / 16 % 2 * 16 + 8)
  let s := s.setCsr h 0x001 tpc
  let s := s.setCsr h 0x002 (code + 256 * bit rf + 65536 * min stores 0xFFFF)
  let s := s.setCsr h 0x003 info
  let s := if code = 0x0D ∧ bitOf info 1 then s.modHart h (fun x => { x with ext := false }) else s
  s.setPc h (s.csr h 0x004 + 64 * trapSlot code)

/-- Non-maskable trap entry (R260): an agreement or decoder program that runs is abandoned first. -/
def nmiEntry (s : State) (h : Nat) : State :=
  let s := if isVerdict h && s.vpRuns (h / 2) then (s.vpEnd 0x0E).takeEnded else s
  let rc := s.csr h 0x000
  let s := s.setCsr h 0x00D (rc % 256)
  let s := s.setCsr h 0x00B (s.pc h)
  let s := s.setCsr h 0x000 (rc / 8 % 2 * 8 + 16)
  (s.modHart h (fun x => { x with nmi := false, run := .run })).setPc h (s.csr h 0x00C)

/-- A double fault (R259): the processor stops, CORE_DOUBLE is raised with HARTID, and one retry event is charged (R348). -/
def doubleFault (s : State) (h : Nat) : State :=
  if isVerdict h then
    let v := h / 2
    let s := (s.haltPair v).raise { src := Src.CORE_DOUBLE, inst := h, detail := h, master := h }
    let s := s.retryEvent 9 v
    if s.isFallow 9 v then (((s.setF (F.SYS_VP_STAT_state v) 0).moveRoles v).checkPairs).takeEnded else s.checkPairs.takeEnded
  else
    let s := (s.setRun h .stopped).raise { src := Src.CORE_DOUBLE, inst := h, detail := h, master := h }
    (s.retryEvent 2 (coreOf h)).settle

/-- The cause with which an exception code fails a tile thread's operation (R232, R264, R295). -/
def threadCause (code : Nat) : Nat :=
  match code with
  | 0x0B => 4
  | 0x03 => 6
  | 0x0A => 6
  | 0x12 => 3
  | 0x13 => 2
  | _ => 5

/-- The tile thread that `h` runs ends (R264, R265): normally, or with a code that fails its operation. -/
def endThread (s : State) (h code : Nat) : State :=
  let c := coreOf h
  let e := seqOf h % 16
  match (s.engine c e).cur with
  | none => s
  | some x =>
    match code, s.opOf x with
    | 0x07, _ => (s.clearEngine c e (fun y => y == x)).fillCore c
    | _, none => (s.clearEngine c e (fun y => y == x)).fillCore c
    | _, some o => (s.failOp o (threadCause code)).takeEnded

/-- An exception or interrupt is taken with pc saved as `tpc`: a tile thread ends, an agreement or decoder program ends, a
second fault stops the processor, anything else enters the trap table (R148, R259, R260, R264, R266). -/
def takeTrap (s : State) (h code info tpc stores : Nat) (rf : Bool) : State :=
  let rc := s.csr h 0x000
  if isTile h then s.endThread h code
  else if isVerdict h && s.vpRuns (h / 2) then (s.vpEnd code).takeEnded
  else if code ≠ 0x0D ∧ ((!s.inTask h && bitOf rc 3) || bitOf rc 4) then s.doubleFault h
  else s.trapEntry h code info tpc stores rf

/-- An exception or interrupt arises at the present instruction: every earlier store has its response first, and a failed one
is taken in its place (R252). -/
def exception (s : State) (h code info : Nat) (rf : Bool) : State :=
  match (s.hart h).storeErrs with
  | [] => s.takeTrap h code info (s.pc h) 0 rf
  | a :: l => (s.modHart h (fun x => { x with storeErrs := [], arrived := false })).takeTrap h 0x0C a (s.pc h) l.length false

/-- A task exit or trap: it completes, and TRAP_PC is the next instruction (R255); a store that failed is taken in its place. -/
def exitTrap (s : State) (h code info w : Nat) : State :=
  match (s.hart h).storeErrs with
  | [] => (s.charge h w (s.budgeted h)).takeTrap h code info (s.pc h + 4) 0 false
  | _ => s.exception h code info false

/-! ### Boundaries (R260, R261, R264) -/

/-- A non-maskable trap is taken now. -/
def nmiReady (s : State) (h : Nat) : Bool := (s.hart h).nmi && !bitOf (s.csr h 0x000) 4

/-- The error response of a store has arrived and ERR_STORE is taken now (R252). -/
def storeDue (s : State) (h : Nat) : Bool := (s.hart h).arrived && !(s.hart h).storeErrs.isEmpty

/-- The enabled pending interrupts that are taken now: in warden mode with ie = 1, and in task mode with ben = 0 (R261). -/
def irqNow (s : State) (h : Nat) : Nat :=
  if isTile h then 0
  else
    let rc := s.csr h 0x000
    if (if bitOf rc 0 then !bitOf rc 2 else bitOf rc 1) then s.irqPend h &&& s.csr h 0x008 else 0

/-- The processor stands at an instruction boundary and can take what comes. -/
def atBoundary (s : State) (h : Nat) : Bool := s.inService h && (s.hart h).run == .run

/-! ### One instruction -/

/-- The instruction fetch of `n` bytes (R258, R264, R267); a register block holds no instructions (log 50). -/
def fetch (s : State) (h n det : Nat) : ReadOut × State :=
  let a := s.pc h
  if !s.mayFetch h a n then (.access, s)
  else if region a == .regs then (.access, s.busErr .errDecode a 3 h)
  else s.coreRead h a n 3 det

/-- The `n` bytes at pc are those of the instruction `word`.  The spec gives no contents of the boot ROM: where it reads as zeros, the
command alone says which instruction stands there (log 6). -/
def finds (s : State) (h n word : Nat) : Bool :=
  let v := leVal (s.bytes (s.pc h) n)
  v == word || (region (s.pc h) == .bootRom && v == 0)

/-- Another instruction than `word` stands at pc. -/
def elsewhere (s : State) (h n word : Nat) : Bool := !s.finds h n word && spelled (s.bytes (s.pc h) n)

/-- Exceptions that outrank a register-file detection error (R264). -/
def outranks (code : Nat) : Bool := 1 ≤ code && code ≤ 9

/-- What an instruction's own effect leaves: it completes with its weight, branches, traps or waits.  `rf` is a detection
error of a register file that has a detection code (R268). -/
def finish (s : State) (h len w : Nat) (rf : Bool) (r : Ran) : State :=
  match rf && !isVerdict h, r with
  | true, .trap s' code info =>
    if outranks code then (if code = 6 ∨ code = 7 then s'.exitTrap h code info w else s'.exception h code info false)
    else s.exception h 0x0A 0 true
  | true, .goto _ target =>
    if 2 ^ 48 ≤ target then s.exception h 0x02 (s.pc h) false else s.exception h 0x0A 0 true
  | true, _ => s.exception h 0x0A 0 true
  | false, .next s' => s'.complete h (s.pc h + len) w (s.budgeted h)
  | false, .goto s' target =>
    if 2 ^ 48 ≤ target then s.exception h 0x02 (s.pc h) false else s'.complete h target w (s.budgeted h)
  | false, .trap s' code info => if code = 6 ∨ code = 7 then s'.exitTrap h code info w else s'.exception h code info false
  | false, .hold s' => s'

/-- One instruction of `len` bytes (R262, R264): what its boundary brings, the budget, the fetch, legality, its effect.  `word` is its
encoding, the first word lowest.  Where another instruction stands at pc, this one does not execute (log 6); words that spell none are
illegal (R243). -/
def run1 (s : State) (h len det word : Nat) (rf : Bool) (w : State → Nat) (legal : State → Bool) (body : State → Ran) : State :=
  if !s.atBoundary h || s.elsewhere h len word then s
  else if s.nmiReady h then s.nmiEntry h
  else if s.storeDue h then s.exception h 0x0C 0 false
  else if s.budgeted h && Nat.blt (s.csr h 0x010) (w s) then (s.setCsr h 0x010 0).exception h 0x0B (w s) false
  else if s.irqNow h ≠ 0 then s.exception h 0x0D (s.irqNow h) false
  else
    let found := s.finds h len word
    match s.fetch h len det with
    | (.access, s) => s.exception h 0x02 (s.pc h) false
    | (.lost, s) => s.exception h 0x03 (s.pc h) false
    | (.held, s) => s
    | (.ok l, s) =>
      if !found then s.exception h 0x04 (leVal (l.take 4)) false
      else if legal s then s.finish h len (w s) rf (body s)
      else s.exception h 0x04 (word % 2 ^ 32) false

end State

/-- A Base or System instruction of one word, executed by the processor that `x` names; where that processor is not at an
instruction boundary, the instruction does not execute. -/
def issue (x : Issue) (word : Nat) (w : State → Nat) (legal : State → Bool) (body : State → Ran) (s : State) :
    Host.Outcome State Fault Refusal :=
  let s := (s.start x.t).settleWait x.h
  done (s.run1 x.h 4 x.det word x.rf w legal body)

/-- An instruction of weight 1 that every processor implements. -/
def issueBase (x : Issue) (word : Nat) (legal : Bool) (body : State → Ran) (s : State) : Host.Outcome State Fault Refusal :=
  issue x word (fun _ => 1) (fun _ => legal) body s

/-- The error response of a store arrives: ERR_STORE is taken at the first boundary from now on (R252). -/
def execStoreError (t : Nat) (h : Fin 0x300) (s : State) : Host.Outcome State Fault Refusal :=
  let s := (s.start t).settleWait h
  let s := if (s.hart h).storeErrs = [] then s else s.modHart h (fun x => { x with arrived := true })
  if !s.atBoundary h then done s
  else if s.nmiReady h then done (s.nmiEntry h)
  else if s.storeDue h then done (s.exception h 0x0C 0 false)
  else done s

/-- A pending enabled interrupt is taken (R261); where none is, nothing happens. -/
def execInterruptEntry (t : Nat) (h : Fin 0x300) (s : State) : Host.Outcome State Fault Refusal :=
  let s := (s.start t).settleWait h
  if !s.atBoundary h then done s
  else if s.nmiReady h then done (s.nmiEntry h)
  else if s.storeDue h then done (s.exception h 0x0C 0 false)
  else if s.irqNow h = 0 then done s
  else done (s.exception h 0x0D (s.irqNow h) false)

/-- TIME reaches ALARM (R261): the alarm pends, and an IDLE that waits for it ends. -/
def execAlarmDue (t : Nat) (h : Fin 0x300) (s : State) : Host.Outcome State Fault Refusal :=
  done ((s.start t).settleWait h)

/-- A waiting non-maskable trap is taken at the next boundary (R260); while innmi = 1 it waits for NTRET. -/
def execNmiEntry (t : Nat) (h : Fin 0x300) (s : State) : Host.Outcome State Fault Refusal :=
  let s := (s.start t).settleWait h
  done (if s.atBoundary h && s.nmiReady h then s.nmiEntry h else s)

end Sys2Proof.Machine
end

