-- ==== Sys2Proof/Machine/Branch.lean ====
section
/-! DEFINITION. Branches and jumps (R249). -/

namespace Sys2Proof.Machine

open Sys2Proof

/-- A pc-relative target: pc plus four times a signed offset. -/
def relTarget {w : Nat} (pc : Nat) (off : BitVec w) : Nat := (BitVec.ofNat 64 pc + off.signExtend 64 <<< 2).toNat

/-- BR: branches when bit 0 of p XOR n is 1 (R249). -/
def execBr (x : Issue) (p : Fin 8) (n : Bool) (off : BitVec 22) (s : State) : Host.Outcome State Fault Refusal :=
  issueBase x (wordB 0x10 p (bit n) off.toNat) true
    (fun s => if s.pBit x.h p != n then .goto s (relTarget (s.pc x.h) off) else .next s) s

/-- JAL: rd takes pc + 4 (R249). -/
def execJal (x : Issue) (rd : Fin 32) (off : BitVec 21) (s : State) : Host.Outcome State Fault Refusal :=
  issueBase x (wordJ 0x11 rd off.toNat) true
    (fun s => .goto (s.setG x.h rd (BitVec.ofNat 64 (s.pc x.h + 4))) (relTarget (s.pc x.h) off)) s

/-- JALR: the target is computed from the old ra, and its alignment tested, before rd is written (R249). -/
def execJalr (x : Issue) (rd ra : Fin 32) (imm : BitVec 16) (s : State) : Host.Outcome State Fault Refusal :=
  issueBase x (wordI 0x12 rd ra imm.toNat) true
    (fun s =>
      let t := s.ea x.h ra imm
      if t % 4 ≠ 0 then .trap s 0x01 t else .goto (s.setG x.h rd (BitVec.ofNat 64 (s.pc x.h + 4))) t) s

end Sys2Proof.Machine
end

