-- ==== Sys2Proof/Machine/Integer.lean ====
section
/-! DEFINITION. Integer, compare and predicate instructions (R245 to R248). -/

namespace Sys2Proof.Machine

open Sys2Proof

/-- A 32-bit result in a general register: sign-extended (R245). -/
def sext32 (v : BitVec 32) : DWord := v.signExtend 64

/-- Quotient and remainder (R245): toward zero; a zero divisor gives 0 and the dividend; the most negative value by −1
gives the most positive value and 0. -/
def divide {w : Nat} (sgn : Bool) (a b : BitVec w) : BitVec w × BitVec w :=
  if b = 0 then (0, a)
  else if sgn then (if a = BitVec.intMin w ∧ b = BitVec.allOnes w then (BitVec.intMax w, 0) else (a.sdiv b, a.srem b))
  else (a / b, a % b)

/-- High 64 bits of a product, each operand taken as signed or unsigned (R245). -/
def mulHigh (sa sb : Bool) (a b : DWord) : DWord :=
  let x : Int := if sa then a.toInt else a.toNat
  let y : Int := if sb then b.toInt else b.toNat
  BitVec.ofInt 64 (x * y / 2 ^ 64)

/-- Leading zeros, trailing zeros and set bits of 64 bits (R245). -/
def leadingZeros (a : DWord) : Nat := if a = 0 then 64 else 63 - Nat.log2 a.toNat
def trailingZeros (a : DWord) : Nat := ((List.range 64).find? (fun i => a.getLsbD i)).getD 64
def setCount (a : DWord) : Nat := ((List.range 64).filter (fun i => a.getLsbD i)).length

/-- The operation that fn selects in OP (R245); `sel k` is bit 0 of predicate k. -/
def opResult (fn : Nat) (a b : DWord) (sel : Nat → Bool) : Option DWord :=
  match fn with
  | 0x000 => some (a + b)
  | 0x001 => some (a - b)
  | 0x002 => some (a &&& b)
  | 0x003 => some (a ||| b)
  | 0x004 => some (a ^^^ b)
  | 0x005 => some (a &&& ~~~b)
  | 0x006 => some (a <<< (b.toNat % 64))
  | 0x007 => some (a >>> (b.toNat % 64))
  | 0x008 => some (a.sshiftRight (b.toNat % 64))
  | 0x009 => some (if a.slt b then a else b)
  | 0x00A => some (if a.slt b then b else a)
  | 0x00B => some (if a.ult b then a else b)
  | 0x00C => some (if a.ult b then b else a)
  | 0x010 => some (a * b)
  | 0x011 => some (mulHigh true true a b)
  | 0x012 => some (mulHigh false false a b)
  | 0x013 => some (mulHigh true false a b)
  | 0x014 => some (mulHigh false true a b)
  | 0x018 => some (divide true a b).1
  | 0x019 => some (divide false a b).1
  | 0x01A => some (divide true a b).2
  | 0x01B => some (divide false a b).2
  | 0x020 => some (BitVec.ofNat 64 (leadingZeros a))
  | 0x021 => some (BitVec.ofNat 64 (trailingZeros a))
  | 0x022 => some (BitVec.ofNat 64 (setCount a))
  | fn => if 0x040 ≤ fn ∧ fn < 0x048 then some (if sel (fn - 0x040) then a else b) else none

/-- The operation that fn selects in OP32, on the low 32 bits (R245). -/
def op32Result (fn : Nat) (a b : BitVec 32) : Option (BitVec 32) :=
  match fn with
  | 0x000 => some (a + b)
  | 0x001 => some (a - b)
  | 0x006 => some (a <<< (b.toNat % 32))
  | 0x007 => some (a >>> (b.toNat % 32))
  | 0x008 => some (a.sshiftRight (b.toNat % 32))
  | 0x010 => some (a * b)
  | 0x018 => some (divide true a b).1
  | 0x019 => some (divide false a b).1
  | 0x01A => some (divide true a b).2
  | 0x01B => some (divide false a b).2
  | _ => none

/-- Weight of a register operation: 8 for a division, 1 otherwise (R262); on a tile sequencer always 1. -/
def opWeight (h fn : Nat) : Nat := if !State.isTile h && Nat.ble 0x018 fn && fn < 0x01C then 8 else 1

/-- The shift that SHI's immediate selects (R246). -/
def shiftResult (imm : Nat) (a : DWord) : Option DWord :=
  let n := imm % 64
  let lo : BitVec 32 := a.setWidth 32
  if bits imm 6 6 ≠ 0 then none
  else
    match imm / 4096 with
    | 0 => some (a <<< n)
    | 1 => some (a >>> n)
    | 2 => some (a.sshiftRight n)
    | 4 => if n < 32 then some (sext32 (lo <<< n)) else none
    | 5 => if n < 32 then some (sext32 (lo >>> n)) else none
    | 6 => if n < 32 then some (sext32 (lo.sshiftRight n)) else none
    | _ => none

namespace State

/-- A result written to rd, or an instruction that R243 makes illegal when there is none. -/
def put (s : State) (h rd : Nat) (r : Option DWord) : Ran :=
  match r with
  | some v => .next (s.setG h rd v)
  | none => .trap s 0x04 0

/-- An outcome written to all bits of a predicate. -/
def putP (s : State) (h pd : Nat) (r : Option Bool) : Ran :=
  match r with
  | some b => .next (s.setPBool h pd b)
  | none => .trap s 0x04 0

end State

/-- OP: register operation selected by fn; CLZ, CTZ and POPC leave rb zero (R245). -/
def execOp (x : Issue) (fn : BitVec 11) (rd ra rb : Fin 32) (s : State) : Host.Outcome State Fault Refusal :=
  let f := fn.toNat
  issue x (wordR 0x01 rd ra rb f) (fun _ => opWeight x.h f)
    (fun _ => (opResult f 0 0 (fun _ => true)).isSome && !(Nat.ble 0x020 f && f < 0x023 && rb.val ≠ 0))
    (fun s => s.put x.h rd (opResult f (s.g x.h ra) (s.g x.h rb) (s.pBit x.h))) s

/-- OP32: 32-bit register operation selected by fn, sign-extended (R245). -/
def execOp32 (x : Issue) (fn : BitVec 11) (rd ra rb : Fin 32) (s : State) : Host.Outcome State Fault Refusal :=
  let f := fn.toNat
  issue x (wordR 0x02 rd ra rb f) (fun _ => opWeight x.h f) (fun _ => (op32Result f 0 0).isSome)
    (fun s => s.put x.h rd ((op32Result f ((s.g x.h ra).setWidth 32) ((s.g x.h rb).setWidth 32)).map sext32)) s

/-- ADDI (R246). -/
def execAddi (x : Issue) (rd ra : Fin 32) (imm : BitVec 16) (s : State) : Host.Outcome State Fault Refusal :=
  issueBase x (wordI 0x03 rd ra imm.toNat) true (fun s => .next (s.setG x.h rd (s.g x.h ra + imm.signExtend 64))) s

/-- ADDI32 (R246). -/
def execAddi32 (x : Issue) (rd ra : Fin 32) (imm : BitVec 16) (s : State) : Host.Outcome State Fault Refusal :=
  issueBase x (wordI 0x04 rd ra imm.toNat) true
    (fun s => .next (s.setG x.h rd (sext32 ((s.g x.h ra + imm.signExtend 64).setWidth 32)))) s

/-- ANDI (R246). -/
def execAndi (x : Issue) (rd ra : Fin 32) (imm : BitVec 16) (s : State) : Host.Outcome State Fault Refusal :=
  issueBase x (wordI 0x05 rd ra imm.toNat) true (fun s => .next (s.setG x.h rd (s.g x.h ra &&& imm.setWidth 64))) s

/-- ORI (R246). -/
def execOri (x : Issue) (rd ra : Fin 32) (imm : BitVec 16) (s : State) : Host.Outcome State Fault Refusal :=
  issueBase x (wordI 0x06 rd ra imm.toNat) true (fun s => .next (s.setG x.h rd (s.g x.h ra ||| imm.setWidth 64))) s

/-- XORI (R246). -/
def execXori (x : Issue) (rd ra : Fin 32) (imm : BitVec 16) (s : State) : Host.Outcome State Fault Refusal :=
  issueBase x (wordI 0x07 rd ra imm.toNat) true (fun s => .next (s.setG x.h rd (s.g x.h ra ^^^ imm.setWidth 64))) s

/-- SHI: the immediate shifts (R246). -/
def execShi (x : Issue) (rd ra : Fin 32) (imm : BitVec 16) (s : State) : Host.Outcome State Fault Refusal :=
  issueBase x (wordI 0x08 rd ra imm.toNat) (shiftResult imm.toNat 0).isSome
    (fun s => s.put x.h rd (shiftResult imm.toNat (s.g x.h ra))) s

/-- LIH (R246). -/
def execLih (x : Issue) (rd ra : Fin 32) (imm : BitVec 16) (s : State) : Host.Outcome State Fault Refusal :=
  issueBase x (wordI 0x09 rd ra imm.toNat) (ra.val = 0) (fun s => .next (s.setG x.h rd (imm.signExtend 64 <<< 16))) s

/-- ADDPCH (R246). -/
def execAddpch (x : Issue) (rd ra : Fin 32) (imm : BitVec 16) (s : State) : Host.Outcome State Fault Refusal :=
  issueBase x (wordI 0x0A rd ra imm.toNat) (ra.val = 0)
    (fun s => .next (s.setG x.h rd (BitVec.ofNat 64 (s.pc x.h) + imm.signExtend 64 <<< 16))) s

/-- CMP: registers compared into a predicate (R247). -/
def execCmp (x : Issue) (fn : BitVec 11) (pd ra rb : Fin 32) (s : State) : Host.Outcome State Fault Refusal :=
  issueBase x (wordR 0x0B pd ra rb fn.toNat) (pd.val < 8 && condDefined fn.toNat)
    (fun s => s.putP x.h pd (condition fn.toNat (s.g x.h ra) (s.g x.h rb))) s

/-- CMPI: a register compared with a sign-extended immediate (R247). -/
def execCmpi (x : Issue) (cc : Fin 16) (pd ra : Fin 32) (imm : BitVec 12) (s : State) : Host.Outcome State Fault Refusal :=
  issueBase x (wordC 0x0C pd ra cc imm.toNat) (pd.val < 8 && condDefined cc)
    (fun s => s.putP x.h pd (condition cc (s.g x.h ra) (imm.signExtend 64))) s

/-- The fields of a PRED instruction are as R248 lays them down. -/
def predLegal (fn rd ra rb : Nat) : Bool :=
  match fn with
  | 0x010 => rd < 8 && rb == 0
  | 0x011 => ra < 8 && rb == 0
  | _ => fn < 4 && rd < 8 && ra < 8 && rb < 8

/-- PRED: predicate logic, and transfers of 64 bits between a predicate and a general register (R248). -/
def execPred (x : Issue) (fn : BitVec 11) (rd ra rb : Fin 32) (s : State) : Host.Outcome State Fault Refusal :=
  let h := x.h
  issueBase x (wordR 0x0D rd ra rb fn.toNat) (predLegal fn.toNat rd ra rb)
    (fun s =>
      let a := s.p h ra
      let b := s.p h rb
      match fn.toNat with
      | 0x000 => .next (s.setP h rd (a &&& b))
      | 0x001 => .next (s.setP h rd (a ||| b))
      | 0x002 => .next (s.setP h rd (a ^^^ b))
      | 0x003 => .next (s.setP h rd (a &&& ~~~b))
      | 0x010 => .next (s.setP h rd (s.g h ra))
      | _ => .next (s.setG h rd a)) s

end Sys2Proof.Machine
end

