-- ==== Sys2Proof/Machine/LoadStore.lean ====
section
/-! DEFINITION. Loads, stores, atomics and barriers (R250 to R254, R269, R275). -/

namespace Sys2Proof.Machine

open Sys2Proof

namespace State

/-- The checks of a data access of `n` bytes at `a` before it is made (R250, R258, R275): the code it raises, if any. -/
def accessFault (s : State) (h a n perm : Nat) : Option Nat :=
  if a % n ≠ 0 then some 0x08
  else if 2 ^ 48 ≤ a ∨ !s.mayReach h a n perm then some 0x09
  else none

/-- A load of `n` bytes into rd, sign- or zero-extended (R250, R251, R267). -/
def load (s : State) (h rd a n : Nat) (sgn : Bool) (det : Nat) : Ran :=
  match s.accessFault h a n 1 with
  | some c => .trap s c a
  | none =>
    match s.coreRead h a n 1 det with
    | (.ok l, s) => .next (s.setG h rd (BitVec.ofInt 64 (if sgn then signed (8 * n) (leVal l) else (leVal l : Int))))
    | (.access, s) => .trap s 0x09 a
    | (.lost, s) => .trap s 0x0A a
    | (.held, s) => .hold s

/-- A store of the low `n` bytes of rs: it retires at once, and an error response is kept until it is taken (R250, R252).  `det` says
how the detection code of a word or block fares that it covers only in part (R379). -/
def store (s : State) (h rs a n det : Nat) : Ran :=
  match s.accessFault h a n 2 with
  | some c => .trap s c a
  | none =>
    let (r, s) := s.busWrite a (leBytes n (s.g h rs).toNat) 2 h det
    .next (if r.isErr then s.modHart h (fun x => { x with storeErrs := x.storeErrs ++ [a] }) else s)

end State

/-- The new value that an AMO operation computes from the old one, on `w` bits (R253); none for the codes 10 to 15. -/
def amoValue {w : Nat} (op : Nat) (old b rd : BitVec w) : Option (BitVec w) :=
  match op with
  | 0 => some b
  | 1 => some (old + b)
  | 2 => some (old &&& b)
  | 3 => some (old ||| b)
  | 4 => some (old ^^^ b)
  | 5 => some (if old.slt b then old else b)
  | 6 => some (if old.slt b then b else old)
  | 7 => some (if old.ult b then old else b)
  | 8 => some (if old.ult b then b else old)
  | 9 => some (if old = rd then b else old)
  | _ => none

namespace State

/-- An AMO is permitted at `a`: warden SRAM, Core Memory, Cluster Memory and GDDR6 (R253). -/
def amoPlace (a : Nat) : Bool :=
  match region a with
  | .warden => true
  | .coreMem _ => true
  | .clusterMem _ => true
  | .gddr _ => true
  | _ => false

/-- An AMO (R253): the old value to rd and the new one to memory, as one access; a CAS that differs writes nothing. -/
def amo (s : State) (h op rd rb a n det : Nat) : Ran :=
  match s.accessFault h a n 3 with
  | some c => .trap s c a
  | none =>
    match s.spanFault a n true h with
    | some (y, r) => .trap (s.busErr r y 4 h) 0x09 a
    | none =>
      if !amoPlace a then .trap s 0x09 a
      else
        match s.coreRead h a n 4 det with
        | (.ok l, s) =>
          let w := 8 * n
          let old := BitVec.ofNat w (leVal l)
          let cur := (s.g h rd).setWidth w
          let new := (amoValue op old ((s.g h rb).setWidth w) cur).getD old
          let s := if op = 9 ∧ old ≠ cur then s else (s.memWrite a (leBytes n new.toNat) 4 h 0).2
          .next (s.setG h rd (old.signExtend 64))
        | (.access, s) => .trap s 0x09 a
        | (.lost, s) => .trap s 0x0A a
        | (.held, s) => .hold s

end State

/-- A load instruction of major opcode `major` (R250, R262). -/
def issueLoad (x : Issue) (major : Nat) (rd ra : Fin 32) (imm : BitVec 16) (n : Nat) (sgn : Bool) (det : Fin 3) (s : State) :
    Host.Outcome State Fault Refusal :=
  issue x (wordI major rd ra imm.toNat) (fun s => State.memWeight x.h (s.ea x.h ra imm) n false) (fun _ => true)
    (fun s => s.load x.h rd (s.ea x.h ra imm) n sgn det) s

/-- A store instruction of major opcode `major` (R250, R262). -/
def issueStore (x : Issue) (major : Nat) (rs ra : Fin 32) (imm : BitVec 16) (n : Nat) (s : State) :
    Host.Outcome State Fault Refusal :=
  issue x (wordI major rs ra imm.toNat) (fun s => State.memWeight x.h (s.ea x.h ra imm) n false) (fun _ => true)
    (fun s => s.store x.h rs (s.ea x.h ra imm) n x.part) s

/-- LB (R250). -/
def execLb (x : Issue) (rd ra : Fin 32) (imm : BitVec 16) (det : Fin 3) (s : State) : Host.Outcome State Fault Refusal :=
  issueLoad x 0x18 rd ra imm 1 true det s

/-- LBU (R250). -/
def execLbu (x : Issue) (rd ra : Fin 32) (imm : BitVec 16) (det : Fin 3) (s : State) : Host.Outcome State Fault Refusal :=
  issueLoad x 0x19 rd ra imm 1 false det s

/-- LH (R250). -/
def execLh (x : Issue) (rd ra : Fin 32) (imm : BitVec 16) (det : Fin 3) (s : State) : Host.Outcome State Fault Refusal :=
  issueLoad x 0x1A rd ra imm 2 true det s

/-- LHU (R250). -/
def execLhu (x : Issue) (rd ra : Fin 32) (imm : BitVec 16) (det : Fin 3) (s : State) : Host.Outcome State Fault Refusal :=
  issueLoad x 0x1B rd ra imm 2 false det s

/-- LW (R250). -/
def execLw (x : Issue) (rd ra : Fin 32) (imm : BitVec 16) (det : Fin 3) (s : State) : Host.Outcome State Fault Refusal :=
  issueLoad x 0x1C rd ra imm 4 true det s

/-- LWU (R250). -/
def execLwu (x : Issue) (rd ra : Fin 32) (imm : BitVec 16) (det : Fin 3) (s : State) : Host.Outcome State Fault Refusal :=
  issueLoad x 0x1D rd ra imm 4 false det s

/-- LD (R250). -/
def execLd (x : Issue) (rd ra : Fin 32) (imm : BitVec 16) (det : Fin 3) (s : State) : Host.Outcome State Fault Refusal :=
  issueLoad x 0x1E rd ra imm 8 true det s

/-- SB (R250). -/
def execSb (x : Issue) (rs ra : Fin 32) (imm : BitVec 16) (s : State) : Host.Outcome State Fault Refusal :=
  issueStore x 0x20 rs ra imm 1 s

/-- SH (R250). -/
def execSh (x : Issue) (rs ra : Fin 32) (imm : BitVec 16) (s : State) : Host.Outcome State Fault Refusal :=
  issueStore x 0x21 rs ra imm 2 s

/-- SW (R250). -/
def execSw (x : Issue) (rs ra : Fin 32) (imm : BitVec 16) (s : State) : Host.Outcome State Fault Refusal :=
  issueStore x 0x22 rs ra imm 4 s

/-- SD (R250). -/
def execSd (x : Issue) (rs ra : Fin 32) (imm : BitVec 16) (s : State) : Host.Outcome State Fault Refusal :=
  issueStore x 0x23 rs ra imm 8 s

/-- AMO (R253, R262). -/
def execAmo (x : Issue) (fn : BitVec 11) (rd ra rb : Fin 32) (det : Fin 3) (s : State) : Host.Outcome State Fault Refusal :=
  let f := fn.toNat
  let n := if bitOf f 8 then 8 else 4
  issue x (wordR 0x28 rd ra rb f) (fun s => State.memWeight x.h (s.g x.h ra).toNat n true)
    (fun _ => bits f 4 4 == 0 && f % 16 < 10)
    (fun s => s.amo x.h (f % 16) rd rb (s.g x.h ra).toNat n det) s

/-- The weight of a barrier by its immediate (R262); on a tile sequencer always 1. -/
def barrierWeight (h imm : Nat) : Nat :=
  if State.isTile h then 1
  else
    match bits imm 4 2 with
    | 0 => 4 + 64 * bits imm 3 1
    | 1 => 32 + 64 * bits imm 3 1
    | 2 => 128 + 64 * bits imm 3 1
    | _ => 1

/-- BARRIER (R252, R254): in a model that runs each processor's accesses in order, only the store responses that a barrier at
device scope waits for are left of it. -/
def execBarrier (x : Issue) (rd ra : Fin 32) (imm : BitVec 16) (s : State) : Host.Outcome State Fault Refusal :=
  let m := imm.toNat
  issue x (wordI 0x2C rd ra m) (fun _ => barrierWeight x.h m)
    (fun _ => rd.val == 0 && ra.val == 0 && m < 64 && m / 16 < 3 && m % 16 ≠ 0)
    (fun s => if m / 16 = 2 ∧ bits m 1 2 ≠ 0 ∧ (s.hart x.h).storeErrs ≠ [] then .trap s 0x0C 0 else .next s) s

end Sys2Proof.Machine
end

