-- ==== Sys2Proof/Machine/Mailbox.lean ====
section
/-! DEFINITION. The host mailbox, host sessions, attestation and the return of fallow items to service (R326 to R331, R354,
R427, R463 to R468, R493). -/

namespace Sys2Proof.Machine

open Sys2Proof

namespace State

/-! ### Requests and responses (R326, R327, R427) -/

/-- The mailbox changed by `u`. -/
def modMbx (s : State) (u : Mailbox → Mailbox) : State := s.withMbx (u s.mbx)

/-- A response frame (R326). -/
def mbxFrame (code tag status retry : Nat) (payload : List Byte) : List Byte :=
  let b := beBytes 1 code ++ beBytes 1 tag ++ beBytes 1 status ++ beBytes 1 0 ++ beBytes 2 payload.length ++ beBytes 2 retry ++ payload
  b ++ beBytes 4 (crc32c b)

/-- A response goes back on the transport of its request: on I3CT it becomes readable and the in-band interrupt is raised, on
Ethernet it is a management datagram of kind 2 (R327, R427, R430). -/
def mbxAnswer (s : State) (q : MbxReq) (status retry : Nat) (payload : List Byte) : State :=
  let f := mbxFrame q.code q.tag status retry payload
  if q.via = 0 then (s.modMbx (fun m => { m with response := f })).withIbi (s.ibi ||| 1)
  else s.sendMgmt (q.via - 1) 2 q.mtag 0 f

/-- The request in execution is answered; after a reset that it caused there is none. -/
def mbxFinish (s : State) (status : Nat) (payload : List Byte) : State :=
  match s.mbx.cur with
  | none => s
  | some q => ((s.modMbx (fun m => { m with cur := none })).setF F.SYS_MBX_STAT_busy 0).mbxAnswer q status 0 payload

/-- A running pair holds role 0 (R327). -/
def role0Runs (s : State) : Bool :=
  match s.rolePair 0 with
  | some v => s.f (F.SYS_VP_STAT_state v) = 2
  | none => false

/-! ### Sessions (R467, R468) -/

/-- The session replaced, and SYS_MBX_STAT.session. -/
def setSession (s : State) (x : Option Session) : State :=
  (s.withSec { s.sec with session := x }).flag F.SYS_MBX_STAT_session x.isSome

/-- The tick in which the session's idle time ends; none without a timeout. -/
def idleDue (s : State) : Option Nat :=
  match s.sec.session with
  | some x => if s.f F.SEC_SESS_idle_s = 0 then none else some (x.last + ms (1000 * s.f F.SEC_SESS_idle_s))
  | none => none

/-- A session whose idle time ended before this tick is closed. -/
def idleClose (s : State) : State :=
  match s.idleDue with
  | some d => if d < s.tick then s.setSession none else s
  | none => s

/-- The command changes device state (R328). -/
def isControlCmd (code : Nat) : Bool := [0x04, 0x05, 0x07, 0x09, 0x0B, 0x0C].contains code

/-- The device ID (R462). -/
def deviceId (s : State) : List Byte := Config.sha256 (Config.identityKey (s.fuse 10))

/-- The ticks of failed opens that still count (R467). -/
def recentFails (s : State) : List Nat := s.sec.failed.filter (fun t => s.tick - t ≤ ms 60000)

/-- SESSION op 0x01 (R467). -/
def sessionChallenge (s : State) : State :=
  if s.drbgStopped then s.mbxFinish 0x10 []
  else
    let (l, s) := s.drbg 32
    (s.withSec { s.sec with challenge := some (l, s.tick) }).mbxFinish 0x00 l

/-- SESSION op 0x02 (R467); in MANUF it opens without authentication (R458). -/
def sessionOpen (s : State) (answer : List Byte) : State :=
  match s.mbx.cur with
  | none => s
  | some q =>
    if s.tick < s.sec.lockUntil then
      ((s.modMbx (fun m => { m with cur := none })).setF F.SYS_MBX_STAT_busy 0).mbxAnswer q 0x03
        ((s.sec.lockUntil - s.tick + 249999) / 250000) []
    else
      let good := s.life = 0x00 || match s.sec.challenge with
        | some (c, t) => Nat.ble s.tick (t + ms 1000) && answer == Config.hmac (s.secret 14) (c ++ s.deviceId ++ [2])
        | none => false
      let s := s.withSec { s.sec with challenge := none }
      if good then (s.setSession (some ⟨q.via, s.tick⟩)).mbxFinish 0x00 [1]
      else
        let l := s.recentFails ++ [s.tick]
        let lock := if 3 ≤ l.length then s.tick + ms 60000 else s.sec.lockUntil
        let s := s.withSec { s.sec with failed := if 3 ≤ l.length then [] else l, lockUntil := lock }
        (s.raise { src := Src.SEC_AUTH }).mbxFinish 0x13 []

/-! ### Registers and memory (R329, R330) -/


/-- The words of READ_REG in ascending order, the mailbox as their master (R330, R341, log 41): its answer, ERR_BUS with the index of
the word that a bus error stopped at, or, where a word is held for a regeneration, a command that stays in execution (R386). -/
def readWordsUp : Nat → State → Nat → Nat → List Byte → State
  | 0, s, _, _, acc => s.mbxFinish 0x00 acc
  | n + 1, s, a, i, acc =>
    match s.busRead a 4 1 hostMaster 0 with
    | (.ok l, s) => readWordsUp n s (a + 4) (i + 1) (acc ++ l.reverse)
    | (.held, s) => s.modMbx (fun m => { m with held := some (n + 1, a, i, acc) })
    | (.bad _ _, s) => s.mbxFinish 0x14 (beBytes 1 i)

/-- A READ_REG that was held goes on (R386). -/
def resumeRead (s : State) : State :=
  match s.mbx.held with
  | some (n, a, i, acc) => readWordsUp n (s.modMbx (fun m => { m with held := none })) a i acc
  | none => s

/-- Addresses that WRITE_REG reaches in sentinel service (R329). -/
def sentinelWrites (a : Nat) : Bool :=
  (Nat.ble 0x10000000 a && Nat.blt a 0x11000000)
    || [A.FC_INJ, A.SYS_SPS_ADDR, A.SYS_SPS_ADDR + 4, A.SYS_SPS_CMD, A.SYS_LB_CFG, A.SYS_LB_CMD].contains a

/-- WRITE_REG's words in ascending order (R329, R330): the status, and the index of the word that stopped it. -/
def writeWordsUp : List Nat → State → Nat → Nat → (Nat × Nat) × State
  | [], s, _, i => ((0x00, i), s)
  | v :: r, s, a, i =>
    if s.f F.SYS_SVC_level = 2 && !sentinelWrites a then ((0x10, i), s)
    else
      let (x, t) := s.busWrite a (leBytes 4 v) 2 hostMaster 0
      if x.isErr then ((0x14, i), t) else writeWordsUp r t (a + 4) (i + 1)

/-- An address range that READ_REG and WRITE_REG take (R330). -/
def wordRange (a n : Nat) : Bool := a % 4 = 0 && Nat.ble 1 n && Nat.ble n 60 && Nat.ble (a + 4 * n) (2 ^ 48)

/-- READ_REG (R328, R330). -/
def readRegs (s : State) (a n : Nat) : State :=
  if !wordRange a n then s.mbxFinish 0x11 []
  else readWordsUp n s a 0 []

/-- WRITE_REG (R328 to R330). -/
def writeRegs (s : State) (a : Nat) (l : List Nat) : State :=
  if !wordRange a l.length then s.mbxFinish 0x11 []
  else
    let ((st, i), s) := writeWordsUp l s a 0
    s.takeEnded.mbxFinish st (beBytes 1 i)

/-- READ_RETAINED (R325, R328). -/
def readRetained (s : State) (o n : Nat) : State :=
  if n = 0 ∨ 240 < n ∨ 4096 < o + n then s.mbxFinish 0x11 []
  else
    let first := o / 4
    let (l, s) := (List.range ((o + n + 3) / 4 - first)).foldl (fun ((l, s) : List Byte × State) i =>
      let (v, s) := s.readRet (4 * (first + i))
      (l ++ leBytes 4 (v.getD 0), s)) ([], s)
    s.mbxFinish 0x00 ((l.drop (o % 4)).take n)

/-- CLEAR_RETAINED (R324, R328). -/
def clearRetFields (s : State) (mask : Nat) : State :=
  let s := if bitOf mask 0 then ([0x010, 0x014, 0x020, 0x024, 0x028, 0x02C, 0x030, 0x034, 0x038, 0x03C] : List Nat).foldl
      (fun s o => s.setRet o 0) s else s
  let s := if bitOf mask 1 then
      (List.range 512).foldl (fun s i => s.setRet (0x800 + 4 * i) 0) (s.setRet 0x048 0) else s
  if bitOf mask 2 then s.setRet2 0x040 0x044 0 else s

/-! ### Return to service (R354) -/

/-- The number of items of a kind (R354). -/
def kindItems : Nat → Nat
  | 1 => 256
  | 2 | 3 | 4 => 16
  | 5 | 9 => 4
  | 6 => 8
  | 7 => 2
  | 8 => 48
  | _ => 0

/-- An engine returns (R351, R354): it waits for a logic-test slice, and its core no longer counts as fallow. -/
def returnEngine (s : State) (num : Nat) : State :=
  let c := num / 16
  let e := num % 16
  let s := s.setFallow 1 num false
  let s := if s.fc.fallow.contains (2, c) then s else s.setFallow 2 c false
  let x := s.coreT c
  s.setCoreT c { x with out := if x.out.contains e then x.out else x.out ++ [e], next := e }

/-- A core returns (R354): no thread is issued to it until its known-answer tests pass. -/
def returnCore (s : State) (c : Nat) : State :=
  let s := (s.setFallow 2 c false).barCore c true
  s.setCoreT c { s.coreT c with katRepeat := true }

/-- A verdict pair returns (R319, R354): it is tested, and takes no role until the next warden reset. -/
def returnPair (s : State) (v : Nat) : State :=
  let s := (s.setFallow 9 v false).restartPair v
  s.setPairX v { s.pairX v with barred := true }

/-- An item becomes usable again, or waits for its test or its reset (R354): a camera port has accepted no frame since (R55), an
evidence port's silence timer starts (R108). -/
def useAgain (s : State) (kind num : Nat) : State :=
  let wait (s : State) : State := (s.withFc { s.fc with returning := s.fc.returning.filter (· ≠ (kind, num)) ++ [(kind, num)] })
  match kind with
  | 1 => (wait s).returnEngine num
  | 2 => (wait s).returnCore num
  | 3 => s
  | 4 =>
    let s := s.setFallow 4 num false
    s.modCin num (fun x => { x with fresh := true, discard := false })
  | 5 => (s.setFallow 5 num false).restartSilence num
  | 7 => ((wait s).setFallow 7 num false).showLink num
  | 8 => (wait s).withFc { (wait s).fc with training := Table.put (fun _ => 0) s.fc.training num (s.tick + ms 1) }
  | 9 => s.returnPair num
  | _ => s.setFallow kind num false

/-- RETURN_TO_SERVICE (R354, R516): the status and the payload. -/
def returnItem (s : State) (kind num : Nat) : State :=
  if kindItems kind ≤ num then s.mbxFinish 0x11 []
  else if !s.isFallow kind num || (kind = 2 && !s.fc.fallow.contains (2, num) && s.f (F.CX_CORE_eng_fallow (num / 4) (num % 4)) = 0xFFFF)
      || (s.lb.isSome && s.lbItem = some (kind, num)) then s.mbxFinish 0x10 []
  else
    let s := s.withFc { s.fc with history := Table.put (fun _ => []) s.fc.history (itemKey kind num) [] }
    let s := (((s.unlist kind num).useAgain kind num).afterFallow).settle
    s.mbxFinish 0x00 [if kind = 3 then 1 else 0]

/-! ### Attestation (R463 to R466) -/

/-- A measurement entry of the report (R465); a fallow die reads 0. -/
def measEntry (s : State) (j : Nat) : List Byte :=
  let (slot, st, ver, dig) := Table.get (fun _ => (0, 0, 0, [])) s.sec.meas j
  if Nat.ble 2 j && Nat.ble j 5 && s.dieFallow (j - 2) then beBytes 1 j ++ List.replicate 39 0
  else beBytes 1 j ++ beBytes 1 slot ++ beBytes 1 st ++ beBytes 1 0 ++ beBytes 4 ver ++ (dig ++ List.replicate 32 0).take 32

/-- The 512 bytes of a report's body (R464). -/
def reportBody (s : State) (nonce : List Byte) : List Byte :=
  beBytes 4 0x5A574154 ++ beBytes 2 1 ++ beBytes 2 512 ++ nonce ++ (s.deviceId ++ List.replicate 32 0).take 32 ++ beBytes 8 s.time
    ++ beBytes 1 (leVal (s.fuse 0)) ++ beBytes 1 (leVal (s.fuse 7)) ++ beBytes 1 s.minver ++ beBytes 1 (s.f F.SYS_SVC_level)
    ++ beBytes 1 (s.f F.SYS_SVC_cause) ++ beBytes 1 (s.f F.SYS_BOOT_slot) ++ beBytes 1 (s.f F.SYS_SPS_STAT_conf) ++ beBytes 1 0
    ++ beBytes 4 (s.word A.SYS_SPS_CHK) ++ beBytes 4 0 ++ (List.range 9).flatMap (fun j => s.measEntry j) ++ List.replicate 56 0

/-- The part of the held report from `offset` (R463). -/
def reportPart (s : State) (l : List Byte) (offset : Nat) : State :=
  s.mbxFinish 0x00 (beBytes 4 l.length ++ (l.drop offset).take 240)

/-- ATTEST (R463, R466): a part of the held report, or a new snapshot that is being signed from now on. -/
def attest (s : State) (nonce : List Byte) (offset : Nat) : State :=
  if offset % 240 ≠ 0 ∨ 17600 ≤ offset then s.mbxFinish 0x11 []
  else
    match s.sec.report.filter (fun r => r.1 = nonce) with
    | some (_, l) => s.reportPart l offset
    | none =>
      if offset ≠ 0 then s.mbxFinish 0x11 []
      else s.withSec { s.sec with signing := some (nonce, s.reportBody nonce) }

/-- The signature is ready: the report is held and its first part answered (R463). -/
def reportReady (s : State) : State :=
  match s.sec.signing with
  | none => s
  | some (nonce, body) =>
    let sig := Config.identitySign (s.fuse 10) body
    let l := body ++ (List.range 17088).map (fun i => sig.getD i 0)
    (s.withSec { s.sec with signing := none, report := some (nonce, l) }).reportPart l 0

/-! ### The commands (R328) -/

/-- CONFIRM_SPS (R493). -/
def confirmSps (s : State) (v : Nat) : State :=
  if !s.committed || v ≠ s.word A.SYS_SPS_CHK then s.mbxFinish 0x11 []
  else (((s.setWord A.SYS_SPS_CONF v).recordsPut).showConf).mbxFinish 0x00 [1]

/-- FALLOW_LIST (R328): up to 60 entries from a start index, each kind, reserved and number (log 40). -/
def fallowList (s : State) (start : Nat) : State :=
  s.mbxFinish 0x00 (((s.fc.fallow.drop start).take 60).flatMap (fun e => beBytes 1 e.1 ++ beBytes 1 0 ++ beBytes 2 e.2))

/-- STATUS (R328): SYS_VP_STAT_0 to 3, SYS_VP_ROLE, SYS_SVC, FC_STATUS. -/
def statusWords (s : State) : List Byte :=
  ([0, 1, 2, 3].flatMap (fun v => beBytes 4 (s.regValue (A.SYS_VP_STAT v) (A.SYS_VP_STAT 0) v 0))) ++ beBytes 4 (s.word A.SYS_VP_ROLE)
    ++ beBytes 4 (s.word A.SYS_SVC) ++ beBytes 4 (s.regValue A.FC_STATUS A.FC_STATUS 0 0)

/-- RESET (R328, R331): answered first; the reset waits for the response to leave on the transport of the request. -/
def resetRequest (s : State) (target : Nat) : State :=
  if 5 < target then s.mbxFinish 0x11 []
  else
    match s.mbx.cur with
    | some q => (s.modMbx (fun m => { m with resetHeld := some (target, q.via, mbxFrame q.code q.tag 0x00 0 []) })).mbxFinish 0x00 []
    | none => s

/-- SESSION (R467). -/
def sessionCmd (s : State) (p : List Byte) : State :=
  match p with
  | [1] => s.sessionChallenge
  | [3] => (s.setSession none).mbxFinish 0x00 [0]
  | 2 :: r => if r.length = 32 then s.sessionOpen r else s.mbxFinish 0x11 []
  | _ => s.mbxFinish 0x11 []

/-- The command of a request that has been admitted (R328): its payload has the command's length, or it is answered with
ERR_PARAM (log 40). -/
def mbxRun (s : State) (code : Nat) (p : List Byte) : State :=
  let n := p.length
  let bad := s.mbxFinish 0x11 []
  match code with
  | 0x01 => if n = 0 then s.mbxFinish 0x00 (beBytes 4 (s.word A.SYS_SVC)) else bad
  | 0x02 => if n = 0 then s.mbxFinish 0x00 s.statusWords else bad
  | 0x03 => if n = 9 then s.readRegs (beVal (p.take 8)) (beVal (p.drop 8)) else bad
  | 0x04 =>
    if 12 ≤ n ∧ n % 4 = 0 then
      s.writeRegs (beVal (p.take 8)) ((List.range ((n - 8) / 4)).map (fun i => beVal ((p.drop (8 + 4 * i)).take 4)))
    else bad
  | 0x05 =>
    if n = 4 then
      let s := (((s.vdWrite (beVal p)).requeueOf (bits (beVal p) 0 10)).respond .ok).takeEnded
      s.mbxFinish 0x00 (beBytes 4 (s.word A.VD_CMD_STATUS))
    else bad
  | 0x06 => if n = 3 then s.readRetained (beVal (p.take 2)) (beVal (p.drop 2)) else bad
  | 0x07 => if n = 1 then (s.clearRetFields (beVal p)).mbxFinish 0x00 [] else bad
  | 0x08 => if n = 36 then s.attest (p.take 32) (beVal (p.drop 32)) else bad
  | 0x09 => if n = 4 then s.confirmSps (beVal p) else bad
  | 0x0A => if n = 2 then s.fallowList (beVal p) else bad
  | 0x0B => if n = 3 then s.returnItem (beVal (p.take 1)) (beVal (p.drop 1)) else bad
  | 0x0C => if n = 1 then s.resetRequest (beVal p) else bad
  | 0x0D => s.sessionCmd p
  | _ => bad

/-- A request whose frame is sound is admitted and executed (R327, R328, R467, R468): not while another is in execution, not a
control command without the session of its transport, and in sentinel service not the commands it does not serve. -/
def mbxAdmit (s : State) (q : MbxReq) (p : List Byte) : State :=
  let s := s.lapseTraining.idleClose
  if s.mbx.cur.isSome then s.mbxAnswer q 0x01 0 []
  else if 0x0D < q.code ∨ q.code = 0 then s.mbxAnswer q 0x11 0 []
  else if isControlCmd q.code && s.sec.session.all (fun x => x.via ≠ q.via) then s.mbxAnswer q 0x13 0 []
  else if s.f F.SYS_SVC_level = 2 && [0x05, 0x09, 0x0B].contains q.code then s.mbxAnswer q 0x10 0 []
  else
    let s := if isControlCmd q.code then s.setSession (s.sec.session.map (fun x => { x with last := s.tick })) else s
    let s := (s.modMbx (fun m => { m with cur := some q })).setF F.SYS_MBX_STAT_busy 1
    s.mbxRun q.code p

/-- A request is received (R327): counted, the last response no longer readable, and answered with ST_RETRY while no running
pair holds role 0. -/
def mbxTake (s : State) (q : MbxReq) (k : State → State) : State :=
  let s := s.countUp F.SYS_MBX_STAT_req
  let s := if q.via = 0 then s.modMbx (fun m => { m with response := [] }) else s
  if s.role0Runs then k s else s.mbxAnswer q 0x03 10 []

/-- A transport delivers the request `frame` (R427, R430): I3CT while the target takes it, Ethernet where it is the oldest datagram of
the MAC's buffer.  Its management tag, for Ethernet, and the state after it. -/
def mbxArrive (s : State) (via : Nat) (frame : List Byte) : Option (Nat × State) :=
  if via = 0 then (if s.i3cTakes s.i3c.hdr then some (0, s) else none)
  else s.takeMgmt (via - 1) (fun b => beAt b 1 1 = 1 && (b.drop 8).take frame.length = frame)

/-- A request frame (R326): code, tag, length, payload, CRC-32C. -/
def requestFrame (code tag : Nat) (payload : List Byte) : List Byte :=
  let b := beBytes 1 code ++ beBytes 1 tag ++ beBytes 2 payload.length ++ payload
  b ++ beBytes 4 (crc32c b)

/-- A request frame as it arrives (R326, R327, R430): CRC, then length, then the command. -/
def mbxRequest (s : State) (via : Nat) (frame : List Byte) : State :=
  match s.mbxArrive via frame with
  | none => if via = 0 then s.respond .nack else s
  | some (mtag, s) =>
  let l := frame.take 256
  let n := l.length
  let q : MbxReq := ⟨via, mtag, beAt l 0 1, beAt l 1 1⟩
  s.mbxTake q (fun s =>
    if n < 8 then s.mbxAnswer q 0x11 0 []
    else if crc32c (l.take (n - 4)) ≠ beAt l (n - 4) 4 then (s.countUp F.SYS_MBX_STAT_crc).mbxAnswer q 0x12 0 []
    else if 248 < beAt l 2 2 ∨ n ≠ 8 + beAt l 2 2 then s.mbxAnswer q 0x11 0 []
    else s.mbxAdmit q ((l.drop 4).take (n - 8)))

/-- A sound request of one command. -/
def mbxSend (s : State) (via code tag : Nat) (p : List Byte) : State :=
  match s.mbxArrive via (requestFrame code tag p) with
  | none => if via = 0 then s.respond .nack else s
  | some (mtag, s) =>
    let q : MbxReq := ⟨via, mtag, code, tag⟩
    s.mbxTake q (fun s => s.mbxAdmit q p)

end State

/-- A request frame arrives on I3CT (`via` 0), ETHA (1) or ETHB (2) (R326, R327): a frame from Ethernet is the oldest that the
MAC buffers, `frame` its mailbox bytes; nothing where the oldest datagram is another. -/
def execMailboxRequest (t : Nat) (via : Fin 3) (frame : List Byte) (s : State) : Host.Outcome State Fault Refusal :=
  done ((s.start t).mbxRequest via frame)

/-- PING (R328). -/
def execPing (t : Nat) (via : Fin 3) (tag : Byte) (s : State) : Host.Outcome State Fault Refusal :=
  done ((s.start t).mbxSend via 0x01 tag.toNat [])

/-- STATUS (R328). -/
def execStatus (t : Nat) (via : Fin 3) (tag : Byte) (s : State) : Host.Outcome State Fault Refusal :=
  done ((s.start t).mbxSend via 0x02 tag.toNat [])

/-- READ_REG (R330). -/
def execReadReg (t : Nat) (via : Fin 3) (tag : Byte) (addr : DWord) (count : Byte) (s : State) : Host.Outcome State Fault Refusal :=
  done ((s.start t).mbxSend via 0x03 tag.toNat (beBytes 8 addr.toNat ++ [count]))

/-- WRITE_REG (R329, R330). -/
def execWriteReg (t : Nat) (via : Fin 3) (tag : Byte) (addr : DWord) (words : List Word) (s : State) :
    Host.Outcome State Fault Refusal :=
  done ((s.start t).mbxSend via 0x04 tag.toNat (beBytes 8 addr.toNat ++ words.flatMap (fun w => beBytes 4 w.toNat)))

/-- VD_COMMAND (R40, R328). -/
def execVdCommand (t : Nat) (via : Fin 3) (tag : Byte) (value : Word) (s : State) : Host.Outcome State Fault Refusal :=
  done ((s.start t).mbxSend via 0x05 tag.toNat (beBytes 4 value.toNat))

/-- READ_RETAINED (R328). -/
def execReadRetained (t : Nat) (via : Fin 3) (tag : Byte) (offset : BitVec 16) (len : Byte) (s : State) :
    Host.Outcome State Fault Refusal :=
  done ((s.start t).mbxSend via 0x06 tag.toNat (beBytes 2 offset.toNat ++ [len]))

/-- CLEAR_RETAINED (R328). -/
def execClearRetained (t : Nat) (via : Fin 3) (tag : Byte) (mask : Byte) (s : State) : Host.Outcome State Fault Refusal :=
  done ((s.start t).mbxSend via 0x07 tag.toNat [mask])

/-- ATTEST (R463). -/
def execAttest (t : Nat) (via : Fin 3) (tag : Byte) (nonce : BitVec 256) (offset : Word) (s : State) :
    Host.Outcome State Fault Refusal :=
  done ((s.start t).mbxSend via 0x08 tag.toNat (beBytes 32 nonce.toNat ++ beBytes 4 offset.toNat))

/-- The signed report of a snapshot is ready (R463); none is being signed, nothing happens. -/
def execAttestReportReady (t : Nat) (s : State) : Host.Outcome State Fault Refusal := done (s.start t).reportReady

/-- CONFIRM_SPS (R493). -/
def execConfirmSps (t : Nat) (via : Fin 3) (tag : Byte) (value : Word) (s : State) : Host.Outcome State Fault Refusal :=
  done ((s.start t).mbxSend via 0x09 tag.toNat (beBytes 4 value.toNat))

/-- FALLOW_LIST (R328). -/
def execFallowList (t : Nat) (via : Fin 3) (tag : Byte) (start : BitVec 16) (s : State) : Host.Outcome State Fault Refusal :=
  done ((s.start t).mbxSend via 0x0A tag.toNat (beBytes 2 start.toNat))

/-- RETURN_TO_SERVICE (R354). -/
def execReturnToService (t : Nat) (via : Fin 3) (tag : Byte) (kind : Byte) (num : BitVec 16) (s : State) :
    Host.Outcome State Fault Refusal :=
  done ((s.start t).mbxSend via 0x0B tag.toNat (kind :: beBytes 2 num.toNat))

/-- RESET (R331). -/
def execReset (t : Nat) (via : Fin 3) (tag : Byte) (target : Byte) (s : State) : Host.Outcome State Fault Refusal :=
  done ((s.start t).mbxSend via 0x0C tag.toNat [target])

/-- The reset that a RESET command asked for begins (R331, R324); not due, nothing happens. -/
def execResetDelayExpire (t : Nat) (s : State) : Host.Outcome State Fault Refusal :=
  let s := s.start t
  match s.mbx.resetDue with
  | some (target, d) =>
    if d ≤ s.tick then done ((s.modMbx (fun m => { m with resetDue := none })).targetReset target 0x21).takeEnded else done s
  | none => done s

/-- SESSION op 0x01 (R467). -/
def execSessionChallenge (t : Nat) (via : Fin 3) (tag : Byte) (s : State) : Host.Outcome State Fault Refusal :=
  done ((s.start t).mbxSend via 0x0D tag.toNat [1])

/-- SESSION op 0x02 (R467): `answer` is the 32-byte response. -/
def execSessionOpen (t : Nat) (via : Fin 3) (tag : Byte) (answer : BitVec 256) (s : State) : Host.Outcome State Fault Refusal :=
  done ((s.start t).mbxSend via 0x0D tag.toNat (2 :: beBytes 32 answer.toNat))

/-- SESSION op 0x03 (R467). -/
def execSessionClose (t : Nat) (via : Fin 3) (tag : Byte) (s : State) : Host.Outcome State Fault Refusal :=
  done ((s.start t).mbxSend via 0x0D tag.toNat [3])

/-- The idle time of the session ends (R468); not due, nothing happens. -/
def execSessionIdleTimeout (t : Nat) (s : State) : Host.Outcome State Fault Refusal :=
  let s := s.start t
  match s.idleDue with
  | some d => if d ≤ s.tick then done (s.setSession none) else done s
  | none => done s

/-- A lane group that has been returned passes link training (R354): it is in use again; past its 1 ms the training has failed. -/
def execLinkTrainingDone (t : Nat) (num : Fin 48) (s : State) : Host.Outcome State Fault Refusal :=
  let s := (s.start t).lapseTraining
  if s.fc.returning.contains (8, num.val) then
    let s := s.withFc { s.fc with
      returning := s.fc.returning.filter (· ≠ (8, num.val))
      training := Table.put (fun _ => 0) s.fc.training num 0 }
    done ((s.setFallow 8 num false).afterFallow)
  else done s

/-- The unit being regenerated ends; `bad1` and `bad2` say that an attempt's bytes differ on their way (R385).  Reads that were held
for it complete (R386). -/
def execRegenUnitDone (t : Nat) (bad1 bad2 : Bool) (s : State) : Host.Outcome State Fault Refusal :=
  let s := s.start t
  done (if s.on F.DMA_REGEN_STAT_busy then (s.endRegen bad1 bad2).resumeRead else s)

end Sys2Proof.Machine
end

