-- ==== Sys2Proof/Machine/Sysinsn.lean ====
section
/-! DEFINITION. System, control and event instructions (R240, R241, R255 to R261). -/

namespace Sys2Proof.Machine

open Sys2Proof

/-- A SYS instruction with function `fn` whose register fields are zero, legal where `ok` holds (R255). -/
def issueSys (x : Issue) (fn : Nat) (rd ra rb : Fin 32) (ok : State → Bool) (body : State → Ran) (s : State) :
    Host.Outcome State Fault Refusal :=
  issue x (wordR 0x30 rd ra rb fn) (fun _ => 1) (fun s => rd.val == 0 && ra.val == 0 && rb.val == 0 && ok s) body s

/-- NOP (R255). -/
def execNop (x : Issue) (rd ra rb : Fin 32) (s : State) : Host.Outcome State Fault Refusal :=
  issueSys x 0x000 rd ra rb (fun _ => true) (fun s => .next s) s

/-- TEXIT ends the task run, or a tile thread normally (R145, R252, R255, R266). -/
def execTexit (x : Issue) (rd ra rb : Fin 32) (s : State) : Host.Outcome State Fault Refusal :=
  issueSys x 0x001 rd ra rb (fun s => s.taskMode x.h) (fun s => .trap s 0x07 0) s

/-- TRAP hands control back from task mode with the code in bits 25:16 (R255). -/
def execTrap (x : Issue) (rd ra rb : Fin 32) (s : State) : Host.Outcome State Fault Refusal :=
  issue x (wordR 0x30 rd ra rb 0x002) (fun _ => 1)
    (fun s => rb.val == 0 && !State.isTile x.h && s.taskMode x.h) (fun s => .trap s 0x06 (rd.val * 32 + ra.val)) s

/-- A warden-mode instruction of a processor that has trap state (R238, R255). -/
def State.wardenMode (s : State) (h : Nat) : Bool := !State.isTile h && !s.taskMode h

/-- TRET: mode, ie and ben from TRAP_PRIOR, intrap cleared, pc from TRAP_PC (R259); REPLAYS clears when a run with ben = 1 is
entered (R267). -/
def execTret (x : Issue) (rd ra rb : Fin 32) (s : State) : Host.Outcome State Fault Refusal :=
  let h := x.h
  issueSys x 0x003 rd ra rb (fun s => s.wardenMode h)
    (fun s =>
      let t := s.csr h 0x001
      if t % 4 ≠ 0 then .trap s 0x01 t
      else
        let pr := s.csr h 0x005 % 8
        let s := s.setCsr h 0x000 (s.csr h 0x000 / 16 % 2 * 16 + pr)
        .goto (if pr % 2 = 1 ∧ bitOf pr 2 then s.setCsr h 0x044 0 else s) t) s

/-- IDLE waits until an enabled interrupt is pending or a non-maskable trap arrives (R255). -/
def execIdle (x : Issue) (rd ra rb : Fin 32) (s : State) : Host.Outcome State Fault Refusal :=
  issueSys x 0x004 rd ra rb (fun s => s.wardenMode x.h)
    (fun s => if s.idleEnds x.h then .next s else .hold (s.setRun x.h .idle)) s

/-- BREAK raises ST_BREAK (R255). -/
def execBrk (x : Issue) (rd ra rb : Fin 32) (s : State) : Host.Outcome State Fault Refusal :=
  issueSys x 0x005 rd ra rb (fun _ => !State.isTile x.h) (fun s => .trap s 0x05 0) s

/-- NTRET: RUNCTL bits 4:0 from NMI_PRIOR, pc from NMI_PC (R260). -/
def execNtret (x : Issue) (rd ra rb : Fin 32) (s : State) : Host.Outcome State Fault Refusal :=
  let h := x.h
  issueSys x 0x006 rd ra rb (fun s => s.wardenMode h)
    (fun s =>
      let t := s.csr h 0x00B
      if t % 4 ≠ 0 then .trap s 0x01 t else .goto (s.setCsr h 0x000 (s.csr h 0x00D % 32)) t) s

/-! ### Control registers (R256) -/

/-- A CTL write: `new old operand` is the value the CSR takes; with `old` the old value goes to rd, otherwise rd is zero. -/
def issueCtl (x : Issue) (fn : Nat) (rd ra : Fin 32) (csr : BitVec 12) (xch : Bool) (new : Nat → Nat → Nat) (s : State) :
    Host.Outcome State Fault Refusal :=
  let h := x.h
  let n := csr.toNat
  issue x (wordX 0x31 rd ra fn n) (fun _ => 1) (fun s => s.csrOk h n true && (xch || rd.val == 0))
    (fun s =>
      let old := s.csrRead h n
      let s' := s.csrWrite h n (new old (s.g h ra).toNat)
      .next (if xch then s'.setG h rd (BitVec.ofNat 64 old) else s')) s

/-- CTL.RD: rd takes the CSR; ra is zero (R240, R256). -/
def execCtlRd (x : Issue) (rd ra : Fin 32) (csr : BitVec 12) (s : State) : Host.Outcome State Fault Refusal :=
  issue x (wordX 0x31 rd ra 0 csr.toNat) (fun _ => 1) (fun s => ra.val == 0 && s.csrOk x.h csr.toNat false)
    (fun s => .next (s.setG x.h rd (BitVec.ofNat 64 (s.csrRead x.h csr.toNat)))) s

/-- CTL.WR (R256). -/
def execCtlWr (x : Issue) (rd ra : Fin 32) (csr : BitVec 12) (s : State) : Host.Outcome State Fault Refusal :=
  issueCtl x 1 rd ra csr false (fun _ b => b) s

/-- CTL.SET (R256). -/
def execCtlSet (x : Issue) (rd ra : Fin 32) (csr : BitVec 12) (s : State) : Host.Outcome State Fault Refusal :=
  issueCtl x 2 rd ra csr false (fun a b => a ||| b) s

/-- CTL.CLR (R256). -/
def execCtlClr (x : Issue) (rd ra : Fin 32) (csr : BitVec 12) (s : State) : Host.Outcome State Fault Refusal :=
  issueCtl x 3 rd ra csr false (fun a b => a - (a &&& b)) s

/-- CTL.XWR (R256). -/
def execCtlXwr (x : Issue) (rd ra : Fin 32) (csr : BitVec 12) (s : State) : Host.Outcome State Fault Refusal :=
  issueCtl x 9 rd ra csr true (fun _ b => b) s

/-- CTL.XSET (R256). -/
def execCtlXset (x : Issue) (rd ra : Fin 32) (csr : BitVec 12) (s : State) : Host.Outcome State Fault Refusal :=
  issueCtl x 10 rd ra csr true (fun a b => a ||| b) s

/-- CTL.XCLR (R256). -/
def execCtlXclr (x : Issue) (rd ra : Fin 32) (csr : BitVec 12) (s : State) : Host.Outcome State Fault Refusal :=
  issueCtl x 11 rd ra csr true (fun a b => a - (a &&& b)) s

/-! ### Events (R257) -/

/-- The event bits `m` are set in SYS_EVT of the control processors of die `d` whose local core `sel` names. -/
def State.sendEvents (s : State) (d m sel : Nat) : State :=
  [0, 1, 2, 3].foldl (fun s k =>
    let h := 0x100 + 4 * d + k
    if bitOf sel k then s.setCsr h 0x100 (s.csr h 0x100 ||| m) else s) s

/-- EVSEND, on a control processor (R257). -/
def execEvsend (x : Issue) (rd ra rb : Fin 32) (s : State) : Host.Outcome State Fault Refusal :=
  issue x (wordR 0x32 rd ra rb 0) (fun _ => 1) (fun _ => State.isControl x.h && rd.val == 0 && rb.val == 0)
    (fun s =>
      let v := (s.g x.h ra).toNat
      .next (s.sendEvents (State.dieOf x.h) (bits v 0 16) (bits v 16 4))) s

/-- EVWAIT, on a control processor (R257): complete at once when an event is there or no time is to pass. -/
def execEvwait (x : Issue) (rd ra rb : Fin 32) (s : State) : Host.Outcome State Fault Refusal :=
  let h := x.h
  issue x (wordR 0x32 rd ra rb 1) (fun _ => 1) (fun _ => State.isControl h)
    (fun s =>
      let v := BitVec.ofNat 64 (s.csr h 0x100) &&& s.g h rb
      if v ≠ 0 ∨ s.g h ra = 0 then .next (s.setG h rd v)
      else .hold (s.setRun h (.evwait rd (s.g h rb) (s.tick + (s.g h ra).toNat)))) s

/-- The processor waits in an EVWAIT. -/
def State.inEvwait (s : State) (h : Nat) : Bool :=
  match (s.hart h).run with
  | .evwait _ _ _ => true
  | _ => false

/-- An EVWAIT resumes with the selected events (R257); where none is set, it waits on. -/
def execEvwaitWake (t : Nat) (h : Fin 0x300) (s : State) : Host.Outcome State Fault Refusal :=
  let s := s.start t
  done (if s.inEvwait h then s.settleWait h else s)

/-- An EVWAIT's ticks have passed (R257): it resumes with 0, or with the events of the expiry tick; not yet due, it waits on. -/
def execEvwaitTimeout (t : Nat) (h : Fin 0x300) (s : State) : Host.Outcome State Fault Refusal :=
  let s := s.start t
  done (if s.inEvwait h then s.settleWait h else s)

end Sys2Proof.Machine
end

