-- ==== Sys2Proof/Machine/Activation.lean ====
section
/-! DEFINITION. Bounds on the results that the spec gives only to within some ulp: activation functions, reciprocals and
reciprocal square roots (R282, R286).  Real values are held to 128 binary places; a result is a free value that the bound
admits, and the rounded value where the free value lies outside it (log 51). -/

namespace Sys2Proof.Machine.Act

open Sys2Proof

/-- One, with 128 binary places. -/
def one : Int := 2 ^ 128

/-- ln 2, 1 / ln 2, 2 / √π, 1 / √2 and 1 / √(2π) with 128 binary places. -/
def ln2 : Int := 235865763225513294137944142764154484399
def log2e : Int := 490923683258796565746369346286093237521
def twoOverRootPi : Int := 383967533763538142977158567454335403656
def rootHalf : Int := 240615969168004511545033772477625056927
def normPeak : Int := 135753023439836232162591007175785461951

/-- A product with 128 binary places. -/
def fxMul (a b : Int) : Int := a * b / one

/-- A finite value with 128 binary places, cut to ±1024. -/
def toFx (x : Fv) : Int :=
  let m := x.signedM
  let v := if 0 ≤ x.expo + 128 then (if 200 < x.expo then m * 2 ^ 328 else m * 2 ^ (x.expo + 128).toNat) else m / 2 ^ (-(x.expo + 128)).toNat
  max (-1024 * one) (min (1024 * one) v)

/-- A number with 128 binary places as a value; `st` says that something was cut off. -/
def ofFx (v : Int) (st : Bool) : Fv := .num (v < 0) (2 * v.natAbs + (if st then 1 else 0)) (-129)

/-- e^x for |x| ≤ 1, by its series. -/
def expFx (x : Int) : Int :=
  ((List.range 45).foldl (fun (q : Int × Int) (k : Nat) =>
    let t := fxMul q.1 x / ((k : Int) + 1)
    (t, q.2 + t)) (one, one)).2

/-- 2^x. -/
def exp2 (x : Int) : Fv :=
  let f := x % one
  .num false (2 * (expFx (fxMul f ln2)).natAbs + (if f = 0 then 0 else 1)) (x / one - 129)

/-- e^−a for a ≥ 0, with 128 binary places. -/
def expNeg (a : Int) : Int :=
  let y := fxMul a log2e
  expFx (-(fxMul (y % one) ln2)) / 2 ^ (y / one).toNat

/-- The binary places of log2 u for 1 ≤ u < 2: 128 of them. -/
def logBits : Nat → Int → Int → Int
  | 0, _, acc => acc
  | n + 1, u, acc =>
    let v := fxMul u u
    if 2 * one ≤ v then logBits n (v / 2) (2 * acc + 1) else logBits n v (2 * acc)

/-- log2 of m × 2^e, m ≠ 0. -/
def log2 (m : Nat) (e : Int) : Fv :=
  let k := Nat.log2 m
  let u : Int := (m : Int) * one / 2 ^ k
  ofFx (((k : Int) + e) * one + logBits 128 u 0) (u ≠ one)

/-- A value below 1 with places cut off: 1 itself only approximates it from above. -/
def belowOne (v : Int) : Int := min v (one - 1)

/-- 1 / (1 + e^−x). -/
def sigmoid (x : Int) : Fv :=
  let t := expNeg (x.natAbs : Int)
  ofFx (if 0 ≤ x then belowOne (one * one / (one + t)) else t * one / (one + t)) (x ≠ 0)

/-- tanh x; below 2^−20 it is x to well within the bound. -/
def tanh (v : Fv) : Fv :=
  let x := toFx v
  if (x.natAbs : Int) < 2 ^ 108 then v
  else
    let t := expNeg (2 * (x.natAbs : Int))
    let r := belowOne ((one - t) * one / (one + t))
    ofFx (if 0 ≤ x then r else -r) true

/-- erf z for 0 ≤ z ≤ 6, by its series. -/
def erf (z : Int) : Int :=
  let z2 := fxMul z z
  let sum := ((List.range 200).foldl (fun (q : Int × Int) (k : Nat) =>
    (-(fxMul q.1 z2) / ((k : Int) + 1), q.2 + q.1 / (2 * (k : Int) + 1))) (z, 0)).2
  fxMul sum twoOverRootPi

/-- Φ(−a) for 8 ≤ a < 16: the normal density at a over a, times the first 16 terms of its asymptotic series. -/
def normTail (a : Int) : Fv :=
  let inv := one * one / a
  let series := ((List.range 16).foldl (fun (q : Int × Int) (k : Nat) =>
    (-(fxMul (fxMul q.1 inv) inv) * (2 * (k : Int) + 1), q.2 + q.1)) (one, 0)).2
  let y := fxMul (fxMul a a / 2) log2e
  let m := fxMul (fxMul (expFx (-(fxMul (y % one) ln2))) normPeak) (fxMul inv series)
  .num false (2 * m.natAbs + 1) (-(y / one) - 129)

/-- x × Φ(x); from −16 down it lies nearer zero than any FP32 value. -/
def gelu (v : Fv) : Fv :=
  let x := toFx v
  let a : Int := x.natAbs
  if 8 * one ≤ a then
    v.mul (if 0 ≤ x then ofFx (one - 1) true else if a < 16 * one then normTail a else .num false 1 (-300))
  else
    let h := erf (fxMul a rootHalf)
    let phi := (if 0 ≤ x then one + h else one - h) / 2
    v.mul (ofFx phi true)

/-- Place of FP32 bits in the order of their values. -/
def ordinal (b : Nat) : Int := if 2 ^ 31 ≤ b then -((b - 2 ^ 31 : Nat) : Int) else b

/-- The bound of R286: within 2 ulp of the rounded result `r`, or within 2^−24 of it. -/
def within (r v : Nat) : Bool :=
  let x := Fv.decode fp32 r
  let y := Fv.decode fp32 v
  y ≠ .nan && ((ordinal r - ordinal v).natAbs ≤ 2
    || (x.isFinite && y.isFinite && Fv.le (x.add false y.neg).abs (.num false 1 (-24))))

/-- A result that the bound admits: the free value `u` where it lies within it. -/
def pick (rnd u : Nat) (x : Fv) : Nat :=
  let r := Fv.encode fp32 rnd false x
  if within r u then u else r

/-- VACT of kind `k` on FP32 bits, with a free value `u` (R285, R286); a limit that no rule states is free. -/
def act (rnd k : Nat) (a u : Nat) : Nat :=
  match k, Fv.decode fp32 a with
  | _, .nan => fp32.nan
  | 0, .inf true => 0
  | 2, .inf n => if n then 0 else 0x3F800000
  | 3, .inf n => if n then 0xBF800000 else 0x3F800000
  | 1, .inf true => fp32.nan
  | _, .inf _ => u
  | 0, x => pick rnd u (exp2 (toFx x))
  | 1, .num n m e => if m = 0 then 0xFF800000 else if n then fp32.nan else pick rnd u (log2 m e)
  | 2, x => pick rnd u (sigmoid (toFx x))
  | 3, x => pick rnd u (tanh x)
  | _, x => pick rnd u (gelu x)

/-! ### Reciprocals (R282) -/

/-- One ulp of FP32 at a finite value: the spacing of the binade that it lies in, or that of the subnormal numbers. -/
def ulp (x : Fv) : Fv :=
  .num false 1 (max (-126) (x.expo + (Nat.log2 x.signedM.natAbs : Int)) - 23)

/-- An FP32 result within 1 ulp of an exact value `x` ≠ 0: the value cut toward zero, or the one that the free value `u` names,
up to two places below it or one above, where it lies within the bound.  A result at or above 2^128 overflows (R282). -/
def neighbours (rnd : Nat) (x : Fv) (u : Nat) : Nat :=
  let lo := Fv.encode fp32 1 false x
  let v := lo + u % 4 - 2
  if Fv.le (.num false 1 128) x.abs then Fv.encode fp32 rnd false x
  else if 2 ≤ lo % 2 ^ 31 + u % 4 ∧ Fv.le ((x.add false (Fv.decode fp32 v).neg).abs) (ulp x) then v
  else lo

/-- 1 / x; of zero and infinity no rule states a result, so it is free. -/
def rcp (rnd : Nat) (x : Fv) (u : Nat) : Nat :=
  match x with
  | .nan => fp32.nan
  | .inf _ => u
  | .num n m e =>
    if m = 0 then u
    else
      let k := 2 * Nat.log2 m + 96
      let q := 2 ^ k / m
      neighbours rnd (.num n (2 * q + (if 2 ^ k % m = 0 then 0 else 1)) (-(k : Int) - e - 1)) u

/-- 1 / √x; of a negative value it is invalid, of zero and infinity free. -/
def rsq (rnd : Nat) (x : Fv) (u : Nat) : Nat :=
  match x with
  | .nan => fp32.nan
  | .inf n => if n then fp32.nan else u
  | .num n m e =>
    if m = 0 then u
    else if n then fp32.nan
    else
      let m' := if e % 2 = 0 then m else 2 * m
      let e' := if e % 2 = 0 then e else e - 1
      let k := Nat.log2 m' + 96
      let q := Nat.sqrt (2 ^ (2 * k) / m')
      neighbours rnd (.num false (2 * q + (if q * q * m' = 2 ^ (2 * k) then 0 else 1)) (-(k : Int) - e' / 2 - 1)) u

end Sys2Proof.Machine.Act
end

