-- ==== Sys2Proof/Machine/Vector.lean ====
section
/-! DEFINITION. Vector instructions: lane arithmetic, conversions, activation, reduction and movement (R271, R279 to R287). -/

namespace Sys2Proof.Machine

open Sys2Proof

/-- Lane `l` of a vector register (R271). -/
def lane (v : BitVec 2048) (l : Nat) : BitVec 32 := v.extractLsb' (32 * l) 32

/-- A vector register from its lanes. -/
def ofLanes (f : Nat → BitVec 32) : BitVec 2048 :=
  BitVec.ofNat 2048 ((List.range 64).foldr (fun l acc => acc * 2 ^ 32 + (f l).toNat) 0)

/-- A register with the lanes that predicate `p` selects replaced; the others keep their value (R271). -/
def setLanes (old : BitVec 2048) (p : DWord) (f : Nat → BitVec 32) : BitVec 2048 :=
  ofLanes (fun l => if p.getLsbD l then f l else lane old l)

/-- Element `i` of a register of packed elements of `e` bits (R271). -/
def packed (v : BitVec 2048) (e i : Nat) : Nat := bits v.toNat (e * i) e

/-- A register with the listed packed elements of `e` bits replaced. -/
def setPacked (v : BitVec 2048) (e : Nat) (l : List (Nat × Nat)) : BitVec 2048 :=
  BitVec.ofNat 2048 (l.foldl (fun n q => setBits n (e * q.1) e q.2) v.toNat)

/-- A 32-bit number as a lane. -/
def ofBits (n : Nat) : BitVec 32 := BitVec.ofNat 32 n

/-! ### The numerics profile (R176, R202, R274) -/

/-- The way of rounding of a conversion under profile `np` with a free value `u` (R177, R284). -/
def npRound (np u : Nat) : Bool → Nat → Nat → Nat :=
  if bitOf np 3 then Fv.roundStoch (bits np 32 5) (u % 2 ^ bits np 32 5) else Fv.roundShift (bits np 0 3)

/-! ### Lane arithmetic (R281, R282) -/

/-- A signed result saturated to 32 bits. -/
def sat32 (i : Int) : BitVec 32 := BitVec.ofInt 32 (max (-(2 ^ 31)) (min (2 ^ 31 - 1) i))

/-- A VI lane result (R281). -/
def viResult (rnd fn : Nat) (a b : BitVec 32) : Option (BitVec 32) :=
  let n := b.toNat % 32
  match fn with
  | 0x00 => some (a + b)
  | 0x01 => some (a - b)
  | 0x02 => some (a * b)
  | 0x03 => some (BitVec.ofInt 32 (a.toInt * b.toInt / 2 ^ 32))
  | 0x04 => some (a &&& b)
  | 0x05 => some (a ||| b)
  | 0x06 => some (a ^^^ b)
  | 0x07 => some (a <<< n)
  | 0x08 => some (a >>> n)
  | 0x09 => some (a.sshiftRight n)
  | 0x0A => some (if a.slt b then a else b)
  | 0x0B => some (if a.slt b then b else a)
  | 0x0C => some (if a.ult b then a else b)
  | 0x0D => some (if a.ult b then b else a)
  | 0x0E => some (sat32 (a.toInt + b.toInt))
  | 0x0F => some (sat32 (a.toInt - b.toInt))
  | 0x10 =>
    let q := Fv.roundShift rnd (a.toInt < 0) a.toInt.natAbs n
    some (BitVec.ofInt 32 (if a.toInt < 0 then -(q : Int) else q))
  | 0x11 => some (sat32 a.toInt.natAbs)
  | _ => none

/-- The first FP32 value ranks at or below the second; −0 ranks below +0 (R282). -/
def rankLe (x y : Fv) : Bool := Fv.cmp x y < 0 || (Fv.cmp x y == 0 && (x.sign || !y.sign))

/-- FP32 minimum or maximum of bits, with NaN when either is NaN (R282). -/
def fpPick (max_ : Bool) (a b : Nat) : Nat :=
  let x := Fv.decode fp32 a
  let y := Fv.decode fp32 b
  if x = .nan ∨ y = .nan then fp32.nan else if rankLe x y != max_ then a else b

/-- A VF lane result under profile `np`, with a free value `u` where only a bound is given (R282). -/
def vfResult (np fn a b d u : Nat) : Option Nat :=
  let rnd := bits np 0 3
  let down := rnd == 3
  let fl (z : Nat) : Nat := Fv.flush (bitOf np 6) fp32 z
  let v (z : Nat) : Fv := Fv.decode fp32 (fl z)
  let out (z : Nat) : Nat := Fv.flush (bitOf np 7) fp32 z
  let enc (z : Fv) : Nat := out (Fv.encode fp32 rnd false z)
  match fn with
  | 0x00 => some (enc ((v a).add down (v b)))
  | 0x01 => some (enc ((v a).add down (v b).neg))
  | 0x02 => some (enc ((v a).mul (v b)))
  | 0x03 => some (enc (((v a).mul (v b)).add down (v d)))
  | 0x04 => some (out (fpPick false (fl a) (fl b)))
  | 0x05 => some (out (fpPick true (fl a) (fl b)))
  | 0x06 => some (if v a = .nan then fp32.nan else out (fl a % 2 ^ 31))
  | 0x07 => some (if v a = .nan then fp32.nan else out ((fl a + 2 ^ 31) % 2 ^ 32))
  | 0x08 => some (out (Act.rcp rnd (v a) u))
  | 0x09 => some (out (Act.rsq rnd (v a) u))
  | _ => none

/-! ### Residues (R179, R183) -/

/-- The residue of a value: the value modulo 7. -/
def residue7 (i : Int) : Nat := (i % 7).toNat

/-- The residue that the operands of products predict for their sum, added to a value of residue `held` (R179). -/
def residueSum (held : Nat) (l : List (Int × Int)) : Nat := (held + (l.map (fun q => residue7 q.1 * residue7 q.2)).sum) % 7

/-- The residue check of one product. -/
def productOk (a b : Int) : Bool := residue7 (a * b) == residueSum 0 [(a, b)]

/-- The residue check of a lane of VI: VMUL and VMULH (R183). -/
def viOk (fn : Nat) (a b : BitVec 32) : Bool := !(fn == 2 || fn == 3) || productOk a.toInt b.toInt

/-- The residue check of a lane of VF: the significands of FMUL and FMA (R183). -/
def vfOk (fn a b : Nat) : Bool :=
  !(fn == 2 || fn == 3) || productOk (Fv.decode fp32 a).signedM (Fv.decode fp32 b).signedM

/-! ### Conversions (R283, R284) -/

/-- The range of an integer format. -/
def intRange (fmt : Nat) : Int × Int :=
  match fmt with
  | 1 => (-128, 127)
  | 2 => (0, 255)
  | 3 => (-8, 7)
  | _ => (-(2 ^ 31), 2 ^ 31 - 1)

/-- An integer narrowed to an integer format: saturated with isat = 1, its low bits otherwise (R284). -/
def narrowI (np fmt : Nat) (i : Int) : Nat :=
  let (lo, hi) := intRange fmt
  unsigned (elemBits fmt) (if bitOf np 5 then max lo (min hi i) else i)

/-- FP32 bits narrowed to a format (R284); the low bits of an infinity are free. -/
def narrowF (np fmt a u : Nat) : Nat :=
  match floatFmt fmt with
  | some f =>
    if fmt = 8 then a
    else Fv.flush (bitOf np 7) f (Fv.encodeBy f (npRound np u) (bitOf np 4) (bitOf np 4) (Fv.decode fp32 a))
  | none =>
    match Fv.decode fp32 a with
    | .nan => 0
    | .inf n =>
      if bitOf np 5 then unsigned (elemBits fmt) (if n then (intRange fmt).1 else (intRange fmt).2)
      else u % 2 ^ elemBits fmt
    | x => narrowI np fmt (Fv.toIntBy (npRound np u) x)

/-- An integer as FP32 bits: exact, or one of the two neighbours where it is not a value of the format (R284, log 52). -/
def intToF (i : Int) (u : Nat) : Nat :=
  let x := Fv.ofInt i
  let lo := Fv.encode fp32 3 false x
  let hi := Fv.encode fp32 2 false x
  if i = 0 then 0 else if u % 2 = 0 then lo else hi

/-- A code widened to a 32-bit lane: INT32 for an integer format with `int`, FP32 otherwise (R284). -/
def widen (fmt : Nat) (int : Bool) (c u : Nat) : BitVec 32 :=
  match floatFmt fmt with
  | some f => ofBits (Fv.encode fp32 0 false (Fv.decode f c))
  | none => if int then BitVec.ofInt 32 (intCode fmt c) else ofBits (intToF (intCode fmt c) u)

/-- A VC form is legal: format code, part, 32-bit side (R283). -/
def vcLegal (fmt vb : Nat) : Bool :=
  let q := vb % 8
  let int := bitOf vb 3
  vb < 16 &&
    (match fmt with
      | 1 => q < 4
      | 2 => q < 4
      | 3 => true
      | 4 => q < 4 && !int
      | 5 => q < 4 && !int
      | 6 => q < 2 && !int
      | 7 => q < 2 && !int
      | 0xA => q == 0 && !int
      | _ => false)

/-! ### Reductions (R287) -/

/-- Neighbouring values combined. -/
def pairUpWith {α : Type} (f : α → α → α) : List α → List α
  | a :: b :: r => f a b :: pairUpWith f r
  | l => l

/-- The fixed tree of six levels over 64 values. -/
def tree {α : Type} (f : α → α → α) : Nat → List α → List α
  | 0, l => l
  | n + 1, l => tree f n (pairUpWith f l)

/-- The reduction of kind `k` over 64 lanes, each with whether it is selected (R287). -/
def reduce (np k : Nat) (l : List (Bool × BitVec 32)) : BitVec 32 :=
  let rnd := bits np 0 3
  let with_ (z : BitVec 32) : List (BitVec 32) := l.map (fun q => if q.1 then q.2 else z)
  let fp (f : Nat → Nat → Nat) (z : Nat) : BitVec 32 :=
    ofBits ((tree f 6 ((with_ (ofBits z)).map BitVec.toNat)).headD 0)
  match k with
  | 0 => (tree (· + ·) 6 (with_ 0)).headD 0
  | 1 => fp (fun a b => Fv.encode fp32 rnd false ((Fv.decode fp32 a).add (rnd == 3) (Fv.decode fp32 b))) 0
  | 2 => fp (fpPick true) 0xFF800000
  | 3 => fp (fpPick false) 0x7F800000
  | 4 => (tree (fun a b => if a.slt b then b else a) 6 (with_ (BitVec.intMin 32))).headD 0
  | 5 => (tree (fun a b => if a.slt b then a else b) 6 (with_ (BitVec.intMax 32))).headD 0
  | _ =>
    let c : List (Nat × Fv) := ((List.range l.length).zip l).filterMap (fun q =>
      let v := Fv.decode fp32 q.2.2.toNat
      if q.2.1 && v ≠ .nan then some (q.1, v) else none)
    match c with
    | [] => BitVec.allOnes 32
    | z :: r => ofBits (r.foldl (fun (b : Nat × Fv) y => if Fv.lt b.2 y.2 then y else b) z).1

/-- An FP32 comparison (R285): unordered is false, except NE. -/
def fcondition (cc a b : Nat) : Bool :=
  let x := Fv.decode fp32 a
  let y := Fv.decode fp32 b
  let un := x == .nan || y == .nan
  match cc with
  | 0 => !un && Fv.cmp x y == 0
  | 1 => un || Fv.cmp x y != 0
  | 2 => Fv.lt x y
  | 3 => Fv.le y x
  | 6 => Fv.lt y x
  | _ => Fv.le x y

/-- Format V: major, vd, va, vb, p, fn (R279). -/
def wordV (major vd va vb p fn : Nat) : Nat :=
  major * 2 ^ 26 + vd * 2 ^ 20 + va * 2 ^ 14 + vb * 2 ^ 8 + p * 2 ^ 5 + fn

namespace State

/-- The running tile state of sequencer `h`. -/
def tileOf (s : State) (h : Nat) : Tile := s.tile (seqOf h)

/-- The state with the running tile state of sequencer `h` changed. -/
def modTile (s : State) (h : Nat) (u : Tile → Tile) : State := s.setTile (seqOf h) (u (s.tileOf h))

/-- Vector register `i`. -/
def vr (s : State) (h i : Nat) : BitVec 2048 := Table.get (fun _ => 0) (s.tileOf h).v i

/-- The state with vector register `i` written. -/
def setVr (s : State) (h i : Nat) (v : BitVec 2048) : State :=
  s.modTile h (fun x => { x with v := Table.put (fun _ => 0) x.v i v })

/-- The numerics profile of the thread: VNP (R274). -/
def np (s : State) (h : Nat) : Nat := s.csr h 0x210

/-- `n` free values, and the state after drawing them (log 2). -/
def draws (s : State) (n : Nat) : (Nat → Nat) × State := (fun i => Config.free (s.free + i), (s.withFree (s.free + n)))

end State

/-- A Vector or short Tensor instruction: one word, weight 1, on tile sequencers only (R238, R262, R279). -/
def issueTile (x : Issue) (word : Nat) (legal : Bool) (body : State → Ran) (s : State) : Host.Outcome State Fault Refusal :=
  issue x word (fun _ => 1) (fun _ => State.isTile x.h && legal) body s

/-- A vector instruction whose result `go` stands, unless the residue check of a selected lane fails: then the thread is aborted
(R180, R183). -/
def State.checkLanes (s : State) (h p : Nat) (ok : Nat → Bool) (go : Ran) : Ran :=
  match (List.range 64).find? (fun l => (s.p h p).getLsbD l && !ok l) with
  | none => go
  | some l => .hold (s.residue (coreOf h) (seqOf h % 16) l false)

/-- VI: integer lanes (R281). -/
def execVi (x : Issue) (fn : Fin 32) (vd va vb : Fin 64) (p : Fin 8) (s : State) : Host.Outcome State Fault Refusal :=
  let h := x.h
  issueTile x (wordV 0x38 vd va vb p fn) (fn.val < 0x12 && (fn.val ≠ 0x11 || vb.val == 0))
    (fun s => s.checkLanes h p (fun l => viOk fn (lane (s.vr h va) l) (lane (s.vr h vb) l))
      (.next (s.setVr h vd (setLanes (s.vr h vd) (s.p h p) (fun l =>
        (viResult (bits (s.np h) 0 3) fn (lane (s.vr h va) l) (lane (s.vr h vb) l)).getD 0))))) s

/-- VF: FP32 lanes (R282). -/
def execVf (x : Issue) (fn : Fin 32) (vd va vb : Fin 64) (p : Fin 8) (s : State) : Host.Outcome State Fault Refusal :=
  let h := x.h
  issueTile x (wordV 0x39 vd va vb p fn) (fn.val < 0x0A && (fn.val < 0x06 || vb.val == 0))
    (fun s =>
      let (u, s) := s.draws 64
      s.checkLanes h p (fun l => vfOk fn (lane (s.vr h va) l).toNat (lane (s.vr h vb) l).toNat)
        (.next (s.setVr h vd (setLanes (s.vr h vd) (s.p h p) (fun l =>
          ofBits ((vfResult (s.np h) fn (lane (s.vr h va) l).toNat (lane (s.vr h vb) l).toNat (lane (s.vr h vd) l).toNat
            (u l % 2 ^ 32)).getD 0)))))) s

/-- VC: narrowing below 0x10, widening from 0x10 (R283, R284). -/
def execVc (x : Issue) (fn : Fin 32) (vd va vb : Fin 64) (p : Fin 8) (s : State) : Host.Outcome State Fault Refusal :=
  let h := x.h
  let fmt := fn.val % 16
  let q := vb.val % 8
  let int := bitOf vb 3
  let e := elemBits fmt
  issueTile x (wordV 0x3A vd va vb p fn) (vcLegal fmt vb)
    (fun s =>
      let (u, s) := s.draws 64
      let sel := (List.range 64).filter (fun l => (s.p h p).getLsbD l)
      if fn.val < 16 then
        .next (s.setVr h vd (setPacked (s.vr h vd) e (sel.map (fun l =>
          let a := lane (s.vr h va) l
          (64 * q + l, if int then narrowI (s.np h) fmt a.toInt else narrowF (s.np h) fmt a.toNat (u l))))))
      else
        .next (s.setVr h vd (setLanes (s.vr h vd) (s.p h p) (fun l => widen fmt int (packed (s.vr h va) e (64 * q + l)) (u l))))) s

/-- VACT: an activation function of each selected lane (R285, R286). -/
def execVact (x : Issue) (vd va vb : Fin 64) (p : Fin 8) (s : State) : Host.Outcome State Fault Refusal :=
  let h := x.h
  issueTile x (wordV 0x3B vd va vb p 0x00) (vb.val < 5)
    (fun s =>
      let (u, s) := s.draws 64
      .next (s.setVr h vd (setLanes (s.vr h vd) (s.p h p) (fun l =>
        let a := Fv.flush (bitOf (s.np h) 6) fp32 (lane (s.vr h va) l).toNat
        ofBits (Fv.flush (bitOf (s.np h) 7) fp32 (Act.act (bits (s.np h) 0 3) vb a (u l % 2 ^ 32))))))) s

/-- VRED: a reduction of the selected lanes into lane 0 (R285, R287). -/
def execVred (x : Issue) (vd va vb : Fin 64) (p : Fin 8) (s : State) : Host.Outcome State Fault Refusal :=
  let h := x.h
  issueTile x (wordV 0x3B vd va vb p 0x01) (vb.val < 7)
    (fun s =>
      let l := (List.range 64).map (fun l => ((s.p h p).getLsbD l, lane (s.vr h va) l))
      .next (s.setVr h vd (setLanes (s.vr h vd) 1 (fun _ => reduce (s.np h) vb l)))) s

/-- VBCAST (R285). -/
def execVbcast (x : Issue) (vd va vb : Fin 64) (p : Fin 8) (s : State) : Host.Outcome State Fault Refusal :=
  let h := x.h
  issueTile x (wordV 0x3B vd va vb p 0x02) (va.val < 32 && vb.val == 0)
    (fun s => .next (s.setVr h vd (setLanes (s.vr h vd) (s.p h p) (fun _ => (s.g h va).setWidth 32)))) s

/-- VEXT (R285). -/
def execVext (x : Issue) (vd va vb : Fin 64) (p : Fin 8) (s : State) : Host.Outcome State Fault Refusal :=
  let h := x.h
  issueTile x (wordV 0x3B vd va vb p 0x03) (vd.val < 32 && p.val == 0)
    (fun s => .next (s.setG h vd (sext32 (lane (s.vr h va) vb)))) s

/-- VINS (R285). -/
def execVins (x : Issue) (vd va vb : Fin 64) (p : Fin 8) (s : State) : Host.Outcome State Fault Refusal :=
  let h := x.h
  issueTile x (wordV 0x3B vd va vb p 0x04) (va.val < 32 && p.val == 0)
    (fun s => .next (s.setVr h vd (setLanes (s.vr h vd) (BitVec.ofNat 64 (2 ^ vb.val)) (fun _ => (s.g h va).setWidth 32)))) s

/-- VCMP: an integer compare of each lane into predicate p, with cc in vd (R247, R285). -/
def execVcmp (x : Issue) (vd va vb : Fin 64) (p : Fin 8) (s : State) : Host.Outcome State Fault Refusal :=
  let h := x.h
  issueTile x (wordV 0x3B vd va vb p 0x05) (condDefined vd)
    (fun s => .next (s.setP h p (BitVec.ofNat 64 (((List.range 64).map (fun l =>
      2 ^ l * bit ((condition vd (lane (s.vr h va) l) (lane (s.vr h vb) l)).getD false))).sum)))) s

/-- VFCMP: as VCMP for FP32, with cc 0 to 3, 6 and 7 (R285). -/
def execVfcmp (x : Issue) (vd va vb : Fin 64) (p : Fin 8) (s : State) : Host.Outcome State Fault Refusal :=
  let h := x.h
  issueTile x (wordV 0x3B vd va vb p 0x06) (vd.val < 4 || vd.val == 6 || vd.val == 7)
    (fun s => .next (s.setP h p (BitVec.ofNat 64 (((List.range 64).map (fun l =>
      2 ^ l * bit (fcondition vd (lane (s.vr h va) l).toNat (lane (s.vr h vb) l).toNat))).sum)))) s

/-- VSELV: every lane from va or vb by predicate p (R285). -/
def execVselv (x : Issue) (vd va vb : Fin 64) (p : Fin 8) (s : State) : Host.Outcome State Fault Refusal :=
  let h := x.h
  issueTile x (wordV 0x3B vd va vb p 0x07) true
    (fun s => .next (s.setVr h vd (ofLanes (fun l =>
      if (s.p h p).getLsbD l then lane (s.vr h va) l else lane (s.vr h vb) l)))) s

/-- VPERM (R285). -/
def execVperm (x : Issue) (vd va vb : Fin 64) (p : Fin 8) (s : State) : Host.Outcome State Fault Refusal :=
  let h := x.h
  issueTile x (wordV 0x3B vd va vb p 0x08) true
    (fun s => .next (s.setVr h vd (setLanes (s.vr h vd) (s.p h p) (fun l =>
      lane (s.vr h va) ((lane (s.vr h vb) l).toNat % 64))))) s

/-- VIDX (R285). -/
def execVidx (x : Issue) (vd va vb : Fin 64) (p : Fin 8) (s : State) : Host.Outcome State Fault Refusal :=
  let h := x.h
  issueTile x (wordV 0x3B vd va vb p 0x09) (va.val == 0 && vb.val == 0)
    (fun s => .next (s.setVr h vd (setLanes (s.vr h vd) (s.p h p) (fun l => ofBits l)))) s

/-- VMOV (R285). -/
def execVmov (x : Issue) (vd va vb : Fin 64) (p : Fin 8) (s : State) : Host.Outcome State Fault Refusal :=
  let h := x.h
  issueTile x (wordV 0x3B vd va vb p 0x0A) (vb.val == 0)
    (fun s => .next (s.setVr h vd (setLanes (s.vr h vd) (s.p h p) (fun l => lane (s.vr h va) l)))) s

end Sys2Proof.Machine
end

