-- ==== Sys2Proof/Machine/TileMem.lean ====
section
/-! DEFINITION. Tile descriptors and tile loads, stores and atomic accumulates (R276 to R279, R288 to R291, R295). -/

namespace Sys2Proof.Machine

open Sys2Proof

/-! ### Descriptors (R276, R278) -/

namespace Desc

/-- Flags (R276): the descriptor is valid, describes an output, belongs to an atomic node. -/
def valid (d : Desc) : Bool := bitOf d.flags 0
def isOut (d : Desc) : Bool := bitOf d.flags 1
def atomic (d : Desc) : Bool := bitOf d.flags 2

/-- Dimension `k`. -/
def dim (d : Desc) (k : Nat) : Nat := d.dims.getD k 1

/-- Index `k` of a tile instruction's first element: cursor plus the signed 16-bit offset (R278). -/
def first (d : Desc) (off : DWord) (k : Nat) : Int := (d.cur.getD k 0).toInt + signed 16 (bits off.toNat (16 * k) 16)

/-- The first element's indices. -/
def start (d : Desc) (off : DWord) : List Int := [d.first off 0, d.first off 1, d.first off 2, d.first off 3]

/-- Index `i` of dimension `k` lies inside the tensor. -/
def insideDim (d : Desc) (i : List Int) (k : Nat) : Bool := 0 ≤ i.getD k 0 && i.getD k 0 < d.dim k

/-- Element `l` along d0 from indices `i` is inside (R278). -/
def inside (d : Desc) (i : List Int) (l : Nat) : Bool :=
  0 ≤ i.getD 0 0 + l && i.getD 0 0 + l < d.dim 0 && [1, 2, 3].all (fun k => d.insideDim i k)

/-- Address of the packed row that indices 1 to 3 of `i` pick (R278). -/
def row (d : Desc) (i : List Int) : Nat :=
  d.base + ([1, 2, 3].map (fun k => (i.getD k 0).toNat * d.strides.getD (k - 1) 0)).sum

/-- Byte offset of element `i0` in a packed row, for INT4 of the byte that holds it, for BX8 of its block's exponent. -/
def rowOff (d : Desc) (i0 : Nat) : Nat :=
  if d.fmt = 3 then i0 / 2 else if d.fmt = 9 then i0 / 32 * 33 else i0 * (elemBits d.fmt / 8)

/-- Address and length of the bytes that hold `n` elements along d0 from `i0` (for BX8 their whole blocks). -/
def span (d : Desc) (i : List Int) (i0 n : Nat) : Nat × Nat :=
  let a := d.rowOff i0
  let b := if d.fmt = 3 then (i0 + n + 1) / 2 else if d.fmt = 9 then (i0 + n + 31) / 32 * 33 else (i0 + n) * (elemBits d.fmt / 8)
  (d.row i + a, b - a)

/-- The code of the element at `i0 + j`, from the bytes of a span that begins at element `i0`. -/
def code (d : Desc) (l : List Byte) (i0 j : Nat) : Nat :=
  if d.fmt = 3 then
    let k := i0 % 2 + j
    (l.getD (k / 2) 0).toNat / (if k % 2 = 0 then 1 else 16) % 16
  else if d.fmt = 9 then (l.getD (33 * ((i0 % 32 + j) / 32) + 1 + (i0 % 32 + j) % 32) 0).toNat
  else
    let w := elemBits d.fmt / 8
    leVal ((l.drop (j * w)).take w)

/-- The BX8 exponent of block `b` of a span that begins at a block. -/
def exponent (l : List Byte) (b : Nat) : Nat := (l.getD (33 * b) 0).toNat

/-- The code whose real value is zero: the zero point of an integer format, +0, or q = 0 (R278). -/
def zeroCode (d : Desc) : Nat := if isIntFmt d.fmt then unsigned (elemBits d.fmt) (signed 16 d.zp) else 0

/-- A tile access along a BX8 tensor begins at a block (R288, R292). -/
def onBlock (d : Desc) (i : List Int) : Bool := d.fmt ≠ 9 || i.getD 0 0 % 32 = 0

end Desc

/-- A code of R101. -/
def fmtDefined (fmt : Nat) : Bool := Nat.ble 1 fmt && fmt < 0xB

/-- Format TS: major, v, t, ga, gb, fn (R279). -/
def wordTS (v t ga gb fn : Nat) : Nat := 0x3C * 2 ^ 26 + v * 2 ^ 20 + t * 2 ^ 16 + ga * 2 ^ 11 + gb * 2 ^ 6 + fn

/-- What an access by a tile instruction comes to. -/
inductive TileOut where
  | ok (l : List Byte)
  | stop (code : Nat)
  | wait

namespace State

/-- Descriptor `i`. -/
def tdesc (s : State) (h i : Nat) : Desc := Table.get (fun _ => Desc.none) (s.tileOf h).t i

/-- The state with descriptor `i` replaced. -/
def setTdesc (s : State) (h i : Nat) (d : Desc) : State :=
  s.modTile h (fun x => { x with t := Table.put (fun _ => Desc.none) x.t i d })

/-- The element count of a tile access (R288). -/
def accessCount (s : State) (h gb top : Nat) : Nat := if gb = 0 then top else min (s.g h gb).toNat top

/-- Bytes read for a tile instruction. -/
def tileRead (s : State) (h a n acc det : Nat) : TileOut × State :=
  if n = 0 then (.ok [], s)
  else if 2 ^ 48 < a + n then (.stop 0x09, s)
  else
    match s.coreRead h a n acc det with
    | (.ok l, s) => (.ok l, s)
    | (.access, s) => (.stop 0x09, s)
    | (.lost, s) => (.stop 0x0A, s)
    | (.held, s) => (.wait, s)

/-- The first of `n` elements from `i` that is inside, and how many are: they lie together along d0. -/
def insideRun (d : Desc) (i : List Int) (n : Nat) : Nat × Nat :=
  let l := (List.range n).filter (fun j => d.inside i j)
  (l.headD 0, l.length)

/-- `n` elements from indices `i` (R278): their codes, and for BX8 the exponents of their blocks; an element outside is the
one whose real value is zero. -/
def tileLoad (s : State) (h : Nat) (d : Desc) (i : List Int) (n det : Nat) : (TileOut × (Nat → Nat) × (Nat → Nat)) × State :=
  let (b, k) := insideRun d i n
  let i0 := (i.getD 0 0 + b).toNat
  let (a, m) := d.span i i0 k
  let (r, s) := s.tileRead h a (if k = 0 then 0 else m) 1 det
  let l := match r with
    | .ok l => l
    | _ => []
  let at_ (j : Nat) : Nat := if b ≤ j ∧ j < b + k then d.code l i0 (j - b) else d.zeroCode
  let exp (q : Nat) : Nat := if b ≤ 32 * q ∧ 32 * q < b + k then Desc.exponent l (q - b / 32) else 0
  ((r, at_, exp), s)

/-- The checks of a tile load before its access (R288): the code it raises, if any. -/
def loadCheck (d : Desc) (i : List Int) (fmtOk : Bool) : Option Nat :=
  if !d.valid || !fmtOk || !d.onBlock i then some 0x10 else if d.isOut then some 0x12 else none

/-- A tile load: `use` makes the register from the codes, the exponents and the count (R288, R290). -/
def tileLd (s : State) (h v t ga gb per top det : Nat) (fmtOk : Nat → Bool)
    (use : Desc → Nat → (Nat → Nat) → (Nat → Nat) → (Nat → Nat) → BitVec 2048) : Ran :=
  let d := s.tdesc h t
  let n := s.accessCount h gb top
  let i := d.start (s.g h ga)
  if n = 0 then .next s
  else
    match loadCheck d i (fmtOk d.fmt) with
    | some c => .trap s c 0
    | none =>
      match s.tileLoad h d i (n * per) det with
      | ((.ok _, codes, exps), s) =>
        let (u, s) := s.draws 64
        .next (s.setVr h v (use d n codes exps u))
      | ((.stop c, _), s) => .trap s c d.base
      | ((.wait, _), s) => .hold s

/-! ### Stores (R288, R289) -/

/-- Element `j` from `i` lies in the owned box of output `k`, from TBOX (R223, R274). -/
def inBox (s : State) (h : Nat) (d : Desc) (i : List Int) (j : Nat) : Bool :=
  let lo := s.csr h (0x208 + 2 * d.out)
  let hi := s.csr h (0x209 + 2 * d.out)
  let ix (k : Nat) : Int := if k = 0 then i.getD 0 0 + j else i.getD k 0
  !bitOf lo 63 && d.insideDim i 3
    && [0, 1, 2].all (fun k => (bits lo (16 * k) 16 : Int) ≤ ix k && ix k < (bits hi (16 * k) 16 : Int))

/-- The checks of a TST before its store (R288). -/
def storeCheck (s : State) (h : Nat) (d : Desc) (i : List Int) (n : Nat) (fmtOk : Bool) : Option Nat :=
  if !d.valid || !fmtOk || !d.onBlock i then some 0x10
  else if !d.isOut || d.atomic || !(List.range n).all (fun j => s.inBox h d i j) then some 0x12
  else none

/-- The bytes of `n` packed codes stored from element `i0` at address `a`: an INT4 code at either end leaves the other nibble
of its byte unchanged (R288). -/
def packCodes (s : State) (fmt a i0 n : Nat) (c : Nat → Nat) : List Byte :=
  if fmt = 3 then
    (List.range ((i0 + n + 1) / 2 - i0 / 2)).map (fun b =>
      let old := (s.byte (a + b)).toNat
      let nib (k o : Nat) : Nat := if i0 ≤ k ∧ k < i0 + n then c (k - i0) % 16 else o
      BitVec.ofNat 8 (nib (2 * (i0 / 2 + b)) (old % 16) + 16 * nib (2 * (i0 / 2 + b) + 1) (old / 16)))
  else (List.range n).flatMap (fun j => leBytes (elemBits fmt / 8) (c j))

/-- Bytes stored by a tile instruction: a normal store, whose error response is kept (R252, R290); `det` as in `memWrite`. -/
def tileWrite (s : State) (h a : Nat) (l : List Byte) (det : Nat) : Ran :=
  if 2 ^ 48 < a + l.length then .trap s 0x09 a
  else
    let (r, s) := s.busWrite a l 2 h det
    .next (if r.isErr then s.modHart h (fun x => { x with storeErrs := x.storeErrs ++ [a] }) else s)

/-- A TST: the codes that `use` gives go to the tensor (R288). -/
def tileSt (s : State) (h t ga gb top det : Nat) (fmtOk : Nat → Bool) (use : Desc → (Nat → Nat) → Nat → Nat) : Ran :=
  let d := s.tdesc h t
  let n := s.accessCount h gb top
  let i := d.start (s.g h ga)
  if n = 0 then .next s
  else
    match s.storeCheck h d i n (fmtOk d.fmt) with
    | some c => .trap s c 0
    | none =>
      let (u, s) := s.draws 64
      let i0 := (i.getD 0 0).toNat
      let (a, _) := d.span i i0 n
      s.tileWrite h a (s.packCodes d.fmt a i0 n (use d u)) det

/-- Exponent and codes of one BX8 block of FP32 bits (R289). -/
def bxBlock (np : Nat) (x : Nat → Nat) (u : Nat → Nat) : Nat × (Nat → Nat) :=
  let v (j : Nat) : Fv := Fv.decode fp32 (x j)
  if (List.range 32).any (fun j => !(v j).isFinite) then (255, fun _ => 0)
  else
    let m := (List.range 32).foldl (fun b j => max b (x j % 2 ^ 31)) 0
    let e : Int := if m = 0 then 0 else
      match Fv.decode fp32 m with
      | .num _ q k => max 0 (min 254 ((Nat.log2 q : Int) + k + 127))
      | _ => 0
    (e.toNat, fun j =>
      let y := (v j).mul (.num false 1 (133 - e))
      unsigned 8 (max (-128) (min 127 (Fv.toIntBy (npRound np (u j)) y))))

/-- TST.F to a BX8 tensor (R289): whole blocks, 33 bytes each. -/
def tileStBx (s : State) (h v t ga gb det : Nat) : Ran :=
  let d := s.tdesc h t
  let n := s.accessCount h gb 64
  let i := d.start (s.g h ga)
  if n = 0 then .next s
  else
    match s.storeCheck h d i n (n % 32 = 0) with
    | some c => .trap s c 0
    | none =>
      let (u, s) := s.draws 64
      let (a, _) := d.span i (i.getD 0 0).toNat n
      let reg := s.vr h v
      s.tileWrite h a ((List.range (n / 32)).flatMap (fun b =>
        let q := bxBlock (s.np h) (fun j => (lane reg (32 * b + j)).toNat) (fun j => u (32 * b + j))
        leBytes 1 q.1 ++ (List.range 32).flatMap (fun j => leBytes 1 (q.2 j)))) det

/-- A TSTA: each element is added into, all of them inside the tensor of an atomic node's output (R288, R290). -/
def tileAcc (s : State) (h t ga gb fmt det : Nat) (add : Nat → Nat → Nat) : Ran :=
  let d := s.tdesc h t
  let n := s.accessCount h gb 64
  let i := d.start (s.g h ga)
  if n = 0 then .next s
  else if !d.valid || d.fmt ≠ fmt then .trap s 0x10 0
  else if !d.isOut || !d.atomic || !(List.range n).all (fun j => d.inside i j) then .trap s 0x12 0
  else
    let i0 := (i.getD 0 0).toNat
    let (a, m) := d.span i i0 n
    match s.spanFault a m true h with
    | some (y, r) => .trap (s.busErr r y 4 h) 0x09 a
    | none =>
      if !amoPlace a then .trap s 0x09 a
      else
        match s.tileRead h a m 4 det with
        | (.ok l, s) => .next (s.memWrite a ((List.range n).flatMap (fun j => leBytes 4 (add j (d.code l i0 j)))) 4 h 0).2
        | (.stop c, s) => .trap s c a
        | (.wait, s) => .hold s

end State

/-- TLD.R: packed codes into v, zero past the count (R288). -/
def execTldR (x : Issue) (v : Fin 64) (t : Fin 16) (ga gb : Fin 32) (det : Fin 3) (s : State) :
    Host.Outcome State Fault Refusal :=
  issueTile x (wordTS v t ga gb 0x00) true
    (fun s => s.tileLd x.h v t ga gb 1 (2048 / elemBits (s.tdesc x.h t).fmt) det fmtDefined (fun d n c _ _ =>
      setPacked 0 (elemBits d.fmt) ((List.range n).map (fun j => (j, c j))))) s

/-- TLD.W: elements widened into 32-bit lanes, zero past the count; a BX8 element becomes its value (R174, R284, R288). -/
def execTldW (x : Issue) (v : Fin 64) (t : Fin 16) (ga gb : Fin 32) (det : Fin 3) (s : State) :
    Host.Outcome State Fault Refusal :=
  issueTile x (wordTS v t ga gb 0x01) true
    (fun s => s.tileLd x.h v t ga gb 1 64 det fmtDefined (fun d n c e u =>
      ofLanes (fun j =>
        if n ≤ j then 0
        else if d.fmt = 9 then ofBits (Fv.encode fp32 (bits (s.np x.h) 0 3) false (bx8Value (e (j / 32)) (c j)))
        else widen d.fmt (isIntFmt d.fmt) (c j) (u j)))) s

/-- TLDE: exponents of BX8 blocks into bytes, zero past the count (R288). -/
def execTlde (x : Issue) (v : Fin 64) (t : Fin 16) (ga gb : Fin 32) (det : Fin 3) (s : State) :
    Host.Outcome State Fault Refusal :=
  issueTile x (wordTS v t ga gb 0x02) true
    (fun s => s.tileLd x.h v t ga gb 32 64 det (· == 9) (fun _ n _ e _ =>
      setPacked 0 8 ((List.range n).map (fun j => (j, e j))))) s

/-- TST.R: packed codes from v (R288). -/
def execTstR (x : Issue) (v : Fin 64) (t : Fin 16) (ga gb : Fin 32) (s : State) : Host.Outcome State Fault Refusal :=
  issueTile x (wordTS v t ga gb 0x08) true
    (fun s => s.tileSt x.h t ga gb (2048 / elemBits (s.tdesc x.h t).fmt) x.part (fun f => fmtDefined f && f ≠ 9)
      (fun d _ j => packed (s.vr x.h v) (elemBits d.fmt) j)) s

/-- TST.F: FP32 lanes narrowed to the tensor's format (R284, R288, R289). -/
def execTstF (x : Issue) (v : Fin 64) (t : Fin 16) (ga gb : Fin 32) (s : State) : Host.Outcome State Fault Refusal :=
  issueTile x (wordTS v t ga gb 0x09) true
    (fun s =>
      if (s.tdesc x.h t).fmt = 9 then s.tileStBx x.h v t ga gb x.part
      else s.tileSt x.h t ga gb 64 x.part fmtDefined (fun d u j => narrowF (s.np x.h) d.fmt (lane (s.vr x.h v) j).toNat (u j))) s

/-- TST.I: INT32 lanes narrowed to an integer or INT32 format (R284, R288). -/
def execTstI (x : Issue) (v : Fin 64) (t : Fin 16) (ga gb : Fin 32) (s : State) : Host.Outcome State Fault Refusal :=
  issueTile x (wordTS v t ga gb 0x0A) true
    (fun s => s.tileSt x.h t ga gb 64 x.part isIntFmt (fun d _ j => narrowI (s.np x.h) d.fmt (lane (s.vr x.h v) j).toInt)) s

/-- TSTA.I: lanes added into INT32 elements, wrapping (R288, R290). -/
def execTstaI (x : Issue) (v : Fin 64) (t : Fin 16) (ga gb : Fin 32) (det : Fin 3) (s : State) :
    Host.Outcome State Fault Refusal :=
  issueTile x (wordTS v t ga gb 0x0C) true
    (fun s => s.tileAcc x.h t ga gb 0xA det (fun j old => ((lane (s.vr x.h v) j).toNat + old) % 2 ^ 32)) s

/-- TSTA.F: lanes added into FP32 elements, rounded under rnd (R288, R290). -/
def execTstaF (x : Issue) (v : Fin 64) (t : Fin 16) (ga gb : Fin 32) (det : Fin 3) (s : State) :
    Host.Outcome State Fault Refusal :=
  issueTile x (wordTS v t ga gb 0x0D) true
    (fun s =>
      let rnd := bits (s.np x.h) 0 3
      s.tileAcc x.h t ga gb 8 det (fun j old =>
        Fv.encode fp32 rnd false ((Fv.decode fp32 old).add (rnd == 3) (Fv.decode fp32 (lane (s.vr x.h v) j).toNat)))) s

end Sys2Proof.Machine
end

