-- ==== Sys2Proof/Machine/Tensor.lean ====
section
/-! DEFINITION. Descriptor and accumulator instructions, and the dot-product instruction TMMA (R168 to R174, R272, R279,
R291 to R296). -/

namespace Sys2Proof.Machine

open Sys2Proof

/-- Format TD: major, v or g, t, t2 or bank, field, fn (R279). -/
def wordTD (r t t2 field fn : Nat) : Nat := 0x3D * 2 ^ 26 + r * 2 ^ 20 + t * 2 ^ 16 + t2 * 2 ^ 12 + field * 2 ^ 6 + fn

/-- A descriptor field (R276, R291): fields 5 and 13 to 16 sign-extended. -/
def Desc.field (d : Desc) (k : Nat) : Option DWord :=
  let n (v : Nat) : Option DWord := some (BitVec.ofNat 64 v)
  if k = 0 then n (d.base % 2 ^ 48)
  else if k = 1 then n d.fmt
  else if k = 2 then n d.rank
  else if k = 3 then n d.flags
  else if k = 4 then n d.scale
  else if k = 5 then some (BitVec.ofInt 64 (signed 16 d.zp))
  else if k < 10 then n (d.dim (k - 6))
  else if k < 13 then n (d.strides.getD (k - 10) 0)
  else if k < 17 then some ((d.cur.getD (k - 13) 0).signExtend 64)
  else Option.none

/-- A descriptor with cursor field `k` (13 to 16) replaced. -/
def Desc.setCur (d : Desc) (k : Nat) (v : BitVec 32) : Desc := { d with cur := d.cur.set (k - 13) v }

namespace State

/-- Accumulator of DPU `j` in bank `k` (R272). -/
def acc (s : State) (h k j : Nat) : BitVec 40 := Table.get (fun _ => 0) (s.tileOf h).acc (64 * k + j)

/-- Tag of bank `k`: 0 untagged, 1 integer, 2 float. -/
def tag (s : State) (h k : Nat) : Nat := Table.get (fun _ => 0) (s.tileOf h).tag k

/-- The residue that DPU `j`'s accumulator of bank `k` carries (R179). -/
def accRes (s : State) (h k j : Nat) : Nat := Table.get (fun _ => 0) (s.tileOf h).res (64 * k + j)

/-- The state with bank `k` holding values and a tag; an integer accumulator carries its residue (R179). -/
def setBank (s : State) (h k tag : Nat) (f : Nat → BitVec 40) : State :=
  s.modTile h (fun x => { x with
    acc := (List.range 64).foldl (fun t j => Table.put (fun _ => 0) t (64 * k + j) (f j)) x.acc
    tag := Table.put (fun _ => 0) x.tag k tag
    res := (List.range 64).foldl (fun t j =>
      Table.put (fun _ => 0) t (64 * k + j) (if tag = 1 then residue7 (f j).toInt else 0)) x.res })

end State

/-- The visible accumulator (R169), sign-extended to 32 bits: wrapped or saturated to acc_w bits. -/
def visible (np : Nat) (a : BitVec 40) : BitVec 32 :=
  let w := match bits np 8 2 with
    | 0 => 32
    | 1 => 24
    | 2 => 20
    | _ => 16
  if bitOf np 10 then BitVec.ofInt 32 (max (-(2 ^ (w - 1))) (min (2 ^ (w - 1) - 1) a.toInt))
  else BitVec.ofInt 32 (signed w a.toNat)

/-- The accumulator format of a profile (R172). -/
def faccFmt (np : Nat) : Fmt :=
  match bits np 11 2 with
  | 1 => bf16
  | 2 => fp16
  | _ => fp32

/-- FP32 bits rounded to the accumulator format and back (R172). -/
def toFacc (np a : Nat) : Nat :=
  if bits np 11 2 = 0 then a
  else Fv.encode fp32 0 false (Fv.decode (faccFmt np) (Fv.encode (faccFmt np) (bits np 0 3) false (Fv.decode fp32 a)))

/-- A descriptor or accumulator instruction. -/
def issueTD (x : Issue) (fn : Nat) (r : Fin 64) (t t2 : Fin 16) (field : Fin 64) (legal : Bool) (body : State → Ran) (s : State) :
    Host.Outcome State Fault Refusal :=
  issueTile x (wordTD r t t2 field fn) legal body s

/-- TGET: a field of descriptor t to g (R291). -/
def execTget (x : Issue) (r : Fin 64) (t t2 : Fin 16) (field : Fin 64) (s : State) : Host.Outcome State Fault Refusal :=
  issueTD x 0x00 r t t2 field (r.val < 32 && t2.val == 0 && field.val < 17)
    (fun s => s.put x.h r ((s.tdesc x.h t).field field)) s

/-- A cursor field of descriptor t changed; an invalid descriptor or another field raises ERR_TDESC (R291). -/
def State.cursorOp (s : State) (h t field : Nat) (new : BitVec 32 → BitVec 32) : Ran :=
  let d := s.tdesc h t
  if !d.valid || field < 13 || 16 < field then .trap s 0x10 0
  else .next (s.setTdesc h t (d.setCur field (new (d.cur.getD (field - 13) 0))))

/-- TSET: a cursor field from g (R291). -/
def execTset (x : Issue) (r : Fin 64) (t t2 : Fin 16) (field : Fin 64) (s : State) : Host.Outcome State Fault Refusal :=
  issueTD x 0x01 r t t2 field (r.val < 32 && t2.val == 0)
    (fun s => s.cursorOp x.h t field (fun _ => (s.g x.h r).setWidth 32)) s

/-- TADV: a cursor field advanced by g, wrapping (R291). -/
def execTadv (x : Issue) (r : Fin 64) (t t2 : Fin 16) (field : Fin 64) (s : State) : Host.Outcome State Fault Refusal :=
  issueTD x 0x02 r t t2 field (r.val < 32 && t2.val == 0)
    (fun s => s.cursorOp x.h t field (fun c => c + (s.g x.h r).setWidth 32)) s

/-- TMOV: descriptor t takes every field of t2 (R291). -/
def execTmov (x : Issue) (r : Fin 64) (t t2 : Fin 16) (field : Fin 64) (s : State) : Host.Outcome State Fault Refusal :=
  issueTD x 0x03 r t t2 field (r.val == 0 && field.val == 0)
    (fun s => .next (s.setTdesc x.h t (s.tdesc x.h t2))) s

/-- TACLR: the banks that g selects become zero, with a tag (R291). -/
def execTaclr (x : Issue) (r : Fin 64) (t t2 : Fin 16) (field : Fin 64) (s : State) : Host.Outcome State Fault Refusal :=
  issueTD x 0x04 r t t2 field (r.val < 32 && t.val == 0 && t2.val == 0 && field.val < 2)
    (fun s => .next (((List.range 16).filter (fun k => (s.g x.h r).getLsbD k)).foldl (fun s k =>
      s.setBank x.h k (1 + field.val) (fun _ => 0)) s)) s

/-- TARD: a bank as seen by a program to v (R169, R291). -/
def execTard (x : Issue) (r : Fin 64) (t t2 : Fin 16) (field : Fin 64) (s : State) : Host.Outcome State Fault Refusal :=
  issueTD x 0x05 r t t2 field (t.val == 0 && field.val == 0)
    (fun s => .next (s.setVr x.h r (ofLanes (fun j =>
      match s.tag x.h t2 with
      | 1 => visible (s.np x.h) (s.acc x.h t2 j)
      | 2 => (s.acc x.h t2 j).setWidth 32
      | _ => 0)))) s

/-- TAWR: v to a bank, as integers or as floats rounded to the accumulator format (R291). -/
def execTawr (x : Issue) (r : Fin 64) (t t2 : Fin 16) (field : Fin 64) (s : State) : Host.Outcome State Fault Refusal :=
  issueTD x 0x06 r t t2 field (t.val == 0 && field.val < 2)
    (fun s => .next (s.setBank x.h t2 (1 + field.val) (fun j =>
      let a := lane (s.vr x.h r) j
      if field.val = 0 then a.signExtend 40 else BitVec.ofNat 40 (toFacc (s.np x.h) a.toNat)))) s

/-! ### TMMA (R292 to R294) -/

/-- Classes of operand format (R168): 1 for 8-bit integers, 2 for 4-bit, 3 for FP8, 4 for BF16, 5 for BX8. -/
def mmaClass (fmt : Nat) : Nat :=
  match fmt with
  | 1 => 1
  | 2 => 1
  | 3 => 2
  | 4 => 3
  | 5 => 3
  | 6 => 4
  | 9 => 5
  | _ => 0

/-- Elements per step of a format pair; none where R168 does not list it. -/
def mmaK (a b : Nat) : Option Nat :=
  match mmaClass a, mmaClass b with
  | 1, 1 => some 32
  | 2, 2 => some 64
  | 1, 2 => some 64
  | 3, 3 => some 32
  | 4, 4 => some 16
  | 5, 5 => some 32
  | _, _ => none

/-- The kind tag of a format: 1 integer, 2 float (R272). -/
def mmaKind (fmt : Nat) : Nat := if mmaClass fmt = 1 ∨ mmaClass fmt = 2 then 1 else 2

/-- An integer operand: with `u` an INT4 code reads as UINT4 (R292). -/
def mmaInt (fmt : Nat) (u : Bool) (c : Nat) : Int := if u then (c % 16 : Nat) else intCode fmt c

/-- A floating operand, subnormals flushed with sub_in (R173). -/
def mmaFloat (np fmt c : Nat) : Fv :=
  match floatFmt fmt with
  | some f => Fv.decode f (Fv.flush (bitOf np 6) f c)
  | none => .nan

/-- A BX8 element under exponent `e`: with sub_in a value below FP32's normal range is zero (R173, R174). -/
def bxElem (np e c : Nat) : Int :=
  let q := signed 8 c
  if bitOf np 6 && q ≠ 0 && Fv.lt (Fv.num false q.natAbs ((e : Int) - 133)) (.num false 1 (-126)) then 0 else q

/-- A finite value cut toward zero to a multiple of 2^k. -/
def cutTo (k : Int) (x : Fv) : Fv :=
  match x with
  | .num n m e => if k ≤ e then x else .num n (m / 2 ^ (k - e).toNat) k
  | y => y

/-- Place of a value's leading bit. -/
def topBit (x : Fv) : Option Int :=
  match x with
  | .num _ m e => if m = 0 then none else some ((Nat.log2 m : Int) + e)
  | _ => none

/-- The addends as fsum selects (R172): whole, or each cut to 27 bits below the leading bit of the largest. -/
def mmaCut (np : Nat) (l : List Fv) : List Fv :=
  let top := l.foldl (fun (b : Option Int) x =>
    match b, topBit x with
    | none, t => t
    | b, none => b
    | some b, some t => some (max b t)) none
  if bitOf np 13 then (match top with
      | some t => l.map (cutTo (t - 27))
      | none => l) else l

/-- The sum of the addends (R172). -/
def mmaSum (np : Nat) (l : List Fv) : Fv :=
  match mmaCut np l with
  | [] => Fv.zero false
  | x :: r => r.foldl (fun a y => a.add (bits np 0 3 == 3) y) x

/-- A float accumulator after a step: rounded to FP32, then to the accumulator format, subnormal results flushed with
sub_out (R172, R173). -/
def mmaRound (np : Nat) (x : Fv) : Nat :=
  let rnd := bits np 0 3
  let f := faccFmt np
  let a := Fv.encode fp32 rnd false x
  let b := if f = fp32 then a else Fv.encode f rnd false (Fv.decode fp32 a)
  let b := Fv.flush (bitOf np 7) f b
  if f = fp32 then b else Fv.encode fp32 0 false (Fv.decode f b)

/-- One operand group of a step: its format, whether INT4 reads unsigned, its codes, its BX8 exponent. -/
structure MmaOp where
  fmt : Nat
  u : Bool
  code : Nat → Nat
  exp : Nat

/-- The integer pairs of a step (R168, R174): of the integer formats, and of BX8. -/
def mmaPairs (k : Nat) (a b : MmaOp) : List (Int × Int) :=
  (List.range k).map (fun i => (mmaInt a.fmt a.u (a.code i), mmaInt b.fmt b.u (b.code i)))
def bxPairs (np k : Nat) (a b : MmaOp) : List (Int × Int) :=
  (List.range k).map (fun i => (bxElem np a.exp (a.code i), bxElem np b.exp (b.code i)))

/-- The floating-point pairs of a step (R172, R173). -/
def fpPairs (np k : Nat) (a b : MmaOp) : List (Fv × Fv) :=
  (List.range k).map (fun i => (mmaFloat np a.fmt (a.code i), mmaFloat np b.fmt (b.code i)))

/-- Σ a_i × b_i. -/
def dot (l : List (Int × Int)) : Int := (l.map (fun q => q.1 * q.2)).sum

/-- Finite addends as integers in units of the smallest aligned weight (R179). -/
def aligned (l : List Fv) : List Int :=
  let e := l.foldl (fun (m : Int) x => min m x.expo) 0
  l.map (fun x => x.scaled e)

/-- The residue check of a step (R179): the new integer accumulator against the residue `held` of the old one and those of the
operands; of FP8 and BF16 the significand products and the aligned sum before rounding; of BX8 the integer dot product. -/
def mmaResidueOk (np k : Nat) (a b : MmaOp) (old : BitVec 40) (held : Nat) : Bool :=
  if mmaKind a.fmt = 1 then residue7 (dot (mmaPairs k a b) + old.toInt) == residueSum held (mmaPairs k a b)
  else if a.fmt = 9 then residue7 (dot (bxPairs np k a b)) == residueSum 0 (bxPairs np k a b)
  else
    let pairs := fpPairs np k a b
    let addends := mmaCut np (Fv.decode fp32 (old.toNat % 2 ^ 32) :: pairs.map (fun q => q.1.mul q.2))
    pairs.all (fun q => productOk q.1.signedM q.2.signedM) &&
      (!addends.all Fv.isFinite || residue7 (aligned addends).sum == residueSum 0 ((aligned addends).map (fun i => (i, 1))))

/-- One DPU step (R168, R169, R172 to R174): the new accumulator, and whether an integer sum left 40 bits (R170). -/
def mmaStep (np k : Nat) (a b : MmaOp) (old : BitVec 40) : BitVec 40 × Bool :=
  if mmaKind a.fmt = 1 then
    let sum := dot (mmaPairs k a b) + old.toInt
    let cut := max (-(2 ^ 39)) (min (2 ^ 39 - 1) sum)
    (BitVec.ofInt 40 cut, sum ≠ cut)
  else
    let acc := Fv.decode fp32 (old.toNat % 2 ^ 32)
    let prods : List Fv :=
      if a.fmt = 9 then
        if a.exp = 255 ∨ b.exp = 255 then [.nan]
        else
          let sum := dot (bxPairs np k a b)
          [.num (sum < 0) sum.natAbs ((a.exp : Int) + b.exp - 266)]
      else (fpPairs np k a b).map (fun q => q.1.mul q.2)
    (BitVec.ofNat 40 (mmaRound np (mmaSum np (acc :: prods))), false)

/-- Operand B of DPU `j` from the weight group vB and the exponents vE (R293). -/
def mmaB (vB : Nat → BitVec 2048) (vE : BitVec 2048) (fb : Nat) (ub : Bool) (j : Nat) : MmaOp :=
  let e := if fb = 9 then 8 else elemBits fb
  let word := bits (vB (j / 8)).toNat (256 * (j % 8)) 256
  { fmt := fb, u := ub, code := fun i => bits word (e * i) e, exp := bits vE.toNat (8 * j) 8 }

namespace State

/-- Steps `s0` up of a TMMA, `n` of them (R293): the descriptor's elements along d0 from each step's index.
A step whose residue check fails in a DPU, or meets an injection, aborts the thread (R179, R180, R355). -/
def mmaSteps (h vB tA bank0 vE ga fb dim k : Nat) (au ub : Bool) (det : Nat) : Nat → Nat → State → Ran
  | 0, _, s => .next s
  | n + 1, s0, s =>
    let d := s.tdesc h tA
    let i := d.start (s.g h ga)
    let i := i.set dim (i.getD dim 0 + s0)
    match s.tileLoad h d i k (if s0 = 0 then det else 0) with
    | ((.stop c, _), s) => .trap s c d.base
    | ((.wait, _), s) => .hold s
    | ((.ok _, codes, exps), s) =>
      let a : MmaOp := { fmt := d.fmt, u := au, code := codes, exp := exps 0 }
      let b (j : Nat) : MmaOp := mmaB (fun r => s.vr h (vB + r)) (s.vr h vE) fb ub j
      let out := (List.range 64).map (fun j => mmaStep (s.np h) k a (b j) (s.acc h (bank0 + s0) j))
      let odd := (List.range 64).find? (fun j =>
        !mmaResidueOk (s.np h) k a (b j) (s.acc h (bank0 + s0) j) (s.accRes h (bank0 + s0) j))
      let s := s.ctAdd (0x60 + coreOf h) (64 * k)
      if s.injHits 8 (coreOf h) && s.firstRunning (coreOf h) (seqOf h % 16) then
        .hold (s.injectStep (coreOf h) (seqOf h % 16))
      else if odd.isSome then .hold (s.residue (coreOf h) (seqOf h % 16) (odd.getD 0) false)
      else if out.any (·.2) then .trap s 0x13 0
      else mmaSteps h vB tA bank0 vE ga fb dim k au ub det n (s0 + 1)
        (s.setBank h (bank0 + s0) (mmaKind d.fmt) (fun j => (out.getD j (0, false)).1))

end State

/-- The first word of TMMA, and its second (R279). -/
def wordTL (vB tA bank0 n1 fn : Nat) : Nat := 0x3E * 2 ^ 26 + vB * 2 ^ 20 + tA * 2 ^ 16 + bank0 * 2 ^ 12 + n1 * 2 ^ 8 + fn

def wordTL2 (vE ga fb : Nat) (au ub : Bool) (low : Nat) : Nat :=
  0x3F * 2 ^ 26 + vE * 2 ^ 20 + ga * 2 ^ 15 + fb * 2 ^ 11 + bit au * 2 ^ 10 + bit ub * 2 ^ 9 + low

/-- The fields of a TMMA are legal (R292, R293). -/
def mmaFields (fn vB bank0 n1 vE fb low : Nat) : Bool :=
  fn < 2 && vB % 8 == 0 && bank0 + n1 < 16 && low == 0 && (fb == 9 || vE == 0)

/-- The formats of a TMMA are legal (R168, R292).  An invalid tA has no format: only B's is then tested, and ERR_TDESC follows. -/
def mmaFormats (d : Desc) (fb : Nat) (au ub : Bool) : Bool :=
  (if d.valid then (mmaK d.fmt fb).isSome && (!au || d.fmt == 3) else mmaClass fb != 0) && (!ub || fb == 3)

/-- TMMA: n dot-product steps into consecutive banks, of weight n, in eight bytes (R262, R292 to R294). -/
def execTmma (x : Issue) (fn : BitVec 8) (vB : Fin 64) (tA bank0 n1 : Fin 16) (vE : Fin 64) (ga : Fin 32) (fb : Fin 16)
    (au ub : Bool) (low : BitVec 9) (det : Fin 3) (s : State) : Host.Outcome State Fault Refusal :=
  let h := x.h.val
  let n := n1.val + 1
  let tile := State.isTile h
  let s := (s.start x.t).settleWait h
  done (s.run1 h (if tile then 8 else 4) x.det
    (wordTL vB tA bank0 n1 fn.toNat + (if tile then 2 ^ 32 * wordTL2 vE ga fb au ub low.toNat else 0)) x.rf (fun _ => if tile then n else 1)
    (fun s => tile && mmaFields fn.toNat vB bank0 n1 vE fb low.toNat && mmaFormats (s.tdesc h tA) fb au ub)
    (fun s =>
      let d := s.tdesc h tA
      if !d.valid || !d.onBlock (d.start (s.g h ga)) then .trap s 0x10 0
      else if (List.range n).any (fun q => s.tag h (bank0 + q) ≠ 0 && s.tag h (bank0 + q) ≠ mmaKind d.fmt) then .trap s 0x11 0
      else if d.isOut then .trap s 0x12 0
      else State.mmaSteps h vB tA bank0 vE ga fb (1 + fn.toNat) ((mmaK d.fmt fb).getD 0) au ub det n 0 s))

end Sys2Proof.Machine
end

