-- ==== Sys2Proof/Machine/Dispatch.lean ====
section
/-! DEFINITION. The effect of each command: one arm for each constructor of `Instr`, one direct call each. -/

namespace Sys2Proof.Machine

def exec (i : Instr) (s : State) : Host.Outcome State Fault Refusal :=
  match i with
  | .registerWrite t master addr size value => Sys2Proof.Machine.execRegisterWrite t master addr size value s
  | .lowWordRead t master addr size => Sys2Proof.Machine.execLowWordRead t master addr size s
  | .enable t n => Sys2Proof.Machine.execEnable t n s
  | .disable t n => Sys2Proof.Machine.execDisable t n s
  | .readmit t n => Sys2Proof.Machine.execReadmit t n s
  | .clearFallow t n => Sys2Proof.Machine.execClearFallow t n s
  | .forceDoubt t n => Sys2Proof.Machine.execForceDoubt t n s
  | .clearCounts t n => Sys2Proof.Machine.execClearCounts t n s
  | .evidenceDeadline t n => Sys2Proof.Machine.execEvidenceDeadline t n s
  | .verdictDeadline t n => Sys2Proof.Machine.execVerdictDeadline t n s
  | .decideFrame t n => Sys2Proof.Machine.execDecideFrame t n s
  | .accResetPulseEnd t a => Sys2Proof.Machine.execAccResetPulseEnd t a s
  | .accPowerOffEnd t a => Sys2Proof.Machine.execAccPowerOffEnd t a s
  | .accSettleEnd t a => Sys2Proof.Machine.execAccSettleEnd t a s
  | .readmitDelayExpire t n => Sys2Proof.Machine.execReadmitDelayExpire t n s
  | .cinFrameStart t p fn hd => Sys2Proof.Machine.execCinFrameStart t p fn hd s
  | .frameStartTimeout t p => Sys2Proof.Machine.execFrameStartTimeout t p s
  | .cinImageLine t p start data hd crcOk full => Sys2Proof.Machine.execCinImageLine t p start data hd crcOk full s
  | .cinEmbeddedLine t p len hd crcOk => Sys2Proof.Machine.execCinEmbeddedLine t p len hd crcOk s
  | .cinFrameEnd t p fn hd => Sys2Proof.Machine.execCinFrameEnd t p fn hd s
  | .lineStartPacket t eport p hd => Sys2Proof.Machine.execLineStartPacket t eport p hd s
  | .cinDroppedPacket t p ecc => Sys2Proof.Machine.execCinDroppedPacket t p ecc s
  | .slotReady t p => Sys2Proof.Machine.execSlotReady t p s
  | .groupComplete t n => Sys2Proof.Machine.execGroupComplete t n s
  | .fallbackGraphLaunch t n => Sys2Proof.Machine.execFallbackGraphLaunch t n s
  | .forwardLine t p => Sys2Proof.Machine.execForwardLine t p s
  | .patchLines t p => Sys2Proof.Machine.execPatchLines t p s
  | .monLine t m p taken => Sys2Proof.Machine.execMonLine t m p taken s
  | .einFrameStart t e vc fn ecc => Sys2Proof.Machine.execEinFrameStart t e vc fn ecc s
  | .evidencePacket t e vc result data ecc crcOk => Sys2Proof.Machine.execEvidencePacket t e vc result data ecc crcOk s
  | .einFrameEnd t e vc fn ecc => Sys2Proof.Machine.execEinFrameEnd t e vc fn ecc s
  | .einDroppedPacket t e ecc => Sys2Proof.Machine.execEinDroppedPacket t e ecc s
  | .gcmTagVerify t n key => Sys2Proof.Machine.execGcmTagVerify t n key s
  | .einSilence t e => Sys2Proof.Machine.execEinSilence t e s
  | .vp2EntryStart t => Sys2Proof.Machine.execVp2EntryStart t s
  | .residueMismatch t core engine dpus => Sys2Proof.Machine.execResidueMismatch t core engine dpus s
  | .g6BurstRetry t c retries addr fate => Sys2Proof.Machine.execG6BurstRetry t c retries addr fate s
  | .flitResend t group => Sys2Proof.Machine.execFlitResend t group s
  | .droopStretch t core cycles => Sys2Proof.Machine.execDroopStretch t core cycles s
  | .droopHold t core => Sys2Proof.Machine.execDroopHold t core s
  | .droopHoldEnd t core => Sys2Proof.Machine.execDroopHoldEnd t core s
  | .pwrIntervalEnd t die p => Sys2Proof.Machine.execPwrIntervalEnd t die p s
  | .cxPwrCap t die value => Sys2Proof.Machine.execCxPwrCap t die value s
  | .gsLaunch t die addr => Sys2Proof.Machine.execGsLaunch t die addr s
  | .instanceStart t die cls => Sys2Proof.Machine.execInstanceStart t die cls s
  | .nodeAdmit t die => Sys2Proof.Machine.execNodeAdmit t die s
  | .threadIssue t core n => Sys2Proof.Machine.execThreadIssue t core n s
  | .threadSwitch t core engine park stalled => Sys2Proof.Machine.execThreadSwitch t core engine park stalled s
  | .nodeComplete t die => Sys2Proof.Machine.execNodeComplete t die s
  | .completionMessage t die => Sys2Proof.Machine.execCompletionMessage t die s
  | .nodeReplay t die => Sys2Proof.Machine.execNodeReplay t die s
  | .instanceEnd t die => Sys2Proof.Machine.execInstanceEnd t die s
  | .gsStop t die ctx fid => Sys2Proof.Machine.execGsStop t die ctx fid s
  | .gsTrigFire t die mask => Sys2Proof.Machine.execGsTrigFire t die mask s
  | .triggerPeriod t die trig => Sys2Proof.Machine.execTriggerPeriod t die trig s
  | .safetyWindowOpen t die w => Sys2Proof.Machine.execSafetyWindowOpen t die w s
  | .safetyWindowClose t die w => Sys2Proof.Machine.execSafetyWindowClose t die w s
  | .op x fn rd ra rb => Sys2Proof.Machine.execOp x fn rd ra rb s
  | .op32 x fn rd ra rb => Sys2Proof.Machine.execOp32 x fn rd ra rb s
  | .addi x rd ra imm => Sys2Proof.Machine.execAddi x rd ra imm s
  | .addi32 x rd ra imm => Sys2Proof.Machine.execAddi32 x rd ra imm s
  | .andi x rd ra imm => Sys2Proof.Machine.execAndi x rd ra imm s
  | .ori x rd ra imm => Sys2Proof.Machine.execOri x rd ra imm s
  | .xori x rd ra imm => Sys2Proof.Machine.execXori x rd ra imm s
  | .shi x rd ra imm => Sys2Proof.Machine.execShi x rd ra imm s
  | .lih x rd ra imm => Sys2Proof.Machine.execLih x rd ra imm s
  | .addpch x rd ra imm => Sys2Proof.Machine.execAddpch x rd ra imm s
  | .cmp x fn pd ra rb => Sys2Proof.Machine.execCmp x fn pd ra rb s
  | .cmpi x cc pd ra imm => Sys2Proof.Machine.execCmpi x cc pd ra imm s
  | .pred x fn rd ra rb => Sys2Proof.Machine.execPred x fn rd ra rb s
  | .br x p n off => Sys2Proof.Machine.execBr x p n off s
  | .jal x rd off => Sys2Proof.Machine.execJal x rd off s
  | .jalr x rd ra imm => Sys2Proof.Machine.execJalr x rd ra imm s
  | .lb x rd ra imm det => Sys2Proof.Machine.execLb x rd ra imm det s
  | .lbu x rd ra imm det => Sys2Proof.Machine.execLbu x rd ra imm det s
  | .lh x rd ra imm det => Sys2Proof.Machine.execLh x rd ra imm det s
  | .lhu x rd ra imm det => Sys2Proof.Machine.execLhu x rd ra imm det s
  | .lw x rd ra imm det => Sys2Proof.Machine.execLw x rd ra imm det s
  | .lwu x rd ra imm det => Sys2Proof.Machine.execLwu x rd ra imm det s
  | .ld x rd ra imm det => Sys2Proof.Machine.execLd x rd ra imm det s
  | .sb x rs ra imm => Sys2Proof.Machine.execSb x rs ra imm s
  | .sh x rs ra imm => Sys2Proof.Machine.execSh x rs ra imm s
  | .sw x rs ra imm => Sys2Proof.Machine.execSw x rs ra imm s
  | .sd x rs ra imm => Sys2Proof.Machine.execSd x rs ra imm s
  | .storeError t h => Sys2Proof.Machine.execStoreError t h s
  | .amo x fn rd ra rb det => Sys2Proof.Machine.execAmo x fn rd ra rb det s
  | .barrier x rd ra imm => Sys2Proof.Machine.execBarrier x rd ra imm s
  | .nop x rd ra rb => Sys2Proof.Machine.execNop x rd ra rb s
  | .texit x rd ra rb => Sys2Proof.Machine.execTexit x rd ra rb s
  | .trap x rd ra rb => Sys2Proof.Machine.execTrap x rd ra rb s
  | .tret x rd ra rb => Sys2Proof.Machine.execTret x rd ra rb s
  | .idle x rd ra rb => Sys2Proof.Machine.execIdle x rd ra rb s
  | .brk x rd ra rb => Sys2Proof.Machine.execBrk x rd ra rb s
  | .ntret x rd ra rb => Sys2Proof.Machine.execNtret x rd ra rb s
  | .ctlRd x rd ra csr => Sys2Proof.Machine.execCtlRd x rd ra csr s
  | .ctlWr x rd ra csr => Sys2Proof.Machine.execCtlWr x rd ra csr s
  | .ctlSet x rd ra csr => Sys2Proof.Machine.execCtlSet x rd ra csr s
  | .ctlClr x rd ra csr => Sys2Proof.Machine.execCtlClr x rd ra csr s
  | .ctlXwr x rd ra csr => Sys2Proof.Machine.execCtlXwr x rd ra csr s
  | .ctlXset x rd ra csr => Sys2Proof.Machine.execCtlXset x rd ra csr s
  | .ctlXclr x rd ra csr => Sys2Proof.Machine.execCtlXclr x rd ra csr s
  | .evsend x rd ra rb => Sys2Proof.Machine.execEvsend x rd ra rb s
  | .evwait x rd ra rb => Sys2Proof.Machine.execEvwait x rd ra rb s
  | .evwaitWake t h => Sys2Proof.Machine.execEvwaitWake t h s
  | .evwaitTimeout t h => Sys2Proof.Machine.execEvwaitTimeout t h s
  | .interruptEntry t h => Sys2Proof.Machine.execInterruptEntry t h s
  | .alarmDue t h => Sys2Proof.Machine.execAlarmDue t h s
  | .nmiEntry t h => Sys2Proof.Machine.execNmiEntry t h s
  | .vi x fn vd va vb p => Sys2Proof.Machine.execVi x fn vd va vb p s
  | .vf x fn vd va vb p => Sys2Proof.Machine.execVf x fn vd va vb p s
  | .vc x fn vd va vb p => Sys2Proof.Machine.execVc x fn vd va vb p s
  | .vact x vd va vb p => Sys2Proof.Machine.execVact x vd va vb p s
  | .vred x vd va vb p => Sys2Proof.Machine.execVred x vd va vb p s
  | .vbcast x vd va vb p => Sys2Proof.Machine.execVbcast x vd va vb p s
  | .vext x vd va vb p => Sys2Proof.Machine.execVext x vd va vb p s
  | .vins x vd va vb p => Sys2Proof.Machine.execVins x vd va vb p s
  | .vcmp x vd va vb p => Sys2Proof.Machine.execVcmp x vd va vb p s
  | .vfcmp x vd va vb p => Sys2Proof.Machine.execVfcmp x vd va vb p s
  | .vselv x vd va vb p => Sys2Proof.Machine.execVselv x vd va vb p s
  | .vperm x vd va vb p => Sys2Proof.Machine.execVperm x vd va vb p s
  | .vidx x vd va vb p => Sys2Proof.Machine.execVidx x vd va vb p s
  | .vmov x vd va vb p => Sys2Proof.Machine.execVmov x vd va vb p s
  | .tldR x v t ga gb det => Sys2Proof.Machine.execTldR x v t ga gb det s
  | .tldW x v t ga gb det => Sys2Proof.Machine.execTldW x v t ga gb det s
  | .tlde x v t ga gb det => Sys2Proof.Machine.execTlde x v t ga gb det s
  | .tstR x v t ga gb => Sys2Proof.Machine.execTstR x v t ga gb s
  | .tstF x v t ga gb => Sys2Proof.Machine.execTstF x v t ga gb s
  | .tstI x v t ga gb => Sys2Proof.Machine.execTstI x v t ga gb s
  | .tstaI x v t ga gb det => Sys2Proof.Machine.execTstaI x v t ga gb det s
  | .tstaF x v t ga gb det => Sys2Proof.Machine.execTstaF x v t ga gb det s
  | .tget x r t t2 field => Sys2Proof.Machine.execTget x r t t2 field s
  | .tset x r t t2 field => Sys2Proof.Machine.execTset x r t t2 field s
  | .tadv x r t t2 field => Sys2Proof.Machine.execTadv x r t t2 field s
  | .tmov x r t t2 field => Sys2Proof.Machine.execTmov x r t t2 field s
  | .taclr x r t t2 field => Sys2Proof.Machine.execTaclr x r t t2 field s
  | .tard x r t t2 field => Sys2Proof.Machine.execTard x r t t2 field s
  | .tawr x r t t2 field => Sys2Proof.Machine.execTawr x r t t2 field s
  | .tmma x fn vB tA bank0 n1 vE ga fb au ub low det => Sys2Proof.Machine.execTmma x fn vB tA bank0 n1 vE ga fb au ub low det s
  | .gleanerWrite t => Sys2Proof.Machine.execGleanerWrite t s
  | .triggerMarker t => Sys2Proof.Machine.execTriggerMarker t s
  | .ctArm t => Sys2Proof.Machine.execCtArm t s
  | .ctClrCnt t => Sys2Proof.Machine.execCtClrCnt t s
  | .ctTrigFire t value => Sys2Proof.Machine.execCtTrigFire t value s
  | .vpMismatch t pair group => Sys2Proof.Machine.execVpMismatch t pair group s
  | .pairRestartDone t pair failed => Sys2Proof.Machine.execPairRestartDone t pair failed s
  | .roleResume t role => Sys2Proof.Machine.execRoleResume t role s
  | .mailboxRequest t via frame => Sys2Proof.Machine.execMailboxRequest t via frame s
  | .ping t via tag => Sys2Proof.Machine.execPing t via tag s
  | .status t via tag => Sys2Proof.Machine.execStatus t via tag s
  | .readReg t via tag addr count => Sys2Proof.Machine.execReadReg t via tag addr count s
  | .writeReg t via tag addr words => Sys2Proof.Machine.execWriteReg t via tag addr words s
  | .vdCommand t via tag value => Sys2Proof.Machine.execVdCommand t via tag value s
  | .readRetained t via tag offset len => Sys2Proof.Machine.execReadRetained t via tag offset len s
  | .clearRetained t via tag mask => Sys2Proof.Machine.execClearRetained t via tag mask s
  | .attest t via tag nonce offset => Sys2Proof.Machine.execAttest t via tag nonce offset s
  | .attestReportReady t => Sys2Proof.Machine.execAttestReportReady t s
  | .confirmSps t via tag value => Sys2Proof.Machine.execConfirmSps t via tag value s
  | .fallowList t via tag start => Sys2Proof.Machine.execFallowList t via tag start s
  | .returnToService t via tag kind num => Sys2Proof.Machine.execReturnToService t via tag kind num s
  | .reset t via tag target => Sys2Proof.Machine.execReset t via tag target s
  | .resetDelayExpire t => Sys2Proof.Machine.execResetDelayExpire t s
  | .sessionChallenge t via tag => Sys2Proof.Machine.execSessionChallenge t via tag s
  | .sessionOpen t via tag answer => Sys2Proof.Machine.execSessionOpen t via tag answer s
  | .sessionClose t via tag => Sys2Proof.Machine.execSessionClose t via tag s
  | .sessionIdleTimeout t => Sys2Proof.Machine.execSessionIdleTimeout t s
  | .sentinelEntry t cause => Sys2Proof.Machine.execSentinelEntry t cause s
  | .chipResetStart t => Sys2Proof.Machine.execChipResetStart t s
  | .fcAck t value => Sys2Proof.Machine.execFcAck t value s
  | .fcClrRec t => Sys2Proof.Machine.execFcClrRec t s
  | .fcClrIrq t => Sys2Proof.Machine.execFcClrIrq t s
  | .fcClrCnt t => Sys2Proof.Machine.execFcClrCnt t s
  | .fcRaise t value => Sys2Proof.Machine.execFcRaise t value s
  | .fcInj t value => Sys2Proof.Machine.execFcInj t value s
  | .quietPeriodEnd t => Sys2Proof.Machine.execQuietPeriodEnd t s
  | .flashRecordWrite t => Sys2Proof.Machine.execFlashRecordWrite t s
  | .keyA t w master => Sys2Proof.Machine.execKeyA t w master s
  | .keyB t w master => Sys2Proof.Machine.execKeyB t w master s
  | .badKey t w master key => Sys2Proof.Machine.execBadKey t w master key s
  | .keyLapse t w => Sys2Proof.Machine.execKeyLapse t w s
  | .watchdogExpire t w => Sys2Proof.Machine.execWatchdogExpire t w s
  | .watchdogResetStart t => Sys2Proof.Machine.execWatchdogResetStart t s
  | .wdClr t value => Sys2Proof.Machine.execWdClr t value s
  | .sliceSlotStart t core => Sys2Proof.Machine.execSliceSlotStart t core s
  | .logicTestStart t core => Sys2Proof.Machine.execLogicTestStart t core s
  | .sliceAbandon t core => Sys2Proof.Machine.execSliceAbandon t core s
  | .sliceEnd t core fails => Sys2Proof.Machine.execSliceEnd t core fails s
  | .katStart t core => Sys2Proof.Machine.execKatStart t core s
  | .katEnd t core failed => Sys2Proof.Machine.execKatEnd t core failed s
  | .stLapse t core kat engine => Sys2Proof.Machine.execStLapse t core kat engine s
  | .scrubberLostWord t at_ => Sys2Proof.Machine.execScrubberLostWord t at_ s
  | .dmaRegenReq t addr => Sys2Proof.Machine.execDmaRegenReq t addr s
  | .regenUnitStart t => Sys2Proof.Machine.execRegenUnitStart t s
  | .regenUnitDone t bad1 bad2 => Sys2Proof.Machine.execRegenUnitDone t bad1 bad2 s
  | .dmaChNext t k high => Sys2Proof.Machine.execDmaChNext t k high s
  | .dmaRequest t req => Sys2Proof.Machine.execDmaRequest t req s
  | .dmaChCtrlReq t k => Sys2Proof.Machine.execDmaChCtrlReq t k s
  | .descriptorFetch t k det => Sys2Proof.Machine.execDescriptorFetch t k det s
  | .dmaBurst t det => Sys2Proof.Machine.execDmaBurst t det s
  | .dmaWriteResponse t k n status => Sys2Proof.Machine.execDmaWriteResponse t k n status s
  | .dmaEndOfCount t k => Sys2Proof.Machine.execDmaEndOfCount t k s
  | .dmaAbort t k => Sys2Proof.Machine.execDmaAbort t k s
  | .dmaModeChange t => Sys2Proof.Machine.execDmaModeChange t s
  | .dmaClr t value => Sys2Proof.Machine.execDmaClr t value s
  | .crcScanGo t u value => Sys2Proof.Machine.execCrcScanGo t u value s
  | .crcScanEnd t u det => Sys2Proof.Machine.execCrcScanEnd t u det s
  | .crcClr t value => Sys2Proof.Machine.execCrcClr t value s
  | .tmStep t high => Sys2Proof.Machine.execTmStep t high s
  | .tmOfs t high => Sys2Proof.Machine.execTmOfs t high s
  | .tmRate t rate => Sys2Proof.Machine.execTmRate t rate s
  | .servoLoss t => Sys2Proof.Machine.execServoLoss t s
  | .replicaSync t => Sys2Proof.Machine.execReplicaSync t s
  | .etsRead t x => Sys2Proof.Machine.execEtsRead t x s
  | .tmClr t value => Sys2Proof.Machine.execTmClr t value s
  | .ethLinkDown t x => Sys2Proof.Machine.execEthLinkDown t x s
  | .ethLinkUp t x rate => Sys2Proof.Machine.execEthLinkUp t x rate s
  | .ethRateChange t x rate => Sys2Proof.Machine.execEthRateChange t x rate s
  | .ethFrameReceive t x fcsOk frame => Sys2Proof.Machine.execEthFrameReceive t x fcsOk frame s
  | .compareTimeout t peer seq => Sys2Proof.Machine.execCompareTimeout t peer seq s
  | .ethTxlate t x n => Sys2Proof.Machine.execEthTxlate t x n s
  | .bulkData t x tag offset data => Sys2Proof.Machine.execBulkData t x tag offset data s
  | .ethClr t value => Sys2Proof.Machine.execEthClr t value s
  | .i3cPrivateRead t hdr len => Sys2Proof.Machine.execI3cPrivateRead t hdr len s
  | .ibiRetry t acked => Sys2Proof.Machine.execIbiRetry t acked s
  | .enec t events => Sys2Proof.Machine.execEnec t events s
  | .disec t events => Sys2Proof.Machine.execDisec t events s
  | .entas t n => Sys2Proof.Machine.execEntas t n s
  | .rstdaa t => Sys2Proof.Machine.execRstdaa t s
  | .entdaa t addr => Sys2Proof.Machine.execEntdaa t addr s
  | .setdasa t sa addr => Sys2Proof.Machine.execSetdasa t sa addr s
  | .setnewda t addr => Sys2Proof.Machine.execSetnewda t addr s
  | .setmwl t len => Sys2Proof.Machine.execSetmwl t len s
  | .setmrl t len => Sys2Proof.Machine.execSetmrl t len s
  | .getmwl t => Sys2Proof.Machine.execGetmwl t s
  | .getmrl t => Sys2Proof.Machine.execGetmrl t s
  | .getpid t => Sys2Proof.Machine.execGetpid t s
  | .getbcr t => Sys2Proof.Machine.execGetbcr t s
  | .getdcr t => Sys2Proof.Machine.execGetdcr t s
  | .getstatus t => Sys2Proof.Machine.execGetstatus t s
  | .getmxds t => Sys2Proof.Machine.execGetmxds t s
  | .getcaps t => Sys2Proof.Machine.execGetcaps t s
  | .enthdr0 t => Sys2Proof.Machine.execEnthdr0 t s
  | .rstact t action => Sys2Proof.Machine.execRstact t action s
  | .i3cCCmd t value => Sys2Proof.Machine.execI3cCCmd t value s
  | .i3cCTransferEnd t st data => Sys2Proof.Machine.execI3cCTransferEnd t st data s
  | .i3cCIbiReceive t addr payload => Sys2Proof.Machine.execI3cCIbiReceive t addr payload s
  | .i3cCIbi t => Sys2Proof.Machine.execI3cCIbi t s
  | .xspRead t x op cs => Sys2Proof.Machine.execXspRead t x op cs s
  | .xspProgram t x op cs => Sys2Proof.Machine.execXspProgram t x op cs s
  | .xspErase t x op cs => Sys2Proof.Machine.execXspErase t x op cs s
  | .xspRegisterAccess t x op cs => Sys2Proof.Machine.execXspRegisterAccess t x op cs s
  | .xspCmdDone t x fails data => Sys2Proof.Machine.execXspCmdDone t x fails data s
  | .xspBusyTimeout t x => Sys2Proof.Machine.execXspBusyTimeout t x s
  | .xspClr t value => Sys2Proof.Machine.execXspClr t value s
  | .partnerFault t => Sys2Proof.Machine.execPartnerFault t s
  | .heartbeat t h echo arrived => Sys2Proof.Machine.execHeartbeat t h echo arrived s
  | .decision t h n fid state causes hist doubt nofb noinput => Sys2Proof.Machine.execDecision t h n fid state causes hist doubt nofb noinput s
  | .state t h x => Sys2Proof.Machine.execState t h x s
  | .keys t h n admitCtr epoch => Sys2Proof.Machine.execKeys t h n admitCtr epoch s
  | .time t h ns => Sys2Proof.Machine.execTime t h ns s
  | .frame t h p fid stamp => Sys2Proof.Machine.execFrame t h p fid stamp s
  | .log t h x => Sys2Proof.Machine.execLog t h x s
  | .handOver t h last => Sys2Proof.Machine.execHandOver t h last s
  | .ack t h seqs => Sys2Proof.Machine.execAck t h seqs s
  | .bulk t h offset data => Sys2Proof.Machine.execBulk t h offset data s
  | .mlResend t seq => Sys2Proof.Machine.execMlResend t seq s
  | .mlLinkUp t h => Sys2Proof.Machine.execMlLinkUp t h s
  | .heartbeatSend t => Sys2Proof.Machine.execHeartbeatSend t s
  | .heartbeatMiss t => Sys2Proof.Machine.execHeartbeatMiss t s
  | .timeSend t => Sys2Proof.Machine.execTimeSend t s
  | .arbitrationWaitExpire t => Sys2Proof.Machine.execArbitrationWaitExpire t s
  | .mlCmdHandOver t => Sys2Proof.Machine.execMlCmdHandOver t s
  | .handOverTimeout t => Sys2Proof.Machine.execHandOverTimeout t s
  | .resync t => Sys2Proof.Machine.execResync t s
  | .mlClr t value => Sys2Proof.Machine.execMlClr t value s
  | .program t field => Sys2Proof.Machine.execProgram t field s
  | .provId t => Sys2Proof.Machine.execProvId t s
  | .lock t => Sys2Proof.Machine.execLock t s
  | .challenge t => Sys2Proof.Machine.execChallenge t s
  | .returnToken t sigOk => Sys2Proof.Machine.execReturnToken t sigOk s
  | .keyEpoch t all n => Sys2Proof.Machine.execKeyEpoch t all n s
  | .verdictEpoch t => Sys2Proof.Machine.execVerdictEpoch t s
  | .rotate t => Sys2Proof.Machine.execRotate t s
  | .sweepDone t => Sys2Proof.Machine.execSweepDone t s
  | .pageJobStart t decrypt => Sys2Proof.Machine.execPageJobStart t decrypt s
  | .pageJobEnd t det => Sys2Proof.Machine.execPageJobEnd t det s
  | .rngHealthFail t => Sys2Proof.Machine.execRngHealthFail t s
  | .drbgReseed t => Sys2Proof.Machine.execDrbgReseed t s
  | .drbgStop t => Sys2Proof.Machine.execDrbgStop t s
  | .secClr t value => Sys2Proof.Machine.execSecClr t value s
  | .porstNRelease t pairRole tmode => Sys2Proof.Machine.execPorstNRelease t pairRole tmode s
  | .bootStageEnd t stop diff auth granFails => Sys2Proof.Machine.execBootStageEnd t stop diff auth granFails s
  | .commit t sigOk => Sys2Proof.Machine.execCommit t sigOk s
  | .spsFlashWriteDone t => Sys2Proof.Machine.execSpsFlashWriteDone t s
  | .updBegin t => Sys2Proof.Machine.execUpdBegin t s
  | .sectorEraseDone t => Sys2Proof.Machine.execSectorEraseDone t s
  | .updVerify t sigOk => Sys2Proof.Machine.execUpdVerify t sigOk s
  | .updActivate t => Sys2Proof.Machine.execUpdActivate t s
  | .updConfirm t => Sys2Proof.Machine.execUpdConfirm t s
  | .updAbort t => Sys2Proof.Machine.execUpdAbort t s
  | .sysRstCmd t value => Sys2Proof.Machine.execSysRstCmd t value s
  | .partialResetDone t die => Sys2Proof.Machine.execPartialResetDone t die s
  | .sinLevelChange t k chanB level => Sys2Proof.Machine.execSinLevelChange t k chanB level s
  | .discrepancyExpire t k => Sys2Proof.Machine.execDiscrepancyExpire t k s
  | .testPulseStart t o => Sys2Proof.Machine.execTestPulseStart t o s
  | .testPulseEnd t o => Sys2Proof.Machine.execTestPulseEnd t o s
  | .readbackMismatch t o level => Sys2Proof.Machine.execReadbackMismatch t o level s
  | .readbackRelease t o => Sys2Proof.Machine.execReadbackRelease t o s
  | .powerUp t a => Sys2Proof.Machine.execPowerUp t a s
  | .powerDown t a => Sys2Proof.Machine.execPowerDown t a s
  | .releaseAcc t a => Sys2Proof.Machine.execReleaseAcc t a s
  | .accPadMismatch t a ball level => Sys2Proof.Machine.execAccPadMismatch t a ball level s
  | .sioClr t value => Sys2Proof.Machine.execSioClr t value s
  | .lbGo t => Sys2Proof.Machine.execLbGo t s
  | .lbAbort t => Sys2Proof.Machine.execLbAbort t s
  | .loopbackLock t => Sys2Proof.Machine.execLoopbackLock t s
  | .loopbackLockTimeout t => Sys2Proof.Machine.execLoopbackLockTimeout t s
  | .loopbackEnd t count errs first moved => Sys2Proof.Machine.execLoopbackEnd t count errs first moved s
  | .bypass t => Sys2Proof.Machine.execBypass t s
  | .idcode t => Sys2Proof.Machine.execIdcode t s
  | .samplePreload t scan => Sys2Proof.Machine.execSamplePreload t scan s
  | .extest t scan => Sys2Proof.Machine.execExtest t scan s
  | .clamp t => Sys2Proof.Machine.execClamp t s
  | .highz t => Sys2Proof.Machine.execHighz t s
  | .dbgAccess t write addr value => Sys2Proof.Machine.execDbgAccess t write addr value s
  | .porstNAssert t ns => Sys2Proof.Machine.execPorstNAssert t ns s
  | .wrstN t ns => Sys2Proof.Machine.execWrstN t ns s
  | .railOutOfWindow t k => Sys2Proof.Machine.execRailOutOfWindow t k s
  | .railBelowThreshold t k => Sys2Proof.Machine.execRailBelowThreshold t k s
  | .resetHoldEnd t => Sys2Proof.Machine.execResetHoldEnd t s
  | .pllLockLoss t die => Sys2Proof.Machine.execPllLockLoss t die s
  | .tempSample t w c0 c1 c2 c3 => Sys2Proof.Machine.execTempSample t w c0 c1 c2 c3 s
  | .avsStep t die => Sys2Proof.Machine.execAvsStep t die s
  | .sysAvs t die value => Sys2Proof.Machine.execSysAvs t die value s
  | .fpClr t value => Sys2Proof.Machine.execFpClr t value s
  | .evClrCtx t value => Sys2Proof.Machine.execEvClrCtx t value s
  | .evClrEin t value => Sys2Proof.Machine.execEvClrEin t value s
  | .ckClr t value => Sys2Proof.Machine.execCkClr t value s
  | .cxClr t die value => Sys2Proof.Machine.execCxClr t die value s
  | .gsClr t die value => Sys2Proof.Machine.execGsClr t die value s
  | .peerTimeout t k => Sys2Proof.Machine.execPeerTimeout t k s
  | .railInWindow t k => Sys2Proof.Machine.execRailInWindow t k s
  | .partnerFaultRelease t => Sys2Proof.Machine.execPartnerFaultRelease t s
  | .i3cProtocolError t te => Sys2Proof.Machine.execI3cProtocolError t te s
  | .ethFrameTransmit t x ptp dst => Sys2Proof.Machine.execEthFrameTransmit t x ptp dst s
  | .linkTrainingDone t num => Sys2Proof.Machine.execLinkTrainingDone t num s
  | .blockResetDone t src => Sys2Proof.Machine.execBlockResetDone t src s
  | .updateCommandDone t => Sys2Proof.Machine.execUpdateCommandDone t s
  | .fcSelfDifference t => Sys2Proof.Machine.execFcSelfDifference t s
  | .g6TemperatureReport t ch hot => Sys2Proof.Machine.execG6TemperatureReport t ch hot s
  | .lifecycleReturnReset t => Sys2Proof.Machine.execLifecycleReturnReset t s

end Sys2Proof.Machine
end

