-- ==== Sys2Proof/Safety.lean ====
section
/-! DEFINITION. The terms the statements use: what a command comes to, and what it leaves as it was. -/

namespace Sys2Proof.Machine

open Sys2Proof

/-- An outcome is a next state of which `P` holds. -/
def Ends (o : Host.Outcome State Fault Refusal) (P : State → Prop) : Prop := ∃ u, o = .next u ∧ P u

/-- Command `c` in state `s` ends in a next state of which `P` holds. -/
def Completes (c : Instr) (s : State) (P : State → Prop) : Prop := Ends (exec c s) P

/-- Every byte of device memory reads as it did. -/
def SameMemory (s u : State) : Prop := ∀ a, u.byte a = s.byte a

/-- Every byte of device memory reads as it did, but for the `n` bytes from address `a`. -/
def SameMemoryBut (a n : Nat) (s u : State) : Prop :=
  ∀ b, (∀ i, i < n → State.phys b ≠ State.phys (a + i)) → u.byte b = s.byte b

/-- The words that time moves: TM_TIME and TM_FRAC (R407). -/
def ClockWord (a : Nat) : Prop := a = A.TM_TIME ∨ a = A.TM_TIME + 4 ∨ a = A.TM_FRAC

/-- Every register word reads as it did, but for those of `W` and the clock's. -/
def SameWords (W : Nat → Prop) (s u : State) : Prop := ∀ a, ¬ W a → ¬ ClockWord a → u.word a = s.word a

/-- The word lies in one of the listed blocks of 64 KiB (R10). -/
def InBlocks (l : List Nat) (a : Nat) : Prop := a / 0x10000 ∈ l

/-- Memory, and every register word outside the listed blocks of 64 KiB, reads as it did. -/
def Keeps (l : List Nat) (s u : State) : Prop := SameMemory s u ∧ SameWords (InBlocks l) s u

/-- The 64 KiB blocks of die `d` that hold its CX and GS registers (R202, R237). -/
def cxBlock (d : Nat) : Nat := 0x130000 + 0x40000 * d
def gsBlock (d : Nat) : Nat := 0x130001 + 0x40000 * d

/-- A saturating count goes up by one (R6). -/
def Counted (x : Field) (s u : State) : Prop := u.f x = min (s.f x + 1) (2 ^ x.width - 1)

/-- Source `n` exists and has not been raised in the tick of a command at tick `t` (R337). -/
def Fresh (n t : Nat) (s : State) : Prop :=
  (sourceRow n).isSome = true ∧ Table.get (fun _ => 0) s.fc.lastRaise n ≠ max s.tick t + 1

/-- Source `n` is raised (R337): counted, with the low half of its detail word, and pending. -/
def Raised (n detail : Nat) (s u : State) : Prop :=
  Counted (F.FC_CNT_count n) s u ∧ u.f (F.FC_CNT_last n) = detail % 2 ^ 16 ∧ u.on (State.pendField n) = true

/-- A write to WD_KEY_w was refused (R359): ERR_LOCKED, BUS_LOCKED raised, nothing of the watchdogs changed. -/
def KeyRefused (w : Nat) (s u : State) : Prop :=
  u.resp = .errLocked ∧ Counted (F.FC_CNT_count Src.BUS_LOCKED) s u ∧ u.on (State.pendField Src.BUS_LOCKED) = true ∧
  u.wd = s.wd ∧ u.word (A.WD_STAT w) = s.word (A.WD_STAT w) ∧ u.f F.WD_STATUS_sat = s.f F.WD_STATUS_sat ∧ SameMemory s u

/-- No core, engine, die, evidence, camera or forward port is fallow, no lane group is being trained, and no graph instance waits to be
taken: a command finds no work to abandon (R350 to R354). -/
def Healthy (s : State) : Prop :=
  s.gs.ended = [] ∧ s.fc.training = [] ∧ (∀ c : Fin 16, s.coreFallow c = false ∧ s.f (F.CX_CORE_eng_fallow (c / 4) (c % 4)) = 0) ∧
  (∀ d : Fin 4, s.dieFallow d = false ∧ s.isFallow 5 d = false) ∧ (∀ w : Fin 8, s.isFallow 6 w = false) ∧
  ∀ p : Fin 16, s.isFallow 4 p = false

/-! ### Resets (R323, R324, R346, R497) -/

/-- No camera or forward port is fallow and no lane group is being trained: a change of fallow items writes no slot header (R69). -/
def NoFallen (s : State) : Prop :=
  s.fc.training = [] ∧ (∀ w : Fin 8, s.isFallow 6 w = false) ∧ ∀ p : Fin 16, s.isFallow 4 p = false

/-- No hand-over runs, and none is to precede a warden warm reset (R454). -/
def NoHandOver (s : State) : Prop := s.mayHandOver = false ∧ s.ml.handOver = none

/-- Command `c` asks for a warden warm reset of a primary that can hand over (R454): HAND_OVER is sent, and the reset waits. -/
def HandsOverFirst (c : Instr) (cause t : Nat) (s : State) : Prop :=
  s.mayHandOver = true → s.ml.handOver = none → Completes c s (fun u =>
    u.ml.handOver = some (max s.tick t) ∧ u.ml.resetAfter = some cause ∧ (∃ x ∈ u.ml.out, State.isHandOver x.msg = true) ∧ SameMemory s u)

/-- A word that a reset of the device keeps: the retained block but its cause, the straps, and at a warden warm reset the time
base's registers. -/
def ResetKeeps (warm : Bool) (a : Nat) : Prop :=
  (retBase ≤ a ∧ a < retBase + 0x1000 ∧ a ≠ retBase + 0x40 ∧ a ≠ retBase + 0x44) ∨ a = A.SYS_STRAP ∨
    (warm = true ∧ a / 0x10000 = 0x2002)

/-- A march over the whole GDDR6 channel of this byte runs (R510, R517). -/
def Marched (s : State) (a : Nat) : Prop :=
  s.lb.any (fun r => r.locked.isSome) = true ∧ s.f F.SYS_LB_CFG_iface = 6 ∧ s.f F.SYS_LB_CFG_depth = 2 ∧
  State.region (State.phys a) = .gddr (s.f F.SYS_LB_CFG_num)

/-- The device has been reset with a cause: what `ResetKeeps` names is as it was, every other register word but those that show
the driven outputs has its reset value, Core and Cluster Memory are lost, the rest of memory stays but for a channel that a march was writing, flash stays, no processor holds
anything, and the boot chain, the mailbox and the fault collector begin anew. -/
def DeviceReset (warm : Bool) (cause : Nat) (s u : State) : Prop :=
  u.ret 0x40 = cause ∧ u.ret 0x44 = cause ∧
  (∀ a, ¬ ClockWord a → (ResetKeeps warm a → u.word a = s.word a) ∧
    (¬ ResetKeeps warm a → a / 0x10000 ≠ 0x200A → a ≠ retBase + 0x40 → a ≠ retBase + 0x44 →
      ¬ (warm = true ∧ (a = A.WD_REF 4 ∨ a = A.WD_REF 4 + 4)) → u.word a = (regReset a).toNat)) ∧
  (∀ a, ¬ Marched s a → u.byte a = if [0, 1, 2, 3].any (fun d => State.dieSram d (State.phys a)) then State.memReset (State.phys a) else s.byte a) ∧
  u.flash = s.flash ∧ u.harts = [] ∧ u.mbx = Mailbox.reset ∧ u.fc = Fc.reset ∧ u.boot = Boot.reset

/-! ### The Melhan link (R441 to R443) -/

/-- Nothing makes a secondary take over (R450): it is not in full service, or hears its partner or sees no fault of it. -/
def NoTakeover (s : State) : Prop := s.f F.SYS_SVC_level = 1 → s.on F.ML_STATUS_hb_lost = true → s.on F.ML_STATUS_pfn = false

/-- A frame with header `h` is the next in sequence on a link that is up, undamaged, in time, and nothing waits behind it. -/
def InSequence (t : Nat) (h : MlHdr) (s : State) : Prop :=
  s.mlUp = true ∧ h.crcOk = true ∧ h.listed = true ∧ s.injHits 9 0 = false ∧ s.ml.expect = some h.seq.toNat ∧ s.ml.waiting = [] ∧
  (s.start t).time ≤ h.time.toNat + 2000 ∧ s.gs.ended = [] ∧ s.f F.ML_STATUS_role ≠ 3 ∧
  (s.isSecondary = true → NoTakeover s)

/-- Such a frame has been applied: the next number is expected, and the partner is shown as its header says. -/
def Applied (h : MlHdr) (u : State) : Prop :=
  u.ml.expect = some ((h.seq.toNat + 1) % 2 ^ 32) ∧ u.ml.waiting = [] ∧ u.f F.ML_PARTNER_level = h.level ∧
  u.f F.ML_PARTNER_role = h.role ∧ u.f F.ML_PARTNER_id = h.id.toNat ∧ u.on F.ML_PARTNER_strap = h.strap

/-- What a Melhan frame with header `h` comes to in outcome `o` when it is not the next in sequence: nothing on a link that is down; a count when
its CRC fails or its type is not listed; set aside when it lies ahead, `m` being its payload; only its header taken when it was applied before. -/
def OutOfSequence (o : Host.Outcome State Fault Refusal) (t : Nat) (h : MlHdr) (m : MlMsg) (s : State) : Prop :=
  (s.mlUp = false → Ends o (fun u => u.ml = s.ml ∧ Keeps [] s u)) ∧
  (s.mlUp = true → h.crcOk = false ∨ h.listed = false → s.injHits 9 0 = false → Ends o (fun u => Counted F.ML_CNT0_crc s u ∧ u.ml = s.ml ∧
    Keeps [0x2009, 0x200E] s u)) ∧
  (s.mlUp = true → h.crcOk = true → h.listed = true → s.injHits 9 0 = false → s.f F.ML_STATUS_role ≠ 3 → ∀ e, s.ml.expect = some e →
    (State.seqBefore h.seq.toNat e = true → Ends o (fun u => u.ml.expect = some e ∧ u.ml.waiting = s.ml.waiting ∧
      u.f F.ML_PARTNER_level = h.level ∧ Keeps [0x2009, 0x200E] s u)) ∧
    (State.seqBefore h.seq.toNat e = false → h.seq.toNat ≠ e → s.ml.waiting = [] → s.gs.ended = [] →
      (s.isSecondary = true → NoTakeover s) → Ends o (fun u => u.ml.expect = some e ∧
      (∃ x, u.ml.waiting = [x] ∧ x.seq = h.seq.toNat ∧ x.msg = m ∧ x.tick = max s.tick t ∧ x.sent = h.time.toNat) ∧ Keeps [0x2009, 0x200E] s u)))

/-! ### The host mailbox (R326 to R331) -/

/-- The management frames of MAC `x` from the oldest sound datagram on (R427, log 141). -/
def soundMgmt (s : State) (x : Nat) : List (List Byte) := (s.rxMgmt x).dropWhile (fun l => !State.mgmtSound (State.mgmtBody l))

/-- A response goes out on the transport `via` of its request (R327, R427): to be read on I3CT with its in-band interrupt, or as a
datagram queued at the MAC that the request came from, with the tag of the request's datagram, which has left the buffer. -/
def Sent (via code tag status retry : Nat) (payload : List Byte) (s u : State) : Prop :=
  if via = 0 then u.mbx.response = State.mbxFrame code tag status retry payload ∧ u.ibi &&& 1 = 1
  else u.txMgmt (via - 1) = s.txMgmt (via - 1) ++ [beBytes 1 1 ++ beBytes 1 2 ++
      beBytes 2 (State.beAt (State.mgmtBody ((soundMgmt s (via - 1)).headD [])) 2 2) ++ beBytes 4 0 ++
      State.mbxFrame code tag status retry payload] ∧
    u.rxMgmt (via - 1) = (soundMgmt s (via - 1)).drop 1

/-- Transport `via` delivers the request `frame` (R427, R430): I3CT takes private transfers, or the frame is the MAC's oldest sound
datagram. -/
def Delivers (via : Nat) (frame : List Byte) (s : State) : Prop := (s.mbxArrive via frame).isSome = true

/-- No lane group that is being trained has run out of its 1 ms at tick `t` (R354, log 167). -/
def NoLapse (t : Nat) (s : State) : Prop := ∀ p ∈ s.fc.training, max s.tick t ≤ p.2

/-- A request has been executed and answered, and counted. -/
def Answered (via : Fin 3) (code : Nat) (tag : Byte) (status : Nat) (payload : List Byte) (s u : State) : Prop :=
  Sent via code tag.toNat status 0 payload s u ∧ u.mbx.cur = none ∧ u.f F.SYS_MBX_STAT_busy = 0 ∧ Counted F.SYS_MBX_STAT_req s u

/-- A request of `code` with payload `p` from transport `via` is executed at tick `t` (R327 to R329, R467, R468): the transport delivers
it, a running pair holds role 0, no request is in execution, a control command comes from the transport of an open session that has
not idled out, and sentinel service serves it. -/
def Admits (t : Nat) (via : Fin 3) (code : Nat) (tag : Byte) (p : List Byte) (s : State) : Prop :=
  Delivers via (State.requestFrame code tag.toNat p) s ∧ NoLapse t s ∧ s.role0Runs = true ∧ s.mbx.cur = none ∧
  (State.isControlCmd code = true → s.sec.session.any (fun x => x.via == via.val) = true ∧ s.idleDue.all (fun d => Nat.ble (max s.tick t) d) = true) ∧
  (s.f F.SYS_SVC_level = 2 → code ≠ 0x05 ∧ code ≠ 0x09 ∧ code ≠ 0x0B)

/-! ### One Doraral instruction (R258 to R268) -/

/-- No injection waits to meet a detection code, a burst, a flit or a DPU residue (R355): none remains, or its class is one that
no access and no step checks. -/
def Calm (s : State) : Prop := s.injLeft = 0 ∨ s.f F.FC_INJ_cls ∈ [6, 7, 9, 10, 11]

/-- The encoding of a Doraral instruction (R242, R245 to R249, R253 to R257, R279), its first word lowest; 0 for any other command. -/
def insnWord : Instr → Nat
  | .op _ fn rd ra rb => wordR 0x01 rd ra rb fn.toNat
  | .op32 _ fn rd ra rb => wordR 0x02 rd ra rb fn.toNat
  | .addi _ rd ra imm => wordI 0x03 rd ra imm.toNat
  | .addi32 _ rd ra imm => wordI 0x04 rd ra imm.toNat
  | .andi _ rd ra imm => wordI 0x05 rd ra imm.toNat
  | .ori _ rd ra imm => wordI 0x06 rd ra imm.toNat
  | .xori _ rd ra imm => wordI 0x07 rd ra imm.toNat
  | .shi _ rd ra imm => wordI 0x08 rd ra imm.toNat
  | .lih _ rd ra imm => wordI 0x09 rd ra imm.toNat
  | .addpch _ rd ra imm => wordI 0x0A rd ra imm.toNat
  | .cmp _ fn pd ra rb => wordR 0x0B pd ra rb fn.toNat
  | .cmpi _ cc pd ra imm => wordC 0x0C pd ra cc imm.toNat
  | .pred _ fn rd ra rb => wordR 0x0D rd ra rb fn.toNat
  | .br _ p n off => wordB 0x10 p (bit n) off.toNat
  | .jal _ rd off => wordJ 0x11 rd off.toNat
  | .jalr _ rd ra imm => wordI 0x12 rd ra imm.toNat
  | .lb _ rd ra imm _ => wordI 0x18 rd ra imm.toNat
  | .lbu _ rd ra imm _ => wordI 0x19 rd ra imm.toNat
  | .lh _ rd ra imm _ => wordI 0x1A rd ra imm.toNat
  | .lhu _ rd ra imm _ => wordI 0x1B rd ra imm.toNat
  | .lw _ rd ra imm _ => wordI 0x1C rd ra imm.toNat
  | .lwu _ rd ra imm _ => wordI 0x1D rd ra imm.toNat
  | .ld _ rd ra imm _ => wordI 0x1E rd ra imm.toNat
  | .sb _ rs ra imm => wordI 0x20 rs ra imm.toNat
  | .sh _ rs ra imm => wordI 0x21 rs ra imm.toNat
  | .sw _ rs ra imm => wordI 0x22 rs ra imm.toNat
  | .sd _ rs ra imm => wordI 0x23 rs ra imm.toNat
  | .amo _ fn rd ra rb _ => wordR 0x28 rd ra rb fn.toNat
  | .barrier _ rd ra imm => wordI 0x2C rd ra imm.toNat
  | .nop _ rd ra rb => wordR 0x30 rd ra rb 0
  | .texit _ rd ra rb => wordR 0x30 rd ra rb 1
  | .trap _ rd ra rb => wordR 0x30 rd ra rb 2
  | .tret _ rd ra rb => wordR 0x30 rd ra rb 3
  | .idle _ rd ra rb => wordR 0x30 rd ra rb 4
  | .brk _ rd ra rb => wordR 0x30 rd ra rb 5
  | .ntret _ rd ra rb => wordR 0x30 rd ra rb 6
  | .ctlRd _ rd ra csr => wordX 0x31 rd ra 0 csr.toNat
  | .ctlWr _ rd ra csr => wordX 0x31 rd ra 1 csr.toNat
  | .ctlSet _ rd ra csr => wordX 0x31 rd ra 2 csr.toNat
  | .ctlClr _ rd ra csr => wordX 0x31 rd ra 3 csr.toNat
  | .ctlXwr _ rd ra csr => wordX 0x31 rd ra 9 csr.toNat
  | .ctlXset _ rd ra csr => wordX 0x31 rd ra 10 csr.toNat
  | .ctlXclr _ rd ra csr => wordX 0x31 rd ra 11 csr.toNat
  | .evsend _ rd ra rb => wordR 0x32 rd ra rb 0
  | .evwait _ rd ra rb => wordR 0x32 rd ra rb 1
  | .vi _ fn vd va vb p => wordV 0x38 vd va vb p fn
  | .vf _ fn vd va vb p => wordV 0x39 vd va vb p fn
  | .vc _ fn vd va vb p => wordV 0x3A vd va vb p fn
  | .vact _ vd va vb p => wordV 0x3B vd va vb p 0x00
  | .vred _ vd va vb p => wordV 0x3B vd va vb p 0x01
  | .vbcast _ vd va vb p => wordV 0x3B vd va vb p 0x02
  | .vext _ vd va vb p => wordV 0x3B vd va vb p 0x03
  | .vins _ vd va vb p => wordV 0x3B vd va vb p 0x04
  | .vcmp _ vd va vb p => wordV 0x3B vd va vb p 0x05
  | .vfcmp _ vd va vb p => wordV 0x3B vd va vb p 0x06
  | .vselv _ vd va vb p => wordV 0x3B vd va vb p 0x07
  | .vperm _ vd va vb p => wordV 0x3B vd va vb p 0x08
  | .vidx _ vd va vb p => wordV 0x3B vd va vb p 0x09
  | .vmov _ vd va vb p => wordV 0x3B vd va vb p 0x0A
  | .tldR _ v t ga gb _ => wordTS v t ga gb 0x00
  | .tldW _ v t ga gb _ => wordTS v t ga gb 0x01
  | .tlde _ v t ga gb _ => wordTS v t ga gb 0x02
  | .tstR _ v t ga gb => wordTS v t ga gb 0x08
  | .tstF _ v t ga gb => wordTS v t ga gb 0x09
  | .tstI _ v t ga gb => wordTS v t ga gb 0x0A
  | .tstaI _ v t ga gb _ => wordTS v t ga gb 0x0C
  | .tstaF _ v t ga gb _ => wordTS v t ga gb 0x0D
  | .tget _ r t t2 field => wordTD r t t2 field 0x00
  | .tset _ r t t2 field => wordTD r t t2 field 0x01
  | .tadv _ r t t2 field => wordTD r t t2 field 0x02
  | .tmov _ r t t2 field => wordTD r t t2 field 0x03
  | .taclr _ r t t2 field => wordTD r t t2 field 0x04
  | .tard _ r t t2 field => wordTD r t t2 field 0x05
  | .tawr _ r t t2 field => wordTD r t t2 field 0x06
  | .tmma _ fn vB tA bank0 n1 vE ga fb au ub low _ =>
    wordTL vB tA bank0 n1 fn.toNat + 2 ^ 32 * wordTL2 vE ga fb au ub low.toNat
  | _ => 0

/-- Instruction `c`, of `n` bytes, stands at the pc of the processor of `x` (R242, log 6), and ends in a next state of which `P` holds. -/
def Runs (x : Issue) (n : Nat) (c : Instr) (s : State) (P : State → Prop) : Prop :=
  s.finds x.h n (insnWord c) = true → Completes c s P

/-- The processor of `x` stands at an instruction boundary with no non-maskable trap, no failed store and no enabled interrupt to
answer for (R252, R260, R261) and BUDGET for the weight `w` (R262), no detection error or injection strikes, and the `n` bytes at its
pc can be fetched (R258, R264). -/
def Ready (x : Issue) (n w : Nat) (s : State) : Prop :=
  (s.start x.t).atBoundary x.h = true ∧ (s.start x.t).nmiReady x.h = false ∧ s.storeDue x.h = false ∧ (s.start x.t).irqNow x.h = 0 ∧
  (s.budgeted x.h = true → w ≤ s.csr x.h 0x010) ∧ x.rf = false ∧ x.det = 0 ∧ s.mayFetch x.h (s.pc x.h) n = true ∧
  ¬ (State.isControl x.h = true ∧ (State.region (s.pc x.h) = .bootRom ∨ State.region (s.pc x.h) = .warden)) ∧
  s.plainRead x.h (s.pc x.h) n = false ∧ s.flaggedRead (s.pc x.h) n 0 = false ∧ Calm s

/-- An instruction of weight `w` by processor `h` has retired (R262): INSTRET counts its weight, a run with ben = 1 has paid
for it, every other processor is as it was, and so is what `h` itself is doing. -/
def Charged (h w : Nat) (s u : State) : Prop :=
  Table.get (fun _ => 0) u.instret h = Table.get (fun _ => 0) s.instret h + BitVec.ofNat 64 w ∧
  u.csr h 0x010 = s.csr h 0x010 - (if s.budgeted h then w else 0) ∧
  (∀ j, j ≠ h → u.hart j = s.hart j ∧ Table.get (fun _ => 0) u.instret j = Table.get (fun _ => 0) s.instret j) ∧
  (u.hart h).run = (s.hart h).run ∧ (u.hart h).nmi = (s.hart h).nmi ∧ (u.hart h).storeErrs = (s.hart h).storeErrs

/-- The instruction of `n` bytes retires and pc moves past it (R249). -/
def Retires (h n w : Nat) (s u : State) : Prop := u.pc h = (s.pc h + n) % 2 ^ 48 ∧ Charged h w s u

/-- General registers but `rd` with every vector register, descriptor and bank, predicates but `pd`, and control registers but
those of `l` and BUDGET stay. -/
def SameG (h rd : Nat) (s u : State) : Prop := (∀ i, i ≠ rd → u.g h i = s.g h i) ∧ ∀ j, u.tile j = s.tile j
def SameP (h pd : Nat) (s u : State) : Prop := ∀ i, i ≠ pd → u.p h i = s.p h i
def SameCsr (h : Nat) (l : List Nat) (s u : State) : Prop := ∀ n, n ∉ l → n ≠ 0x010 → u.csr h n = s.csr h n

/-- Register `rd` takes `v`, g0 discards it (R239), and nothing else of the processor, of memory or of the registers but the
activity counters' block changes. -/
def WroteG (h rd : Nat) (v : DWord) (s u : State) : Prop :=
  u.g h rd = (if rd = 0 then 0 else v) ∧ SameG h rd s u ∧ SameP h 0 s u ∧ SameCsr h [] s u ∧ Keeps [0x2009] s u

/-- The same of a predicate register; p0 discards a write. -/
def WroteP (h pd : Nat) (v : DWord) (s u : State) : Prop :=
  u.p h pd = (if pd = 0 then BitVec.allOnes 64 else v) ∧ SameG h 0 s u ∧ SameP h pd s u ∧ SameCsr h [] s u ∧ Keeps [0x2009] s u

/-- Nothing of the processor's registers, of memory or of the registers but the activity counters' block changes. -/
def WroteNothing (h : Nat) (s u : State) : Prop := SameG h 0 s u ∧ SameP h 0 s u ∧ SameCsr h [] s u ∧ Keeps [0x2009] s u

/-- Processor `h` has trap state, runs no agreement or decoder program, has no failed store to answer for, and stands in no
trap (R252, R259, R266). -/
def CanTrap (h : Nat) (s : State) : Prop :=
  State.isTile h = false ∧ (State.isVerdict h && s.vpRuns (h / 2)) = false ∧ (s.hart h).storeErrs = [] ∧
  bitOf (s.csr h 0x000) 3 = false ∧ bitOf (s.csr h 0x000) 4 = false

/-- Trap entry (R259): RUNCTL is saved, warden mode with intrap = 1 is entered, pc, code and TRAP_INFO are saved, and pc goes to
the trap table. -/
def TrapEntered (h code info tpc : Nat) (s u : State) : Prop :=
  u.csr h 0x005 = s.csr h 0x000 % 256 ∧ u.csr h 0x000 = 8 ∧ u.csr h 0x001 = tpc % 2 ^ 64 ∧ u.csr h 0x002 = code ∧
  u.csr h 0x003 = info % 2 ^ 64 ∧ u.pc h = (s.csr h 0x004 + 64 * State.trapSlot code) % 2 ^ 48 ∧
  SameG h 0 s u ∧ SameP h 0 s u ∧ SameCsr h [0, 1, 2, 3, 5] s u ∧ Keeps [0x2009] s u

/-! ### Loads, stores and AMOs (R250 to R253) -/

/-- The state after the fetch of an instruction of `n` bytes. -/
def fetched (x : Issue) (n : Nat) (s : State) : State := ((s.start x.t).fetch x.h n 0).2

/-- A read of `n` bytes of memory at `a` by master `h` that no rule refuses, holds or flags (R251, R267, R355, R386). -/
def PlainRead (h a n : Nat) (s : State) : Prop := s.plainRead h a n = false ∧ s.flaggedRead a n 0 = false ∧ Calm s

/-- A write of `n` bytes of memory at `a` by master `h` that no rule refuses, that covers no lost unit in part and that no
injection meets (R252, R355, R379). -/
def PlainWrite (h a n : Nat) (s : State) : Prop :=
  State.region a ≠ .regs ∧ s.spanFault a n true h = none ∧ (List.range n).any (fun i => s.partLost a n i) = false ∧ Calm s

/-- The value a load of `n` bytes leaves in its register (R250). -/
def loaded (n : Nat) (sgn : Bool) (l : List Byte) : DWord :=
  BitVec.ofInt 64 (if sgn then signed (8 * n) (leVal l) else (leVal l : Int))

/-- What load `c` comes to: from memory, rd takes the bytes at the effective address and nothing else changes;
from any place, rd takes what the bus read answers, and words and memory are as that read leaves them; a misaligned
address traps with ERR_MEM_ALIGN and changes nothing. -/
def Loads (c : Instr) (x : Issue) (rd ra : Fin 32) (imm : BitVec 16) (n : Nat) (sgn : Bool) (s : State) : Prop :=
  Ready x 4 (State.memWeight x.h (s.ea x.h ra imm) n false) s →
    (s.accessFault x.h (s.ea x.h ra imm) n 1 = none → PlainRead x.h (s.ea x.h ra imm) n s →
      Runs x 4 c s (fun u => Retires x.h 4 (State.memWeight x.h (s.ea x.h ra imm) n false) s u ∧
        WroteG x.h rd (loaded n sgn (s.bytes (s.ea x.h ra imm) n)) s u)) ∧
    (s.accessFault x.h (s.ea x.h ra imm) n 1 = none →
      ∀ l, ((fetched x 4 s).coreRead x.h (s.ea x.h ra imm) n 1 0).1 = .ok l →
      Runs x 4 c s (fun u => u.pc x.h = (s.pc x.h + 4) % 2 ^ 48 ∧ u.g x.h rd = (if rd = 0 then 0 else loaded n sgn l) ∧
        (∀ b, u.word b = ((fetched x 4 s).coreRead x.h (s.ea x.h ra imm) n 1 0).2.word b ∧
          u.byte b = ((fetched x 4 s).coreRead x.h (s.ea x.h ra imm) n 1 0).2.byte b))) ∧
    (s.ea x.h ra imm % n ≠ 0 → CanTrap x.h s → Runs x 4 c s (fun u => TrapEntered x.h 0x08 (s.ea x.h ra imm) (s.pc x.h) s u))

/-- What store `c` comes to: to memory, the low `n` bytes of rs stand at the effective address and nothing else
changes; to any place, it retires at once, words and memory are as the bus write leaves them, and an error is kept for
ERR_STORE; a misaligned address traps with ERR_MEM_ALIGN and writes nothing. -/
def Stores (c : Instr) (x : Issue) (rs ra : Fin 32) (imm : BitVec 16) (n : Nat) (s : State) : Prop :=
  Ready x 4 (State.memWeight x.h (s.ea x.h ra imm) n false) s →
    (s.accessFault x.h (s.ea x.h ra imm) n 2 = none → x.part = 0 → PlainWrite x.h (s.ea x.h ra imm) n s →
      Runs x 4 c s (fun u => Retires x.h 4 (State.memWeight x.h (s.ea x.h ra imm) n false) s u ∧
        u.bytes (s.ea x.h ra imm) n = leBytes n (s.g x.h rs).toNat ∧ SameMemoryBut (s.ea x.h ra imm) n s u ∧
        SameG x.h 0 s u ∧ SameP x.h 0 s u ∧ SameCsr x.h [] s u ∧ SameWords (InBlocks [0x2009]) s u)) ∧
    (s.accessFault x.h (s.ea x.h ra imm) n 2 = none → Runs x 4 c s (fun u => u.pc x.h = (s.pc x.h + 4) % 2 ^ 48 ∧
      (∀ b, u.word b = ((fetched x 4 s).busWrite (s.ea x.h ra imm) (leBytes n (s.g x.h rs).toNat) 2 x.h x.part).2.word b ∧
        u.byte b = ((fetched x 4 s).busWrite (s.ea x.h ra imm) (leBytes n (s.g x.h rs).toNat) 2 x.h x.part).2.byte b) ∧
      (((fetched x 4 s).busWrite (s.ea x.h ra imm) (leBytes n (s.g x.h rs).toNat) 2 x.h x.part).1.isErr = true →
        s.ea x.h ra imm ∈ (u.hart x.h).storeErrs))) ∧
    (s.ea x.h ra imm % n ≠ 0 → CanTrap x.h s → Runs x 4 c s (fun u => TrapEntered x.h 0x08 (s.ea x.h ra imm) (s.pc x.h) s u))

/-- What CTL write `c` of register `n` comes to: with an exchange rd takes the value read before; of the register
the fields that can be written take `new` of that value and ra (R256), and nothing else changes. -/
def ControlWrites (c : Instr) (x : Issue) (rd ra : Fin 32) (n : Nat) (xch : Bool) (new : Nat → Nat → Nat)
    (s : State) : Prop :=
  Runs x 4 c s (fun u => u.pc x.h = (s.pc x.h + 4) % 2 ^ 48 ∧
    (xch = true → u.g x.h rd = (if rd = 0 then 0 else BitVec.ofNat 64 ((fetched x 4 s).csrRead x.h n))) ∧
    u.csr x.h n = ((s.csr x.h n &&& (2 ^ 64 - 1 - State.csrMask n)) |||
      (new ((fetched x 4 s).csrRead x.h n) (s.g x.h ra).toNat &&& State.csrMask n) ||| (s.csr x.h n &&& (s.start x.t).csrHeld x.h n)) ∧
    SameG x.h (if xch then rd else 0) s u ∧ SameP x.h 0 s u ∧ SameCsr x.h [n] s u ∧ Keeps [0x2009] s u)

/-! ### Vector and Tensor (R271 to R296) -/

/-- Of the machine only the vector and tensor state of processor `h` changes, to `w`, beside the activity counters' block. -/
def WroteTile (h : Nat) (w : Tile) (s u : State) : Prop :=
  u.tileOf h = w ∧ (∀ j, j ≠ State.seqOf h → u.tile j = s.tile j) ∧ (∀ i, u.g h i = s.g h i) ∧ SameP h 0 s u ∧ SameCsr h [] s u ∧
  Keeps [0x2009] s u

/-- Of the machine only vector register `vd` changes. -/
def WroteV (h vd : Nat) (s u : State) : Prop :=
  WroteTile h { s.tileOf h with v := (u.tileOf h).v } s u ∧ ∀ i, i ≠ vd → u.vr h i = s.vr h i

/-- The lanes of `vd` that predicate `p` selects satisfy `P`; the others keep their value (R271). -/
def WroteLanes (h vd : Nat) (p : DWord) (P : Nat → BitVec 32 → Prop) (s u : State) : Prop :=
  (∀ l, l < 64 → if p.getLsbD l then P l (lane (u.vr h vd) l) else lane (u.vr h vd) l = lane (s.vr h vd) l) ∧ WroteV h vd s u

/-- The code in memory of the element at `j` along d0 from indices `i`; outside the tensor, of real zero (R278). -/
def elemAt (s : State) (d : Desc) (i : List Int) (j : Nat) : Nat :=
  let k := (i.getD 0 0 + j).toNat
  if d.inside i j = false then d.zeroCode
  else if d.fmt = 3 then (s.byte (d.row i + k / 2)).toNat / (if k % 2 = 0 then 1 else 16) % 16
  else if d.fmt = 9 then (s.byte (d.row i + k / 32 * 33 + 1 + k % 32)).toNat
  else s.memVal (d.row i + k * (elemBits d.fmt / 8)) (elemBits d.fmt / 8)

/-- The exponent of the BX8 block that holds that element; 0 outside the tensor. -/
def expAt (s : State) (d : Desc) (i : List Int) (j : Nat) : Nat :=
  if d.inside i j = false then 0 else (s.byte (d.row i + (i.getD 0 0 + j).toNat / 32 * 33)).toNat

/-- The bytes that `n` elements from `i` take in memory: address and length. -/
def spanAt (d : Desc) (i : List Int) (n : Nat) : Nat × Nat :=
  d.span i (i.getD 0 0 + (State.insideRun d i n).1).toNat (State.insideRun d i n).2

/-- Those bytes can be read by tile sequencer `h` without an error (R251), and no element of them lies in registers. -/
def PlainTile (h : Nat) (d : Desc) (i : List Int) (n : Nat) (s : State) : Prop :=
  (State.insideRun d i n).2 = 0 ∨
    ((spanAt d i n).1 + (spanAt d i n).2 ≤ 2 ^ 48 ∧ PlainRead h (spanAt d i n).1 (spanAt d i n).2 s)

/-- Load `c` of `n` elements of descriptor `d` from indices `i` that its checks let pass, over `m` elements of bytes that can be
read: register `v` becomes one of which `P` holds, and nothing else changes. A count of 0 does nothing. -/
def TileLoads (c : Instr) (x : Issue) (v : Fin 64) (fmtOk : Bool) (d : Desc) (i : List Int) (n m : Nat)
    (P : BitVec 2048 → Prop) (s : State) : Prop :=
  State.isTile x.h = true → Ready x 4 1 s →
    (n = 0 → Runs x 4 c s (fun u => Retires x.h 4 1 s u ∧ WroteNothing x.h s u)) ∧
    (n ≠ 0 → State.loadCheck d i fmtOk = none → PlainTile x.h d i m s →
      Runs x 4 c s (fun u => Retires x.h 4 1 s u ∧ WroteV x.h v s u ∧ P (u.vr x.h v)))

/-- Bytes `a` to `a + m` take codes, and `P` holds of each of the `n` elements after it: its place, its code before, its code
and exponent after. An INT4 element's neighbour in its byte keeps its code; nothing else changes (R288). -/
def TileStored (h : Nat) (d : Desc) (i : List Int) (n : Nat) (P : Nat → Nat → Nat → Nat → Prop) (s u : State) : Prop :=
  (∀ j, j < n → P j (elemAt s d i j) (elemAt u d i j) (expAt u d i j)) ∧
  (d.fmt = 3 → (i.getD 0 0 % 2 = 1 → (u.byte (d.row i + (i.getD 0 0).toNat / 2)).toNat % 16 =
      (s.byte (d.row i + (i.getD 0 0).toNat / 2)).toNat % 16) ∧
    ((i.getD 0 0 + n) % 2 = 1 → (u.byte (d.row i + ((i.getD 0 0).toNat + n) / 2)).toNat / 16 =
      (s.byte (d.row i + ((i.getD 0 0).toNat + n) / 2)).toNat / 16)) ∧
  SameMemoryBut (spanAt d i n).1 (spanAt d i n).2 s u ∧ SameG h 0 s u ∧ SameP h 0 s u ∧ SameCsr h [] s u ∧
  SameWords (InBlocks [0x2009]) s u

/-- Store `c` of `n` elements to descriptor `d` from indices `i`, all of them inside and in bytes that can be written, that the
check `ok` lets pass. A count of 0 does nothing. -/
def TileStores (c : Instr) (x : Issue) (ok : Prop) (d : Desc) (i : List Int) (n : Nat)
    (P : Nat → Nat → Nat → Nat → Prop) (s : State) : Prop :=
  State.isTile x.h = true → Ready x 4 1 s →
    (n = 0 → Runs x 4 c s (fun u => Retires x.h 4 1 s u ∧ WroteNothing x.h s u)) ∧
    (n ≠ 0 → ok → (∀ j, j < n → d.inside i j = true) → (spanAt d i n).1 + (spanAt d i n).2 ≤ 2 ^ 48 →
      x.part = 0 → PlainWrite x.h (spanAt d i n).1 (spanAt d i n).2 s →
      Runs x 4 c s (fun u => Retires x.h 4 1 s u ∧ TileStored x.h d i n P s u))

/-- Indices of step `q` of a TMMA along dimension `m` (R293). -/
def mmaAt (s : State) (h : Nat) (d : Desc) (ga m q : Nat) : List Int :=
  (d.start (s.g h ga)).set m ((d.start (s.g h ga)).getD m 0 + q)

/-- Operand A of that step: the `k` elements read from its indices, and their block's exponent. -/
def mmaA (s : State) (h : Nat) (d : Desc) (ga m k : Nat) (au : Bool) (q : Nat) : MmaOp :=
  { fmt := d.fmt, u := au, code := (s.tileLoad h d (mmaAt s h d ga m q) k 0).1.2.1,
    exp := (s.tileLoad h d (mmaAt s h d ga m q) k 0).1.2.2 0 }

/-- Operand B of DPU `j`, from the weight group at `vB` and the exponents in `vE`. -/
def mmaBof (s : State) (h vB vE fb : Nat) (ub : Bool) (j : Nat) : MmaOp :=
  mmaB (fun r => s.vr h (vB + r)) (s.vr h vE) fb ub j

end Sys2Proof.Machine
end

