-- ==== Sys2Proof/Certificates/Slice0/Obligations.lean ====
section
/-! DEFINITION. What is stated of the model, for the provers.  Each docstring names the rules a statement comes from; where a
clause rests on a choice of the model it names the log entry. -/

open Sys2Proof Sys2Proof.Machine

/-! ### Trust states (R13 to R44) -/

/-- VD commands on a context committed with en = 1, in the states in which R40 accepts them and with none in execution: what
each does, with VD_CMD_STATUS.st 0x00, and that none but an entry to ADMITTING touches memory (its carry buffers, R149).  An
entry to ADMITTING takes the next admission counter (R31), here below the counter reserved in flash (R490), with no
undecided frame and no injection waiting (R355); a REJECTED context with auto = 1 whose reaction has been complete for the readmit delay, and at least one
tick, enters it by itself (R28).  A command written while another has still to be applied is ST_BUSY, and does nothing (R41). -/
def Obligations.VdCommandsActAsListed : Prop :=
  ∀ (t : Nat) (n : Fin 1024) (s : State), s.enabled.contains n.val = true →
    (s.vdBusy = none →
      (s.trust n ≠ 0 → Completes (.disable t n) s (fun u =>
        u.trust n = 0 ∧ u.f F.VD_CMD_STATUS_st = 0 ∧ u.f F.VD_CMD_STATUS_last_op = 2 ∧ Keeps [0x2006, 0x2008, 0x2009, 0x200A] s u)) ∧
      (s.trust n = 0 → s.fc.fallow.contains (10, n.val) = true → s.frms n = [] → Completes (.enable t n) s (fun u =>
        u.trust n = 5 ∧ u.f F.VD_CMD_STATUS_st = 0 ∧ Keeps [0x2006, 0x2008, 0x2009, 0x200A] s u)) ∧
      (∀ v, s.nextAdmit n = some v → v < (s.ctx n).reserve → s.frms n = [] → Calm s →
        (s.trust n = 0 → s.isRetired n = false → Completes (.enable t n) s (fun u =>
          u.trust n = 1 ∧ u.word (A.VD_ADMIT n) = v ∧ u.dword (A.VD_CTX_HIST n) = 0 ∧ u.f (F.VD_CTX_STATE_clean n) = 0 ∧
          u.f F.VD_CMD_STATUS_st = 0 ∧ SameMemoryBut (s.dword A.CK_AG_AREA_BASE + 512 * n) 512 s u ∧
          SameWords (InBlocks [0x2000, 0x2006, 0x2008, 0x2009, 0x200A, 0x2010]) s u)) ∧
        (s.trust n = 4 → (s.ctx n).reactDone.isSome = true → Completes (.readmit t n) s (fun u =>
          u.trust n = 1 ∧ u.word (A.VD_ADMIT n) = v ∧ u.dword (A.VD_CTX_HIST n) = 0 ∧ u.f (F.VD_CTX_STATE_clean n) = 0 ∧
          SameMemoryBut (s.dword A.CK_AG_AREA_BASE + 512 * n) 512 s u)) ∧
        (s.trust n = 5 → Completes (.clearFallow t n) s (fun u =>
          u.trust n = 1 ∧ u.word (A.VD_ADMIT n) = v ∧ u.isRetired n = false ∧ (u.ctx n).rejTicks = [] ∧
          SameMemoryBut (s.dword A.CK_AG_AREA_BASE + 512 * n) 512 s u))) ∧
      (s.inJudged n = true → Completes (.forceDoubt t n) s (fun u =>
        (u.ctx n).force = true ∧ u.f F.VD_CMD_STATUS_st = 0 ∧ u.trust n = s.trust n ∧ Keeps [0x2008, 0x2009] s u)) ∧
      Completes (.clearCounts t n) s (fun u =>
        u.word (A.VD_DOUBT n) = 0 ∧ u.word (A.VD_LATE n) = 0 ∧ u.word (A.VD_GAP n) = 0 ∧ u.f (F.VD_CTX_STATE_sat n) = 0 ∧
        u.trust n = s.trust n ∧ Keeps [0x2008, 0x2009] s u)) ∧
    (s.vdBusy.isSome = true → s.frms n = [] →
      ∀ c ∈ [Instr.enable t n, .disable t n, .readmit t n, .clearFallow t n, .forceDoubt t n, .clearCounts t n],
        Completes c s (fun u => u.f F.VD_CMD_STATUS_st = 1 ∧ u.vdBusy = s.vdBusy ∧ u.ctxs = s.ctxs ∧
          (∀ a, a ≠ A.VD_CMD_STATUS → ¬ ClockWord a → u.word a = s.word a) ∧ SameMemory s u)) ∧
    (∀ d v, (s.ctx n).reactDone = some d → s.trust n = 4 → s.on (F.VD_CTX_REACT_auto n) = true → s.frms n = [] →
      d + max 1 (State.ms (s.f (F.VD_CTX_REACT_readmit_ms n))) ≤ max s.tick t → s.nextAdmit n = some v → v < (s.ctx n).reserve →
      Calm s → Completes (.readmitDelayExpire t n) s (fun u => u.trust n = 1 ∧ u.word (A.VD_ADMIT n) = v ∧
        u.dword (A.VD_CTX_HIST n) = 0 ∧ SameMemoryBut (s.dword A.CK_AG_AREA_BASE + 512 * n) 512 s u ∧
        SameWords (InBlocks [0x2000, 0x2006, 0x2008, 0x2009, 0x200A, 0x2010]) s u))

/-- The steps of an accelerator's reset and power cycle once each is due, and the accelerator commands in the states in
which R506 accepts them: what ACC_RST_N (SIO_ACC_STAT_a.rst) and ACC_PWREN (SIO_ACC_STAT_a.pwr) become. -/
def Obligations.AcceleratorStepsDriveTheBalls : Prop :=
  ∀ (t : Nat) (a : Fin 4) (s : State), Contexts.inRange s →
    (∀ due, (s.seq a).phase = .pulse due → due ≤ max s.tick t →
      (s.on (F.VD_ACC_STAT_pend a) = false → Completes (.accResetPulseEnd t a) s (fun u =>
        u.on (F.SIO_ACC_STAT_rst a) = true ∧ u.on (F.VD_ACC_STAT_busy a) = false ∧ (u.seq a).phase = .idle ∧
        Keeps [0x2008, 0x2009, 0x200A] s u)) ∧
      (s.on (F.VD_ACC_STAT_pend a) = true → Completes (.accResetPulseEnd t a) s (fun u =>
        u.on (F.SIO_ACC_STAT_pwr a) = false ∧ u.on (F.VD_ACC_STAT_pend a) = false ∧
        (u.seq a).phase = .off (max s.tick t + State.ms (s.f (F.VD_ACC_PWR_off_ms a))) ∧ Keeps [0x2008, 0x2009, 0x200A] s u))) ∧
    (∀ due, (s.seq a).phase = .off due → due ≤ max s.tick t → Completes (.accPowerOffEnd t a) s (fun u =>
      u.on (F.SIO_ACC_STAT_pwr a) = true ∧
      (u.seq a).phase = .settle (max s.tick t + State.ms (s.f (F.VD_ACC_PWR_settle_ms a))) ∧ Keeps [0x2008, 0x2009, 0x200A] s u)) ∧
    (∀ due, (s.seq a).phase = .settle due → due ≤ max s.tick t → Completes (.accSettleEnd t a) s (fun u =>
      u.on (F.SIO_ACC_STAT_rst a) = true ∧ u.on (F.VD_ACC_STAT_busy a) = false ∧ (u.seq a).phase = .idle ∧
      Keeps [0x2008, 0x2009, 0x200A] s u)) ∧
    (∀ due, (s.seq a).phase = .idle → s.cmdOf a = .powerUp due → due ≤ max s.tick t → Completes (.accSettleEnd t a) s (fun u =>
      u.on (F.SIO_ACC_STAT_rst a) = true ∧ u.cmdOf a = .none ∧ u.f (F.SIO_ACC_STAT_st a) = 0 ∧ Keeps [0x2009, 0x200A] s u)) ∧
    (s.accFree a = true → s.on (F.SIO_ACC_STAT_pwr a) = false → s.on (F.SIO_ACC_STAT_rst a) = false →
      Completes (.powerUp t a) s (fun u => u.on (F.SIO_ACC_STAT_pwr a) = true ∧ u.on (F.SIO_ACC_STAT_rst a) = false ∧
        u.f (F.SIO_ACC_STAT_st a) = 1 ∧ u.cmdOf a = .powerUp (max s.tick t + State.ms (s.f (F.VD_ACC_PWR_settle_ms a))) ∧
        Keeps [0x2009, 0x200A] s u)) ∧
    (s.accFree a = true → (∀ n ∈ s.boundTo a, s.inJudged n = false) → Completes (.powerDown t a) s (fun u =>
      u.on (F.SIO_ACC_STAT_rst a) = false ∧ u.on (F.SIO_ACC_STAT_pwr a) = false ∧ u.f (F.SIO_ACC_STAT_st a) = 0 ∧
      Keeps [0x2009, 0x200A] s u)) ∧
    (s.accFree a = true → s.on (F.SIO_ACC_STAT_pwr a) = true → s.on (F.SIO_ACC_STAT_rst a) = false →
      Completes (.releaseAcc t a) s (fun u => u.on (F.SIO_ACC_STAT_rst a) = true ∧ u.f (F.SIO_ACC_STAT_st a) = 0 ∧
        Keeps [0x2009, 0x200A] s u)) ∧
    (∀ ball level, level ≠ (if ball then s.on (F.SIO_ACC_STAT_pwr a) else s.on (F.SIO_ACC_STAT_rst a)) →
      Completes (.accPadMismatch t a ball level) s (fun u =>
        u.f (F.SIO_ACC_STAT_mism a) = min (s.f (F.SIO_ACC_STAT_mism a) + 1) 255 ∧
        (if ball then u.on (F.SIO_ACC_STAT_rpwr a) else u.on (F.SIO_ACC_STAT_rrst a)) = level ∧ SameMemory s u))

/-- The deadlines and the decision of a frame (R23, R24, R134, R140): at its evidence deadline tick a frame without a
complete evidence frame fails with EV_MISSING, or with ACC_RESET after a reset of its accelerator; at its verdict deadline
tick what still runs for it is cut off, and an unfinished fall-back is missing; a complete frame that is the context's
oldest is decided with the causes of R17 and leaves, and a primary publishes its verdict, of kind NO_INPUT where the input was
lost (R20), and NONE for every frame in sentinel service (R334). -/
def Obligations.DeadlinesAndDecisions : Prop :=
  ∀ (t : Nat) (n : Fin 1024) (s : State) (f : Machine.Frm), Contexts.inRange s → s.frms n = [f] → s.isSecondary = false →
    (f.evDl ≤ max s.tick t → State.evPending f = true → s.judged n = true → State.noInput f = false →
      Completes (.evidenceDeadline t n) s (fun u =>
        u.frms n = [{ f with
          causes := withBit f.causes (if s.resetByOther n || (s.ctx n).resetEnd.any (fun e => f.stampTick < e)
            then Cause.accReset else Cause.evMissing)
          ev := .failed
          todo := []
          vp2Due := f.vp2Queued }] ∧ Keeps [] s u)) ∧
    (f.vDl ≤ max s.tick t → State.noInput f = false → State.evPending f = false → Completes (.verdictDeadline t n) s (fun u =>
      ∃ g, u.frms n = [g] ∧ g.ord = f.ord ∧ g.todo = [] ∧ g.running = [] ∧ g.ag = .complete ∧
        g.fb = (if State.fbDone f then f.fb else .missing))) ∧
    (s.frmComplete n f = true → (State.evPending f = false ∨ State.noInput f = true) → Completes (.decideFrame t n) s (fun u =>
      u.frms n = [] ∧ u.f (F.VD_CTX_STATE_inflight n) = 0 ∧
      u.f (F.VD_CTX_CAUSE_last n) = s.finalCauses n f % 65536 ∧
      (s.leads = true → ∃ v, u.verdict = some v ∧ v.ctx = n ∧ v.fid = f.fid ∧ v.causes = s.finalCauses n f ∧
        v.kind = u.f (F.VD_CTX_STATE_kind n) ∧ (State.noInput f = true → v.kind = if s.on F.VD_CTRL_sentinel then 2 else 3))))

/-! ### The frame path (R45 to R85) -/

/-- A camera frame from its Frame Start to its end, on the port's virtual channel and with no injection waiting (R50, R355): a
Frame Start of a port's first frame, with no FRAME of the partner waiting for it (R445), opens it under the next ordinal and its frame ID (R55); a Frame Start timeout spends the
next frame ID (R56); a good line, with room in the line buffer (R62), is counted and taken into the CRC (R52, R58), and its bytes go to its place in the slot; a
good embedded line leaves everything but the traffic counts (R50); a Frame End whose number and line count are right closes
the frame (R52); line starts and dropped packets change only the port's counts (R47, R49); a Line Start on an evidence port
changes the count of corrected headers alone (R86, R88). -/
def Obligations.CameraFramesComeIn : Prop :=
  (∀ (t : Nat) (p : Fin 16) (s : State), s.cinLive p = true → s.gs.ended = [] → s.injHits 6 p = false → s.injHits 7 p = false →
    (∀ vc : Fin 16, s.on F.FP_CTRL_en = true → s.on (F.FP_CIN_CFG_en p) = true → vc.val = State.cinVc (s.cinRegs p) →
      (s.cinP p).cur = none → (s.cinP p).fresh = true → s.sentinel = false → s.ml.frames = [] →
      (s.start t).slotHeld p (State.nextSlot { s.cinP p with set := s.cinRegs p }).2 (State.cinSlotBytes (s.cinRegs p)) = false →
      ∀ fn, Completes (.cinFrameStart t p fn ⟨vc, .good⟩) s (fun u =>
        (∃ g, (u.cinP p).cur = some g ∧ g.ord = ((s.cinP p).t + 1).toNat ∧ g.fid = frameId ((s.cinP p).t + 1).toNat ∧
          g.stampTick = max s.tick t ∧ g.stampNs = (s.start t).cinStamp p ∧ g.lines = 0 ∧ g.damaged = false ∧ g.set = s.cinRegs p) ∧
        u.word (A.FP_CIN_FN p) = frameId ((s.cinP p).t + 1).toNat ∧ (u.cinP p).a = ((s.cinP p).t + 1).toNat)) ∧
    (s.on F.FP_CTRL_en = true → s.on (F.FP_CIN_CFG_en p) = true → bits (s.portSet p).time 16 16 ≠ 0 →
      (s.cinP p).timer + 25000 * bits (s.portSet p).time 16 16 ≤ max s.tick t → Completes (.frameStartTimeout t p) s (fun u =>
        (u.cinP p).t = ((s.cinP p).t + 1).toNat ∧ u.word (A.FP_CIN_FN p) = frameId ((s.cinP p).t + 1).toNat ∧
        (u.cinP p).timer = max s.tick t ∧ u.f (F.FP_CIN_ERR2_tmo p) = min (s.f (F.FP_CIN_ERR2_tmo p) + 1) 255)) ∧
    (∀ f, (s.cinP p).cur = some f → ∀ vc : Fin 16, vc.val = State.cinVc f.set →
      (∀ (dt : Fin 64) (start : Nat) (data : List Byte), dt.val = State.cinDt f.set → data.length = State.cinB f.set →
        f.lines < State.cinL f.set → s.bufFill p + data.length ≤ 0x40000 →
        Completes (.cinImageLine t p start data ⟨vc, dt, .good, false⟩ true false) s (fun u =>
          (∃ g, (u.cinP p).cur = some g ∧ g.lines = f.lines + 1 ∧ g.crc = crcStep f.crc data ∧ g.ord = f.ord) ∧
          SameMemoryBut (State.camAddr f + 64 + State.cinStride f.set * f.lines) data.length s u)) ∧
      (∀ len, Completes (.cinEmbeddedLine t p len ⟨vc, .good⟩ true) s (fun u => u.cinP p = s.cinP p ∧ Keeps [0x2009] s u)) ∧
      (f.lines = State.cinL f.set → f.fn < 65536 → Completes (.cinFrameEnd t p (BitVec.ofNat 16 f.fn) ⟨vc, .good⟩) s (fun u =>
        (u.cinP p).cur = none ∧ (∃ g ∈ (u.cinP p).closing, g.ord = f.ord) ∧ SameMemory s u))) ∧
    (∀ vc : Fin 16, vc.val = s.streamVc p →
      ((s.cinP p).discard = false → Completes (.lineStartPacket t false p ⟨vc, .corrected⟩) s (fun u =>
        u.f (F.FP_CIN_ERR0_ecc1 p) = min (s.f (F.FP_CIN_ERR0_ecc1 p) + 1) 65535 ∧ u.cinP p = s.cinP p ∧ Keeps [0x2005] s u)) ∧
      Completes (.lineStartPacket t false p ⟨vc, .good⟩) s (fun u => u.cinP p = s.cinP p ∧ Keeps [] s u)) ∧
    (∀ vc : Fin 16, vc.val ≠ s.streamVc p → Completes (.lineStartPacket t false p ⟨vc, .good⟩) s (fun u =>
      u.f (F.FP_CIN_ERR3_drop p) = min (s.f (F.FP_CIN_ERR3_drop p) + 1) 65535 ∧ u.cinP p = s.cinP p ∧ Keeps [0x2005] s u)) ∧
    Completes (.cinDroppedPacket t p .good) s (fun u =>
      u.f (F.FP_CIN_ERR3_drop p) = min (s.f (F.FP_CIN_ERR3_drop p) + 1) 65535 ∧ u.cinP p = s.cinP p ∧ Keeps [0x2005] s u)) ∧
  (∀ (t : Nat) (p vc : Fin 16) (s : State), p.val < 4 → s.einLive p = true → s.injHits 6 (16 + p) = false →
    Completes (.lineStartPacket t true p ⟨vc, .good⟩) s (fun u => u.evOpen = s.evOpen ∧ Keeps [] s u) ∧
    Completes (.lineStartPacket t true p ⟨vc, .corrected⟩) s (fun u =>
      u.f (F.EV_EIN_ERR0_ecc1 p) = min (s.f (F.EV_EIN_ERR0_ecc1 p) + 1) 65535 ∧ u.evOpen = s.evOpen ∧ Keeps [0x2006] s u))

/-- What becomes of a frame in its slot: when its line writes have returned the slot header stands at the slot's start with
ready = 1 (R60, R61), 64 bytes, and of GDDR6 nothing else changes; its image lines leave one by one on the FWD port the camera
port names, and its seed patch lines and Frame End after them (R66, R67, R70, R77); a monitor line taken is sent, one dropped
is counted (R81); FP_CLR clears the counts its mask selects (R85).
A frame's group and its fall-back graph: at the tick S + skew the group of the context's one undecided frame is complete,
as NO_INPUT when a member port has taken no frame (R64); with the slots ready the fall-back graph is launched, so that it
waits in a class queue of a working die or is missing (R139, R214, R219). -/
def Obligations.CameraFramesAndGroupsGoOn : Prop :=
  (∀ (t : Nat) (p : Fin 16) (s : State), s.gs.ended = [] →
      (∀ f, (s.cinP p).closing.find? (fun g => !g.ready) = some f → ∀ k, f.slot = some k → f.pepper.length = 16 →
        s.sentinel = false → 0x10000000000 ≤ State.camAddr f → s.spanFault (State.camAddr f) 64 true (0x438 + p / 2) = none →
        Completes (.slotReady t p) s (fun u =>
          (∀ x ∈ u.slotsOf p, x.ord = f.ord → x.ready = true ∧ x.bad = State.camBad f) ∧
          u.memVal (State.camAddr f) 8 = f.stampNs % 2 ^ 64 ∧ u.memVal (State.camAddr f + 8) 4 = f.fid % 2 ^ 32 ∧
          u.bytes (State.camAddr f + 16) 16 = f.pepper ∧ u.memVal (State.camAddr f + 34) 2 = s.slotStatus f ∧
          ∀ b, 0x10000000000 ≤ b → (∀ i, i < 64 → State.phys b ≠ State.phys (State.camAddr f + i)) → u.byte b = s.byte b)) ∧
      (∀ f line rest, s.sending p = some f → f.buf = line :: rest → s.stopState = false →
        s.isFallow 6 (State.cinFwd f.set) = false → Completes (.forwardLine t p) s (fun u =>
        u.tx = [⟨State.cinFwd f.set, State.cinVcOut f.set, State.cinDt f.set, 0, line⟩] ∧
        (∀ g ∈ (u.cinP p).closing ++ (u.cinP p).cur.toList, g.ord = f.ord → g.buf = rest ∧
          ∃ h ∈ (s.cinP p).closing ++ (s.cinP p).cur.toList, h.ord = f.ord ∧ g.sent = h.sent + 1) ∧ SameMemory s u)) ∧
      (∀ f, (s.cinP p).closing.find? (fun g => g.fwd == .sending) = some f → f.buf = [] → s.stopState = false →
        s.isFallow 6 (State.cinFwd f.set) = false → Completes (.patchLines t p) s (fun u =>
          u.tx = (if !State.camBad f && !s.sentinel && f.slot.isSome then s.patchLines f else []).map
              (fun l => (⟨State.cinFwd f.set, State.cinVcOut f.set, 0x34, 0, l⟩ : TxPkt))
            ++ [⟨State.cinFwd f.set, State.cinVcOut f.set, 1, f.fid % 65536, []⟩] ∧
          (∀ g ∈ (u.cinP p).closing ++ (u.cinP p).cur.toList, g.ord = f.ord → g.fwd = .ended ∧ g.patchDone = true) ∧
          SameMemory s u ∧ SameWords (InBlocks [0x2005, 0x2007, 0x2009]) s u)) ∧
      (∀ (m : Fin 2) (taken : Bool) f, ((s.cinP p).cur.toList ++ (s.cinP p).closing.reverse).head? = some f →
        bitOf f.mons m = true → s.sentinel = false → Completes (.monLine t m p taken) s (fun u =>
          u.tx = (if taken then [⟨8 + m, p, State.cinDt f.set, 0, f.last⟩] else []) ∧
          u.f (F.FP_MON_STAT_drop m) = (if taken then s.f (F.FP_MON_STAT_drop m) else min (s.f (F.FP_MON_STAT_drop m) + 1) 4294967295) ∧
          u.cinP p = s.cinP p ∧ Keeps [0x2005, 0x2009] s u)) ∧
      (∀ v : BitVec 32, Completes (.fpClr t v) s (fun u =>
        (∀ q : Fin 16, bitOf v.toNat q = true → u.word (A.FP_CIN_ERR0 q) = 0 ∧ u.word (A.FP_CIN_ERR1 q) = 0 ∧
          u.word (A.FP_CIN_ERR2 q) = 0 ∧ u.word (A.FP_CIN_ERR3 q) = 0) ∧
        (∀ w : Fin 8, bitOf v.toNat (16 + w) = true → u.word (A.FP_FWD_STAT w) = 0 ∧ u.word (A.FP_FWD_PDEF w) = 0) ∧
        (∀ m : Fin 2, bitOf v.toNat (24 + m) = true → u.word (A.FP_MON_STAT m) = 0) ∧
        (v = 0xFFFFFFFF → u.on F.FP_STATUS_sat = false) ∧ u.cinP p = s.cinP p ∧ Keeps [0x2005] s u))) ∧
  (∀ (t : Nat) (n : Fin 1024) (s : State) (f : Machine.Frm), s.frms n = [f] → s.gs.ended = [] →
      (f.groupDone = false → f.stampTick + State.us f.skew ≤ max s.tick t → Completes (.groupComplete t n) s (fun u =>
        (∃ g, u.frms n = [g] ∧ g.ord = f.ord ∧ g.groupDone = true ∧
          ((∃ p : Fin 16, bitOf f.ports p = true ∧ (s.cinP p).recent = []) → State.noInput g = true)) ∧
        (s.gs.intake = [] → SameMemory s u))) ∧
      (∀ l, s.memberSlots f = some l → f.fb = .waiting → f.groupDone = true → State.noInput f = false → s.trust n ≠ 0 →
        s.on F.VD_CTRL_sentinel = false → Completes (.fallbackGraphLaunch t n) s (fun u =>
          (∃ g, u.frms n = [g] ∧ g.ord = f.ord ∧ ((g.fb = .running ∧
            [0, 1, 2, 3].any (fun d => (u.classQ d 0).any (fun x => x.job == some ⟨n, f.ord, .fallback⟩)) = true) ∨ g.fb = .missing)) ∧
          (s.gs.intake = [] → SameMemory s u))))

/-! ### Evidence intake and VP2 (R86 to R110, R142 to R157) -/

/-- An evidence frame from its Frame Start to its Frame End on a port that takes packets, with no injection waiting (R355): the
Frame Start opens it (R87); an evidence packet joins the evidence stream and a result packet the result stream, and once the
frame is attributed and its key is valid what has arrived is decrypted (R89, R93, R97); at the Frame End the frame closes, its
silence timer starts again (R108), and a frame of the right length that is not late is complete and on time (R22, R92); any
other packet is counted and dropped (R86); a port silent for hb_ms is counted (R108); EV_CLR and CK_CLR clear what they name
(R110, R135). -/
def Obligations.EvidenceFramesComeIn : Prop :=
  ∀ (t : Nat) (e : Fin 4) (vc : Fin 16) (s : State), s.gs.ended = [] → s.einLive e = true → s.injHits 6 (16 + e) = false →
    s.injHits 7 (16 + e) = false →
    (s.evF e vc = none → ∀ fn : BitVec 16, Completes (.einFrameStart t e vc fn .good) s (fun u =>
      u.evF e vc = some ⟨fn.toNat, [], [], false, false, false, none, false⟩ ∧ Keeps [0x2006] s u)) ∧
    (∀ x, s.evF e vc = some x → x.discard = false → x.damaged = false → x.bad = false → x.seen = false → x.owner = none →
      ∀ data : List (BitVec 8), x.ev.length + data.length < 64 →
        Completes (.evidencePacket t e vc false data .good true) s (fun u =>
          u.evF e vc = some { x with ev := x.ev ++ data } ∧ Keeps [0x2006, 0x2009] s u)) ∧
    (∀ x, s.evF e vc = some x → x.discard = false → x.damaged = false → x.bad = false → ∀ n o, x.owner = some (n, o) →
      ∀ f, s.frm n o = some f → s.keyValid n f = true → 64 ≤ x.ev.length → ∀ data : List (BitVec 8), data.length ≤ 16384 →
        (x.seen = false → (x.ev ++ data).length ≤ 80 + State.fld x.ev 28 4 → x.res.length ≤ 16 + State.fld x.ev 32 4 →
          Completes (.evidencePacket t e vc false data .good true) s (fun u =>
            u.evF e vc = some { x with ev := x.ev ++ data } ∧
            (u.frm n o).map (·.evText) = some (gcmCrypt (s.streamKey n f) (State.streamIv n f false)
              (((x.ev ++ data).drop 64).take (State.fld f.hdr 28 4))))) ∧
        (x.ev.length ≤ 80 + State.fld x.ev 28 4 → (x.res ++ data).length ≤ 16 + State.fld x.ev 32 4 →
          Completes (.evidencePacket t e vc true data .good true) s (fun u =>
            u.evF e vc = some { x with res := x.res ++ data, seen := true } ∧
            (u.frm n o).map (·.resText) = some (gcmCrypt (s.streamKey n f) (State.streamIv n f true)
              ((x.res ++ data).take (State.fld f.hdr 32 4)))))) ∧
    (∀ x, s.evF e vc = some x → (x.owner = none ∨ x.discard = true) → ∀ fn : BitVec 16, x.fn = fn.toNat →
      Completes (.einFrameEnd t e vc fn .good) s (fun u =>
        u.evF e vc = none ∧ Table.get (fun _ => 0) u.evTimer e = max s.tick t ∧ Keeps [0x2006] s u)) ∧
    (∀ x, s.evF e vc = some x → x.discard = false → x.damaged = false → x.bad = false → ∀ n o, x.owner = some (n, o) →
      ∀ f, s.frm n o = some f → f.ev = .receiving → max s.tick t ≤ f.evDl → x.fn < 65536 →
        x.ev.length = 80 + State.fld (x.ev.take 64) 28 4 → x.res.length = 16 + State.fld (x.ev.take 64) 32 4 →
        Completes (.einFrameEnd t e vc (BitVec.ofNat 16 x.fn) .good) s (fun u =>
          u.evF e vc = none ∧ (u.frm n o).map (·.ev) = some .onTime ∧
          (u.frm n o).map (fun g => g.evTag.length + g.resTag.length) = some 32 ∧ Keeps [0x2006] s u)) ∧
    Completes (.einDroppedPacket t e .good) s (fun u =>
      u.f (F.EV_EIN_ERR3_drop e) = min (s.f (F.EV_EIN_ERR3_drop e) + 1) 65535 ∧ Keeps [0x2006] s u) ∧
    (Table.get (fun _ => false) s.evTimerOn e = true → s.f (F.EV_EIN_CFG_hb_ms e) ≠ 0 →
      Table.get (fun _ => 0) s.evTimer e + State.ms (s.f (F.EV_EIN_CFG_hb_ms e)) ≤ max s.tick t →
      Completes (.einSilence t e) s (fun u =>
        u.f (F.EV_EIN_ERR3_silent e) = min (s.f (F.EV_EIN_ERR3_silent e) + 1) 65535 ∧
        Table.get (fun _ => 0) u.evTimer e = max s.tick t ∧ SameMemory s u)) ∧
    (∀ v : BitVec 32, Completes (.evClrEin t v) s (fun u => (∀ k : Fin 4, bitOf v.toNat k = true →
      u.word (A.EV_EIN_ERR0 k) = 0 ∧ u.word (A.EV_EIN_ERR1 k) = 0 ∧ u.word (A.EV_EIN_ERR2 k) = 0 ∧ u.word (A.EV_EIN_ERR3 k) = 0) ∧
      Keeps [0x2006] s u)) ∧
    Completes (.evClrCtx t 0x80000000) s (fun u =>
      (∀ n : Fin 1024, u.word (A.EV_CTX_ERR n) = 0 ∧ u.word (A.EV_CTX_SEQ n) = 0) ∧ Keeps [0x2006] s u) ∧
    (∀ v : BitVec 32, bitOf v.toNat 0 = true → Completes (.ckClr t v) s (fun u =>
      (∀ n : Fin 1024, u.word (A.CK_CTX_CNT0 n) = 0 ∧ u.word (A.CK_CTX_CNT1 n) = 0 ∧ u.word (A.CK_CTX_CNT2 n) = 0 ∧
        u.word (A.CK_AG_CNT n) = 0) ∧ u.word A.CK_STATUS = 0 ∧ Keeps [0x2007] s u))

/-- The tags of an on-time evidence frame of a judged context (R93, R94, R97, R474): tags that do not verify fail the frame
with EV_AUTH and are counted; tags that verify leave it authentic, or failed with EV_FORMAT when a record breaks a rule; with no
key the frame's checks end without a result. -/
def Obligations.TagsAreVerified : Prop :=
  ∀ (t : Nat) (n : Fin 1024) (s : State) (f : Machine.Frm), s.frms n = [f] → s.gs.ended = [] → f.ev = .onTime → s.judged n = true →
    s.isSecondary = false → State.noInput f = false →
    (s.evAuthentic n f = false → Completes (.gcmTagVerify t n 0) s (fun u =>
      (∃ g, u.frms n = [g] ∧ g.ord = f.ord ∧ g.ev = .failed ∧ bitOf g.causes Cause.evAuth = true ∧ g.evSlot = f.evSlot) ∧
      u.f (F.EV_CTX_ERR_auth n) = min (s.f (F.EV_CTX_ERR_auth n) + 1) 65535 ∧ SameMemory s u)) ∧
    (s.evAuthentic n f = true → Completes (.gcmTagVerify t n 0) s (fun u =>
      ∃ g, u.frms n = [g] ∧ g.ord = f.ord ∧ (g.ev = .authentic ∨ (g.ev = .failed ∧ bitOf g.causes Cause.evFormat = true)))) ∧
    Completes (.gcmTagVerify t n 2) s (fun u =>
      (∃ g, u.frms n = [g] ∧ g.ord = f.ord ∧ g.ev = .failed ∧ g.ag = .complete ∧ g.todo = []) ∧
      u.f F.SEC_KSTAT_kerr = min (s.f F.SEC_KSTAT_kerr + 1) 255)

/-- VP2 takes the one entry that waits (R142, R143): a standard form whose bound is within BUDGET runs to its outcome, and
AG_FAIL is set exactly where the two results disagree (R147, R153); a program of the directory is entered on the pair of role 2
with the context's BUDGET (R144, R145). -/
def Obligations.AgreementEntriesRun : Prop :=
  ∀ (t v : Nat) (s : State) (e : VpEntry) (f : Machine.Frm), s.rolePair 2 = some v → s.pairWorks v = true → s.vp2.run = none →
    s.vp2.queue = [e] → s.frm e.ctx e.ord = some f → e.decoder = false →
    (bits f.agCfg 29 3 ≠ 0 →
      formBound (bits f.agCfg 29 3) f.agParam (State.accSide f) (State.fbSide f) ≤ f.agBudget → Completes (.vp2EntryStart t) s (fun u =>
        u.vp2.queue = [] ∧ u.vp2.run = none ∧ (u.frm e.ctx e.ord).map (fun g => (g.ag, bitOf g.causes Cause.agFail)) =
          some (.complete, bitOf f.causes Cause.agFail ||
            !(runForm (bits f.agCfg 29 3) f.agParam (State.accSide f) (State.fbSide f)).agree) ∧ Keeps [0x2007] s u)) ∧
    (bits f.agCfg 29 3 = 0 → Completes (.vp2EntryStart t) s (fun u =>
      u.vp2.queue = [] ∧ (∃ r, u.vp2.run = some r ∧ r.entry = e ∧ r.pair = v ∧ r.custom = true) ∧
      (u.frm e.ctx e.ord).map (·.ag) = some .running ∧
      Table.get (fun _ => 0) (u.hart (State.pairHart v)).csr 0x010 = BitVec.ofNat 64 f.agBudget ∧
      Table.get (fun _ => 0) (u.hart (State.pairHart v)).g 1 = BitVec.ofNat 64 (State.agIn (s.dword A.CK_AG_AREA_BASE))))

/-! ### Compute dies (R178 to R202) -/

/-- What the checks and links of a compute die count (R180, R189, R191, R202): a residue mismatch in the thread an engine runs
is counted for its core and shown in CX_RES_LAST, and the thread leaves the engine; burst retries are counted for their
channel, and a burst that fails after the third counts as a check-word difference; a resent flit is counted for its die.
Power and droops of a compute die (R196 to R202): a stretch is counted, in the core's count and its cycle counter; a long
droop holds the core's clock until the supply has recovered; the controller steps the duties at an interval end by the order of
R199; CX_PWR_CAP takes 0 to 60 W; CX_CLR clears the counts. -/
def Obligations.ComputeDiesCountAndThrottle : Prop :=
  (∀ (t : Nat) (c e : Fin 16) (s : State),
      (∀ x, (s.engine c e).cur = some x → ∀ o, s.opOf x = some o → ∀ (dpus : BitVec 64) (k : Nat),
        (List.range 64).find? dpus.getLsbD = some k →
        Table.get (fun _ => 0) s.fc.lastRaise (Src.CX_RESIDUE (c / 4)) ≠ max s.tick t + 1 → o.ctx < 1024 → o.seq < 2 ^ 32 →
        Completes (.residueMismatch t c e dpus) s (fun u =>
          u.f (F.CX_RES_CNT_count (c / 4) (c % 4)) = min (s.f (F.CX_RES_CNT_count (c / 4) (c % 4)) + 1) (2 ^ 32 - 1) ∧
          u.dword (A.CX_RES_LAST (c / 4)) = c % 4 * 2 ^ 62 + e * 2 ^ 58 + k * 2 ^ 52 + min x.attempt 3 * 2 ^ 50 + o.ctx * 2 ^ 32 + o.seq ∧
          (Healthy s → x.die = c / 4 → x.tried.contains (16 * c.val + e) = false →
            ((s.start t).recentRetries 1 (16 * c + e)).length + 1 < s.f (F.FC_RETRY_budget (State.budgetIdx 1)) → (u.engine c e).cur ≠ some x))) ∧
      (Calm s → ∀ (r : Fin 4) (a : BitVec 48), Completes (.g6BurstRetry t c r a .passed) s (fun u =>
        u.f (F.CX_G6_link (c / 4) (c % 4)) = min (s.f (F.CX_G6_link (c / 4) (c % 4)) + r) 65535)) ∧
      (Calm s → ∀ (a : BitVec 48) (e : BurstEnd), e ≠ .passed → State.region (State.phys a.toNat) = .gddr c → Completes (.g6BurstRetry t c 3 a e) s (fun u =>
        u.f (F.CX_G6_link (c / 4) (c % 4)) = min (s.f (F.CX_G6_link (c / 4) (c % 4)) + 3) 65535 ∧
        u.f (F.CX_G6_chk (c / 4) (c % 4)) = min (s.f (F.CX_G6_chk (c / 4) (c % 4)) + 1) 255)) ∧
      (∀ g : Fin 48, Completes (.flitResend t g) s (fun u =>
        u.f (F.CX_LINK_retries (if g.val < 16 then g / 4 else (g - 16) / 8)) =
          min (s.f (F.CX_LINK_retries (if g.val < 16 then g / 4 else (g - 16) / 8)) + 1) 65535)) ∧
      (∀ hot, Completes (.g6TemperatureReport t c hot) s (fun u => Table.get (fun _ => false) u.g6Hot c = hot ∧ Keeps [] s u)) ∧
      (∀ g : Fin 48, s.fc.returning.contains (8, g.val) = true → NoLapse t s → Completes (.linkTrainingDone t g) s (fun u =>
        u.isFallow 8 g = false ∧ u.fc.returning.contains (8, g.val) = false ∧ SameMemory s u))) ∧
  (∀ (t : Nat) (c : Fin 16) (d : Fin 4) (s : State),
      (∀ n, Completes (.droopStretch t c n) s (fun u =>
        u.f (F.CX_DROOP_stretch (c / 4) (c % 4)) = min (s.f (F.CX_DROOP_stretch (c / 4) (c % 4)) + 1) 65535 ∧
        u.ctHeld (0x90 + c) = (s.ctHeld (0x90 + c) + n) % 2 ^ 64 ∧ Keeps [0x2009, cxBlock (c / 4)] s u)) ∧
      (Table.get (fun _ => 0) s.gs.hold c = 0 → Completes (.droopHold t c) s (fun u =>
        Table.get (fun _ => 0) u.gs.hold c = max s.tick t + 1 ∧
        u.f (F.CX_DROOP_stop (c / 4) (c % 4)) = min (s.f (F.CX_DROOP_stop (c / 4) (c % 4)) + 1) 65535 ∧ SameMemory s u)) ∧
      (Table.get (fun _ => 0) s.gs.hold c ≠ 0 → Completes (.droopHoldEnd t c) s (fun u =>
        Table.get (fun _ => 0) u.gs.hold c = 0 ∧ Keeps [gsBlock (c / 4)] s u)) ∧
      (∀ p : BitVec 16, (Table.get (fun _ => 0) s.gs.capTick d ≠ max s.tick t + 1 → s.f (F.CX_PWR_CAP_cap_w d) = 0 → Completes (.pwrIntervalEnd t d p) s (fun u =>
          u.f (F.CX_PWR_MEAS_p d) = p.toNat ∧ (∀ k : Fin 4, u.f (State.dutyField d k) = 8) ∧ Keeps [cxBlock d] s u)) ∧
        (Table.get (fun _ => 0) s.gs.capTick d ≠ max s.tick t + 1 → s.f (F.CX_PWR_CAP_cap_w d) ≠ 0 → 16 * s.f (F.CX_PWR_CAP_cap_w d) < p.toNat → s.f (State.dutyField d 3) ≠ 0 →
          Completes (.pwrIntervalEnd t d p) s (fun u => u.f (F.CX_PWR_MEAS_p d) = p.toNat ∧
            u.f (State.dutyField d 3) = s.f (State.dutyField d 3) - 1 ∧ u.f (State.dutyField d 0) = s.f (State.dutyField d 0) ∧
            Keeps [cxBlock d] s u)) ∧
        (Table.get (fun _ => 0) s.gs.capTick d ≠ max s.tick t + 1 → s.f (F.CX_PWR_CAP_cap_w d) ≠ 0 → 10 * p.toNat ≤ 144 * s.f (F.CX_PWR_CAP_cap_w d) → s.f (State.dutyField d 0) < 8 →
          Completes (.pwrIntervalEnd t d p) s (fun u => u.f (F.CX_PWR_MEAS_p d) = p.toNat ∧
            u.f (State.dutyField d 0) = s.f (State.dutyField d 0) + 1 ∧ u.f (State.dutyField d 3) = s.f (State.dutyField d 3) ∧
            Keeps [cxBlock d] s u))) ∧
      (∀ v : BitVec 32, Completes (.cxPwrCap t d v) s (fun u =>
        (if v.toNat % 64 ≤ 60 then u.resp = .ok ∧ u.f (F.CX_PWR_CAP_cap_w d) = v.toNat % 64
          else u.resp = .errParam ∧ u.f (F.CX_PWR_CAP_cap_w d) = s.f (F.CX_PWR_CAP_cap_w d)) ∧ Keeps [cxBlock d] s u)) ∧
      (∀ v : BitVec 32, bitOf v.toNat 0 = true → Completes (.cxClr t d v) s (fun u =>
        (∀ k : Fin 4, u.word (A.CX_RES_CNT d k) = 0 ∧ u.word (A.CX_DROOP d k) = 0 ∧ u.f (F.CX_G6_link d k) = 0 ∧ u.f (F.CX_G6_chk d k) = 0) ∧
        u.f (F.CX_LINK_retries d) = 0 ∧ u.word (A.CX_PWR_STAT d) = 0 ∧ u.f (F.CX_STATUS_sat d) = 0 ∧ Keeps [cxBlock d] s u)))

/-! ### Graph schedulers (R203 to R237) -/

/-- A launch becomes an instance (R212 to R216): GS_LAUNCH puts the record's launch into the intake, or answers ERR_FULL when 16
wait; an accepted launch that names a working base die moves to that die's class queue; the head of a class queue that the
pool and the table can serve becomes the next instance. -/
def Obligations.LaunchesBecomeInstances : Prop :=
  ∀ (t : Nat) (d cls : Fin 4) (s : State),
    (∀ a : BitVec 48, Completes (.gsLaunch t d a) s (fun u =>
      (if (s.intakeOf d).length < 16 then u.resp = .ok ∧ u.intakeOf d = s.intakeOf d ++ [s.readLaunch (a.toNat / 64 * 64)]
        else u.resp = .errFull ∧ u.intakeOf d = s.intakeOf d) ∧ Keeps [] s u)) ∧
    (s.gs.ended = [] →
      (∀ l, s.intakeOf d = [l] → s.on (F.GS_CTRL_en d) = true → s.imageGone (s.launchImage l) = false →
        s.launchOk l = true → l.base < 4 → s.dieFallow l.base = false → s.on (F.GS_CTRL_en l.base) = true → l.base ≠ d.val →
        (s.classQ l.base l.cls).length < 1024 → l.cls < 4 → s.classQ d cls = [] → Completes (.instanceStart t d cls) s (fun u =>
          u.intakeOf d = [] ∧ u.classQ l.base l.cls = s.classQ l.base l.cls ++ [l] ∧ u.gs.insts = s.gs.insts ∧
          Keeps [gsBlock l.base] s u)) ∧
      (s.intakeOf d = [] → s.instsOn d < 1024 → ∀ l ∈ (s.classQ d cls).head?,
        s.poolPlaces d (s.instNeed (s.launchImage l).1) ≠ [] → Completes (.instanceStart t d cls) s (fun u =>
          u.classQ d cls = (s.classQ d cls).tail ∧
          (∃ i, u.gs.insts.getLast? = some i ∧ i.l = l ∧ i.die = d ∧ i.id = l.num ∧ i.image = (s.launchImage l).1 ∧
            i.need = s.instNeed i.image ∧ i.completed = 0 ∧ i.fin = none) ∧
          u.gs.insts.length = s.gs.insts.length + 1 ∧ Keeps [gsBlock d] s u)))

/-- Operations and threads (R221 to R226, R230): the next ready node becomes an operation with the die's next command
identity; a chunk of threads is issued to a core in the admission order, as many as the chunk, the operation and the core
leave; an engine that switches exchanges its running thread, with its whole state, for the parked one, and writes of memory only the 24 KiB
save area of the thread it leaves (R273).
Ends of nodes and instances (R220, R232 to R235): an operation whose threads have all ended leaves the table, its instance
counts a completed node, and the last one ends the instance with ST_OK; a completion message decrements the node it names; a
node readmitted for its replay counts one; an instance that is over leaves, with its completion record written. -/
def Obligations.OperationsRunToTheirEnds : Prop :=
  (∀ (t : Nat) (d : Fin 4) (c e k : Fin 16) (s : State),
      (∀ p, s.nextReady d = some p → Completes (.nodeAdmit t d) s (fun u =>
        (∃ o, u.gs.ops.getLast? = some o ∧ o.inst = p.1.id ∧ o.node = p.2 ∧ o.die = d ∧ o.seq = s.f (F.GS_SEQ_seq d) ∧
          o.epoch = s.f (F.GS_EPOCH_epoch d) ∧ o.next = 0 ∧ o.startTick = max s.tick t) ∧
        u.gs.ops.length = s.gs.ops.length + 1 ∧ u.f (F.GS_SEQ_seq d) = (s.f (F.GS_SEQ_seq d) + 1) % 2 ^ 32 ∧
        (s.nodeAtomic p.1.image p.2 = false → Keeps [gsBlock d] s u))) ∧
      (t ≤ s.tick → s.coreOpen c = true → ∀ o, s.nextIssue (c / 4) = some o → (s.instOf o.inst).isSome = true →
        s.opOf ⟨o.die, o.seq, o.epoch, 0, 1, [], none, 0, 0, false⟩ = some o →
        ∀ n : Fin 65, Completes (.threadIssue t c n) s (fun u =>
          (u.liveThreads c).length = (s.liveThreads c).length + min (min n.val 64) (min (o.total - o.next) (s.coreRoom c o.cls)) ∧
          (∃ x ∈ u.gs.ops, x.die = o.die ∧ x.seq = o.seq ∧ x.epoch = o.epoch ∧
            x.next = o.next + min (min n.val 64) (min (o.total - o.next) (s.coreRoom c o.cls))) ∧
          Keeps [gsBlock (c / 4)] s u)) ∧
      (∀ x, (s.engine c e).cur = some x → ∀ y, (s.engine c e).parked[k.val]? = some y → ∀ stalled,
        Completes (.threadSwitch t c e k stalled) s (fun u =>
          (u.engine c e).cur = some y.thr ∧ u.hart (State.seqHart (16 * c + e)) = y.hart ∧ u.tile (16 * c + e) = y.tile ∧
          (u.engine c e).parked = (s.engine c e).parked.set k ⟨x, s.hart (State.seqHart (16 * c + e)), s.tile (16 * c + e)⟩ ∧
          u.ctHeld (0x70 + c) = (s.ctHeld (0x70 + c) + stalled) % 2 ^ 64 ∧ SameWords (InBlocks [0x2009]) s u ∧
          (s.opOf x = none → SameMemory s u) ∧
          (∀ o, s.opOf x = some o → SameMemoryBut (s.sharePlace o.die c e x.place + s.opScratch o) 24576 s u)))) ∧
  (∀ (t : Nat) (d : Fin 4) (s : State),
      (∀ o, s.gs.ops.find? (fun x => x.die = d.val && s.opDone x) = some o → ∀ i, s.instOf o.inst = some i → i.fin = none →
        Completes (.nodeComplete t d) s (fun u =>
          (∀ x ∈ u.gs.ops, ¬ (x.die = o.die ∧ x.seq = o.seq ∧ x.epoch = o.epoch)) ∧
          (∃ j, u.instOf o.inst = some j ∧ j.completed = i.completed + 1 ∧
            j.fin = (if i.completed + 1 = s.gNodes i.image then some (0, 0, 0xFFFFFFFF) else none)) ∧ SameMemory s u)) ∧
      (∀ i, s.gs.insts.find? (fun i => i.msgs.any (fun m => m.1 = d.val)) = some i → s.instOf i.id = some i →
        ∀ m, i.msgs.find? (fun m => m.1 = d.val) = some m → Completes (.completionMessage t d) s (fun u =>
          (u.instOf i.id).map (fun j => (j.msgs, Table.get (fun _ => 0) j.dec m.2)) =
            some (i.msgs.erase m, Table.get (fun _ => 0) i.dec m.2 + 1) ∧ Keeps [] s u)) ∧
      (∀ p, s.replayOf d = some p → s.instOf p.1.id = some p.1 → Completes (.nodeReplay t d) s (fun u =>
        (u.instOf p.1.id).map (fun j => (j.replays, j.waiting, j.admitted.contains p.2)) =
          some (p.1.replays + 1, p.1.waiting.filter (fun w => w.1 ≠ p.2), false) ∧
        u.f (F.GS_ERR_replay d) = min (s.f (F.GS_ERR_replay d) + 1) 65535 ∧ Keeps [gsBlock d] s u)) ∧
      (s.gs.ended = [] →
        ∀ i, s.gs.insts.find? (fun i => i.die = d.val && i.fin.isSome && s.gs.ops.all (fun o => o.inst ≠ i.id)) = some i →
        i.l.job = none → State.inSram i.l.compl 32 = true →
        s.spanFault i.l.compl 32 true (0x480 + d) = none → ∀ x, i.fin = some x → Completes (.instanceEnd t d) s (fun u =>
          u.instOf i.id = none ∧ u.memVal i.l.compl 1 = x.1 % 256 ∧ u.memVal (i.l.compl + 1) 1 = x.2.1 % 256 ∧
          u.memVal (i.l.compl + 2) 2 = i.l.ctx % 65536 ∧ u.memVal (i.l.compl + 4) 4 = i.l.fid % 2 ^ 32 ∧
          u.memVal (i.l.compl + 8) 4 = x.2.2 % 2 ^ 32 ∧ u.memVal (i.l.compl + 13) 1 = min i.replays 255 ∧
          u.memVal (i.l.compl + 24) 8 = u.time ∧ SameMemoryBut i.l.compl 32 s u)))

/-- Stops, triggers and safety windows (R217, R229, R234, R237): GS_STOP leaves no live and no queued launch of its context and
frame on the die, whoever made it; a trigger that fires puts its template's launch into the intake and counts, or counts an
overrun while its last launch still waits there; a window opens and closes at its times; GS_CLR clears the counts. -/
def Obligations.StopsTriggersAndWindows : Prop :=
  ∀ (t : Nat) (d : Fin 4) (s : State),
    (∀ (n : Fin 1024) (fid : BitVec 32), Completes (.gsStop t d n fid) s (fun u =>
      u.intakeOf d = [] ∧ (∀ i ∈ u.gs.insts, i.die = d.val → i.l.ctx = n.val → i.l.fid = fid.toNat → i.fin.isSome = true) ∧
      (∀ c : Fin 4, ∀ l ∈ u.classQ d c, ¬ (l.ctx = n.val ∧ l.fid = fid.toNat)))) ∧
    (∀ k : Fin 16, (s.start t).trigF d k (F.GS_TRIG_en d k) = 1 →
      ((s.start t).trigF d k (F.GS_TRIG_src d k) = 3 →
        ((s.intakeOf d).any (fun l => l.trig = some k.val) = false → Completes (.gsTrigFire t d (BitVec.ofNat 16 (2 ^ k.val))) s (fun u =>
          (∃ l, u.intakeOf d = s.intakeOf d ++ [l] ∧ l.trig = some k.val ∧ l.num = s.gs.nextLaunch ∧
            l.fid = (s.readLaunch ((s.start t).trigSet d k).2).fid) ∧
          u.f (F.GS_TRIG_STAT_fired d k) = min (s.f (F.GS_TRIG_STAT_fired d k) + 1) 65535 ∧ Keeps [gsBlock d] s u)) ∧
        ((s.intakeOf d).any (fun l => l.trig = some k.val) = true → Completes (.gsTrigFire t d (BitVec.ofNat 16 (2 ^ k.val))) s (fun u =>
          u.intakeOf d = s.intakeOf d ∧ u.f (F.GS_TRIG_STAT_overrun d k) = min (s.f (F.GS_TRIG_STAT_overrun d k) + 1) 65535 ∧
          Keeps [gsBlock d] s u))) ∧
      ((s.start t).trigF d k (F.GS_TRIG_src d k) = 2 → (s.intakeOf d).any (fun l => l.trig = some k.val) = false →
        (s.start t).trigLast (16 * d + k) + State.us ((s.start t).trigF d k (F.GS_TRIG_period d k)) ≤ max s.tick t →
        Completes (.triggerPeriod t d k) s (fun u =>
          (∃ l, u.intakeOf d = s.intakeOf d ++ [l] ∧ l.trig = some k.val ∧ l.stamp = u.time) ∧
          u.f (F.GS_TRIG_STAT_fired d k) = min (s.f (F.GS_TRIG_STAT_fired d k) + 1) 65535 ∧
          Table.get (fun _ => 0) u.gs.trigTick (16 * d + k) = max s.tick t ∧ Keeps [gsBlock d] s u))) ∧
    (∀ w : Fin 4,
      (s.on (F.GS_WCFG_en d) = true → (∃ r ∈ (s.start t).windowRefs d, r + 2500 * s.f (F.GS_WIN_off d w) ≤ max s.tick t ∧
          max s.tick t < r + 2500 * s.f (F.GS_WIN_off d w) + 2500 * s.f (F.GS_WIN_len d w)) →
        Completes (.safetyWindowOpen t d w) s (fun u => Table.get (fun _ => false) u.gs.winOpen (4 * d + w) = true ∧ Keeps [] s u)) ∧
      ((s.on (F.GS_WCFG_en d) = false ∨ ∀ r ∈ (s.start t).windowRefs d, max s.tick t < r + 2500 * s.f (F.GS_WIN_off d w) ∨
          r + 2500 * s.f (F.GS_WIN_off d w) + 2500 * s.f (F.GS_WIN_len d w) ≤ max s.tick t) →
        Completes (.safetyWindowClose t d w) s (fun u => Table.get (fun _ => false) u.gs.winOpen (4 * d + w) = false ∧ Keeps [] s u))) ∧
    (∀ v : BitVec 32, bitOf v.toNat 0 = true → Completes (.gsClr t d v) s (fun u =>
      (∀ k : Fin 16, u.word (A.GS_TRIG_STAT d k) = 0) ∧ u.word (A.GS_ERR d) = 0 ∧ u.f (F.GS_STATUS_sat d) = 0 ∧ Keeps [gsBlock d] s u))

/-! ### Doraral (R238 to R268) -/

/-- Register and immediate instructions on a processor that is ready (R245, R246): rd takes the result of the table, g0 discards
it, and the instruction retires with its weight, 8 for a division on a verdict or control processor (R262). -/
def Obligations.IntegerInstructionsCompute : Prop :=
  ∀ (x : Issue) (rd ra rb : Fin 32) (fn : BitVec 11) (imm : BitVec 16) (s : State),
    (∀ r, opResult fn.toNat (s.g x.h ra) (s.g x.h rb) (s.pBit x.h) = some r →
      (0x020 ≤ fn.toNat → fn.toNat < 0x023 → rb = 0) → Ready x 4 (opWeight x.h fn.toNat) s →
      Runs x 4 (.op x fn rd ra rb) s (fun u => Retires x.h 4 (opWeight x.h fn.toNat) s u ∧ WroteG x.h rd r s u)) ∧
    (∀ r, op32Result fn.toNat ((s.g x.h ra).setWidth 32) ((s.g x.h rb).setWidth 32) = some r → Ready x 4 (opWeight x.h fn.toNat) s →
      Runs x 4 (.op32 x fn rd ra rb) s (fun u =>
        Retires x.h 4 (opWeight x.h fn.toNat) s u ∧ WroteG x.h rd (r.signExtend 64) s u)) ∧
    (Ready x 4 1 s →
      Runs x 4 (.addi x rd ra imm) s (fun u => Retires x.h 4 1 s u ∧ WroteG x.h rd (s.g x.h ra + imm.signExtend 64) s u) ∧
      Runs x 4 (.addi32 x rd ra imm) s (fun u => Retires x.h 4 1 s u ∧
        WroteG x.h rd (((s.g x.h ra).setWidth 32 + imm.signExtend 32).signExtend 64) s u) ∧
      Runs x 4 (.andi x rd ra imm) s (fun u => Retires x.h 4 1 s u ∧ WroteG x.h rd (s.g x.h ra &&& imm.setWidth 64) s u) ∧
      Runs x 4 (.ori x rd ra imm) s (fun u => Retires x.h 4 1 s u ∧ WroteG x.h rd (s.g x.h ra ||| imm.setWidth 64) s u) ∧
      Runs x 4 (.xori x rd ra imm) s (fun u => Retires x.h 4 1 s u ∧ WroteG x.h rd (s.g x.h ra ^^^ imm.setWidth 64) s u) ∧
      (∀ r, shiftResult imm.toNat (s.g x.h ra) = some r →
        Runs x 4 (.shi x rd ra imm) s (fun u => Retires x.h 4 1 s u ∧ WroteG x.h rd r s u)) ∧
      Runs x 4 (.lih x rd 0 imm) s (fun u => Retires x.h 4 1 s u ∧ WroteG x.h rd ((imm ++ (0 : BitVec 16)).signExtend 64) s u) ∧
      Runs x 4 (.addpch x rd 0 imm) s (fun u => Retires x.h 4 1 s u ∧
        WroteG x.h rd (BitVec.ofNat 64 (s.pc x.h) + (imm ++ (0 : BitVec 16)).signExtend 64) s u))

/-- Compares and predicate logic on a processor that is ready (R247, R248): the outcome fills the predicate pd, p0 discards it;
PRED's transfers move 64 bits between a predicate and a general register.
Branches and jumps on a processor that is ready (R249): BR goes to pc + 4·off when bit 0 of p differs from n and past itself
otherwise; JAL and JALR write pc + 4 to rd, JALR's target coming from the old ra; JALR to a misaligned target raises
ERR_FETCH_ALIGN at itself and writes nothing. -/
def Obligations.ComparesAndBranchesDecide : Prop :=
  (∀ (x : Issue) (pd pa pb : Fin 8) (rd ra rb : Fin 32) (imm : BitVec 12) (s : State), Ready x 4 1 s →
      (∀ (cc : Fin 10) (b : Bool), condition cc (s.g x.h ra) (s.g x.h rb) = some b →
        Runs x 4 (.cmp x (BitVec.ofNat 11 cc.val) (Fin.ofNat 32 pd.val) ra rb) s (fun u =>
          Retires x.h 4 1 s u ∧ WroteP x.h pd (if b then BitVec.allOnes 64 else 0) s u)) ∧
      (∀ (cc : Fin 10) (b : Bool), condition cc (s.g x.h ra) (imm.signExtend 64) = some b →
        Runs x 4 (.cmpi x (Fin.ofNat 16 cc.val) (Fin.ofNat 32 pd.val) ra imm) s (fun u =>
          Retires x.h 4 1 s u ∧ WroteP x.h pd (if b then BitVec.allOnes 64 else 0) s u)) ∧
      (∀ f : Fin 4, Runs x 4 (.pred x (BitVec.ofNat 11 f.val) (Fin.ofNat 32 pd.val) (Fin.ofNat 32 pa.val) (Fin.ofNat 32 pb.val)) s (fun u =>
        Retires x.h 4 1 s u ∧ WroteP x.h pd (match f with
          | 0 => s.p x.h pa &&& s.p x.h pb
          | 1 => s.p x.h pa ||| s.p x.h pb
          | 2 => s.p x.h pa ^^^ s.p x.h pb
          | _ => s.p x.h pa &&& ~~~s.p x.h pb) s u)) ∧
      Runs x 4 (.pred x 0x010 (Fin.ofNat 32 pd.val) ra 0) s (fun u => Retires x.h 4 1 s u ∧ WroteP x.h pd (s.g x.h ra) s u) ∧
      Runs x 4 (.pred x 0x011 rd (Fin.ofNat 32 pa.val) 0) s (fun u => Retires x.h 4 1 s u ∧ WroteG x.h rd (s.p x.h pa) s u)) ∧
  (∀ (x : Issue) (rd ra : Fin 32) (p : Fin 8) (n : Bool) (o22 : BitVec 22) (o21 : BitVec 21) (imm : BitVec 16) (s : State), Ready x 4 1 s →
      (s.pBit x.h p = n → Runs x 4 (.br x p n o22) s (fun u => Retires x.h 4 1 s u ∧ WroteNothing x.h s u)) ∧
      (s.pBit x.h p ≠ n → relTarget (s.pc x.h) o22 < 2 ^ 48 → Runs x 4 (.br x p n o22) s (fun u =>
        u.pc x.h = relTarget (s.pc x.h) o22 ∧ Charged x.h 1 s u ∧ WroteNothing x.h s u)) ∧
      (relTarget (s.pc x.h) o21 < 2 ^ 48 → Runs x 4 (.jal x rd o21) s (fun u =>
        u.pc x.h = relTarget (s.pc x.h) o21 ∧ Charged x.h 1 s u ∧ WroteG x.h rd (BitVec.ofNat 64 (s.pc x.h + 4)) s u)) ∧
      (s.ea x.h ra imm % 4 = 0 → s.ea x.h ra imm < 2 ^ 48 → Runs x 4 (.jalr x rd ra imm) s (fun u =>
        u.pc x.h = s.ea x.h ra imm ∧ Charged x.h 1 s u ∧ WroteG x.h rd (BitVec.ofNat 64 (s.pc x.h + 4)) s u)) ∧
      (s.ea x.h ra imm % 4 ≠ 0 → CanTrap x.h s → Runs x 4 (.jalr x rd ra imm) s (fun u =>
        TrapEntered x.h 0x01 (s.ea x.h ra imm) (s.pc x.h) s u)))

/-- The loads (R250, R251): what each does on a processor that is ready, for each width and extension.
The stores (R250, R252): what each does on a processor that is ready, for each width. -/
def Obligations.LoadsAndStoresReachMemory : Prop :=
  (∀ (x : Issue) (rd ra : Fin 32) (imm : BitVec 16) (s : State),
      Loads (.lb x rd ra imm 0) x rd ra imm 1 true s ∧ Loads (.lbu x rd ra imm 0) x rd ra imm 1 false s ∧
      Loads (.lh x rd ra imm 0) x rd ra imm 2 true s ∧ Loads (.lhu x rd ra imm 0) x rd ra imm 2 false s ∧
      Loads (.lw x rd ra imm 0) x rd ra imm 4 true s ∧ Loads (.lwu x rd ra imm 0) x rd ra imm 4 false s ∧
      Loads (.ld x rd ra imm 0) x rd ra imm 8 true s) ∧
  (∀ (x : Issue) (rs ra : Fin 32) (imm : BitVec 16) (s : State),
      Stores (.sb x rs ra imm) x rs ra imm 1 s ∧ Stores (.sh x rs ra imm) x rs ra imm 2 s ∧
      Stores (.sw x rs ra imm) x rs ra imm 4 s ∧ Stores (.sd x rs ra imm) x rs ra imm 8 s)

/-- AMO and BARRIER on a processor that is ready (R252 to R254): an AMO on memory it may act on leaves the old value,
sign-extended, in rd and the new value in memory, but for a compare-and-swap that differs; a legal BARRIER with no failed
store to answer for retires with the weight of its scope and changes nothing. -/
def Obligations.AtomicsAndBarriers : Prop :=
  ∀ (x : Issue) (rd ra rb : Fin 32) (op : Fin 10) (wide : Bool) (imm : BitVec 16) (s : State) (n a : Nat),
    n = (if wide then 8 else 4) → a = (s.g x.h ra).toNat →
    (Ready x 4 (State.memWeight x.h a n true) s → s.accessFault x.h a n 3 = none → State.amoPlace a = true → PlainRead x.h a n s → PlainWrite x.h a n s →
      ∀ new, amoValue op (BitVec.ofNat (8 * n) (s.memVal a n)) ((s.g x.h rb).setWidth (8 * n)) ((s.g x.h rd).setWidth (8 * n)) = some new →
      Runs x 4 (.amo x (BitVec.ofNat 11 (op + (if wide then 256 else 0))) rd ra rb 0) s (fun u =>
        Retires x.h 4 (State.memWeight x.h a n true) s u ∧
        u.g x.h rd = (if rd = 0 then 0 else (BitVec.ofNat (8 * n) (s.memVal a n)).signExtend 64) ∧
        u.memVal a n = new.toNat ∧ SameMemoryBut a n s u ∧
        SameG x.h rd s u ∧ SameP x.h 0 s u ∧ SameCsr x.h [] s u ∧ SameWords (InBlocks [0x2009]) s u)) ∧
    (Ready x 4 (barrierWeight x.h imm.toNat) s → imm.toNat < 48 → imm.toNat % 16 ≠ 0 → (s.hart x.h).storeErrs = [] →
      Runs x 4 (.barrier x 0 0 imm) s (fun u => Retires x.h 4 (barrierWeight x.h imm.toNat) s u ∧ WroteNothing x.h s u))

/-- System instructions on a processor that is ready (R255, R259, R260, R266, R267): NOP changes nothing; TEXIT and TRAP retire and
hand control to the trap table with ST_EXIT or ST_TRAP and the next pc, and a tile thread's TEXIT ends it; BREAK traps at
itself; TRET and NTRET restore what their entry saved; IDLE completes when an enabled interrupt is pending and waits
otherwise. -/
def Obligations.SystemInstructionsAct : Prop :=
  ∀ (x : Issue) (rd ra : Fin 32) (s : State), Ready x 4 1 s →
    Runs x 4 (.nop x 0 0 0) s (fun u => Retires x.h 4 1 s u ∧ WroteNothing x.h s u) ∧
    (CanTrap x.h s → s.inTask x.h = true →
      Runs x 4 (.texit x 0 0 0) s (fun u => TrapEntered x.h 0x07 0 (s.pc x.h + 4) s u ∧ Charged x.h 1 s u) ∧
      Runs x 4 (.trap x rd ra 0) s (fun u => TrapEntered x.h 0x06 (rd * 32 + ra) (s.pc x.h + 4) s u ∧ Charged x.h 1 s u)) ∧
    (State.isTile x.h = true → ∀ y, (s.engine (State.coreOf x.h) (State.seqOf x.h % 16)).cur = some y → (s.hart x.h).storeErrs = [] →
      (∀ z ∈ s.coreQ (State.coreOf x.h), ¬ (z.die = y.die ∧ z.seq = y.seq ∧ z.num = y.num)) → Runs x 4 (.texit x 0 0 0) s (fun u =>
        y ∉ u.residents (State.coreOf x.h) (State.seqOf x.h % 16) ∧ SameMemory s u)) ∧
    (CanTrap x.h s → Runs x 4 (.brk x 0 0 0) s (fun u => TrapEntered x.h 0x05 0 (s.pc x.h) s u)) ∧
    (s.wardenMode x.h = true →
      (s.csr x.h 0x001 % 4 = 0 → s.csr x.h 0x001 < 2 ^ 48 → Runs x 4 (.tret x 0 0 0) s (fun u =>
        u.pc x.h = s.csr x.h 0x001 ∧ u.csr x.h 0x000 = s.csr x.h 0x000 / 16 % 2 * 16 + s.csr x.h 0x005 % 8 ∧
        (s.csr x.h 0x005 % 8 = 5 ∨ s.csr x.h 0x005 % 8 = 7 → u.csr x.h 0x044 = 0) ∧ u.csr x.h 0x010 = s.csr x.h 0x010 ∧
        SameG x.h 0 s u ∧ SameP x.h 0 s u ∧ SameCsr x.h [0, 0x044] s u ∧ Keeps [0x2009] s u)) ∧
      (s.csr x.h 0x00B % 4 = 0 → s.csr x.h 0x00B < 2 ^ 48 → Runs x 4 (.ntret x 0 0 0) s (fun u =>
        u.pc x.h = s.csr x.h 0x00B ∧ u.csr x.h 0x000 = s.csr x.h 0x00D % 32 ∧ u.csr x.h 0x010 = s.csr x.h 0x010 ∧
        SameG x.h 0 s u ∧ SameP x.h 0 s u ∧ SameCsr x.h [0] s u ∧ Keeps [0x2009] s u)) ∧
      ((s.start x.t).idleEnds x.h = true → Runs x 4 (.idle x 0 0 0) s (fun u => Retires x.h 4 1 s u ∧ WroteNothing x.h s u)) ∧
      ((s.start x.t).idleEnds x.h = false → Runs x 4 (.idle x 0 0 0) s (fun u =>
        (u.hart x.h).run = .idle ∧ u.pc x.h = s.pc x.h ∧ WroteNothing x.h s u)))

/-- CTL on a processor that is ready and may reach the register (R240, R241, R256): rd takes the register's value before the
write, the fields of the table that can be written take the new value, and the others keep theirs; the forms without an
exchange leave rd. -/
def Obligations.ControlRegistersReadAndWrite : Prop :=
  ∀ (x : Issue) (rd ra : Fin 32) (n : BitVec 12) (s : State), Ready x 4 1 s →
    (s.csrOk x.h n.toNat false = true → n ≠ 0x009 → n ≠ 0x040 → n ≠ 0x042 →
      Runs x 4 (.ctlRd x rd 0 n) s (fun u => Retires x.h 4 1 s u ∧ WroteG x.h rd (BitVec.ofNat 64 (s.csrRead x.h n.toNat)) s u)) ∧
    (s.csrOk x.h n.toNat false = true → (n = 0x009 ∨ n = 0x040 ∨ n = 0x042) → Runs x 4 (.ctlRd x rd 0 n) s (fun u =>
      Retires x.h 4 1 s u ∧ WroteG x.h rd (BitVec.ofNat 64 ((fetched x 4 s).csrRead x.h n.toNat)) s u)) ∧
    (s.csrOk x.h n.toNat true = true →
      ControlWrites (.ctlWr x 0 ra n) x rd ra n.toNat false (fun _ b => b) s ∧
      ControlWrites (.ctlSet x 0 ra n) x rd ra n.toNat false (fun a b => a ||| b) s ∧
      ControlWrites (.ctlClr x 0 ra n) x rd ra n.toNat false (fun a b => a - (a &&& b)) s ∧
      ControlWrites (.ctlXwr x rd ra n) x rd ra n.toNat true (fun _ b => b) s ∧
      ControlWrites (.ctlXset x rd ra n) x rd ra n.toNat true (fun a b => a ||| b) s ∧
      ControlWrites (.ctlXclr x rd ra n) x rd ra n.toNat true (fun a b => a - (a &&& b)) s)

/-- Events (R257): EVSEND sets the event bits of the local control processors it selects; EVWAIT with a selected event, or with
no time to wait, writes the selected events to rd, and otherwise waits; a wait ends with the selected events, or with 0 when
its ticks have passed. -/
def Obligations.EventsWakeControlProcessors : Prop :=
  ∀ (x : Issue) (rd ra rb : Fin 32) (s : State), State.isControl x.h = true →
    (Ready x 4 1 s →
      Runs x 4 (.evsend x 0 ra 0) s (fun u => u.pc x.h = (s.pc x.h + 4) % 2 ^ 48 ∧
        (∀ c : Fin 4, u.csr (0x100 + 4 * State.dieOf x.h + c) 0x100 =
          (if bitOf (s.g x.h ra).toNat (16 + c) then s.csr (0x100 + 4 * State.dieOf x.h + c) 0x100 ||| (s.g x.h ra).toNat % 65536
            else s.csr (0x100 + 4 * State.dieOf x.h + c) 0x100)) ∧ SameG x.h 0 s u ∧ Keeps [0x2009] s u) ∧
      ((BitVec.ofNat 64 (s.csr x.h 0x100) &&& s.g x.h rb ≠ 0 ∨ s.g x.h ra = 0) → Runs x 4 (.evwait x rd ra rb) s (fun u =>
        Retires x.h 4 1 s u ∧ WroteG x.h rd (BitVec.ofNat 64 (s.csr x.h 0x100) &&& s.g x.h rb) s u)) ∧
      (BitVec.ofNat 64 (s.csr x.h 0x100) &&& s.g x.h rb = 0 → s.g x.h ra ≠ 0 → Runs x 4 (.evwait x rd ra rb) s (fun u =>
        (u.hart x.h).run = .evwait rd (s.g x.h rb) (max s.tick x.t + (s.g x.h ra).toNat) ∧ u.pc x.h = s.pc x.h ∧ WroteNothing x.h s u))) ∧
    (∀ mask due, (s.hart x.h).run = .evwait rd mask due →
      (BitVec.ofNat 64 (s.csr x.h 0x100) &&& mask ≠ 0 → Completes (.evwaitWake x.t x.h) s (fun u =>
        (u.hart x.h).run = .run ∧ u.pc x.h = (s.pc x.h + 4) % 2 ^ 48 ∧ WroteG x.h rd (BitVec.ofNat 64 (s.csr x.h 0x100) &&& mask) s u)) ∧
      (BitVec.ofNat 64 (s.csr x.h 0x100) &&& mask = 0 → due ≤ max s.tick x.t → Completes (.evwaitTimeout x.t x.h) s (fun u =>
        (u.hart x.h).run = .run ∧ u.pc x.h = (s.pc x.h + 4) % 2 ^ 48 ∧ WroteG x.h rd 0 s u)))

/-- Interrupts and non-maskable traps (R252, R259 to R261): a failed store is answered for at a boundary, the arrival of its response being
kept where the processor waits, an enabled pending
interrupt enters the trap table with IRQ_PEND & IRQ_EN in TRAP_INFO, the alarm ends an IDLE that waits for it, and a waiting
non-maskable trap saves RUNCTL and pc and goes to NMI_BASE. -/
def Obligations.TrapsAreTaken : Prop :=
  ∀ (t : Nat) (h : Fin 0x300) (s : State), State.isTile h = false → (State.isVerdict h && s.vpRuns (h / 2)) = false →
    ((s.start t).atBoundary h = true → (s.start t).nmiReady h = false → bitOf (s.csr h 0x000) 3 = false → bitOf (s.csr h 0x000) 4 = false →
      (∀ a ∈ (s.hart h).storeErrs.head?, Completes (.storeError t h) s (fun u =>
        (u.hart h).storeErrs = [] ∧ u.csr h 0x001 = s.pc h ∧ u.csr h 0x002 = 0x0C + 65536 * min ((s.hart h).storeErrs.length - 1) 0xFFFF ∧
        u.csr h 0x003 = a % 2 ^ 64 ∧ u.csr h 0x005 = s.csr h 0x000 % 256 ∧ u.csr h 0x000 = 8 ∧ u.pc h = (s.csr h 0x004 + 128) % 2 ^ 48 ∧
        SameG h 0 s u ∧ SameP h 0 s u ∧ Keeps [] s u)) ∧
      ((s.hart h).storeErrs = [] → (s.start t).irqNow h ≠ 0 → Completes (.interruptEntry t h) s (fun u =>
        TrapEntered h 0x0D ((s.start t).irqNow h) (s.pc h) s u ∧ u.pc h = (s.csr h 0x004 + 192) % 2 ^ 48 ∧
        (bitOf ((s.start t).irqNow h) 1 = true → (u.hart h).ext = false)))) ∧
    ((s.hart h).run = .idle → (s.start t).idleEnds h = false → (s.hart h).storeErrs ≠ [] → Completes (.storeError t h) s (fun u =>
      u.storeDue h = true ∧ (u.hart h).storeErrs = (s.hart h).storeErrs ∧ (u.hart h).run = .idle ∧ WroteNothing h s u)) ∧
    ((s.hart h).run = .idle → (s.start t).idleEnds h = true → Completes (.alarmDue t h) s (fun u =>
      (u.hart h).run = .run ∧ u.pc h = (s.pc h + 4) % 2 ^ 48 ∧ WroteNothing h s u)) ∧
    ((s.start t).atBoundary h = true → (s.start t).nmiReady h = true → Completes (.nmiEntry t h) s (fun u =>
      (u.hart h).nmi = false ∧ u.csr h 0x00D = s.csr h 0x000 % 256 ∧ u.csr h 0x00B = s.pc h ∧
      u.csr h 0x000 = s.csr h 0x000 / 8 % 2 * 8 + 16 ∧ u.pc h = s.csr h 0x00C % 2 ^ 48 ∧
      SameG h 0 s u ∧ SameP h 0 s u ∧ SameCsr h [0, 0x00B, 0x00D] s u ∧ Keeps [] s u))

/-! ### Vector and Tensor (R271 to R296) -/

/-- Vector instructions on a tile sequencer that is ready (R271, R281 to R287): the selected lanes of vd take the result, the
others keep their value, and no other register changes; VEXT writes a general register and the compares a predicate. A value
that only a bound fixes (VFRCP, VFRSQ, VACT, stochastic rounding) is a free value within it. -/
def Obligations.VectorInstructionsWriteLanes : Prop :=
  ∀ (x : Issue) (fn : Fin 32) (vd va vb : Fin 64) (rd ra : Fin 32) (p : Fin 8) (s : State), State.isTile x.h = true → Ready x 4 1 s →
    (fn.val < 0x12 → (fn.val = 0x11 → vb = 0) → Runs x 4 (.vi x fn vd va vb p) s (fun u => Retires x.h 4 1 s u ∧
      WroteLanes x.h vd (s.p x.h p) (fun l r =>
        viResult (bits (s.np x.h) 0 3) fn (lane (s.vr x.h va) l) (lane (s.vr x.h vb) l) = some r) s u)) ∧
    (fn.val < 0x0A → (0x06 ≤ fn.val → vb = 0) → Runs x 4 (.vf x fn vd va vb p) s (fun u => Retires x.h 4 1 s u ∧
      WroteLanes x.h vd (s.p x.h p) (fun l r => ∃ w : Nat, w < 2 ^ 32 ∧ (vfResult (s.np x.h) fn (lane (s.vr x.h va) l).toNat
        (lane (s.vr x.h vb) l).toNat (lane (s.vr x.h vd) l).toNat w).map (BitVec.ofNat 32) = some r) s u)) ∧
    (vcLegal (fn % 16) vb = true → fn.val < 16 → Runs x 4 (.vc x fn vd va vb p) s (fun u => Retires x.h 4 1 s u ∧ WroteV x.h vd s u ∧
      (∀ e : Fin 2048, e.val < 2048 / elemBits fn → e.val / 64 ≠ vb.val % 8 ∨ (s.p x.h p).getLsbD (e % 64) = false →
        packed (u.vr x.h vd) (elemBits fn) e = packed (s.vr x.h vd) (elemBits fn) e) ∧
      (∀ l : Fin 64, (s.p x.h p).getLsbD l = true → ∃ w : Nat, packed (u.vr x.h vd) (elemBits fn) (64 * (vb.val % 8) + l) =
        (if bitOf vb 3 then narrowI (s.np x.h) fn (lane (s.vr x.h va) l).toInt
          else narrowF (s.np x.h) fn (lane (s.vr x.h va) l).toNat w)))) ∧
    (vcLegal (fn % 16) vb = true → 16 ≤ fn.val → Runs x 4 (.vc x fn vd va vb p) s (fun u => Retires x.h 4 1 s u ∧
      WroteLanes x.h vd (s.p x.h p) (fun l r => ∃ w : Nat, r = widen (fn % 16) (bitOf vb 3)
        (packed (s.vr x.h va) (elemBits (fn % 16)) (64 * (vb.val % 8) + l)) w) s u)) ∧
    (vb.val < 5 → Runs x 4 (.vact x vd va vb p) s (fun u => Retires x.h 4 1 s u ∧
      WroteLanes x.h vd (s.p x.h p) (fun l r => ∃ w : Nat, w < 2 ^ 32 ∧ r = BitVec.ofNat 32 (Fv.flush (bitOf (s.np x.h) 7) fp32
        (Act.act (bits (s.np x.h) 0 3) vb (Fv.flush (bitOf (s.np x.h) 6) fp32 (lane (s.vr x.h va) l).toNat) w))) s u)) ∧
    (vb.val < 7 → Runs x 4 (.vred x vd va vb p) s (fun u => Retires x.h 4 1 s u ∧ WroteLanes x.h vd 1 (fun _ r =>
      r = reduce (s.np x.h) vb ((List.range 64).map (fun l => ((s.p x.h p).getLsbD l, lane (s.vr x.h va) l)))) s u)) ∧
    Runs x 4 (.vbcast x vd (Fin.ofNat 64 ra.val) 0 p) s (fun u => Retires x.h 4 1 s u ∧
      WroteLanes x.h vd (s.p x.h p) (fun _ r => r = (s.g x.h ra).setWidth 32) s u) ∧
    Runs x 4 (.vext x (Fin.ofNat 64 rd.val) va vb 0) s (fun u => Retires x.h 4 1 s u ∧
      WroteG x.h rd ((lane (s.vr x.h va) vb).signExtend 64) s u) ∧
    Runs x 4 (.vins x vd (Fin.ofNat 64 ra.val) vb 0) s (fun u => Retires x.h 4 1 s u ∧
      WroteLanes x.h vd (BitVec.ofNat 64 (2 ^ vb.val)) (fun _ r => r = (s.g x.h ra).setWidth 32) s u) ∧
    (vd.val < 10 → Runs x 4 (.vcmp x vd va vb p) s (fun u => Retires x.h 4 1 s u ∧ WroteP x.h p (u.p x.h p) s u ∧
      (p ≠ 0 → ∀ l : Fin 64, condition vd (lane (s.vr x.h va) l) (lane (s.vr x.h vb) l) = some ((u.p x.h p).getLsbD l)))) ∧
    (vd.val < 4 ∨ vd = 6 ∨ vd = 7 → Runs x 4 (.vfcmp x vd va vb p) s (fun u => Retires x.h 4 1 s u ∧ WroteP x.h p (u.p x.h p) s u ∧
      (p ≠ 0 → ∀ l : Fin 64,
        (u.p x.h p).getLsbD l = fcondition vd (lane (s.vr x.h va) l).toNat (lane (s.vr x.h vb) l).toNat))) ∧
    Runs x 4 (.vselv x vd va vb p) s (fun u => Retires x.h 4 1 s u ∧
      WroteLanes x.h vd (BitVec.allOnes 64) (fun l r =>
        r = if (s.p x.h p).getLsbD l then lane (s.vr x.h va) l else lane (s.vr x.h vb) l) s u) ∧
    Runs x 4 (.vperm x vd va vb p) s (fun u => Retires x.h 4 1 s u ∧
      WroteLanes x.h vd (s.p x.h p) (fun l r => r = lane (s.vr x.h va) ((lane (s.vr x.h vb) l).toNat % 64)) s u) ∧
    Runs x 4 (.vidx x vd 0 0 p) s (fun u => Retires x.h 4 1 s u ∧
      WroteLanes x.h vd (s.p x.h p) (fun l r => r = BitVec.ofNat 32 l) s u) ∧
    Runs x 4 (.vmov x vd va 0 p) s (fun u => Retires x.h 4 1 s u ∧
      WroteLanes x.h vd (s.p x.h p) (fun l r => r = lane (s.vr x.h va) l) s u)

/-- Tile loads on a tile sequencer that is ready (R278, R288): the elements of the descriptor's tensor from its cursor plus the
offsets come into the register, those outside the tensor as real zero, and what lies past the count reads 0.
Tile stores and atomic accumulates on a tile sequencer that is ready (R284, R288 to R290): the elements of the output take
the narrowed lanes, or the sums; nothing outside their bytes changes. -/
def Obligations.TileLoadsAndStoresReachTensors : Prop :=
  (∀ (x : Issue) (v : Fin 64) (t : Fin 16) (ga gb : Fin 32) (s : State) (d : Desc) (i : List Int) (n : Nat),
      d = s.tdesc x.h t → i = d.start (s.g x.h ga) →
      (n = s.accessCount x.h gb (2048 / elemBits d.fmt) →
        TileLoads (.tldR x v t ga gb 0) x v (fmtDefined d.fmt) d i n n (fun r =>
          ∀ j : Fin 512, j.val < 2048 / elemBits d.fmt →
            packed r (elemBits d.fmt) j = (if j.val < n then elemAt s d i j else 0)) s) ∧
      (n = s.accessCount x.h gb 64 →
        TileLoads (.tldW x v t ga gb 0) x v (fmtDefined d.fmt) d i n n (fun r =>
          ∀ j : Fin 64, ∃ w : Nat, lane r j = (if n ≤ j then 0
            else if d.fmt = 9 then BitVec.ofNat 32 (Fv.encode fp32 (bits (s.np x.h) 0 3) false (bx8Value (expAt s d i j) (elemAt s d i j)))
            else widen d.fmt (isIntFmt d.fmt) (elemAt s d i j) w)) s) ∧
      (n = s.accessCount x.h gb 64 →
        TileLoads (.tlde x v t ga gb 0) x v (d.fmt == 9) d i n (32 * n) (fun r =>
          ∀ j : Fin 256, packed r 8 j = (if j.val < n then expAt s d i (32 * j) else 0)) s)) ∧
  (∀ (x : Issue) (v : Fin 64) (t : Fin 16) (ga gb : Fin 32) (s : State) (d : Desc) (i : List Int) (n : Nat),
      d = s.tdesc x.h t → i = d.start (s.g x.h ga) →
      (n = s.accessCount x.h gb (2048 / elemBits d.fmt) →
        TileStores (.tstR x v t ga gb) x (s.storeCheck x.h d i n (fmtDefined d.fmt && d.fmt ≠ 9) = none) d i n
          (fun j _ c _ => c = packed (s.vr x.h v) (elemBits d.fmt) j) s) ∧
      (n = s.accessCount x.h gb 64 →
        TileStores (.tstF x v t ga gb) x
          (s.storeCheck x.h d i n (fmtDefined d.fmt && (d.fmt ≠ 9 || n % 32 = 0)) = none) d i n
          (fun j _ c e => (d.fmt ≠ 9 → ∃ w : Nat, c = narrowF (s.np x.h) d.fmt (lane (s.vr x.h v) j).toNat w) ∧
            (d.fmt = 9 → ∃ w : Nat, (e, c) = ((State.bxBlock (s.np x.h) (fun k => (lane (s.vr x.h v) (j / 32 * 32 + k)).toNat) (fun _ => w)).1,
              (State.bxBlock (s.np x.h) (fun k => (lane (s.vr x.h v) (j / 32 * 32 + k)).toNat) (fun _ => w)).2 (j % 32)))) s ∧
        TileStores (.tstI x v t ga gb) x (s.storeCheck x.h d i n (isIntFmt d.fmt) = none) d i n
          (fun j _ c _ => c = narrowI (s.np x.h) d.fmt (lane (s.vr x.h v) j).toInt) s ∧
        TileStores (.tstaI x v t ga gb 0) x (d.valid = true ∧ d.fmt = 0xA ∧ d.isOut = true ∧ d.atomic = true ∧
            State.amoPlace (spanAt d i n).1 = true ∧ PlainRead x.h (spanAt d i n).1 (spanAt d i n).2 s) d i n
          (fun j old c _ => c = ((lane (s.vr x.h v) j).toNat + old) % 2 ^ 32) s ∧
        TileStores (.tstaF x v t ga gb 0) x (d.valid = true ∧ d.fmt = 8 ∧ d.isOut = true ∧ d.atomic = true ∧
            State.amoPlace (spanAt d i n).1 = true ∧ PlainRead x.h (spanAt d i n).1 (spanAt d i n).2 s) d i n
          (fun j old c _ => c = Fv.encode fp32 (bits (s.np x.h) 0 3) false
            ((Fv.decode fp32 old).add (bits (s.np x.h) 0 3 == 3) (Fv.decode fp32 (lane (s.vr x.h v) j).toNat))) s))

/-- Descriptor and accumulator instructions on a tile sequencer that is ready (R169, R172, R179, R272, R291); an integer accumulator that
is written carries its residue. -/
def Obligations.DescriptorsAndBanksChange : Prop :=
  ∀ (x : Issue) (r : Fin 64) (g : Fin 32) (t t2 : Fin 16) (k : Fin 64) (s : State), State.isTile x.h = true → Ready x 4 1 s →
    (k.val < 17 → ∀ v, (s.tdesc x.h t).field k = some v →
      Runs x 4 (.tget x (Fin.ofNat 64 g.val) t 0 k) s (fun u => Retires x.h 4 1 s u ∧ WroteG x.h g v s u)) ∧
    ((s.tdesc x.h t).valid = true → 13 ≤ k.val → k.val < 17 →
      Runs x 4 (.tset x (Fin.ofNat 64 g.val) t 0 k) s (fun u => Retires x.h 4 1 s u ∧
        u.tdesc x.h t = (s.tdesc x.h t).setCur k ((s.g x.h g).setWidth 32) ∧ (∀ j, j ≠ t.val → u.tdesc x.h j = s.tdesc x.h j) ∧
        WroteTile x.h { s.tileOf x.h with t := (u.tileOf x.h).t } s u) ∧
      Runs x 4 (.tadv x (Fin.ofNat 64 g.val) t 0 k) s (fun u => Retires x.h 4 1 s u ∧
        u.tdesc x.h t = (s.tdesc x.h t).setCur k ((s.tdesc x.h t).cur.getD (k - 13) 0 + (s.g x.h g).setWidth 32) ∧
        (∀ j, j ≠ t.val → u.tdesc x.h j = s.tdesc x.h j) ∧ WroteTile x.h { s.tileOf x.h with t := (u.tileOf x.h).t } s u)) ∧
    Runs x 4 (.tmov x 0 t t2 0) s (fun u => Retires x.h 4 1 s u ∧ u.tdesc x.h t = s.tdesc x.h t2 ∧
      (∀ j, j ≠ t.val → u.tdesc x.h j = s.tdesc x.h j) ∧ WroteTile x.h { s.tileOf x.h with t := (u.tileOf x.h).t } s u) ∧
    (∀ f : Fin 2, Runs x 4 (.taclr x (Fin.ofNat 64 g.val) 0 0 (Fin.ofNat 64 f.val)) s (fun u => Retires x.h 4 1 s u ∧
      (∀ (b : Fin 16) (j : Fin 64), u.tag x.h b = (if (s.g x.h g).getLsbD b then 1 + f.val else s.tag x.h b) ∧
        u.acc x.h b j = (if (s.g x.h g).getLsbD b then 0 else s.acc x.h b j) ∧
        u.accRes x.h b j = (if (s.g x.h g).getLsbD b then 0 else s.accRes x.h b j)) ∧
      WroteTile x.h { s.tileOf x.h with acc := (u.tileOf x.h).acc, tag := (u.tileOf x.h).tag, res := (u.tileOf x.h).res } s u)) ∧
    Runs x 4 (.tard x r 0 t2 0) s (fun u => Retires x.h 4 1 s u ∧ WroteV x.h r s u ∧
      (∀ j : Fin 64, lane (u.vr x.h r) j = (match s.tag x.h t2 with
        | 1 => visible (s.np x.h) (s.acc x.h t2 j)
        | 2 => (s.acc x.h t2 j).setWidth 32
        | _ => 0))) ∧
    (∀ f : Fin 2, Runs x 4 (.tawr x r 0 t2 (Fin.ofNat 64 f.val)) s (fun u => Retires x.h 4 1 s u ∧ u.tag x.h t2 = 1 + f.val ∧
      (∀ j : Fin 64, u.acc x.h t2 j = (if f.val = 0 then (lane (s.vr x.h r) j).signExtend 40
        else BitVec.ofNat 40 (toFacc (s.np x.h) (lane (s.vr x.h r) j).toNat)) ∧
        (f.val = 0 → u.accRes x.h t2 j = residue7 (u.acc x.h t2 j).toInt)) ∧
      (∀ (b : Fin 16) (j : Fin 64), b ≠ t2 → u.tag x.h b = s.tag x.h b ∧ u.acc x.h b j = s.acc x.h b j ∧ u.accRes x.h b j = s.accRes x.h b j) ∧
      WroteTile x.h { s.tileOf x.h with acc := (u.tileOf x.h).acc, tag := (u.tileOf x.h).tag, res := (u.tileOf x.h).res } s u))

/-- TMMA on a tile sequencer that is ready (R168, R170, R262, R292 to R294): each of its n steps adds to every DPU's accumulator
of its own bank the dot product of the step's operand A and the DPU's operand B, and tags the bank; its weight is n.  An integer
accumulator that carries its residue carries that of its new value after the step (R179). -/
def Obligations.TmmaAccumulates : Prop :=
  ∀ (x : Issue) (fn : Fin 2) (vB : Fin 64) (tA bank0 n1 : Fin 16) (vE : Fin 64) (ga : Fin 32) (fb : Fin 16) (au ub : Bool) (s : State)
    (d : Desc) (k : Nat),
    d = s.tdesc x.h tA → mmaK d.fmt fb = some k → State.isTile x.h = true → Ready x 8 (n1.val + 1) s →
    mmaFields fn vB bank0 n1 vE fb 0 = true → (au = true → d.fmt = 3) → (ub = true → fb.val = 3) →
    d.valid = true → d.onBlock (d.start (s.g x.h ga)) = true → d.isOut = false →
    (∀ q : Fin 16, q ≤ n1 → s.tag x.h (bank0.val + q.val) = 0 ∨ s.tag x.h (bank0.val + q.val) = mmaKind d.fmt) →
    (∀ q : Fin 16, q ≤ n1 → PlainTile x.h d (mmaAt s x.h d ga (1 + fn.val) q) k s) →
    (∀ (q : Fin 16) (j : Fin 64), q ≤ n1 → (mmaStep (s.np x.h) k (mmaA s x.h d ga (1 + fn.val) k au q)
      (mmaBof s x.h vB vE fb ub j) (s.acc x.h (bank0.val + q.val) j)).2 = false) →
    (mmaKind d.fmt = 1 → ∀ (q : Fin 16) (j : Fin 64), q ≤ n1 →
      s.accRes x.h (bank0.val + q.val) j = residue7 (s.acc x.h (bank0.val + q.val) j).toInt) →
    Runs x 8 (.tmma x (BitVec.ofNat 8 fn.val) vB tA bank0 n1 vE ga fb au ub 0 0) s (fun u =>
      Retires x.h 8 (n1.val + 1) s u ∧
      (∀ (q : Fin 16) (j : Fin 64), q ≤ n1 → u.tag x.h (bank0.val + q.val) = mmaKind d.fmt ∧ u.acc x.h (bank0.val + q.val) j =
        (mmaStep (s.np x.h) k (mmaA s x.h d ga (1 + fn.val) k au q) (mmaBof s x.h vB vE fb ub j)
          (s.acc x.h (bank0.val + q.val) j)).1 ∧
        (mmaKind d.fmt = 1 → u.accRes x.h (bank0.val + q.val) j = residue7 (u.acc x.h (bank0.val + q.val) j).toInt)) ∧
      (∀ (b : Fin 16) (j : Fin 64), (b.val < bank0.val ∨ bank0.val + n1.val < b.val) →
        u.tag x.h b = s.tag x.h b ∧ u.acc x.h b j = s.acc x.h b j ∧ u.accRes x.h b j = s.accRes x.h b j) ∧
      WroteTile x.h { s.tileOf x.h with acc := (u.tileOf x.h).acc, tag := (u.tileOf x.h).tag, res := (u.tileOf x.h).res } s u)

/-! ### Trace and the warden die (R297 to R336) -/

/-- The gleaner (R304 to R309, R312): the record at the front of the end-time order goes to the next place of the buffer unless
the trace is full, then it is counted as dropped; the marker of a trigger is written at its place and shown in CT_TRIG_POS;
arming empties the index and takes the mode; a firmware trigger waits for its marker. -/
def Obligations.TraceRecordsAreWritten : Prop :=
  ∀ (t : Nat) (v : BitVec 32) (s : State),
    (s.ctFront = none → Completes (.gleanerWrite t) s (fun u => Keeps [] s u ∧ u.ct = s.ct)) ∧
    (∀ d r, s.ctFront = some (d, r) → r.endTick < max s.tick t → (s.start t).ctRate = true → s.ct.marker = none → s.ct.armAt ≠ max s.tick t + 1 →
      (s.on F.CT_STATUS_full = false → Completes (.gleanerWrite t) s (fun u =>
        (∀ k : Fin 128, Table.get (fun _ => 0) u.ct.buf (128 * s.f F.CT_WP_next + k) = r.body.getD k 0) ∧
        u.f F.CT_WP_next = (s.f F.CT_WP_next + 1) % 32768 ∧
        u.f F.CT_WP_held = (if s.f F.CT_WP_held = 32768 then 32768 else (s.f F.CT_WP_held + 1) % 65536) ∧
        u.dword A.CT_TOTAL = (s.dword A.CT_TOTAL + 1) % 2 ^ 64 ∧
        Table.get (fun _ => []) u.ct.queues d = (Table.get (fun _ => []) s.ct.queues d).drop 1 ∧ Keeps [0x2009] s u)) ∧
      (s.on F.CT_STATUS_full = true → Completes (.gleanerWrite t) s (fun u => Counted F.CT_DROP_full s u ∧ u.ct.buf = s.ct.buf ∧
        u.f F.CT_WP_next = s.f F.CT_WP_next ∧ Keeps [0x2009] s u))) ∧
    (∀ tick src ns, s.ct.marker = some (tick, src, ns) → (s.start t).ctPassed tick = true → (s.start t).ctRate = true →
      Completes (.triggerMarker t) s (fun u =>
        (∀ k : Fin 128, Table.get (fun _ => 0) u.ct.buf (128 * s.f F.CT_WP_next + k) = (State.markerBody src ns).getD k 0) ∧
        u.f F.CT_TRIG_POS_pos = s.f F.CT_WP_next ∧ u.f F.CT_TRIG_POS_valid = 1 ∧ u.f F.CT_STATUS_trig = 1 ∧ u.ct.marker = none ∧
        u.f F.CT_WP_next = (s.f F.CT_WP_next + 1) % 32768 ∧ Keeps [0x2009] s u)) ∧
    (s.ct.marker = none → Completes (.triggerMarker t) s (fun u => Keeps [] s u ∧ u.ct = s.ct)) ∧
    Completes (.ctArm t) s (fun u => u.word A.CT_WP = 0 ∧ u.word A.CT_TRIG_POS = 0 ∧ u.f F.CT_STATUS_full = 0 ∧
      u.f F.CT_STATUS_trig = 0 ∧ u.f F.CT_STATUS_ringwrap = 0 ∧ u.ct.mode = s.f F.CT_CTRL_mode ∧ u.ct.marker = none ∧
      u.ct.buf = s.ct.buf ∧ u.ct.queues = s.ct.queues ∧ (s.ct.putTick.1 ≠ max s.tick t + 1 → u.dword A.CT_TOTAL = s.dword A.CT_TOTAL) ∧
      Keeps [0x2009] s u) ∧
    Completes (.ctClrCnt t) s (fun u => u.word A.CT_DROP = 0 ∧ u.f F.CT_STATUS_wrap = 0 ∧ u.f F.CT_STATUS_sat = 0 ∧
      u.ct = { s.ct with wrapBase := (s.start t).normalWraps } ∧ (u.ctWrapped = false) ∧
      SameWords (fun a => a = A.CT_DROP ∨ a = A.CT_STATUS) s u ∧ SameMemory s u) ∧
    (bitOf v.toNat 0 = true → s.on F.CT_TRIG_sw = true → s.ct.mode = 2 → s.on F.CT_STATUS_trig = false → s.ct.marker = none →
      Completes (.ctTrigFire t v) s (fun u =>
        u.ct.marker = some (max s.tick t, 0xFFFFFFFF, (s.start t).time) ∧ Keeps [] s u)) ∧
    (bitOf v.toNat 0 = false → Completes (.ctTrigFire t v) s (fun u => u.ct = s.ct ∧ Keeps [] s u))

/-- Verdict pairs (R315 to R320, R334 to R336): a mismatch halts the pair, is counted and shown in SYS_CMP_LAST, and the pair
restarts unless it has become fallow; a pair that passes difference injection runs from reset, one that fails is retired; a
role that moves is placed on a pair that works; sentinel service is entered with its cause. -/
def Obligations.PairsHaltAndRestart : Prop :=
  ∀ (t : Nat) (v r : Fin 4) (s : State),
    (∀ g : Fin 5, s.f (F.SYS_VP_STAT_state v) = 2 → Fresh (Src.VP_MISMATCH v) t s →
      Completes (.vpMismatch t v g) s (fun u =>
        u.f F.SYS_CMP_LAST_pair = v ∧ u.f F.SYS_CMP_LAST_group = g ∧ u.dword A.SYS_CMP_TIME = (s.start t).time ∧
        Counted (F.SYS_VP_STAT_mism v) s u ∧ Raised (Src.VP_MISMATCH v) g s u ∧ (u.hart (2 * v)).run = .stopped ∧
        u.f (F.SYS_VP_STAT_state v) = (if u.isFallow 9 v then 0 else 4) ∧ SameMemory s u)) ∧
    (∀ g : Fin 5, s.f (F.SYS_VP_STAT_state v) ≠ 2 →
      (s.f (F.SYS_VP_STAT_state v) = 4 → (s.pairX v).restartDue ≠ max s.tick t + State.ms 2) → Completes (.vpMismatch t v g) s (fun u => SameMemory s u ∧ u.hart (2 * v) = s.hart (2 * v) ∧
      u.f (F.SYS_VP_STAT_state v) = s.f (F.SYS_VP_STAT_state v) ∧ u.f (F.SYS_VP_STAT_mism v) = s.f (F.SYS_VP_STAT_mism v))) ∧
    ((s.f (F.SYS_VP_STAT_state v) = 4 ∨ s.f (F.SYS_VP_STAT_state v) = 1) →
      Completes (.pairRestartDone t v 0) s (fun u => u.f (F.SYS_VP_STAT_state v) = 2 ∧
        u.hart (2 * v) = { Hart.reset with ext := (s.hart (2 * v)).ext } ∧ (∀ h : Fin 0x300, h.val ≠ 2 * v.val → u.hart h = s.hart h) ∧ SameMemory s u) ∧
      (∀ g : Fin 5, Completes (.pairRestartDone t v (BitVec.ofNat 5 (2 ^ g.val))) s (fun u =>
        u.f (F.SYS_VP_STAT_state v) = 0 ∧ u.isFallow 9 v = true ∧ u.on ⟨A.SYS_CMP_STAT, 5 * v + g, 1⟩ = true ∧ u.rolePair r ≠ some v.val ∧
        SameMemory s u))) ∧
    (∀ m, s.roleMoves.find? (fun m => m.role = r.val) = some m → s.pairWorks m.pair = true → (s.pairX m.pair).barred = false → m.pair < 4 →
      Completes (.roleResume t r) s (fun u => u.rolePair r = some m.pair ∧
        (∀ w : Fin 4, u.on ⟨A.SYS_VP_STAT w, 20 + r, 1⟩ = decide (w = m.pair)) ∧ u.roleMoves = s.roleMoves.filter (fun m => m.role ≠ r.val) ∧
        Keeps [0x2010] s u)) ∧
    (∀ c : Fin 8, c ≠ 0 → s.f F.SYS_SVC_level ≠ 2 → Completes (.sentinelEntry t c) s (fun u =>
      u.f F.SYS_SVC_level = 2 ∧ u.f F.SYS_SVC_cause = c ∧ u.f F.VD_CTRL_sentinel = 1 ∧ u.vp2.queue = [] ∧ u.vp2.run = none ∧ SameMemory s u)) ∧
    (s.f F.SYS_SVC_level = 2 → ∀ c, Completes (.sentinelEntry t c) s (fun u => Keeps [] s u))

/-! ### The host mailbox (R326 to R331, R463 to R468) -/

/-- Requests and what reads only (R326 to R330): a sound frame acts as its command; one with a wrong CRC, a wrong length, or one
that comes while another executes or while no running pair holds role 0, is answered with its status and changes nothing else;
PING, STATUS, READ_REG of memory, READ_RETAINED and FALLOW_LIST answer what they read.  A frame that its transport does not deliver
does nothing but be refused on I3CT (R427, R430). -/
def Obligations.MailboxRequestsAreAnswered : Prop :=
  ∀ (t : Nat) (via : Fin 3) (tag : Byte) (s : State),
    (Completes (.mailboxRequest t via (State.requestFrame 0x01 tag.toNat [])) s (fun u => exec (.ping t via tag) s = .next u) ∧
      (∀ a : DWord, ∀ n : Byte, Completes (.mailboxRequest t via (State.requestFrame 0x03 tag.toNat (beBytes 8 a.toNat ++ [n]))) s (fun u =>
        exec (.readReg t via tag a n) s = .next u)) ∧
      (∀ v : Word, Completes (.mailboxRequest t via (State.requestFrame 0x05 tag.toNat (beBytes 4 v.toNat))) s (fun u =>
        exec (.vdCommand t via tag v) s = .next u))) ∧
    (∀ l : List Byte, ¬ Delivers via.val l s → Completes (.mailboxRequest t via l) s (fun u =>
      u.mbx = s.mbx ∧ u.eth = s.eth ∧ u.resp = (if via = 0 then .nack else .ok) ∧ Keeps [] s u)) ∧
    (s.role0Runs = false → ∀ l : List Byte, Delivers via.val l s → Completes (.mailboxRequest t via l) s (fun u =>
      Sent via (State.beAt (l.take 256) 0 1) (State.beAt (l.take 256) 1 1) 0x03 10 [] s u ∧ Counted F.SYS_MBX_STAT_req s u ∧ Keeps [0x2010] s u)) ∧
    (s.role0Runs = true → ∀ l : List Byte, 8 ≤ l.length → l.length ≤ 256 → Delivers via.val l s →
      crc32c (l.take (l.length - 4)) ≠ State.beAt l (l.length - 4) 4 → Completes (.mailboxRequest t via l) s (fun u =>
        Sent via (State.beAt l 0 1) (State.beAt l 1 1) 0x12 0 [] s u ∧ Counted F.SYS_MBX_STAT_crc s u ∧ u.mbx.cur = s.mbx.cur ∧ Keeps [0x2010] s u)) ∧
    (Delivers via.val (State.requestFrame 0x01 tag.toNat []) s → NoLapse t s → s.role0Runs = true → ∀ q, s.mbx.cur = some q → Completes (.ping t via tag) s (fun u =>
      Sent via 0x01 tag.toNat 0x01 0 [] s u ∧ u.mbx.cur = some q ∧ Keeps [0x2010] s u)) ∧
    (Admits t via 0x01 tag [] s → Completes (.ping t via tag) s (fun u =>
      Answered via 0x01 tag 0x00 (beBytes 4 (s.word A.SYS_SVC)) s u ∧ Keeps [0x2010] s u)) ∧
    (Admits t via 0x02 tag [] s → Completes (.status t via tag) s (fun u =>
      Answered via 0x02 tag 0x00 (s.start t).statusWords s u ∧ Keeps [0x2010] s u)) ∧
    (∀ (a : DWord) (n : Byte), Admits t via 0x03 tag (beBytes 8 a.toNat ++ [n]) s →
      (State.wordRange a.toNat n.toNat = false → Completes (.readReg t via tag a n) s (fun u =>
        Answered via 0x03 tag 0x11 [] s u ∧ Keeps [0x2010] s u)) ∧
      (State.wordRange a.toNat n.toNat = true → (∀ i : Fin 60, i.val < n.toNat → PlainRead State.hostMaster (a.toNat + 4 * i) 4 s) →
        Completes (.readReg t via tag a n) s (fun u =>
          Answered via 0x03 tag 0x00 ((List.range n.toNat).flatMap (fun i => (s.bytes (a.toNat + 4 * i) 4).reverse)) s u ∧
          Keeps [0x2009, 0x2010] s u))) ∧
    (∀ (o : BitVec 16) (n : Byte), Admits t via 0x06 tag (beBytes 2 o.toNat ++ [n]) s →
      (n = 0 ∨ 240 < n.toNat ∨ 4096 < o.toNat + n.toNat → Completes (.readRetained t via tag o n) s (fun u =>
        Answered via 0x06 tag 0x11 [] s u ∧ Keeps [0x2010] s u)) ∧
      (n ≠ 0 → n.toNat ≤ 240 → o.toNat + n.toNat ≤ 4096 → s.retFlag = [] → s.injHits 10 0 = false → Completes (.readRetained t via tag o n) s (fun u =>
        Answered via 0x06 tag 0x00 ((List.range n.toNat).map (fun i => BitVec.ofNat 8 (s.ret ((o.toNat + i) / 4 * 4) / 256 ^ ((o.toNat + i) % 4)))) s u ∧
        Keeps [0x2010] s u))) ∧
    (∀ k : BitVec 16, Admits t via 0x0A tag (beBytes 2 k.toNat) s → Completes (.fallowList t via tag k) s (fun u =>
      Answered via 0x0A tag 0x00 (((s.fc.fallow.drop k.toNat).take 60).flatMap (fun e => beBytes 1 e.1 ++ [0] ++ beBytes 2 e.2)) s u ∧
      Keeps [0x2010] s u))

/-- Host commands that change the device (R328 to R331, R354, R493), from the transport of an open session: WRITE_REG stores to
memory in service; VD_COMMAND acts as VD_CMD; CLEAR_RETAINED zeroes what its mask names; CONFIRM_SPS takes the value of
SYS_SPS_CHK only; RETURN_TO_SERVICE frees an item; RESET is answered first
and begins 100 µs after its response has left (R331, log 42). -/
def Obligations.HostCommandsChangeTheDevice : Prop :=
  ∀ (t : Nat) (via : Fin 3) (tag : Byte) (s : State),
    (∀ (a : DWord) (l : List Word), Admits t via 0x04 tag (beBytes 8 a.toNat ++ l.flatMap (fun w => beBytes 4 w.toNat)) s → s.gs.ended = [] → State.wordRange a.toNat l.length = true → s.f F.SYS_SVC_level ≠ 2 →
      (∀ i : Fin 60, i.val < l.length → PlainWrite State.hostMaster (a.toNat + 4 * i) 4 s) → Completes (.writeReg t via tag a l) s (fun u =>
        Answered via 0x04 tag 0x00 (beBytes 1 l.length) s u ∧ u.bytes a.toNat (4 * l.length) = l.flatMap (fun w => leBytes 4 w.toNat) ∧
        SameMemoryBut a.toNat (4 * l.length) s u ∧ SameWords (InBlocks [0x2009, 0x2010]) s u)) ∧
    (∀ n : Fin 1024, Admits t via 0x05 tag (beBytes 4 (2 * 2 ^ 28 + n.val)) s → s.vdBusy = none → s.gs.ended = [] → s.enabled.contains n.val = true → s.trust n ≠ 0 →
      Completes (.vdCommand t via tag (BitVec.ofNat 32 (2 * 2 ^ 28 + n))) s (fun u =>
        Answered via 0x05 tag 0x00 (beBytes 4 (u.word A.VD_CMD_STATUS)) s u ∧ u.trust n = 0 ∧ u.f F.VD_CMD_STATUS_st = 0 ∧
        Keeps [0x2006, 0x2008, 0x2009, 0x200A, 0x2010] s u)) ∧
    (∀ m : Byte, Admits t via 0x07 tag [m] s → Completes (.clearRetained t via tag m) s (fun u =>
      Answered via 0x07 tag 0x00 [] s u ∧
      (∀ o : Fin 1024, u.ret (4 * o) = (if (bitOf m.toNat 0 ∧ (o = 4 ∨ o = 5 ∨ (8 ≤ o.val ∧ o.val < 16))) ∨
        (bitOf m.toNat 1 ∧ (o = 18 ∨ 512 ≤ o.val)) ∨ (bitOf m.toNat 2 ∧ (o = 16 ∨ o = 17)) then 0 else s.ret (4 * o))) ∧
      Keeps [0x2010] s u)) ∧
    (∀ v : Word, Admits t via 0x09 tag (beBytes 4 v.toNat) s →
      (s.committed = true → v.toNat = s.word A.SYS_SPS_CHK → Completes (.confirmSps t via tag v) s (fun u =>
        Answered via 0x09 tag 0x00 [1] s u ∧ u.word A.SYS_SPS_CONF = v.toNat ∧ u.on F.SYS_SPS_STAT_conf = true ∧ u.on F.VD_CTRL_unconf = false)) ∧
      (s.committed = false ∨ v.toNat ≠ s.word A.SYS_SPS_CHK → Completes (.confirmSps t via tag v) s (fun u =>
        Answered via 0x09 tag 0x11 [] s u ∧ Keeps [0x2010] s u))) ∧
    (∀ (k : Byte) (n : BitVec 16), Admits t via 0x0B tag (k :: beBytes 2 n.toNat) s →
      (State.kindItems k.toNat ≤ n.toNat → Completes (.returnToService t via tag k n) s (fun u =>
        Answered via 0x0B tag 0x11 [] s u ∧ Keeps [0x2010] s u)) ∧
      (n.toNat < State.kindItems k.toNat → s.isFallow k.toNat n.toNat = false → Completes (.returnToService t via tag k n) s (fun u =>
        Answered via 0x0B tag 0x10 [] s u ∧ Keeps [0x2010] s u)) ∧
      (n.toNat < State.kindItems k.toNat → s.isFallow k.toNat n.toNat = true → k ≠ 2 → s.lb = none →
        Completes (.returnToService t via tag k n) s (fun u =>
          Answered via 0x0B tag 0x00 [if k = 3 then 1 else 0] s u ∧ u.fc.fallow.contains (k.toNat, n.toNat) = false ∧
          u.isFallow k.toNat n.toNat = (k == 3 || k == 8) ∧
          Table.get (fun _ => []) u.fc.history (State.itemKey k.toNat n.toNat) = []))) ∧
    (∀ k : Byte, Admits t via 0x0C tag [k] s →
      (k.toNat ≤ 5 → Completes (.reset t via tag k) s (fun u => Answered via 0x0C tag 0x00 [] s u ∧
        u.mbx.resetHeld = some (k.toNat, via.val, State.mbxFrame 0x0C tag.toNat 0x00 0 []) ∧ u.mbx.resetDue = s.mbx.resetDue ∧ Keeps [0x2010] s u)) ∧
      (5 < k.toNat → Completes (.reset t via tag k) s (fun u => Answered via 0x0C tag 0x11 [] s u ∧
        u.mbx.resetHeld = s.mbx.resetHeld ∧ u.mbx.resetDue = s.mbx.resetDue ∧ Keeps [0x2010] s u))) ∧
    (∀ target, s.mbx.resetHeld = some (target, 0, s.mbx.response) → s.i3cOn = true → s.on F.I3C_T_STAT_dav = true → s.mbx.response ≠ [] →
      Completes (.i3cPrivateRead t false s.mbx.response.length) s (fun u =>
        u.mbx.resetDue = some (target, max s.tick t + State.us 100) ∧ u.mbx.resetHeld = none ∧ Keeps [] s u)) ∧
    (∀ (target : Nat) (x : Fin 2) (b : List Byte) (r : List (List Byte)) (dst : BitVec 48), s.mbx.resetHeld = some (target, x.val + 1, b.drop 8) →
      s.ethUp x = true → s.isFallow 7 x = false → s.safetyQ x = [] → s.txMgmt x = b :: r → State.beAt b 1 1 = 2 →
      Completes (.ethFrameTransmit t x none dst) s (fun u =>
        u.mbx.resetDue = some (target, max s.tick t + State.us 100) ∧ u.mbx.resetHeld = none ∧ u.txMgmt x = r ∧ Keeps [0x2009] s u)) ∧
    (∀ (target d : Nat), s.mbx.resetDue = some (target, d) → d ≤ max s.tick t → target ≤ 5 →
      ((target = 0 ∧ NoHandOver s) ∨ target = 5 → Completes (.resetDelayExpire t) s (fun u => u.ret 0x40 = 0x21 ∧ u.ret 0x44 = 0x21 ∧ u.mbx = Mailbox.reset ∧
        u.f F.SYS_SVC_level = 0)) ∧
      (target = 0 → HandsOverFirst (.resetDelayExpire t) 0x21 t s) ∧
      (1 ≤ target → target ≤ 4 → Table.get (fun _ => 0) s.dieReset (target - 1) = 0 → Completes (.resetDelayExpire t) s (fun u =>
        u.mbx.resetDue = none ∧ u.f (F.SYS_DIE_state (target - 1)) = 1 ∧ Counted (F.SYS_DIE_resets (target - 1)) s u)))

/-- Sessions and attestation (R463 to R468): a challenge is drawn and answered; the right answer to it within a second opens the
session of its transport, a wrong one raises SEC_AUTH; CLOSE and the idle time end it; ATTEST takes a snapshot that is answered
once signed, and gives a held report in parts of 240 bytes. -/
def Obligations.SessionsAndAttestation : Prop :=
  ∀ (t : Nat) (via : Fin 3) (tag : Byte) (s : State),
    (Admits t via 0x0D tag [1] s →
      (s.drbgStopped = false → Completes (.sessionChallenge t via tag) s (fun u => ∃ c, u.sec.challenge = some c ∧
        c.1.length = 32 ∧ c.2 = max s.tick t ∧ Answered via 0x0D tag 0x00 c.1 s u ∧ Keeps [0x2010] s u)) ∧
      (s.drbgStopped = true → Completes (.sessionChallenge t via tag) s (fun u => Answered via 0x0D tag 0x10 [] s u ∧ Keeps [0x2010] s u))) ∧
    (∀ r : BitVec 256, Admits t via 0x0D tag (2 :: beBytes 32 r.toNat) s →
      (s.sec.lockUntil ≤ max s.tick t →
        (s.life = 0 → Completes (.sessionOpen t via tag r) s (fun u =>
          Answered via 0x0D tag 0x00 [1] s u ∧ u.sec.session = some ⟨via, max s.tick t⟩ ∧ u.on F.SYS_MBX_STAT_session = true ∧
          Keeps [0x2010] s u)) ∧
        (∀ c, s.sec.challenge = some c → max s.tick t ≤ c.2 + State.ms 1000 →
          r = Config.hmacValue (s.secret 14) (c.1 ++ s.deviceId ++ [2]) → Completes (.sessionOpen t via tag r) s (fun u =>
            Answered via 0x0D tag 0x00 [1] s u ∧ u.sec.session = some ⟨via, max s.tick t⟩ ∧ u.on F.SYS_MBX_STAT_session = true ∧
            u.sec.challenge = none ∧ Keeps [0x2010] s u)) ∧
        (s.life ≠ 0 → s.sec.challenge = none → Fresh Src.SEC_AUTH t s → Completes (.sessionOpen t via tag r) s (fun u =>
          Answered via 0x0D tag 0x13 [] s u ∧ Raised Src.SEC_AUTH 0 s u ∧ SameMemory s u ∧
          (if 3 ≤ ((s.start t).recentFails).length + 1 then u.sec.lockUntil = max s.tick t + State.ms 60000 ∧ u.sec.failed = []
            else u.sec.lockUntil = s.sec.lockUntil ∧ u.sec.failed = (s.start t).recentFails ++ [max s.tick t])))) ∧
      (max s.tick t < s.sec.lockUntil → Completes (.sessionOpen t via tag r) s (fun u =>
        Sent via 0x0D tag.toNat 0x03 ((s.sec.lockUntil - max s.tick t + 249999) / 250000) [] s u ∧ u.mbx.cur = none ∧ Keeps [0x2010] s u))) ∧
    (Admits t via 0x0D tag [3] s → Completes (.sessionClose t via tag) s (fun u => Answered via 0x0D tag 0x00 [0] s u ∧
      u.sec.session = none ∧ u.on F.SYS_MBX_STAT_session = false ∧ Keeps [0x2010] s u)) ∧
    (∀ d, s.idleDue = some d → d ≤ max s.tick t → Completes (.sessionIdleTimeout t) s (fun u => u.sec.session = none ∧
      u.on F.SYS_MBX_STAT_session = false ∧ Keeps [0x2010] s u)) ∧
    (∀ d, s.idleDue = some d → max s.tick t < d → Completes (.sessionIdleTimeout t) s (fun u => u.sec = s.sec ∧ Keeps [] s u)) ∧
    (∀ (nonce : BitVec 256) (o : Word), Admits t via 0x08 tag (beBytes 32 nonce.toNat ++ beBytes 4 o.toNat) s →
      (o = 0 → (∀ x, s.sec.report = some x → x.1 ≠ beBytes 32 nonce.toNat) → Completes (.attest t via tag nonce o) s (fun u =>
        u.sec.signing = some (beBytes 32 nonce.toNat, (s.start t).reportBody (beBytes 32 nonce.toNat)) ∧ u.mbx.cur.isSome = true ∧
        u.f F.SYS_MBX_STAT_busy = 1 ∧ Keeps [0x2010] s u)) ∧
      (∀ l, s.sec.report = some (beBytes 32 nonce.toNat, l) → o.toNat % 240 = 0 → o.toNat < 17600 → Completes (.attest t via tag nonce o) s (fun u =>
        Answered via 0x08 tag 0x00 (beBytes 4 l.length ++ (l.drop o.toNat).take 240) s u ∧ u.sec.report = s.sec.report ∧
        u.sec.signing = s.sec.signing ∧ Keeps [0x2010] s u)) ∧
      (o.toNat % 240 ≠ 0 ∨ 17600 ≤ o.toNat ∨ (o ≠ 0 ∧ s.sec.report = none) → Completes (.attest t via tag nonce o) s (fun u =>
        Answered via 0x08 tag 0x11 [] s u ∧ Keeps [0x2010] s u))) ∧
    (∀ nonce body, s.sec.signing = some (nonce, body) → body.length = 512 → ∀ q, s.mbx.cur = some q → q.via = 0 → Completes (.attestReportReady t) s (fun u =>
      ∃ r, u.sec.report = some r ∧ r.1 = nonce ∧ r.2.length = 17600 ∧ r.2.take 512 = body ∧ u.sec.signing = none ∧ u.mbx.cur = none ∧
      u.mbx.response = State.mbxFrame q.code q.tag 0x00 0 (beBytes 4 17600 ++ r.2.take 240) ∧ Keeps [0x2010] s u))

/-! ### Resets, rails and temperature (R323, R324, R406, R497, R498, R527 to R539) -/

/-- Resets (R323, R324, R340, R406, R482, R497, R498, R530, R534): a taken pulse, a reset command, a due chip reset and a fallen
rail return every register to its reset value and lose what R497 and R530 say, keeping the retained block with its new cause; a
primary that can hand over does so before a warden warm reset (R454); a partial reset restarts one die. -/
def Obligations.ResetsReturnTheDevice : Prop :=
  ∀ (t : Nat) (s : State),
    (∀ ns : Nat, (1000 ≤ ns → (NoHandOver s → Completes (.wrstN t ns) s (DeviceReset true 0x02 s)) ∧ HandsOverFirst (.wrstN t ns) 0x02 t s) ∧
      (10000 ≤ ns → Completes (.porstNAssert t ns) s (fun u => DeviceReset false 0x01 s u ∧ bitOf u.holds 0 = true)) ∧
      (ns < 100 → Completes (.wrstN t ns) s (fun u => Keeps [] s u ∧ u.holds = s.holds) ∧
        Completes (.porstNAssert t ns) s (fun u => Keeps [] s u ∧ u.holds = s.holds))) ∧
    (∀ (pairRole tmode : Bool), (bitOf s.holds 0 = true → Completes (.porstNRelease t pairRole tmode) s (fun u =>
        u.on F.SYS_STRAP_pair_role = pairRole ∧ u.on F.SYS_STRAP_tmode = tmode ∧ u.holds = s.holds &&& 6 ∧ Keeps [0x200A, 0x2010] s u)) ∧
      (bitOf s.holds 0 = false → Completes (.porstNRelease t pairRole tmode) s (fun u => Keeps [] s u))) ∧
    (∀ v : Word, (v.toNat / 2 ^ 24 ≠ 0xA5 ∨ 6 ≤ v.toNat % 8 → Completes (.sysRstCmd t v) s (fun u => u.resp = .errParam ∧ Keeps [] s u)) ∧
      (v.toNat / 2 ^ 24 = 0xA5 → v.toNat % 8 = 0 → (NoHandOver s → Completes (.sysRstCmd t v) s (DeviceReset true 0x22 s)) ∧ HandsOverFirst (.sysRstCmd t v) 0x22 t s) ∧
      (v.toNat / 2 ^ 24 = 0xA5 → v.toNat % 8 = 5 → Completes (.sysRstCmd t v) s (DeviceReset false 0x22 s)) ∧
      (∀ d : Fin 4, v.toNat / 2 ^ 24 = 0xA5 → v.toNat % 8 = d + 1 → Table.get (fun _ => 0) s.dieReset d = 0 → NoFallen s →
        Completes (.sysRstCmd t v) s (fun u => u.f (F.SYS_DIE_state d) = 1 ∧ Counted (F.SYS_DIE_resets d) s u ∧
          (∀ h : Fin 0x300, hartOfDie d h = true → u.hart h = Hart.reset) ∧
          (∀ c : Fin 4, u.f (F.CX_CORE_fallow d c) = s.f (F.CX_CORE_fallow d c) ∧ u.f (F.CX_CORE_eng_fallow d c) = s.f (F.CX_CORE_eng_fallow d c) ∧
            u.f (F.CX_CORE_test d c) = 16 ∧ u.word (A.CX_G6 d c) = s.word (A.CX_G6 d c)) ∧
          (∀ a, ¬ Marched s a → State.phys a < 0x110000000000 → State.dieSram d (State.phys a) = false → u.byte a = s.byte a)))) ∧
    (∀ d : Fin 4, Table.get (fun _ => 0) s.dieReset d ≠ 0 → Completes (.partialResetDone t d) s (fun u =>
      u.f (F.SYS_DIE_state d) = 4 ∧ Table.get (fun _ => 0) u.dieReset d = 0 ∧ Keeps [0x2001, 0x200A, 0x2010] s u)) ∧
    (∀ d, s.fc.chipDue = some d → d ≤ max s.tick t → Completes (.chipResetStart t) s (fun u => DeviceReset false 0x20 s u ∧
      (s.boot.trip = true → bitOf u.holds 2 = true))) ∧
    (s.fc.chipDue = none → Completes (.chipResetStart t) s (fun u => Keeps [] s u)) ∧
    (∀ k : Fin 10, Completes (.railBelowThreshold t k) s (fun u => bitOf u.holds 1 = true ∧ bitOf u.railsLow k = true ∧ u.ret 0x40 = 0 ∧
      (∀ a, (State.railLoses k (State.phys a) = true → u.byte a = State.memReset (State.phys a)) ∧
        (State.railLoses k (State.phys a) = false → ¬ Marched s a → (∀ d : Fin 4, State.dieSram d (State.phys a) = false) → u.byte a = s.byte a)))) ∧
    (bitOf s.holds 1 = true → Completes (.resetHoldEnd t) s (fun u => u.holds = s.holds &&& 5 ∧ u.railsLow = 0 ∧ SameMemory s u ∧
      (bitOf s.railsLow 4 = true → u.f F.SYS_SVC_cold = 1 ∧ ∀ k : Fin 1024, u.word (retBase + 4 * k) = (regReset (retBase + 4 * k)).toNat) ∧
      (bitOf s.railsLow 4 = false → Keeps [0x200A] s u))) ∧
    (bitOf s.holds 1 = false → Completes (.resetHoldEnd t) s (fun u => Keeps [] s u))

/-- Monitors (R406, R527 to R531, R536, R537, R539): a lost PLL lock and a rail outside its window are standing sources; SYS_PWR_STAT shows
the rails; a temperature sample is shown, with the highest; SYS_AVS takes a voltage of its range and the firmware steps it
toward the fused one by 10 mV at most. -/
def Obligations.RailsAndTemperaturesAreShown : Prop :=
  ∀ (t : Nat) (d : Fin 4) (k : Fin 10) (s : State),
    (∀ p : Fin 5, s.isStanding Src.SYS_PLL = false → Fresh Src.SYS_PLL t s → Completes (.pllLockLoss t p) s (fun u =>
      Raised Src.SYS_PLL p s u ∧ u.isStanding Src.SYS_PLL = true ∧ SameMemory s u)) ∧
    (∀ p : Fin 5, s.isStanding Src.SYS_PLL = true → Completes (.pllLockLoss t p) s (fun u => Keeps [] s u)) ∧
    (s.isStanding Src.SYS_VMON = false → Fresh Src.SYS_VMON t s → Completes (.railOutOfWindow t k) s (fun u =>
      bitOf (u.word A.SYS_PWR_STAT) k = true ∧ bitOf (u.word A.SYS_PWR_STAT) (16 + k) = true ∧ Raised Src.SYS_VMON k s u ∧
      u.isStanding Src.SYS_VMON = true ∧ SameMemory s u)) ∧
    (s.isStanding Src.SYS_VMON = true → Completes (.railOutOfWindow t k) s (fun u =>
      u.word A.SYS_PWR_STAT = s.word A.SYS_PWR_STAT ||| (2 ^ k.val + 2 ^ (16 + k.val)) ∧ SameWords (fun a => a = A.SYS_PWR_STAT) s u ∧ SameMemory s u)) ∧
    Completes (.railInWindow t k) s (fun u => bitOf (u.word A.SYS_PWR_STAT) k = false ∧
      (u.f F.SYS_PWR_STAT_out = 0 → u.isStanding Src.SYS_VMON = false) ∧ SameWords (fun a => a = A.SYS_PWR_STAT) s u ∧ SameMemory s u) ∧
    (∀ w c0 c1 c2 c3 : BitVec 8, Completes (.tempSample t w c0 c1 c2 c3) s (fun u =>
      (∀ p : Fin 5, u.f (F.SYS_TJ_now p) = ([w, c0, c1, c2, c3].getD p 0).toNat ∧
        u.f (F.SYS_TJ_max p) = max ([w, c0, c1, c2, c3].getD p 0).toNat (s.f (F.SYS_TJ_max p))) ∧ SameMemory s u ∧
      ((∀ p : Fin 5, State.tjOut ([w, c0, c1, c2, c3].getD p 0).toNat = false) → s.boot.trip = false → u.fc.chipDue = s.fc.chipDue))) ∧
    (∀ v : Word, (Config.fuseMv d % 4096 ≤ v.toNat / 16 % 4096 → 650 ≤ v.toNat / 16 % 4096 → v.toNat / 16 % 4096 ≤ 850 →
        Completes (.sysAvs t d v) s (fun u => u.f (F.SYS_AVS_set_mv d) = v.toNat / 16 % 4096 ∧ u.resp = .ok ∧
          SameWords (fun a => a = A.SYS_AVS d) s u ∧ SameMemory s u)) ∧
      (v.toNat / 16 % 4096 < 650 ∨ 850 < v.toNat / 16 % 4096 → Completes (.sysAvs t d v) s (fun u => u.resp = .errParam ∧ Keeps [] s u))) ∧
    (s.f F.SYS_BOOT_stage = 4 → s.boot.stopped = false → s.dieReached d = true → Completes (.avsStep t d) s (fun u =>
      (u.f (F.SYS_AVS_set_mv d) = Config.fuseMv d % 4096 ∨ u.f (F.SYS_AVS_set_mv d) = s.f (F.SYS_AVS_set_mv d) + 10 ∨
        u.f (F.SYS_AVS_set_mv d) = s.f (F.SYS_AVS_set_mv d) - 10) ∧ SameWords (fun a => a = A.SYS_AVS d) s u ∧ SameMemory s u)) ∧
    (s.f F.SYS_BOOT_stage ≠ 4 ∨ s.dieReached d = false → Completes (.avsStep t d) s (fun u => Keeps [] s u))

/-! ### Fault collection, watchdogs and periodic tests (R337 to R377) -/

/-- The fault collector's commands (R337 to R347, R355, R357): an acknowledgement writes the release time and frees the capture,
which what was raised in the same tick then takes;
the clears zero what they name; firmware raises sources 320 to 383 only; FC_INJ takes an injection of its table; the fault state
ends with a due quiet period; a difference of the collector's own logic stands until reset. -/
def Obligations.FaultCommandsAct : Prop :=
  ∀ (t : Nat) (v : Word) (s : State),
    (bitOf v.toNat 0 = true → s.on F.FC_STATUS_cap = true → s.fc.capTick ≠ max s.tick t + 1 →
      (s.fc.ackTick ≠ max s.tick t + 1 → Completes (.fcAck t v) s (fun u =>
        u.on F.FC_STATUS_cap = false ∧ u.dword (A.FC_CAP0 + 40) = (s.start t).time ∧
        u.dword (State.retRec s.fc.capSlot + 40) = (s.start t).time ∧ Keeps [0x2000, 0x2009, 0x2010] s u)) ∧
      (s.fc.ackTick = max s.tick t + 1 → Completes (.fcAck t v) s (fun u =>
        u.on F.FC_STATUS_cap = true ∧ (∀ i : Fin 16, u.word (A.FC_CAP0 + 4 * i) = leVal ((s.fc.ackRec.drop (4 * i)).take 4) % 2 ^ 32) ∧
        Keeps [0x2000, 0x2009, 0x2010] s u))) ∧
    (bitOf v.toNat 0 = false ∨ s.on F.FC_STATUS_cap = false → Completes (.fcAck t v) s (fun u => Keeps [] s u)) ∧
    Completes (.fcClrRec t) s (fun u => u.f F.FC_REC_count = 0 ∧ SameWords (fun a => a = A.FC_REC) s u ∧ SameMemory s u) ∧
    Completes (.fcClrIrq t) s (fun u => u.f F.FC_STATUS_irq = 0 ∧ SameWords (fun a => a = A.FC_STATUS) s u ∧ SameMemory s u) ∧
    Completes (.fcClrCnt t) s (fun u => (∀ n : Fin 384, u.word (A.FC_CNT n) = 0) ∧
      SameWords (fun a => a = A.FC_STATUS ∨ (A.FC_CNT 0 ≤ a ∧ a ≤ A.FC_CNT 383)) s u ∧ SameMemory s u) ∧
    (v.toNat % 512 < 320 ∨ 383 < v.toNat % 512 → Completes (.fcRaise t v) s (fun u => u.resp = .errParam ∧ Keeps [] s u)) ∧
    (320 ≤ v.toNat % 512 → v.toNat % 512 ≤ 383 → Fresh (v.toNat % 512) t s → Completes (.fcRaise t v) s (fun u =>
      Raised (v.toNat % 512) (v.toNat / 65536) s u ∧ SameMemory s u)) ∧
    (State.injInstances (v.toNat / 2 ^ 24 % 16) ≤ v.toNat / 65536 % 256 ∨ (bitOf v.toNat 31 = true ∧ v.toNat / 256 % 256 = 0) →
      Completes (.fcInj t v) s (fun u => u.resp = .errParam ∧ Keeps [] s u)) ∧
    (v.toNat / 65536 % 256 < State.injInstances (v.toNat / 2 ^ 24 % 16) → (bitOf v.toNat 31 = true → v.toNat / 256 % 256 ≠ 0) →
      (bitOf v.toNat 31 = true → s.injLeft ≠ 0 → Completes (.fcInj t v) s (fun u => u.resp = .errState ∧ Keeps [] s u)) ∧
      (bitOf v.toNat 31 = false ∨ s.injLeft = 0 → Completes (.fcInj t v) s (fun u => u.resp = .ok ∧
        u.on F.FC_INJ_arm = bitOf v.toNat 31 ∧ u.f F.FC_INJ_cls = v.toNat / 2 ^ 24 % 16 ∧ u.f F.FC_INJ_inst = v.toNat / 65536 % 256 ∧
        u.f F.FC_INJ_count = v.toNat / 256 % 256 ∧ SameWords (fun a => a = A.FC_INJ) s u ∧ SameMemory s u))) ∧
    ((s.start t).quietDue = true → Completes (.quietPeriodEnd t) s (fun u => u.on F.FC_STATUS_fstate = false ∧ Counted F.FC_REC_count s u ∧
      Keeps [0x2000, 0x200A] s u)) ∧
    ((s.start t).quietDue = false → Completes (.quietPeriodEnd t) s (fun u => Keeps [] s u)) ∧
    (Fresh Src.FC_SELF t s → s.isStanding Src.FC_SELF = false → Completes (.fcSelfDifference t) s (fun u => u.fc.selfDiff = true ∧
      u.isStanding Src.FC_SELF = true ∧ Raised Src.FC_SELF 0 s u ∧ u.faultLow = true ∧ SameMemory s u)) ∧
    (s.boot.loaded = true → Completes (.flashRecordWrite t) s (fun u =>
      u.flashBytes 0 (State.recBase (State.older s.recValid (fun k => leVal (s.flashBytes 0 (State.recBase k + 4) 4)))) 0x20000 =
        s.recBytes (s.recCopy.elim 1 (fun j => leVal (s.flashBytes 0 (State.recBase j + 4) 4) + 1)) ∧
      ((∀ n : Nat, (s.ctx n).waitAdmit = .none) → Keeps [] s u))) ∧
    (s.boot.loaded = false → Completes (.flashRecordWrite t) s (fun u => Keeps [] s u ∧ u.flash = s.flash)) ∧
    (∀ n : Fin 384, s.resetPending n = true → Completes (.blockResetDone t n) s (fun u => u.resetPending n = false)) ∧
    (∀ n : Fin 384, s.resetPending n = false → Completes (.blockResetDone t n) s (fun u => Keeps [] s u))

/-- Watchdogs (R358 to R366, R377): KEY_A waits for its partner, KEY_B after it serves the watchdog in its open window and takes
the settings in force, in its closed period it is early; any other write is counted and clears the key; an overdue watchdog
expires with its source and its action; a due reset begins; WD_CLR zeroes the counts. -/
def Obligations.WatchdogsAreServed : Prop :=
  ∀ (t : Nat) (w : Fin 9) (m : Nat) (v : Word) (s : State),
    ((s.start t).mayServe w m = false → Completes (.keyA t w m) s (fun u => u.resp = .errLocked ∧ u.wd = s.wd ∧ SameMemory s u)) ∧
    ((s.start t).mayServe w m = true → ((s.start t).watchRuns w && Nat.blt ((s.start t).watchDue w) (max s.tick t)) = false →
      ((s.start t).watchRuns w = true → Completes (.keyA t w m) s (fun u => (u.watch w).key = max s.tick t + 1 ∧
        u.on (F.WD_STAT_pend w) = true ∧ Keeps [0x2001] s u)) ∧
      ((s.start t).watchRuns w = false → Completes (.keyA t w m) s (fun u => u.watch w = s.watch w ∧ Keeps [0x2001] s u)) ∧
      ((s.start t).keyPending w = true → (s.start t).watchRef w + (s.start t).watchClosed w < max s.tick t →
        Completes (.keyB t w m) s (fun u => (u.watch w).key = 0 ∧ (u.watch w).ref = max s.tick t ∧
          u.dword (A.WD_REF w) = (s.start t).time ∧ ((s.watch w).setTick ≠ max s.tick t + 1 →
            (u.watch w).cfg = s.word (A.WD_CFG w) ∧ (u.watch w).time = s.word (A.WD_TIME w)) ∧ Keeps [0x2001] s u)) ∧
      ((s.start t).keyPending w = true → max s.tick t ≤ (s.start t).watchRef w + (s.start t).watchClosed w →
        Fresh (Src.WD_EARLY w) t s → bitOf (s.watch w).cfg 2 = false →
        Completes (.keyB t w m) s (fun u => (u.watch w).key = 0 ∧ (u.watch w).ref = (s.watch w).ref ∧ Counted (F.WD_STAT_early w) s u ∧
          Raised (Src.WD_EARLY w) (max s.tick t - (s.start t).watchRef w) s u ∧ SameMemory s u)) ∧
      ((s.start t).keyPending w = false → Completes (.keyB t w m) s (fun u => (u.watch w).key = 0 ∧ Counted (F.WD_STAT_bad w) s u ∧
        Keeps [0x2001] s u)) ∧
      (∀ key : BitVec 16, key ≠ 0x6B2F → key ≠ 0xD4A1 → Completes (.badKey t w m key) s (fun u => (u.watch w).key = 0 ∧
        Counted (F.WD_STAT_bad w) s u ∧ Keeps [0x2001] s u))) ∧
    ((s.watch w).key ≠ 0 → (s.watch w).key - 1 + 64 ≤ max s.tick t → Completes (.keyLapse t w) s (fun u => (u.watch w).key = 0 ∧
      u.on (F.WD_STAT_pend w) = false ∧ Keeps [0x2001] s u)) ∧
    ((s.start t).watchOverdue w = false → Completes (.watchdogExpire t w) s (fun u => Keeps [] s u ∧ u.wd = s.wd)) ∧
    ((s.start t).watchOverdue w = true → Fresh (Src.WD_EXPIRE w) t s → (s.watch w).cfg % 4 ≠ 1 →
      Completes (.watchdogExpire t w) s (fun u => Counted (F.WD_STAT_expire w) s u ∧
        Raised (Src.WD_EXPIRE w) ((s.start t).watchClosed w + (s.start t).watchOpen w) s u ∧ (u.watch w).ref = (s.start t).watchDue w ∧
        ((s.start t).watchDue w = max s.tick t → u.dword (A.WD_REF w) = (s.start t).time) ∧
        ((s.watch w).cfg % 4 = 0 → u.wd.resetDue = s.wd.resetDue) ∧
        (s.wd.resetDue = none → 2 ≤ (s.watch w).cfg % 4 →
          u.wd.resetDue = some (max s.tick t + State.us 2, max s.tick t, decide ((s.watch w).cfg % 4 = 3), w.val)) ∧ SameMemory s u)) ∧
    (∀ d at_ chip x, s.wd.resetDue = some (d, at_, chip, x) → d ≤ max s.tick t →
      (chip = true ∨ NoHandOver s → Completes (.watchdogResetStart t) s (DeviceReset (!chip) (0x10 + x) s)) ∧
      (chip = false → HandsOverFirst (.watchdogResetStart t) (0x10 + x) t s)) ∧
    (s.wd.resetDue = none → Completes (.watchdogResetStart t) s (fun u => Keeps [] s u)) ∧
    (bitOf v.toNat 0 = true → Completes (.wdClr t v) s (fun u =>
      u.f (F.WD_STAT_early w) = 0 ∧ u.f (F.WD_STAT_bad w) = 0 ∧ u.f (F.WD_STAT_expire w) = 0 ∧
      (∀ d : Fin 4, u.word (A.WD_ST_AGE d) = 0 ∧ u.word (A.WD_ST_CNT d) = 0) ∧ u.f F.WD_STATUS_sat = 0 ∧ Keeps [0x2001] s u)) ∧
    (bitOf v.toNat 0 = false → Completes (.wdClr t v) s (fun u => Keeps [] s u))

/-- Periodic tests (R367 to R376): a slot takes the next engine of a tested core and evicts its threads; the logic test starts
once the engine is empty, or the slice is abandoned and its slot runs on empty; its end notes the engine tested; a known-answer test
runs when due, waits for the engines that an atomic thread still holds, and its failure bars the core; an age near its deadline raises ST_LAPSE once. -/
def Obligations.CoresAreTested : Prop :=
  ∀ (t : Nat) (c : Fin 16) (e : Fin 16) (s : State),
    ((s.start t).slotRuns c = none → (s.start t).slotAligned c = true → (s.start t).coreTested c = true →
      (s.start t).testFits (c / 4) (State.us 2000) = true →
      s.nextEngine c (s.coreT c).next = some e.val → Completes (.sliceSlotStart t c) s (fun u =>
        (u.coreT c).slot = some (e.val, max s.tick t) ∧ u.f (F.CX_CORE_test (c / 4) (c % 4)) = e ∧ SameMemory s u)) ∧
    (∀ b, (s.coreT c).slot = some (e.val, b) →
      (s.residents c e = [] → (s.coreT c).idle = false → max s.tick t ≤ b + State.us 200 → Completes (.logicTestStart t c) s (fun u =>
        (u.coreT c).logic = true ∧ (u.coreT c).slot = some (e.val, b) ∧ Keeps [cxBlock (c / 4)] s u)) ∧
      ((s.coreT c).logic = false → (s.coreT c).idle = false → b + State.us 200 ≤ max s.tick t → s.residents c e ≠ [] →
        Completes (.sliceAbandon t c) s (fun u => (u.coreT c).slot = some (e.val, b) ∧ (u.coreT c).idle = true ∧ (u.coreT c).next = e ∧
          Counted (F.WD_ST_CNT_abandon (c / 4)) s u ∧ u.f (F.CX_CORE_test (c / 4) (c % 4)) = 16 ∧
          Keeps [0x2001, cxBlock (c / 4), gsBlock (c / 4)] s u)) ∧
      ((s.coreT c).idle = true → b + State.us 2000 ≤ max s.tick t → ∀ x : Bool, Completes (.sliceEnd t c x) s (fun u =>
        (u.coreT c).slot = none ∧ (u.coreT c).next = (s.coreT c).next ∧ Keeps [cxBlock (c / 4)] s u)) ∧
      ((s.coreT c).logic = true → (s.coreT c).idle = false → b + State.us 2000 ≤ max s.tick t → s.awaitsSlice c e = none →
        (Completes (.sliceEnd t c false) s (fun u => (u.coreT c).slot = none ∧ (u.coreT c).next = (e + 1) % 16 ∧
          Table.get (fun _ => 0) (u.coreT c).sliceDone e = max s.tick t ∧ e.val ∉ (u.coreT c).out ∧
          u.csr (0x100 + c) 0x102 / 65536 % 65536 = (s.csr (0x100 + c) 0x102 / 65536 % 65536 + 1) % 65536)) ∧
        (Fresh (Src.ST_LOGIC c) t s → Completes (.sliceEnd t c true) s (fun u => (u.coreT c).slot = none ∧
          Counted (F.WD_ST_CNT_fail (c / 4)) s u ∧ Raised (Src.ST_LOGIC c) e s u ∧
          (u.engFallow c e = false → e.val ∈ (u.coreT c).out ∧ (u.coreT c).next = e))))) ∧
    ((s.coreT c).slot = none → Completes (.sliceEnd t c true) s (fun u => Keeps [] s u) ∧
      Completes (.logicTestStart t c) s (fun u => Keeps [] s u) ∧ Completes (.sliceAbandon t c) s (fun u => Keeps [] s u)) ∧
    ((s.coreT c).kat = none → (s.start t).coreTested c = true → (s.coreT c).katDue ≤ max s.tick t →
      (s.start t).testFits (c / 4) (State.us 40) = true → Completes (.katStart t c) s (fun u => (u.coreT c).kat = some (max s.tick t) ∧
        (u.coreT c).katDue = max s.tick t + State.ms 10 ∧ bitOf (u.csr (0x100 + c) 0x102) 5 = true ∧ SameMemory s u)) ∧
    (∀ b, (s.coreT c).kat = some b →
      (s.katHeld c ≠ [] → Completes (.katEnd t c none) s (fun u => (u.coreT c).kat = some b ∧ (u.coreT c).katLeft = s.katHeld c ∧
        (u.coreT c).katDone = (s.coreT c).katDone ∧ SameMemory s u)) ∧
      (s.katHeld c = [] → Completes (.katEnd t c none) s (fun u => (u.coreT c).kat = none ∧ (u.coreT c).katDone = max s.tick t ∧ (u.coreT c).katRepeat = false ∧
        Table.get (fun _ => false) u.gs.noIssue c = false)) ∧
      (Fresh (Src.ST_KAT c) t s → Completes (.katEnd t c (some e)) s (fun u => Table.get (fun _ => false) u.gs.noIssue c = true ∧
        Counted (F.WD_ST_CNT_kfail (c / 4)) s u ∧ Raised (Src.ST_KAT c) e s u ∧ (u.coreT c).katDone = max s.tick t))) ∧
    ((s.coreT c).kat = none → Completes (.katEnd t c none) s (fun u => Keeps [] s u)) ∧
    (∀ kat : Bool, ((s.start t).lapseDue c kat e = true → Fresh (Src.ST_LAPSE (c / 4)) t s → Completes (.stLapse t c kat e) s (fun u =>
        Raised (Src.ST_LAPSE (c / 4)) ((if kat then 256 else 0) + 16 * (c % 4) + (if kat then 0 else e.val)) s u ∧
        Counted (F.WD_ST_CNT_lapse (c / 4)) s u ∧ (if kat then 16 else e.val) ∈ (u.coreT c).lapsed ∧ SameMemory s u)) ∧
      ((s.start t).lapseDue c kat e = false → Completes (.stLapse t c kat e) s (fun u => Keeps [] s u)))

/-- A write to WD_KEY_w from a master that R358 does not allow (R359): ignored, answered ERR_LOCKED, BUS_LOCKED raised with the
master, and neither a key nor a bad key. -/
def Obligations.ForeignKeysAreRefused : Prop :=
  ∀ (t : Nat) (w : Fin 9) (m : Nat) (s : State), (s.start t).mayServe w m = false → Fresh Src.BUS_LOCKED t s →
    Completes (.keyA t w m) s (KeyRefused w s) ∧ Completes (.keyB t w m) s (KeyRefused w s) ∧
    ∀ k : BitVec 16, Completes (.badKey t w m k) s (KeyRefused w s)

/-! ### Memory, DMA and CRC (R375 to R404) -/

/-- Lost words and regeneration (R325, R375, R380, R381, R384, R385): a word that a scrubber finds lost is marked and its source
raised, once; a request queues the unit of its address; a unit whose flash bytes agree with their check word is written back,
and one that fails twice marks its region. -/
def Obligations.LostUnitsAreRegenerated : Prop :=
  ∀ (t : Nat) (s : State),
    (∀ a : BitVec 48, State.region a.toNat = .warden → s.unitOf a.toNat = none → s.isLost a.toNat = false → Fresh Src.WSRAM_DET t s →
      Completes (.scrubberLostWord t (.memory a)) s (fun u => u.isLost a.toNat = true ∧ Raised Src.WSRAM_DET 0 s u ∧ (Healthy s → SameMemory s u))) ∧
    (∀ a : BitVec 48, State.region a.toNat = .warden → s.unitOf a.toNat = none → s.isLost a.toNat = true →
      Completes (.scrubberLostWord t (.memory a)) s (fun u => u.isLost a.toNat = true ∧ (Healthy s → Keeps [] s u))) ∧
    (∀ r : Fin 32768, Table.get (fun _ => false) s.lost (State.traceKey r) = true →
      Completes (.scrubberLostWord t (.trace r)) s (fun u => Keeps [] s u)) ∧
    (∀ o : Fin 1024, s.retBad (4 * o) = true → Completes (.scrubberLostWord t (.retained o)) s (fun u => Keeps [] s u)) ∧
    (∀ r : Fin 32768, Table.get (fun _ => false) s.lost (State.traceKey r) = false → Fresh Src.TRACE_DET t s → Completes (.scrubberLostWord t (.trace r)) s (fun u => Raised Src.TRACE_DET r s u ∧
      (∀ k : Fin 128, Table.get (fun _ => 0) u.ct.buf (128 * r + k) = 0) ∧ SameMemory s u)) ∧
    (∀ o : Fin 1024, s.retBad (4 * o) = false → Fresh Src.SYS_RET_ERR t s → Completes (.scrubberLostWord t (.retained o)) s (fun u => u.retBad (4 * o) = true ∧
      Raised Src.SYS_RET_ERR (4 * o) s u ∧ SameMemory s u)) ∧
    (∀ a : BitVec 48, (s.unitOf a.toNat = none → Completes (.dmaRegenReq t a) s (fun u => u.resp = .errParam ∧ Keeps [] s u)) ∧
      (∀ x, s.unitOf a.toNat = some x →
        (s.dma.regen.length < 16 → x ∉ s.dma.regen → Completes (.dmaRegenReq t a) s (fun u => u.dma.regen = s.dma.regen ++ [x] ∧
          u.f F.DMA_REGEN_STAT_depth = (s.dma.regen.length + 1) % 32 ∧ u.on F.DMA_STATUS_regen = true ∧ u.resp = .ok ∧ Keeps [0x2003] s u)) ∧
        (x ∈ s.dma.regen → Completes (.dmaRegenReq t a) s (fun u => u.dma.regen = s.dma.regen ∧ u.resp = .ok ∧ Keeps [] s u)) ∧
        (16 ≤ s.dma.regen.length → x ∉ s.dma.regen → Completes (.dmaRegenReq t a) s (fun u => u.dma.regen = s.dma.regen ∧
          Counted F.DMA_REGEN_STAT_ovf s u ∧ Keeps [0x2003] s u)))) ∧
    (s.dma.regen ≠ [] → Completes (.regenUnitStart t) s (fun u => u.on F.DMA_REGEN_STAT_busy = true ∧ u.dma.regen = s.dma.regen ∧
      u.on (F.DMA_CH_STAT_active 55) = true ∧ Keeps [0x2003] s u)) ∧
    (s.dma.regen = [] → Completes (.regenUnitStart t) s (fun u => Keeps [] s u)) ∧
    (∀ b1 b2 : Bool, (s.on F.DMA_REGEN_STAT_busy = false → Completes (.regenUnitDone t b1 b2) s (fun u => Keeps [] s u)) ∧
      (∀ x, s.dma.regen.head? = some x → s.on F.DMA_REGEN_STAT_busy = true → x.1 < 64 → s.mbx.held = none →
        (b1 = false ∨ b2 = false → crc32c (s.flashBytes 0 (s.f (F.DMA_REGEN_SRC_off x.1) + 0x10000 * x.2) (s.unitSpan x.1 x.2).2) =
            s.memVal (s.dword (A.DMA_REGEN_LIST x.1) + 4 * x.2) 4 → s.isLost (s.dword (A.DMA_REGEN_LIST x.1) + 4 * x.2) = false →
          s.spanFault (s.dword (A.DMA_REGEN_LIST x.1) + 4 * x.2) 4 false 0x437 = none →
          s.spanLost (s.dword (A.DMA_REGEN_LIST x.1) + 4 * x.2) 4 = false →
          s.spanFault (s.unitSpan x.1 x.2).1 (s.unitSpan x.1 x.2).2 false 0x437 = none →
          s.spanFault (s.dword A.DMA_REGEN_SCR) (s.unitSpan x.1 x.2).2 true 0x437 = none → Calm s →
          Completes (.regenUnitDone t b1 b2) s (fun u => u.dma.regen = s.dma.regen.tail ∧ u.on F.DMA_REGEN_STAT_busy = false ∧
            u.bytes (s.unitSpan x.1 x.2).1 (s.unitSpan x.1 x.2).2 =
              s.flashBytes 0 (s.f (F.DMA_REGEN_SRC_off x.1) + 0x10000 * x.2) (s.unitSpan x.1 x.2).2 ∧
            Counted (F.DMA_REGEN_ST_units x.1) s u ∧ u.on (F.DMA_CH_STAT_active 55) = false ∧ u.on (F.DMA_CH_STAT_eoc 55) = true ∧
            bitOf (u.word (A.DMA_IRQ 1)) 23 = true ∧
            SameWords (InBlocks [0x2003, 0x2005, 0x2009, gsBlock 0, gsBlock 1, gsBlock 2, gsBlock 3]) s u)) ∧
        (b1 = true → b2 = true → s.regionFailed x.1 = false → Completes (.regenUnitDone t b1 b2) s (fun u => u.dma.regen = s.dma.regen.tail ∧
          u.regionFailed x.1 = true ∧ Counted F.DMA_REGEN_STAT_fails s u ∧
          SameMemoryBut (s.dword A.DMA_REGEN_SCR) (s.unitSpan x.1 x.2).2 s u))))

/-- The DMA engine (R387 to R397, R403): an armed write of DMA_CH_NEXT starts an idle channel, or waits for its end of count; requests
are counted; a due descriptor is fetched; a burst moves its bytes from source to destination; a descriptor is written back once
its responses have returned; the end of count, an abort, a change of mode and DMA_CLR do what their rules say. -/
def Obligations.DmaMovesBytes : Prop :=
  ∀ (t : Nat) (k : Fin 55) (v : Word) (s : State),
    (s.on (F.DMA_CH_STAT_armed k) = true → Completes (.dmaChNext t (Fin.ofNat 64 k.val) v) s (fun u => u.f (F.DMA_CH_STAT_wst k) = 2 ∧
      u.dma = s.dma ∧ SameWords (fun a => a = A.DMA_CH_STAT k) s u ∧ SameMemory s u)) ∧
    (s.on (F.DMA_CH_STAT_armed k) = false → (s.chan k).hand.1 ≠ max s.tick t + 1 → s.heldValue (A.DMA_CH_NEXT k) v % 2 = 1 →
      (s.on (F.DMA_CH_STAT_active k) = false → Completes (.dmaChNext t (Fin.ofNat 64 k.val) v) s (fun u =>
        u.on (F.DMA_CH_STAT_active k) = true ∧ u.on (F.DMA_CH_STAT_eoc k) = false ∧ u.f (F.DMA_CH_STAT_wst k) = 0 ∧
        (u.chan k).fetch = some (s.heldValue (A.DMA_CH_NEXT k) v % 2 ^ 48 / 32 * 32) ∧ (u.chan k).cfg = s.word (A.DMA_CH_CFG k) ∧
        u.word (A.DMA_CH_ERR k) = 0 ∧ Keeps [0x2003] s u)) ∧
      (s.on (F.DMA_CH_STAT_active k) = true → Completes (.dmaChNext t (Fin.ofNat 64 k.val) v) s (fun u =>
        u.on (F.DMA_CH_STAT_armed k) = true ∧ u.f (F.DMA_CH_STAT_wst k) = 0 ∧ u.dma = s.dma ∧ Keeps [0x2003] s u))) ∧
    (∀ r : BitVec 7, Completes (.dmaRequest t r) s (fun u => (∀ j : Fin 55, u.f (F.DMA_CH_STAT_pend j) =
      (if r ≠ 0 ∧ r ≠ 127 ∧ s.pacing j = r.toNat ∧ s.f (F.DMA_CH_STAT_pend j) < 15 then s.f (F.DMA_CH_STAT_pend j) + 1
        else s.f (F.DMA_CH_STAT_pend j))) ∧ Keeps [0x2003] s u)) ∧
    (s.pacing k = 127 → s.f (F.DMA_CH_STAT_pend k) < 15 → Completes (.dmaChCtrlReq t (Fin.ofNat 64 k.val)) s (fun u =>
      u.f (F.DMA_CH_STAT_pend k) = s.f (F.DMA_CH_STAT_pend k) + 1 ∧ SameWords (fun a => a = A.DMA_CH_STAT k) s u ∧ SameMemory s u)) ∧
    (s.pacing k ≠ 127 → Completes (.dmaChCtrlReq t (Fin.ofNat 64 k.val)) s (fun u => Keeps [] s u)) ∧
    (∀ a, (s.chan k).fetch = some a → (s.chan k).open_ = [] → (s.chan k).fetched < 65536 →
      (s.on F.DMA_STATUS_rtc_act = true → s.rtcTurn = some k.val) →
      (a % 32 ≠ 0 ∨ State.inSram a 32 = false → Completes (.descriptorFetch t k 0) s (fun u => (u.chan k).fetch = none ∧ (u.chan k).zero = true ∧
        (u.chan k).anyBad = true ∧ u.f (F.DMA_CH_ERR_status k) = (if s.f (F.DMA_CH_ERR_status k) = 0 then 7 else s.f (F.DMA_CH_ERR_status k)) ∧
        Keeps [0x2003, 0x2004] s u)) ∧
      (a % 32 = 0 → State.inSram a 32 = true → PlainRead (0x400 + k) a 32 s → s.descStatus k (s.bytes a 32) = 0 → s.memVal (a + 16) 4 ≠ 0 →
        s.memVal (a + 21) 1 % 16 = 0 → (s.chan k).snoop = 0 → Completes (.descriptorFetch t k 0) s (fun u => (u.chan k).fetch = none ∧
          (u.chan k).fetched = (s.chan k).fetched + 1 ∧ (∃ d, (u.chan k).open_ = [d] ∧ d.src = s.memVal a 8 ∧ d.dst = s.memVal (a + 8) 8 ∧
            d.count = s.memVal (a + 16) 4 ∧ d.flags = s.memVal (a + 20) 1 ∧ d.next = s.memVal (a + 24) 8 ∧ d.moved = 0 ∧ d.bad = false) ∧
          u.f (F.DMA_CH_CNT_count k) = s.memVal (a + 16) 4 ∧ u.dword (A.DMA_CH_CUR k) = (s.chan k).fetched * 2 ^ 48 + a ∧
          Keeps [0x2003, 0x2009] s u))) ∧
    (∀ a, (s.chan k).fetch = some a → s.on F.DMA_STATUS_rtc_act = true → s.rtcTurn ≠ some k.val →
      Completes (.descriptorFetch t k 0) s (fun u => u.dma = s.dma ∧ Keeps [] s u)) ∧
    (∀ x, s.nextBurst = none → Completes (.dmaBurst t x) s (fun u => Keeps [] s u)) ∧
    (s.nextBurst = some k.val → (s.chan k).snoop = 0 → (s.chan k).snooping = false → s.gs.ended = [] → ∀ d, (s.chan k).open_ = [d] →
      d.flags % 4 = 3 → ∀ n, n = min (64 * 2 ^ ((s.chan k).cfg / 65536 % 8)) (d.count - d.moved) → n ≠ 0 → d.bad = false →
      PlainRead (0x400 + k) (d.src + d.moved) n s → PlainWrite (0x400 + k) (d.dst + d.moved) n s → Completes (.dmaBurst t ⟨0, 0, 0⟩) s (fun u =>
        u.bytes (d.dst + d.moved) n = s.bytes (d.src + d.moved) n ∧ SameMemoryBut (d.dst + d.moved) n s u ∧
        (u.chan k).open_ = [{ d with moved := d.moved + n, waiting := d.waiting ++ [(0, d.dst + d.moved)], issued := d.moved + n == d.count }] ∧
        SameWords (InBlocks [0x2003, 0x2009]) s u)) ∧
    (∀ d, (s.chan k).open_ = [d] → ∀ w, d.waiting = [w] → d.issued = true → PlainWrite (0x400 + k) (d.addr + 22) 2 s →
      (w.1 = 0 → Completes (.dmaWriteResponse t (Fin.ofNat 64 k.val) 0 0) s (fun u => (u.chan k).open_ = [] ∧
        u.bytes (d.addr + 22) 2 = [BitVec.ofNat 8 d.status, BitVec.ofNat 8 (1 + 2 * bit d.bad)] ∧ SameMemoryBut (d.addr + 22) 2 s u ∧
        SameWords (InBlocks [0x2003, 0x2009]) s u)) ∧
      (w.1 ≠ 0 → d.bad = false → Fresh Src.DMA_BUS t s → Completes (.dmaWriteResponse t (Fin.ofNat 64 k.val) 0 0) s (fun u => (u.chan k).open_ = [] ∧
        u.bytes (d.addr + 22) 2 = [BitVec.ofNat 8 w.1, 3] ∧ Raised Src.DMA_BUS (k * 2 ^ 26 + w.1 * 65536 + d.index) s u))) ∧
    (s.eocDue k = true →
      (s.on (F.DMA_CH_STAT_armed k) = false → Completes (.dmaEndOfCount t k) s (fun u => u.on (F.DMA_CH_STAT_active k) = false ∧
        u.on (F.DMA_CH_STAT_eoc k) = true ∧ u.on (F.DMA_CH_STAT_err k) = (s.chan k).anyBad ∧
        bitOf (u.word (A.DMA_IRQ (k / 32))) (k % 32) = true ∧ (u.chan k).open_ = [])) ∧
      (s.on (F.DMA_CH_STAT_armed k) = true → (s.chan k).aborting = false → Completes (.dmaEndOfCount t k) s (fun u =>
        u.on (F.DMA_CH_STAT_active k) = true ∧ u.on (F.DMA_CH_STAT_eoc k) = false ∧ u.on (F.DMA_CH_STAT_armed k) = false ∧
        (u.chan k).fetch = some (s.dword (A.DMA_CH_NEXT k) / 32 * 32) ∧ bitOf (u.word (A.DMA_IRQ (k / 32))) (k % 32) = true))) ∧
    (s.eocDue k = false → Completes (.dmaEndOfCount t k) s (fun u => Keeps [] s u)) ∧
    (s.on (F.DMA_CH_STAT_active k) = false → (s.chan k).hand.1 ≠ max s.tick t + 1 → Completes (.dmaAbort t (Fin.ofNat 64 k.val)) s (fun u =>
      u.on (F.DMA_CH_STAT_armed k) = false ∧ u.dma = s.dma ∧ Keeps [0x2003] s u)) ∧
    (s.eocDue k = true → (s.chan k).hand.1 ≠ max s.tick t + 1 → Completes (.dmaAbort t (Fin.ofNat 64 k.val)) s (fun u =>
      u.on (F.DMA_CH_STAT_armed k) = false ∧ (u.chan k).aborting = true ∧ (u.chan k).anyBad = (s.chan k).anyBad ∧ Keeps [0x2003] s u)) ∧
    (s.on (F.DMA_CH_STAT_active k) = true → s.eocDue k = false → (s.chan k).hand.1 ≠ max s.tick t + 1 → Completes (.dmaAbort t (Fin.ofNat 64 k.val)) s (fun u =>
      u.on (F.DMA_CH_STAT_armed k) = false ∧ (u.chan k).aborting = true ∧ (u.chan k).anyBad = true ∧ (u.chan k).zero = true ∧
      u.on (F.DMA_CH_STAT_active k) = true)) ∧
    (s.rtcWanted ≠ s.on F.DMA_STATUS_rtc_act → (∀ j : Fin 55, (s.chan j).open_.all (fun d => d.waiting.isEmpty) = true) →
      Completes (.dmaModeChange t) s (fun u => u.on F.DMA_STATUS_rtc_act = s.rtcWanted ∧ u.dma.owner = none ∧ Keeps [0x2003] s u)) ∧
    (s.rtcWanted = s.on F.DMA_STATUS_rtc_act → Completes (.dmaModeChange t) s (fun u => Keeps [] s u)) ∧
    (bitOf v.toNat 0 = true → Completes (.dmaClr t v) s (fun u => (∀ j : Fin 64, u.f (F.DMA_CH_STAT_ovf j) = 0 ∧ u.f (F.DMA_CH_STAT_errs j) = 0 ∧
      u.f (F.DMA_REGEN_ST_units j) = 0) ∧ u.f F.DMA_REGEN_STAT_ovf = 0 ∧ u.f F.DMA_REGEN_STAT_fails = 0 ∧ u.f F.DMA_STATUS_sat = 0 ∧
      u.dma = s.dma ∧ Keeps [0x2003] s u)) ∧
    (bitOf v.toNat 0 = false → Completes (.dmaClr t v) s (fun u => Keeps [] s u))

/-- Scan units (R399, R402, R404): a job starts on a free unit; a range job leaves the CRC-32C of its bytes and compares it; CRC_CLR
zeroes the counts. -/
def Obligations.ScansCheckMemory : Prop :=
  ∀ (t : Nat) (n : Fin 12) (v : Word) (s : State),
    (s.on (F.CRC_SCAN_STAT_busy n) = true → Completes (.crcScanGo t n v) s (fun u => u.on (F.CRC_SCAN_STAT_wst n) = true ∧
      u.on (F.CRC_SCAN_STAT_busy n) = true ∧ SameWords (fun a => a = A.CRC_SCAN_STAT n) s u ∧ SameMemory s u)) ∧
    (s.on (F.CRC_SCAN_STAT_busy n) = false → bitOf v.toNat 30 = false →
      (s.word (A.CRC_SCAN_LEN n) ≠ 0 → Completes (.crcScanGo t n v) s (fun u => u.on (F.CRC_SCAN_STAT_busy n) = true ∧
        u.on (F.CRC_SCAN_STAT_wst n) = false ∧ u.f (F.CRC_SCAN_STAT_mism n) = 0 ∧ u.on (F.CRC_SCAN_CTRL_cmp n) = bitOf v.toNat 29 ∧
        u.on (F.CRC_SCAN_CTRL_mode n) = false ∧ Keeps [0x2004] s u)) ∧
      (s.word (A.CRC_SCAN_LEN n) = 0 → Completes (.crcScanGo t n v) s (fun u => u.on (F.CRC_SCAN_STAT_busy n) = false ∧
        u.f (F.CRC_SCAN_RES_res n) = 0 ∧ u.f (F.CRC_SCAN_STAT_st n) = (if bitOf v.toNat 29 = true ∧ s.f (F.CRC_SCAN_EXP_exp n) ≠ 0 then 1 else 0) ∧
        SameMemory s u))) ∧
    (s.on (F.CRC_SCAN_STAT_busy n) = false → bitOf v.toNat 30 = true → s.on (F.DMA_REGEN_LEN_valid (v.toNat / 65536 % 64)) = false →
      Completes (.crcScanGo t n v) s (fun u => u.f (F.CRC_SCAN_STAT_st n) = 7 ∧ u.on (F.CRC_SCAN_STAT_busy n) = false ∧ Keeps [0x2004] s u)) ∧
    (s.on (F.CRC_SCAN_STAT_busy n) = false → Completes (.crcScanEnd t n 0) s (fun u => Healthy s → Keeps [] s u)) ∧
    (s.on (F.CRC_SCAN_STAT_busy n) = true → s.on (F.CRC_SCAN_CTRL_mode n) = false →
      PlainRead (0x4A0 + n) (s.dword (A.CRC_SCAN_ADDR n)) (s.word (A.CRC_SCAN_LEN n)) s → Completes (.crcScanEnd t n 0) s (fun u =>
        u.on (F.CRC_SCAN_STAT_busy n) = false ∧
        u.f (F.CRC_SCAN_RES_res n) = crc32c (s.bytes (s.dword (A.CRC_SCAN_ADDR n)) (s.word (A.CRC_SCAN_LEN n))) ∧
        u.f (F.CRC_SCAN_STAT_st n) = (if s.on (F.CRC_SCAN_CTRL_cmp n) = true ∧
          crc32c (s.bytes (s.dword (A.CRC_SCAN_ADDR n)) (s.word (A.CRC_SCAN_LEN n))) ≠ s.f (F.CRC_SCAN_EXP_exp n) then 1 else 0) ∧
        (Healthy s → SameMemory s u))) ∧
    (bitOf v.toNat 0 = true → Completes (.crcClr t v) s (fun u => (∀ j : Fin 12, u.f (F.CRC_SCAN_STAT_mism j) = 0) ∧
      (∀ j : Fin 8, u.f (F.CRC_SNP_STAT_mism j) = 0) ∧ u.f F.CRC_STATUS_sat = 0 ∧ Keeps [0x2004] s u)) ∧
    (bitOf v.toNat 0 = false → Completes (.crcClr t v) s (fun u => Keeps [] s u))

/-- The two views of GDDR6 (R185 to R187): the byte at offset o of the interleaved view lies in channel (o >> 12) & 15, below 992 MiB
of it, and reads the same through the local view of that channel's die. -/
def Obligations.BothViewsReachOneByte : Prop :=
  ∀ (o c die lc co l : Nat), o < 0x3E0000000 → c = o / 0x1000 % 16 → die = c / 4 → lc = c % 4 →
    co = o / 0x10000 * 0x1000 + o % 0x1000 → l = co / 0x1000 * 0x4000 + lc * 0x1000 + co % 0x1000 →
    co < 992 * 2 ^ 20 ∧ l < 0xF8000000 ∧ State.region (0x10000000000 + o) = .gddr c ∧
    State.region (0x1000000000 + 0x400000000 * die + l) = .gddr c ∧
    ∀ s : State, s.byte (0x1000000000 + 0x400000000 * die + l) = s.byte (0x10000000000 + o)

/-! ### Time and Ethernet (R405 to R427, R436) -/

/-- The time base (R407, R408, R414 to R417, R419): a step is added at the end of its tick and needs TM_CTRL.back to go back in service; an
offset sample sets TM_SERVO_E and, with the servo on, the rate of R416 within its limit; a rate is written by firmware only with
the servo off; a loss of the source is taken once; replicas that differ are reloaded; a read of TM_ETS_ID takes the oldest stamp. -/
def Obligations.TimeIsSteppedAndDisciplined : Prop :=
  ∀ (t : Nat) (v : Word) (x : Fin 4) (s : State) (d e i r : Int),
    d = signed 64 (s.heldValue A.TM_STEP v) → e = signed 64 (s.heldValue A.TM_OFS v) →
    i = State.sat64 (signed 64 (s.dword A.TM_SERVO_I) + s.f F.TM_SERVO_ki * e) → r = -(s.f F.TM_SERVO_kp * e / 65536 + i / 65536) →
    (d = 0 → Completes (.tmStep t v) s (fun u => u.tm = (s.start t).tm ∧ Keeps [] s u)) ∧
    (d < 0 → s.f F.SYS_SVC_level ≠ 0 → s.on F.TM_CTRL_back = false → Completes (.tmStep t v) s (fun u =>
      u.resp = .errState ∧ u.tm = (s.start t).tm ∧ Keeps [] s u)) ∧
    (d ≠ 0 → 0 < d ∨ s.f F.SYS_SVC_level = 0 ∨ s.on F.TM_CTRL_back = true → Completes (.tmStep t v) s (fun u =>
      u.tm.step = (s.start t).tm.step + d ∧ u.on F.TM_STATUS_stepped = true ∧ u.on F.TM_STATUS_lock = false ∧ Counted F.TM_CNT_steps s u ∧
      u.resp = .ok ∧ Keeps [0x2002] s u)) ∧
    (s.f F.TM_LIMIT_big_us * 1000 * 65536 < e.natAbs → Completes (.tmOfs t v) s (fun u => u.dword A.TM_SERVO_E = unsigned 64 e ∧
      u.on F.TM_STATUS_big = true ∧ Counted F.TM_CNT_big s u ∧ u.on F.TM_STATUS_lock = false ∧ u.on F.TM_STATUS_holdover = false ∧
      u.word A.TM_RATE = s.word A.TM_RATE ∧ u.tm.lossStart = max s.tick t ∧ Keeps [0x2002] s u)) ∧
    (e.natAbs ≤ s.f F.TM_LIMIT_big_us * 1000 * 65536 → s.on F.TM_CTRL_servo_en = false → Completes (.tmOfs t v) s (fun u =>
      u.dword A.TM_SERVO_E = unsigned 64 e ∧ u.word A.TM_RATE = s.word A.TM_RATE ∧ u.on F.TM_STATUS_holdover = false ∧ Keeps [0x2002] s u)) ∧
    (e.natAbs ≤ s.f F.TM_LIMIT_big_us * 1000 * 65536 → s.on F.TM_CTRL_servo_en = true →
      (r.natAbs ≤ 8589934 → Completes (.tmOfs t v) s (fun u => u.dword A.TM_SERVO_E = unsigned 64 e ∧ u.dword A.TM_SERVO_I = unsigned 64 i ∧
        u.word A.TM_RATE = unsigned 32 r ∧ u.on F.TM_STATUS_clamp = false ∧ Keeps [0x2002] s u)) ∧
      (8589934 < r.natAbs → Fresh Src.TM_SERVO t s → Completes (.tmOfs t v) s (fun u => u.dword A.TM_SERVO_I = s.dword A.TM_SERVO_I ∧
        u.word A.TM_RATE = unsigned 32 (if r < 0 then -8589934 else 8589934) ∧ u.on F.TM_STATUS_clamp = true ∧
        Raised Src.TM_SERVO 0 s u ∧ SameMemory s u))) ∧
    (s.on F.TM_CTRL_servo_en = true → Completes (.tmRate t v) s (fun u => u.resp = .errState ∧ Keeps [] s u)) ∧
    (s.on F.TM_CTRL_servo_en = false →
      (8589934 < (signed 32 v.toNat).natAbs → Completes (.tmRate t v) s (fun u => u.resp = .errParam ∧ Keeps [] s u)) ∧
      ((signed 32 v.toNat).natAbs ≤ 8589934 → Completes (.tmRate t v) s (fun u => u.resp = .ok ∧ u.word A.TM_RATE = v.toNat ∧
        SameWords (fun a => a = A.TM_RATE) s u ∧ SameMemory s u))) ∧
    ((s.start t).lossReady = true → Fresh Src.TM_GM_LOSS t s → Completes (.servoLoss t) s (fun u => u.on F.TM_STATUS_holdover = true ∧
      u.on F.TM_STATUS_lock = false ∧ u.tm.lossTaken = true ∧ Counted F.TM_CNT_loss s u ∧ Raised Src.TM_GM_LOSS 0 s u ∧ SameMemory s u)) ∧
    ((s.start t).lossReady = false → Completes (.servoLoss t) s (fun u => Keeps [] s u)) ∧
    Completes (.replicaSync t) s (fun u => (∀ k : Fin 4, k.val ∈ u.tm.reload ↔
        4 < ((s.start t).replicaDiff k).natAbs ∧ Table.get (fun _ => 0) s.dieReset k = 0) ∧
      u.f F.TM_CNT_resync = min (s.f F.TM_CNT_resync + u.tm.reload.length) (2 ^ F.TM_CNT_resync.width - 1) ∧ Keeps [0x2002] s u) ∧
    (∀ q, (s.etsQ x).head? = some q → Completes (.etsRead t x) s (fun u => u.etsQ x = (s.etsQ x).tail ∧ u.dword (A.TM_ETS_TS x) = q.ns.toNat ∧
      u.on (F.TM_ETS_ID_valid x) = true ∧ u.f (F.TM_ETS_ID_msg x) = q.msg % 16 ∧ u.f (F.TM_ETS_ID_seq x) = q.seq % 65536 ∧
      u.rdata = [u.word (A.TM_ETS_ID x)] ∧ Keeps [0x2002] s u)) ∧
    (s.etsQ x = [] → Completes (.etsRead t x) s (fun u => u.on (F.TM_ETS_ID_valid x) = false ∧ u.rdata = [u.word (A.TM_ETS_ID x)] ∧
      Keeps [0x2002] s u)) ∧
    (bitOf v.toNat 0 = true → Completes (.tmClr t v) s (fun u => u.word A.TM_CNT = 0 ∧ (∀ k : Fin 4, u.f (F.TM_ETS_ID_ovf k) = 0) ∧
      u.f F.TM_STATUS_big = 0 ∧ u.f F.TM_STATUS_stepped = 0 ∧ u.f F.TM_STATUS_ets = 0 ∧ u.f F.TM_STATUS_sat = 0 ∧ Keeps [0x2002] s u)) ∧
    (bitOf v.toNat 0 = false → Completes (.tmClr t v) s (fun u => Keeps [] s u))

/-- The Ethernet ports (R420 to R427, R436): what the PHY reports shows, and a loss is raised; a received frame is dropped, queued,
held for its second copy or delivered; a frame that leaves is the first in the order of R422; a held first copy is delivered
when its second does not come; bulk data of the oldest management datagram goes to flash and is acknowledged. -/
def Obligations.EthernetCarriesFrames : Prop :=
  ∀ (t : Nat) (x : Fin 2) (v : Word) (s : State) (body : List Byte),
    (∀ rate : Fin 4, s.on (F.ETH_STAT_up x) = false → Completes (.ethLinkUp t x rate) s (fun u => u.phyOf x = rate + 1 ∧
      u.on (F.ETH_STAT_up x) = (s.macOn x && decide (s.f (F.ETH_CFG_min x) ≤ rate)) ∧ u.f (F.ETH_STAT_rate x) = rate ∧ Keeps [0x200B] s u)) ∧
    (s.on (F.ETH_STAT_up x) = true → Fresh (Src.ETH_LINK x) t s → Completes (.ethLinkDown t x) s (fun u => u.phyOf x = 0 ∧
      u.on (F.ETH_STAT_up x) = false ∧ u.safetyQ x = [] ∧ Counted (F.ETH_ERR1_loss x) s u ∧ Raised (Src.ETH_LINK x) x s u ∧
      (Healthy s → SameMemory s u))) ∧
    (s.on (F.ETH_STAT_up x) = false → Completes (.ethLinkDown t x) s (fun u => u.phyOf x = 0 ∧ u.on (F.ETH_STAT_up x) = false ∧
      u.f (F.ETH_ERR1_loss x) = s.f (F.ETH_ERR1_loss x) ∧ Keeps [0x200B] s u)) ∧
    (∀ rate : Fin 4, s.phyOf x ≠ 0 → s.on (F.ETH_STAT_up x) = true → s.macOn x = true → s.f (F.ETH_CFG_min x) ≤ rate →
      Completes (.ethRateChange t x rate) s (fun u => u.phyOf x = rate + 1 ∧ u.on (F.ETH_STAT_up x) = true ∧ u.f (F.ETH_STAT_rate x) = rate ∧
        (s.phyOf x ≠ rate + 1 → Counted (F.ETH_STAT_rchg x) s u) ∧ Keeps [0x200B] s u)) ∧
    (s.phyOf x = 0 → ∀ rate : Fin 4, Completes (.ethRateChange t x rate) s (fun u => Keeps [] s u)) ∧
    (s.ethUp x = false ∨ s.isFallow 7 x = true → ∀ l : List Byte, Completes (.ethFrameReceive t x true l) s (fun u => u.eth = s.eth ∧ Keeps [] s u)) ∧
    (s.ethUp x = true → s.isFallow 7 x = false →
      (∀ l : List Byte, s.injHits 11 x = false → Completes (.ethFrameReceive t x false l) s (fun u => Counted (F.ETH_ERR0_fcs x) s u ∧ u.eth = s.eth ∧
        Keeps [0x2002, 0x2009, 0x200B] s u)) ∧
      (46 ≤ body.length → body.length ≤ 1500 → s.injHits 11 x = false → s.on F.ETH_VLAN_untag = true → s.dword (A.ETH_MAC x) < 2 ^ 48 →
        (((s.rxMgmt x).map List.length).sum + body.length + 14 ≤ 16384 →
          Completes (.ethFrameReceive t x true (beBytes 6 (s.dword (A.ETH_MAC x)) ++ beBytes 6 v.toNat ++ beBytes 2 0x88B6 ++ body)) s (fun u =>
            u.rxMgmt x = s.rxMgmt x ++ [beBytes 6 (s.dword (A.ETH_MAC x)) ++ beBytes 6 v.toNat ++ beBytes 2 0x88B6 ++ body] ∧ Keeps [0x2009] s u)) ∧
        (∀ (k : Fin 8) (n : Word), s.peerOf (State.beAt body 2 2) = some k.val → State.beAt body 0 1 = 1 → 0x10 ≤ State.beAt body 1 1 →
          State.beAt body 1 1 ≤ 0x7F → State.beAt body 16 2 ≤ 1480 → 20 + State.beAt body 16 2 ≤ body.length → State.beAt body 4 4 = n.toNat →
          ((s.peer k).started = false → s.eth.cmp.length < 64 →
            Completes (.ethFrameReceive t x true (beBytes 6 (s.dword (A.ETH_MAC x)) ++ beBytes 6 v.toNat ++ beBytes 2 0x88B5 ++ body)) s (fun u =>
              u.eth.cmp = s.eth.cmp ++ [⟨k, n.toNat, x, body.take (20 + State.beAt body 16 2), max s.tick t, (s.start t).time⟩] ∧
              (u.peer k).started = true ∧ (u.peer k).heard = max s.tick t ∧ Keeps [0x2009, 0x200B] s u)) ∧
          (∀ e, (s.peer k).started = true → s.eth.cmp.reverse.find? (fun e => e.peer = k.val && e.seq = n.toNat) = some e → e.mac ≠ x.val → Calm s →
            e.body = body.take (20 + State.beAt body 16 2) → (s.f F.ETH_RXCNT_wr + 1) % 2 ^ s.f F.ETH_RXCFG_size ≠ s.f F.ETH_RXRD_rd →
            s.spanFault (s.dword A.ETH_RXRING + 2048 * s.f F.ETH_RXCNT_wr) (16 + e.body.length) true State.ownMaster = none →
            Completes (.ethFrameReceive t x true (beBytes 6 (s.dword (A.ETH_MAC x)) ++ beBytes 6 v.toNat ++ beBytes 2 0x88B5 ++ body)) s (fun u =>
              u.eth.cmp = s.eth.cmp.erase e ∧ u.f F.ETH_RXCNT_wr = (s.f F.ETH_RXCNT_wr + 1) % 2 ^ s.f F.ETH_RXCFG_size % 65536 ∧
              u.bytes (s.dword A.ETH_RXRING + 2048 * s.f F.ETH_RXCNT_wr) (16 + e.body.length) =
                leBytes 2 e.body.length ++ leBytes 1 k ++ [6] ++ leBytes 4 0 ++ leBytes 8 e.stamp ++ e.body ∧
              SameMemoryBut (s.dword A.ETH_RXRING + 2048 * s.f F.ETH_RXCNT_wr) (16 + e.body.length) s u))))) ∧
    (∀ (k : Fin 8) (n : Word), ∀ e, s.eth.cmp.find? (fun e => e.peer = k.val && e.seq = n.toNat) = some e →
      (max s.tick t < e.tick + 250 * s.f F.ETH_RXCFG_cmp_us → Completes (.compareTimeout t k n) s (fun u => u.eth = s.eth ∧ Keeps [] s u)) ∧
      (e.tick + 250 * s.f F.ETH_RXCFG_cmp_us ≤ max s.tick t → (s.f F.ETH_RXCNT_wr + 1) % 2 ^ s.f F.ETH_RXCFG_size ≠ s.f F.ETH_RXRD_rd →
        s.spanFault (s.dword A.ETH_RXRING + 2048 * s.f F.ETH_RXCNT_wr) (16 + e.body.length) true State.ownMaster = none → Calm s →
        Completes (.compareTimeout t k n) s (fun u => u.eth.cmp = s.eth.cmp.erase e ∧ Counted F.ETH_CMPCNT_single s u ∧
          u.bytes (s.dword A.ETH_RXRING + 2048 * s.f F.ETH_RXCNT_wr) (16 + e.body.length) =
            leBytes 2 e.body.length ++ leBytes 1 e.peer ++ leBytes 1 (if e.mac = 0 then 3 else 5) ++ leBytes 4 0 ++ leBytes 8 e.stamp ++ e.body ∧
          SameMemoryBut (s.dword A.ETH_RXRING + 2048 * s.f F.ETH_RXCNT_wr) (16 + e.body.length) s u))) ∧
    (∀ (ptp : Option (List Byte)) (da : BitVec 48),
      (s.ethUp x = false ∨ s.isFallow 7 x = true → Completes (.ethFrameTransmit t x ptp da) s (fun u => u.eth = s.eth ∧ Keeps [] s u)) ∧
      (s.ethUp x = true → s.isFallow 7 x = false →
        (∀ b, ptp = some b → Completes (.ethFrameTransmit t x ptp da) s (fun u => u.eth = s.eth ∧
          u.rdata = (s.frameOf x 0x0180C200000E 0x88F7 b).map BitVec.toNat ∧ Keeps [0x2002, 0x2009] s u)) ∧
        (ptp = none → ∀ q, (s.safetyQ x).head? = some q → Completes (.ethFrameTransmit t x ptp da) s (fun u => u.safetyQ x = (s.safetyQ x).tail ∧
          u.rdata = (s.frameOf x (s.dword A.ETH_DA) 0x88B5 q.body).map BitVec.toNat ∧ Keeps [0x2009] s u)) ∧
        (ptp = none → s.safetyQ x = [] → ∀ b, (s.txMgmt x).head? = some b → Completes (.ethFrameTransmit t x ptp da) s (fun u =>
          u.txMgmt x = (s.txMgmt x).tail ∧ u.rdata = (s.frameOf x da.toNat 0x88B6 b).map BitVec.toNat ∧ Keeps [0x2009] s u)))) ∧
    (∀ q, (s.safetyQ x).head? = some q →
      (max s.tick t < q.tick + State.us 20 → Completes (.ethTxlate t x 0) s (fun u => u.eth = s.eth ∧ Keeps [] s u)) ∧
      (q.tick + State.us 20 ≤ max s.tick t → (s.safetyQ x).tail = [] → Fresh (Src.ETH_TXLATE x) t s → Completes (.ethTxlate t x 0) s (fun u =>
        u.safetyQ x = [] ∧ Counted (F.ETH_ERR1_late x) s u ∧ Raised (Src.ETH_TXLATE x) x s u))) ∧
    (∀ (tag : BitVec 16) (o : Word) (l : List Byte),
      (s.takeMgmt x (fun b => b.take (8 + l.length) = State.bulkDatagram tag.toNat o.toNat l) = none →
        Completes (.bulkData t x tag o l) s (fun u => u.eth = s.eth ∧ u.flash = s.flash ∧ Keeps [] s u)) ∧
      (∀ m r, soundMgmt s x = m :: r → (State.mgmtBody m).take (8 + l.length) = State.bulkDatagram tag.toNat o.toNat l → s.sec.session = none →
        Completes (.bulkData t x tag o l) s (fun u => u.rxMgmt x = r ∧ u.flash = s.flash ∧ Keeps [] s u)) ∧
      (∀ m r, soundMgmt s x = m :: r → (State.mgmtBody m).take (8 + l.length) = State.bulkDatagram tag.toNat o.toNat l → s.sec.session.isSome = true → s.f F.SYS_UPD_STAT_state = 1 → ∀ b, s.desc = some b → s.word A.SYS_UPD_ACK ≤ o.toNat → o.toNat ≤ s.boot.stored →
        o.toNat + l.length ≤ (State.descSlot b (s.f F.SYS_UPD_STAT_slot)).2 → o.toNat + l.length ≤ 0x10000 * s.f F.SYS_UPD_STAT_erase_next →
        max s.boot.stored (o.toNat + l.length) / 0x10000 * 0x10000 = s.word A.SYS_UPD_ACK →
        Completes (.bulkData t x tag o l) s (fun u => u.boot.stored = max s.boot.stored (o.toNat + l.length) ∧ u.rxMgmt x = r ∧
          u.flashBytes 0 ((State.descSlot b (s.f F.SYS_UPD_STAT_slot)).1 + o.toNat) l.length = l ∧
          u.txMgmt x = s.txMgmt x ++ [beBytes 1 1 ++ beBytes 1 4 ++ beBytes 2 tag.toNat ++ beBytes 4 o.toNat ++ beBytes 4 (s.word A.SYS_UPD_ACK)] ∧
          Keeps [] s u))) ∧
    (bitOf v.toNat 0 = true → Completes (.ethClr t v) s (fun u => (∀ y : Fin 2, u.word (A.ETH_ERR0 y) = 0 ∧ u.word (A.ETH_ERR1 y) = 0 ∧
      u.f (F.ETH_STAT_rchg y) = 0) ∧ u.word A.ETH_CMPCNT = 0 ∧ u.f F.ETH_STATUS_sat = 0 ∧ u.eth = s.eth ∧ Keeps [0x200B] s u)) ∧
    (bitOf v.toNat 0 = false → Completes (.ethClr t v) s (fun u => Keeps [] s u)) ∧
    (∀ k : Fin 8, ((s.start t).peerSilent k = true → Completes (.peerTimeout t k) s (fun u => (u.peer k).started = false ∧
        (u.peer k).high = (s.peer k).high ∧ (∀ j : Fin 8, j ≠ k → u.peer j = s.peer j) ∧ u.eth.cmp = s.eth.cmp ∧ Keeps [] s u)) ∧
      ((s.start t).peerSilent k = false → Completes (.peerTimeout t k) s (fun u => u.eth = s.eth ∧ Keeps [] s u)))

/-! ### I3C and xSPI (R428 to R438) -/

/-- The I3C target (R428 to R430): with the port enabled every command code of R429 does what its row says, and disabled none; a
private read answers the ready response; a pending interrupt stays until it is acknowledged; a protocol error is counted and
raised. The answers of GETMXDS and GETCAPS are the model's (log 28). -/
def Obligations.I3cTargetAnswers : Prop :=
  ∀ (t : Nat) (s : State),
    (∀ b : BitVec 8, (s.i3cOn = true →
        Completes (.enec t b) s (fun u => u.on F.I3C_T_STAT_ibien = (bitOf b.toNat 0 || s.on F.I3C_T_STAT_ibien) ∧ u.i3c = s.i3c ∧
          SameWords (fun a => a = A.I3C_T_STAT) s u ∧ SameMemory s u) ∧
        Completes (.disec t b) s (fun u => u.on F.I3C_T_STAT_ibien = (!bitOf b.toNat 0 && s.on F.I3C_T_STAT_ibien) ∧ u.i3c = s.i3c ∧
          SameWords (fun a => a = A.I3C_T_STAT) s u ∧ SameMemory s u) ∧
        (b ≠ 1 → Completes (.rstact t b) s (fun u => u.resp = (if b = 0 then .ok else .nack) ∧ u.i3c = s.i3c ∧ Keeps [] s u)) ∧
        (b = 1 → Completes (.rstact t b) s (fun u => u.on F.I3C_T_STAT_dav = false ∧ u.on F.I3C_T_STAT_ibien = true ∧ u.i3c.hdr = false ∧
          SameWords (fun a => a = A.I3C_T_STAT) s u ∧ SameMemory s u))) ∧
      (s.i3cOn = false → Completes (.enec t b) s (fun u => Keeps [] s u) ∧ Completes (.disec t b) s (fun u => Keeps [] s u) ∧
        Completes (.rstact t b) s (fun u => u.i3c = s.i3c ∧ Keeps [] s u))) ∧
    (∀ n : Fin 4, Completes (.entas t n) s (fun u => u.i3c = s.i3c ∧ Keeps [] s u)) ∧
    (∀ n : BitVec 16, Completes (.setmwl t n) s (fun u => u.i3c = s.i3c ∧ Keeps [] s u) ∧
      Completes (.setmrl t n) s (fun u => u.i3c = s.i3c ∧ Keeps [] s u)) ∧
    (s.i3cOn = true →
      Completes (.rstdaa t) s (fun u => u.on F.I3C_T_STAT_dav = false ∧ SameWords (fun a => a = A.I3C_T_STAT) s u ∧ SameMemory s u) ∧
      (∀ a sa : BitVec 7,
        Completes (.entdaa t a) s (fun u => u.on F.I3C_T_STAT_dav = true ∧
          u.f F.I3C_T_STAT_da = (if s.on F.I3C_T_STAT_dav = true then s.f F.I3C_T_STAT_da else a.toNat) ∧
          SameWords (fun b => b = A.I3C_T_STAT) s u ∧ SameMemory s u) ∧
        (s.on F.I3C_T_STAT_dav = false → s.f F.I3C_T_CFG_sa = sa.toNat → sa ≠ 0 → Completes (.setdasa t sa a) s (fun u =>
          u.on F.I3C_T_STAT_dav = true ∧ u.f F.I3C_T_STAT_da = a.toNat ∧ u.resp = .ok ∧ SameWords (fun b => b = A.I3C_T_STAT) s u ∧ SameMemory s u)) ∧
        (s.on F.I3C_T_STAT_dav = true ∨ s.f F.I3C_T_CFG_sa ≠ sa.toNat ∨ sa = 0 → Completes (.setdasa t sa a) s (fun u => u.resp = .nack ∧ Keeps [] s u)) ∧
        (s.on F.I3C_T_STAT_dav = true → Completes (.setnewda t a) s (fun u => u.on F.I3C_T_STAT_dav = true ∧ u.f F.I3C_T_STAT_da = a.toNat ∧
          SameWords (fun b => b = A.I3C_T_STAT) s u ∧ SameMemory s u)) ∧
        (s.on F.I3C_T_STAT_dav = false → Completes (.setnewda t a) s (fun u => u.resp = .nack ∧ Keeps [] s u))) ∧
      Completes (.getmwl t) s (fun u => u.rdata = [1, 0] ∧ Keeps [] s u) ∧ Completes (.getmrl t) s (fun u => u.rdata = [1, 0] ∧ Keeps [] s u) ∧
      Completes (.getpid t) s (fun u => u.rdata.length = 6 ∧ beVal (u.rdata.map (BitVec.ofNat 8)) = s.dword A.I3C_PID % 2 ^ 48 ∧ Keeps [] s u) ∧
      Completes (.getbcr t) s (fun u => u.rdata = [0x26] ∧ Keeps [] s u) ∧ Completes (.getdcr t) s (fun u => u.rdata = [0] ∧ Keeps [] s u) ∧
      Completes (.getstatus t) s (fun u => u.i3c.proto = false ∧ u.rdata = [s.f F.SYS_SVC_level, bit (s.ibi ≠ 0) + 32 * bit s.i3c.proto] ∧ Keeps [] s u) ∧
      Completes (.getmxds t) s (fun u => u.rdata = [0, 0] ∧ Keeps [] s u) ∧ Completes (.getcaps t) s (fun u => u.rdata = [1, 1, 0, 0] ∧ Keeps [] s u) ∧
      Completes (.enthdr0 t) s (fun u => u.i3c.hdr = (s.i3c.hdr || s.on F.I3C_T_CFG_ddr) ∧ Keeps [] s u) ∧
      (∀ n : Fin 7, Fresh Src.I3C_ERR t s → Completes (.i3cProtocolError t n) s (fun u => Counted F.I3C_T_ERR_proto s u ∧ u.i3c.proto = true ∧
        Raised Src.I3C_ERR 0 s u ∧ SameMemory s u)) ∧
      (∀ (hdr : Bool) (n : Nat), s.mbx.response ≠ [] → s.on F.I3C_T_STAT_dav = true → (hdr = true → s.on F.I3C_T_CFG_ddr = true) → Completes (.i3cPrivateRead t hdr n) s (fun u =>
        u.rdata = (s.mbx.response.take n).map BitVec.toNat ∧ u.resp = .ok ∧ u.mbx.response = s.mbx.response ∧
        (n < s.mbx.response.length ∨ s.mbx.resetHeld = none → u.mbx = s.mbx) ∧ Keeps [] s u))) ∧
    (∀ (hdr : Bool) (n : Nat), s.i3cOn = false ∨ s.on F.I3C_T_STAT_dav = false ∨ s.mbx.response = [] ∨ (hdr = true ∧ s.on F.I3C_T_CFG_ddr = false) →
      Completes (.i3cPrivateRead t hdr n) s (fun u => u.resp = .nack ∧ u.rdata = [] ∧ u.mbx = s.mbx ∧ Keeps [] s u)) ∧
    (s.i3cOn = true → s.on F.I3C_T_STAT_ibien = true → s.on F.I3C_T_STAT_dav = true → s.ibi ≠ 0 →
      Completes (.ibiRetry t true) s (fun u => u.ibi = 0 ∧ u.rdata = [s.ibi] ∧ Keeps [] s u) ∧
      Completes (.ibiRetry t false) s (fun u => u.ibi = s.ibi ∧ Counted F.I3C_T_ERR_ibinack s u ∧ Keeps [0x200C] s u)) ∧
    (∀ b : Bool, s.i3cOn = false ∨ s.on F.I3C_T_STAT_ibien = false ∨ s.on F.I3C_T_STAT_dav = false ∨ s.ibi = 0 →
      Completes (.ibiRetry t b) s (fun u => u.ibi = s.ibi ∧ Keeps [] s u))

/-- The I3C controller (R431, R437): a command starts one transfer; its end leaves its status, and for a read its bytes; an
in-band interrupt is queued and read in order, and a Hot-Join is refused. -/
def Obligations.I3cControllerTransfers : Prop :=
  ∀ (t : Nat) (v : Word) (st : Fin 3) (l : List Byte) (s : State),
    (s.on F.I3C_C_STAT_busy = true ∨ s.on F.I3C_C_CFG_en = false → Completes (.i3cCCmd t v) s (fun u => u.resp = .errState ∧
      u.f F.I3C_C_STAT_st = 3 ∧ u.i3c = s.i3c ∧ SameWords (fun a => a = A.I3C_C_STAT) s u ∧ SameMemory s u)) ∧
    (s.on F.I3C_C_STAT_busy = false → s.on F.I3C_C_CFG_en = true →
      (v.toNat / 256 % 128 ≤ 64 → Completes (.i3cCCmd t v) s (fun u => u.on F.I3C_C_STAT_busy = true ∧ u.i3c = { s.i3c with cmd := some v.toNat } ∧
        u.resp = .ok ∧ SameWords (fun a => a = A.I3C_C_STAT) s u ∧ SameMemory s u)) ∧
      (64 < v.toNat / 256 % 128 → Completes (.i3cCCmd t v) s (fun u => u.resp = .errParam ∧ u.i3c = s.i3c ∧ Keeps [] s u))) ∧
    (s.i3c.cmd = none → Completes (.i3cCTransferEnd t st l) s (fun u => u.i3c = s.i3c ∧ Keeps [] s u)) ∧
    (∀ c, s.i3c.cmd = some c →
      Completes (.i3cCTransferEnd t st l) s (fun u => u.on F.I3C_C_STAT_busy = false ∧ u.f F.I3C_C_STAT_st = st ∧
        u.i3c = { s.i3c with cmd := none } ∧
        (bitOf c 22 = true → c / 256 % 128 ≤ 64 → u.f F.I3C_C_STAT_rxlen = min (c / 256 % 128) l.length ∧
          u.i3cData.take (min (c / 256 % 128) l.length) = l.take (c / 256 % 128) ∧
          u.i3cData.drop (min (c / 256 % 128) l.length) = s.i3cData.drop (min (c / 256 % 128) l.length)) ∧
        (bitOf c 22 = false → u.rdata = (s.i3cData.take (c / 256 % 128)).map BitVec.toNat ∧ u.f F.I3C_C_STAT_rxlen = 0 ∧ SameWords (fun a => a = A.I3C_C_STAT) s u) ∧ Keeps [0x200C] s u)) ∧
    (∀ a : BitVec 7, (s.on F.I3C_C_CFG_en = true → a ≠ 2 → s.i3c.ibis.length < 16 → Completes (.i3cCIbiReceive t a l) s (fun u =>
        u.i3c = { s.i3c with ibis := s.i3c.ibis ++ [(a.toNat, l.take 3)] } ∧ u.f F.I3C_C_STAT_ibi = s.i3c.ibis.length + 1 ∧ u.resp = .ok ∧
        SameWords (fun a => a = A.I3C_C_STAT) s u ∧ SameMemory s u)) ∧
      (s.on F.I3C_C_CFG_en = false ∨ a = 2 ∨ 16 ≤ s.i3c.ibis.length → Completes (.i3cCIbiReceive t a l) s (fun u => u.resp = .nack ∧ u.i3c = s.i3c ∧ Keeps [] s u))) ∧
    (s.i3c.ibis = [] → Completes (.i3cCIbi t) s (fun u => u.rdata = [0] ∧ u.i3c = s.i3c ∧ Keeps [] s u)) ∧
    (∀ e, s.i3c.ibis.head? = some e → Completes (.i3cCIbi t) s (fun u => u.i3c = { s.i3c with ibis := s.i3c.ibis.tail } ∧
      u.rdata = [2 ^ 31 + e.1 * 2 ^ 24 + beVal ((e.2 ++ [0, 0, 0]).take 3)] ∧ SameWords (fun a => a = A.I3C_C_STAT) s u ∧ SameMemory s u))

/-- The xSPI ports (R432 to R435, R438): a command starts on an idle enabled port; its end reads, programs or erases the device it
names, or reports the failure, which in the archive marks the block bad; a device that stays busy is given up. -/
def Obligations.FlashDevicesTakeCommands : Prop :=
  ∀ (t : Nat) (x cs : Fin 2) (op : BitVec 8) (l : List Byte) (v : Word) (s : State),
    (s.on (F.XSP_STAT_busy x) = true ∨ s.on (F.XSP_CFG_en x) = false →
      Completes (.xspRead t x op cs) s (fun u => u.resp = .errState ∧ u.xsp = s.xsp ∧ Keeps [] s u) ∧
      Completes (.xspProgram t x op cs) s (fun u => u.resp = .errState ∧ u.xsp = s.xsp ∧ Keeps [] s u) ∧
      Completes (.xspErase t x op cs) s (fun u => u.resp = .errState ∧ u.xsp = s.xsp ∧ Keeps [] s u) ∧
      Completes (.xspRegisterAccess t x op cs) s (fun u => u.resp = .errState ∧ u.xsp = s.xsp ∧ Keeps [] s u)) ∧
    (s.on (F.XSP_STAT_busy x) = false → s.on (F.XSP_CFG_en x) = true →
      Completes (.xspRead t x op cs) s (fun u => u.xspRun x = some ⟨max s.tick t, 0, cs, op.toNat, s.heldValue (A.XSP_CMD x) 0, s.word (A.XSP_LEN x)⟩ ∧
        u.on (F.XSP_STAT_busy x) = true ∧ u.flash = s.flash ∧ SameWords (fun a => a = A.XSP_STAT x) s u ∧ SameMemory s u) ∧
      Completes (.xspProgram t x op cs) s (fun u => u.xspRun x = some ⟨max s.tick t, 1, cs, op.toNat, s.heldValue (A.XSP_CMD x) 0, s.word (A.XSP_LEN x)⟩ ∧
        u.on (F.XSP_STAT_busy x) = true ∧ u.flash = s.flash ∧ SameWords (fun a => a = A.XSP_STAT x) s u ∧ SameMemory s u) ∧
      Completes (.xspErase t x op cs) s (fun u => u.xspRun x = some ⟨max s.tick t, 2, cs, op.toNat, s.heldValue (A.XSP_CMD x) 0, s.word (A.XSP_LEN x)⟩ ∧
        u.on (F.XSP_STAT_busy x) = true ∧ u.flash = s.flash ∧ SameWords (fun a => a = A.XSP_STAT x) s u ∧ SameMemory s u) ∧
      Completes (.xspRegisterAccess t x op cs) s (fun u => u.xspRun x = some ⟨max s.tick t, 3, cs, op.toNat, s.heldValue (A.XSP_CMD x) 0, s.word (A.XSP_LEN x)⟩ ∧
        u.on (F.XSP_STAT_busy x) = true ∧ u.flash = s.flash ∧ SameWords (fun a => a = A.XSP_STAT x) s u ∧ SameMemory s u)) ∧
    (s.xspRun x = none → ∀ b : Bool, Completes (.xspCmdDone t x b l) s (fun u => u.flash = s.flash ∧ u.xsp = s.xsp ∧ Keeps [] s u)) ∧
    (∀ r, s.xspRun x = some r →
      Completes (.xspCmdDone t x false l) s (fun u => u.xspRun x = none ∧ u.on (F.XSP_STAT_busy x) = false ∧ u.f (F.XSP_STAT_st x) = 0 ∧
        u.xsp.badBlocks = s.xsp.badBlocks ∧ SameWords (fun a => a = A.XSP_STAT x) s u ∧ SameMemory s u ∧
        (r.kind = 0 → u.rdata = (s.flashBytes (2 * x + r.cs) r.addr r.len).map BitVec.toNat ∧ u.flash = s.flash) ∧
        (3 ≤ r.kind → u.rdata = (l.take r.len).map BitVec.toNat ∧ u.flash = s.flash) ∧
        (r.kind = 1 → u.flashBytes (2 * x + r.cs) r.addr (min r.len l.length) = l.take r.len) ∧
        (r.kind = 2 → ∀ n, n = s.eraseSize (2 * x + r.cs) → u.flashBytes (2 * x + r.cs) (r.addr / n * n) 64 = List.replicate 64 0xFF)) ∧
      (Fresh (Src.XSP_ERR x) t s → Completes (.xspCmdDone t x true l) s (fun u => u.xspRun x = none ∧ u.on (F.XSP_STAT_busy x) = false ∧
        (r.kind = 0 → u.f (F.XSP_STAT_st x) = 4 ∧ Counted (F.XSP_ERR_ecc x) s u ∧ u.flash = s.flash) ∧
        (r.kind = 1 → u.f (F.XSP_STAT_st x) = 2 ∧ Counted (F.XSP_ERR_prog x) s u) ∧
        (r.kind = 2 → u.f (F.XSP_STAT_st x) = 3 ∧ Counted (F.XSP_ERR_erase x) s u ∧ u.flash = s.flash) ∧
        (1 ≤ r.kind → r.kind ≤ 2 → x = 1 → r.cs = 0 → r.addr / s.eraseSize 2 ∈ u.xsp.badBlocks) ∧
        (r.kind ≤ 2 → Raised (Src.XSP_ERR x) x s u) ∧ SameMemory s u)) ∧
      (r.start + State.ms (s.f (F.XSP_CFG_tmo_ms x)) ≤ max s.tick t → Fresh (Src.XSP_ERR x) t s → Completes (.xspBusyTimeout t x) s (fun u =>
        u.xspRun x = none ∧ u.on (F.XSP_STAT_busy x) = false ∧ u.f (F.XSP_STAT_st x) = 1 ∧ Counted (F.XSP_ERR_tmo x) s u ∧
        Raised (Src.XSP_ERR x) x s u ∧ u.flash = s.flash ∧ SameMemory s u)) ∧
      (max s.tick t < r.start + State.ms (s.f (F.XSP_CFG_tmo_ms x)) → Completes (.xspBusyTimeout t x) s (fun u => u.xsp = s.xsp ∧ Keeps [] s u))) ∧
    (bitOf v.toNat 0 = true → Completes (.xspClr t v) s (fun u => (∀ y : Fin 2, u.word (A.XSP_ERR y) = 0 ∧ u.f (F.XSP_STAT_bad y) = 0) ∧
      u.f F.XSP_STATUS_sat = 0 ∧ u.xsp = s.xsp ∧ Keeps [0x200D] s u)) ∧
    (bitOf v.toNat 0 = false → Completes (.xspClr t v) s (fun u => u.xsp = s.xsp ∧ Keeps [] s u))

/-! ### The pair (R439 to R456) -/

/-- Melhan frames (R441 to R446, R449, R450, R454): a frame out of sequence is dropped, set aside or ignored; the next in sequence is
applied, on a secondary to its mirrored state, as its type says. -/
def Obligations.MelhanFramesAreReceived : Prop :=
  ∀ (t : Nat) (h : MlHdr) (n : Fin 1024) (hist : DWord) (w : Fin 6 → Word) (fid : Word) (s : State),
    (∀ (st : Word) (c : BitVec 16) (k : DecCounts) (b2 b3 : Bool),
      OutOfSequence (exec (.decision t h n fid st c hist k b2 b3) s) t h (.decision n fid.toNat st.toNat c.toNat hist.toNat k b2 b3) s ∧
      (InSequence t h s → s.isSecondary = true → k.doubt = false → Completes (.decision t h n fid st c hist k false false) s (fun u => Applied h u ∧
        u.f (F.VD_LATE_count n) = min (s.f (F.VD_LATE_count n) + k.late) (2 ^ (F.VD_LATE_count n).width - 1) ∧
        u.f (F.VD_REJ_rej n) = min (s.f (F.VD_REJ_rej n) + k.rej) (2 ^ (F.VD_REJ_rej n).width - 1) ∧
        u.word (A.VD_CTX_STATE n) = st.toNat &&& 0xFFF8FF83 ∧ u.dword (A.VD_CTX_HIST n) = hist.toNat % 2 ^ s.f (F.VD_CTX_THR_n n) ∧ u.f (F.VD_CTX_CAUSE_last n) = c.toNat ∧
        (∀ f ∈ u.frms n, f.fid ≠ fid.toNat)))) ∧
    (∀ x : MlState, OutOfSequence (exec (.state t h x) s) t h (.state x) s) ∧
    (InSequence t h s → s.isSecondary = true →
      (∀ b : Bool, Completes (.state t h (.ctx n.val (w 0).toNat (w 1).toNat hist.toNat (w 2).toNat (w 3).toNat (w 4).toNat (w 5).toNat b)) s (fun u => Applied h u ∧
          u.word (A.VD_CTX_STATE n) = (w 0).toNat &&& 0xFFF8FF83 ∧ u.word (A.VD_CTX_CAUSE n) = (w 1).toNat ∧
          u.dword (A.VD_CTX_HIST n) = hist.toNat % 2 ^ s.f (F.VD_CTX_THR_n n) ∧
          u.word (A.VD_DOUBT n) = (w 2).toNat ∧ u.word (A.VD_LATE n) = (w 3).toNat ∧ u.word (A.VD_GAP n) = (w 4).toNat ∧
          u.f (F.VD_REJ_rej n) = (w 5).toNat / 2 ^ 16 ∧ SameMemory s u)) ∧
      (∀ (a : Fin 4) (stat : Word) (r p : Bool) (ph : Fin 3), Completes (.state t h (.acc a.val stat.toNat r p ph.val)) s (fun u => Applied h u ∧
        u.word (A.VD_ACC_STAT a) = stat.toNat &&& 0xFFFFFF03 ∧ u.on (F.SIO_ACC_STAT_rst a) = r ∧ u.on (F.SIO_ACC_STAT_pwr a) = p ∧
        Table.get (fun _ => 0) u.ml.mirSeq a = ph ∧ SameMemory s u)) ∧
      (∀ m : Word, Completes (.state t h (.sout n.val m.toNat)) s (fun u => Applied h u ∧
        Table.get (fun _ => 0) u.soutReq n = m.toNat ∧ SameMemory s u)) ∧
      Completes (.state t h .copyEnd) s (fun u => Applied h u ∧ u.on F.ML_STATUS_sync = true ∧ Keeps [0x2009, 0x200E] s u)) ∧
    (∀ (a : Word) (e : BitVec 16), OutOfSequence (exec (.keys t h n a e) s) t h (.keys n a.toNat e.toNat) s ∧
      (InSequence t h s → s.isSecondary = true → Completes (.keys t h n a e) s (fun u => Applied h u ∧ u.word (A.VD_ADMIT n) = a.toNat ∧
        u.f (F.EV_CTX_KEY_epoch n) = e.toNat ∧ SameMemory s u))) ∧
    (∀ ns : DWord, OutOfSequence (exec (.time t h ns) s) t h (.time ns.toNat) s ∧
      (InSequence t h s → s.isSecondary = true → s.on F.ML_CFG_tsrc = true → (s.start t).tm.replicas = s.tm.replicas →
        Fresh Src.TM_SERVO t s → Completes (.time t h ns) s (fun u => Applied h u ∧
          u.dword A.TM_SERVO_E = unsigned 64 ((((s.start t).time : Int) - h.time.toNat) * 65536 - s.f F.ML_RTT_ns * 32768) ∧ SameMemory s u)) ∧
      (InSequence t h s → s.isSecondary = false ∨ s.on F.ML_CFG_tsrc = false → Completes (.time t h ns) s (fun u => Applied h u ∧
        Keeps [0x2009, 0x200E] s u))) ∧
    (∀ (p : Fin 16) (stamp : DWord), OutOfSequence (exec (.frame t h p fid stamp) s) t h (.frame p fid.toNat stamp.toNat) s ∧
      (InSequence t h s → s.isSecondary = true →
        s.ml.frames = [] →
        (fid.toNat % 65536 = 0 ∨ ((s.cinP p).recent = [] ∧ 100000 < State.stampDiff (s.start t).time stamp.toNat) →
          Completes (.frame t h p fid stamp) s (fun u => Applied h u ∧ Counted F.ML_CNT1_align s u ∧ u.ml.frames = [] ∧ Keeps [0x2009, 0x200E] s u)) ∧
        (fid.toNat % 65536 ≠ 0 → (s.cinP p).recent = [] → State.stampDiff (s.start t).time stamp.toNat ≤ 100000 →
          Completes (.frame t h p fid stamp) s (fun u => Applied h u ∧ u.ml.frames = [(p.val, fid.toNat, stamp.toNat)] ∧
            u.f F.ML_CNT1_align = s.f F.ML_CNT1_align ∧ Keeps [0x2009, 0x200E] s u)) ∧
        (∀ r, (s.cinP p).recent = [r] → (fid.toNat % 65536 ≠ 0 ∧ r.2.2.2 ≤ stamp.toNat + 100000 ∧ stamp.toNat ≤ r.2.2.2 + 100000) →
          Completes (.frame t h p fid stamp) s (fun u => Applied h u ∧ (∃ r', (u.cinP p).recent = [r'] ∧ frameId r'.1 = fid.toNat ∧ r'.2 = r.2) ∧
            u.f F.ML_CNT1_align = s.f F.ML_CNT1_align ∧ SameMemory s u)))) ∧
    (∀ x : MlLog, OutOfSequence (exec (.log t h x) s) t h (.log x) s) ∧
    (InSequence t h s → Calm s → ∀ base, base = s.dword A.ML_MIR_BASE →
      (∀ (k : Nat) (l : List Byte), l.length = 64 → s.spanFault (base + 0x10000 + 64 * (k % 32)) 64 true State.ownMaster = none → Completes (.log t h (.record k l)) s (fun u => Applied h u ∧
        u.bytes (base + 0x10000 + 64 * (k % 32)) 64 = l ∧ SameMemoryBut (base + 0x10000 + 64 * (k % 32)) 64 s u ∧
        SameWords (InBlocks [0x2009, 0x200E]) s u)) ∧
      (∀ w c : BitVec 8, s.spanFault (base + 0x10800 + w.toNat % 16) 1 true State.ownMaster = none → Completes (.log t h (.watch w.toNat c.toNat)) s (fun u => Applied h u ∧
        u.memVal (base + 0x10800 + w.toNat % 16) 1 = c.toNat ∧ SameMemoryBut (base + 0x10800 + w.toNat % 16) 1 s u)) ∧
      (∀ (k : BitVec 8) (n : BitVec 16), s.memVal base 4 = 0 → s.spanFault base 8 true State.ownMaster = none → Completes (.log t h (.fallow k.toNat n.toNat true)) s (fun u => Applied h u ∧
        u.memVal base 4 = 1 ∧ u.memVal (base + 4) 4 = k.toNat + 65536 * n.toNat ∧ SameMemoryBut base 8 s u)) ∧
      (∀ (o : BitVec 20) (l : List Byte), o.toNat + l.length ≤ 0xE0000 →
        s.spanFault (base + 0x20000 + o.toNat) l.length true State.ownMaster = none → Completes (.bulk t h o l) s (fun u => Applied h u ∧
        u.bytes (base + 0x20000 + o.toNat) l.length = l ∧ SameMemoryBut (base + 0x20000 + o.toNat) l.length s u))) ∧
    (∀ (o : BitVec 20) (l : List Byte), OutOfSequence (exec (.bulk t h o l) s) t h (.bulk o.toNat l) s) ∧
    (∀ l : List (Nat × Nat), OutOfSequence (exec (.handOver t h l) s) t h (.handOver l) s ∧
      (InSequence t h s → s.isSecondary = true → s.f F.SYS_SVC_level = 1 → s.on F.ML_STATUS_link = true →
        Completes (.handOver t h l) s (fun u => Applied h u ∧ u.f F.ML_STATUS_role = 1 ∧ Counted F.ML_CNT1_takeover s u ∧ u.ml.mirSeq = []))) ∧
    (∀ l : List Nat, (s.ml.out = [] → s.ml.handOver = none → s.ml.resetAfter = none → OutOfSequence (exec (.ack t h l) s) t h (.ack l) s) ∧
      (InSequence t h s →
        (s.ml.handOver = none → s.ml.resetAfter = none → Completes (.ack t h l) s (fun u => Applied h u ∧ u.ml.out = s.ml.out.filter (fun x => !l.contains x.seq) ∧
          u.f F.ML_STATUS_role = s.f F.ML_STATUS_role ∧ Keeps [0x2009, 0x200E] s u)) ∧
        (s.ml.handOver.isSome = true → (s.ml.out.any (fun x => l.contains x.seq && State.isHandOver x.msg)) = true →
          (s.ml.resetAfter = none → NoTakeover s → Completes (.ack t h l) s (fun u =>
            Applied h u ∧ u.ml.handOver = none ∧ u.f F.ML_STATUS_role = 2 ∧ Counted F.ML_CNT1_handover s u ∧ SameMemory s u)) ∧
          (∀ c, s.ml.resetAfter = some c → Completes (.ack t h l) s (fun u =>
            u.ret 0x40 = c ∧ u.ret 0x44 = c ∧ u.fc = Fc.reset ∧ u.boot = Boot.reset ∧ u.f F.SYS_SVC_level = 0))))) ∧
    (∀ (e : Word) (a : DWord), (s.mlUp = false → Completes (.heartbeat t h e a) s (fun u => u.ml = s.ml ∧ Keeps [] s u)) ∧
      (InSequence t h s → Completes (.heartbeat t h e a) s (fun u => Applied h u ∧ u.on F.ML_STATUS_hb_lost = false ∧ u.ml.misses = 0 ∧
        u.ml.hbTick = some (max s.tick t) ∧
        (s.ml.hbLog = [] → u.f F.ML_RTT_ns = s.f F.ML_RTT_ns) ∧ Keeps [0x2009, 0x200E] s u)))

/-- Links and roles (R440, R442, R444, R448 to R450, R452, R454, R456): a taken partner fault, a lost acknowledgement, a trained link, missed
heartbeats, the arbitration's wait and a hand-over, also one that a warm reset waits for, do what their rules say, each to ML_STATUS and
its counts; the number from which a trained link expects frames is the model's choice (log 158). -/
def Obligations.PairKeepsItsRoles : Prop :=
  ∀ (t : Nat) (h : MlHdr) (v : Word) (s : State),
    (s.on F.ML_STATUS_pfn = true → Completes (.partnerFault t) s (fun u => u.ml = s.ml ∧ Keeps [] s u)) ∧
    (s.on F.ML_STATUS_pfn = false → Fresh Src.PARTNER_FAULT t s →
      (s.isSecondary = false ∨ s.on F.ML_STATUS_hb_lost = false ∨ s.f F.SYS_SVC_level ≠ 1 → s.f F.ML_STATUS_role ≠ 3 → Healthy s →
        Completes (.partnerFault t) s (fun u => u.on F.ML_STATUS_pfn = true ∧ Raised Src.PARTNER_FAULT 0 s u ∧
          u.f F.ML_STATUS_role = s.f F.ML_STATUS_role ∧ SameMemory s u)) ∧
      (s.isSecondary = true → s.on F.ML_STATUS_hb_lost = true → s.f F.SYS_SVC_level = 1 →
        Completes (.partnerFault t) s (fun u => u.on F.ML_STATUS_pfn = true ∧ Raised Src.PARTNER_FAULT 0 s u ∧
          u.f F.ML_STATUS_role = 1 ∧ Counted F.ML_CNT1_takeover s u))) ∧
    Completes (.partnerFaultRelease t) s (fun u => u.on F.ML_STATUS_pfn = false ∧ SameWords (fun a => a = A.ML_STATUS) s u ∧ SameMemory s u) ∧
    (∀ x, s.ml.out.head? = some x → ∀ q : Word, q.toNat = x.seq →
      (max s.tick t < x.sentTick + 125 → Completes (.mlResend t q) s (fun u => u.ml = s.ml ∧ Keeps [] s u)) ∧
      (x.sentTick + 125 ≤ max s.tick t → x.sends < 3 → Completes (.mlResend t q) s (fun u => Counted F.ML_CNT0_resend s u ∧
        u.rdata = (mlBytes x).map BitVec.toNat ∧
        u.ml.out.head? = some { x with sends := x.sends + 1, sentTick := max s.tick t } ∧ Keeps [0x2009, 0x200E] s u)) ∧
      (x.sentTick + 125 ≤ max s.tick t → 3 ≤ x.sends → Fresh Src.ML_LINK t s → Completes (.mlResend t q) s (fun u =>
        u.on F.ML_STATUS_link = false ∧ u.on F.ML_STATUS_sync = false ∧ u.ml.out = [] ∧ u.ml.expect = none ∧ Raised Src.ML_LINK 0 s u))) ∧
    (s.ml.out = [] → Completes (.mlResend t v) s (fun u => u.ml = s.ml ∧ Keeps [] s u)) ∧
    (s.on F.ML_CTRL_en = false ∨ s.on F.ML_STATUS_link = true → Completes (.mlLinkUp t h) s (fun u => u.ml = s.ml ∧ Keeps [] s u)) ∧
    (s.on F.ML_CTRL_en = true → s.on F.ML_STATUS_link = false →
      NoTakeover s →
      (s.f F.ML_STATUS_role = 3 → h.role = 1 → Completes (.mlLinkUp t h) s (fun u => u.on F.ML_STATUS_link = true ∧ u.f F.ML_STATUS_role = 2 ∧
        u.f F.ML_PARTNER_role = 1 ∧ u.ml.expect = some h.seq.toNat ∧ SameMemory s u)) ∧
      (s.f F.ML_STATUS_role = 3 → h.role ≠ 1 → s.on F.SYS_STRAP_pair_role ≠ h.strap → s.f F.SYS_SVC_level ≠ 2 → Completes (.mlLinkUp t h) s (fun u =>
        u.on F.ML_STATUS_link = true ∧ u.ml.expect = some h.seq.toNat ∧ SameMemory s u ∧
        u.f F.ML_STATUS_role = (if s.on F.SYS_STRAP_pair_role = true ∨ (s.f F.SYS_SVC_level = 1 ∧ h.level = 2) then 1 else 2))) ∧
      (s.f F.ML_STATUS_role = 1 → h.role = 1 → s.on F.SYS_STRAP_pair_role ≠ h.strap → Completes (.mlLinkUp t h) s (fun u =>
        u.f F.ML_STATUS_role = (if s.on F.SYS_STRAP_pair_role = true then 1 else 2) ∧ u.ml.expect = some h.seq.toNat ∧ SameMemory s u))) ∧
    (s.mlUp = true → s.f F.SYS_SVC_level = 1 → s.ml.hbSent + 25000 ≤ max s.tick t → Completes (.heartbeatSend t) s (fun u =>
      u.ml.nextSeq = (s.ml.nextSeq + 1) % 2 ^ 32 ∧ u.ml.hbSent = max s.tick t ∧ u.ml.out = s.ml.out ∧
      u.rdata = (mlBytes ((s.start t).mlFrame (.heartbeat s.ml.hbPeer.1 s.ml.hbPeer.2))).map BitVec.toNat ∧ Keeps [0x2009] s u)) ∧
    (s.mlUp = false ∨ max s.tick t < s.ml.hbSent + 25000 → Completes (.heartbeatSend t) s (fun u => u.ml = s.ml ∧ Keeps [] s u)) ∧
    (s.ml.hbTick = none ∨ s.on F.ML_CTRL_en = false → Completes (.heartbeatMiss t) s (fun u => u.ml = s.ml ∧ Keeps [] s u)) ∧
    (∀ k, s.ml.hbTick = some k → s.on F.ML_CTRL_en = true →
      (max s.tick t < k + 25000 → Completes (.heartbeatMiss t) s (fun u => u.ml = s.ml ∧ Keeps [] s u)) ∧
      (k + 25000 ≤ max s.tick t → s.ml.misses < 2 → s.gs.ended = [] → s.on F.ML_STATUS_hb_lost = false →
        Completes (.heartbeatMiss t) s (fun u => u.ml = { s.ml with hbTick := some (k + 25000), misses := s.ml.misses + 1 } ∧ Keeps [] s u)) ∧
      (k + 25000 ≤ max s.tick t → s.ml.misses = 2 → Fresh Src.ML_HB t s → Completes (.heartbeatMiss t) s (fun u =>
        u.on F.ML_STATUS_hb_lost = true ∧ u.ml.misses = 3 ∧ Counted F.ML_CNT1_hbmiss s u ∧ Raised Src.ML_HB 0 s u ∧
        (s.isSecondary = true → s.f F.SYS_SVC_level = 1 → s.on F.ML_STATUS_pfn = true →
          u.f F.ML_STATUS_role = 1 ∧ Counted F.ML_CNT1_takeover s u)))) ∧
    (s.mlUp = true → s.leads = true → s.ml.timeSent + State.ms 1 ≤ max s.tick t → Completes (.timeSend t) s (fun u =>
      u.ml.timeSent = max s.tick t ∧ (u.ml.out.any (fun x => x.msg == .time (s.start t).time)) = true ∧ Keeps [0x2009] s u)) ∧
    (s.mlUp = false ∨ s.leads = false ∨ max s.tick t < s.ml.timeSent + State.ms 1 → Completes (.timeSend t) s (fun u => u.ml = s.ml ∧ Keeps [] s u)) ∧
    (s.on F.ML_CTRL_en = true → s.f F.ML_STATUS_role = 3 → s.on F.ML_STATUS_link = false → ∀ k, s.ml.arbStart = some k →
      (k + State.ms (s.f F.ML_CFG_wait_ms) ≤ max s.tick t → s.on F.SYS_STRAP_pair_role = true ∨ s.on F.ML_STATUS_pfn = true →
        Completes (.arbitrationWaitExpire t) s (fun u => u.f F.ML_STATUS_role = 1 ∧ Keeps [0x200E] s u)) ∧
      (max s.tick t < k + State.ms (s.f F.ML_CFG_wait_ms) ∨ (s.on F.SYS_STRAP_pair_role = false ∧ s.on F.ML_STATUS_pfn = false) →
        Completes (.arbitrationWaitExpire t) s (fun u => u.ml = s.ml ∧ Keeps [] s u))) ∧
    (s.f F.ML_STATUS_role ≠ 3 → (s.isSecondary = true → NoTakeover s) → Completes (.arbitrationWaitExpire t) s (fun u => u.ml = s.ml ∧ Keeps [] s u)) ∧
    (s.ml.handOver.isSome = true → Completes (.mlCmdHandOver t) s (fun u => u.resp = .stBusy ∧ u.f F.ML_STATUS_st = 0x01 ∧ u.ml = s.ml ∧
      SameWords (fun a => a = A.ML_STATUS) s u ∧ SameMemory s u)) ∧
    (s.ml.handOver = none → s.mayHandOver = true → Completes (.mlCmdHandOver t) s (fun u => u.resp = .ok ∧ u.f F.ML_STATUS_st = 0 ∧
      u.ml.handOver = some (max s.tick t) ∧ (u.ml.out.any (fun x => State.isHandOver x.msg)) = true ∧ Keeps [0x2009, 0x200E] s u)) ∧
    (s.ml.handOver = none → s.mayHandOver = false → Completes (.mlCmdHandOver t) s (fun u => u.resp = .errState ∧ u.f F.ML_STATUS_st = 0x10 ∧
      u.ml = s.ml ∧ SameWords (fun a => a = A.ML_STATUS) s u ∧ SameMemory s u)) ∧
    (∀ k, s.ml.handOver = some k →
      (k + State.us 10 ≤ max s.tick t →
        (s.f F.SYS_SVC_level ≠ 2 → s.ml.resetAfter = none → Completes (.handOverTimeout t) s (fun u => u.ml = { s.ml with handOver := none } ∧
          u.f F.ML_STATUS_st = 0x10 ∧ SameWords (fun a => a = A.ML_STATUS) s u ∧ SameMemory s u)) ∧
        (s.f F.SYS_SVC_level = 2 → Completes (.handOverTimeout t) s (fun u => u.ml.handOver = none ∧ u.f F.ML_STATUS_st = 0x10 ∧ SameMemory s u)) ∧
        (∀ c, s.f F.SYS_SVC_level ≠ 2 → s.ml.resetAfter = some c → Completes (.handOverTimeout t) s (DeviceReset true c s))) ∧
      (max s.tick t < k + State.us 10 → Completes (.handOverTimeout t) s (fun u => u.ml = s.ml ∧ Keeps [] s u))) ∧
    (s.mlUp = true → s.f F.ML_STATUS_role = 1 → Completes (.resync t) s (fun u => u.f F.ML_STATUS_st = 0 ∧
      (u.ml.out.any (fun x => x.msg == .state .copyEnd)) = true ∧ Keeps [0x2009, 0x200E] s u)) ∧
    (s.mlUp = false ∨ s.f F.ML_STATUS_role ≠ 1 → Completes (.resync t) s (fun u => u.f F.ML_STATUS_st = 0 ∧ u.ml = s.ml ∧
      SameWords (fun a => a = A.ML_STATUS) s u ∧ SameMemory s u)) ∧
    (bitOf v.toNat 0 = true → Completes (.mlClr t v) s (fun u => u.word A.ML_CNT0 = 0 ∧ u.word A.ML_CNT1 = 0 ∧ u.on F.ML_STATUS_lag = false ∧
      u.on F.ML_STATUS_sat = false ∧ u.ml = s.ml ∧ Keeps [0x200E] s u)) ∧
    (bitOf v.toNat 0 = false → Completes (.mlClr t v) s (fun u => u.ml = s.ml ∧ Keeps [] s u))

/-! ### Provisioning, keys and random numbers (R457 to R459, R469 to R481) -/

/-- Provisioning and the way out of FIELD (R457 to R459, R480, R481): in MANUF a field is programmed from SEC_PROV_DATA (the bits of an
open field add to those it has, log 30), PROV_ID draws idseed and LOCK enters FIELD; in FIELD a challenge is drawn and a good
token ends in RETURN, with a chip reset 2 µs later; otherwise the refusal stands in SEC_PROV_STAT.st. -/
def Obligations.DeviceIsProvisioned : Prop :=
  ∀ (t : Nat) (s : State),
    (∀ k : BitVec 8,
      (s.life ≠ 0 → Completes (.program t k) s (fun u => u.resp = .errState ∧ u.f F.SEC_PROV_STAT_st = 0x10 ∧ u.sec = s.sec ∧
        SameWords (fun a => a = A.SEC_PROV_STAT) s u ∧ SameMemory s u)) ∧
      (s.life = 0 → k.toNat = 0 ∨ k.toNat = 10 ∨ 14 < k.toNat → Completes (.program t k) s (fun u => u.resp = .errParam ∧
        u.f F.SEC_PROV_STAT_st = 0x11 ∧ u.sec = s.sec ∧ SameWords (fun a => a = A.SEC_PROV_STAT) s u ∧ SameMemory s u)) ∧
      (s.life = 0 → k.toNat ≠ 0 → k.toNat ≠ 10 → k.toNat ≤ 14 →
        (s.fuse k.toNat = [] ∨ fuseSecret k.toNat = false → Completes (.program t k) s (fun u =>
          u.fuse k.toNat = (if s.fuse k.toNat = [] then s.fuseData k.toNat
            else leBytes (fuseWidth k.toNat) (leVal (s.fuse k.toNat) ||| leVal (s.fuseData k.toNat))) ∧
          (∀ j : Fin 16, j.val ≠ k.toNat → u.fuse j = s.fuse j) ∧ u.f F.SEC_PROV_STAT_st = 0 ∧ u.resp = .ok ∧
          SameWords (fun a => a = A.SEC_PROV_STAT) s u ∧ SameMemory s u)) ∧
        (fuseSecret k.toNat = true → s.fuse k.toNat ≠ [] → Completes (.program t k) s (fun u => u.resp = .errState ∧
          u.f F.SEC_PROV_STAT_st = 0x10 ∧ u.sec = s.sec ∧ SameMemory s u)))) ∧
    (s.life = 0 → s.drbgStopped = false → s.fuse 10 = [] → Completes (.provId t) s (fun u => (u.fuse 10).length = 48 ∧
      (∀ j : Fin 16, j.val ≠ 10 → u.fuse j = s.fuse j) ∧ u.f F.SEC_PROV_STAT_st = 0 ∧ u.sec.requests = s.sec.requests + 1 ∧
      SameWords (fun a => a = A.SEC_PROV_STAT) s u ∧ SameMemory s u)) ∧
    (s.life ≠ 0 ∨ s.drbgStopped = true ∨ s.fuse 10 ≠ [] → Completes (.provId t) s (fun u => u.resp = .errState ∧ u.sec = s.sec ∧
      SameWords (fun a => a = A.SEC_PROV_STAT) s u ∧ SameMemory s u)) ∧
    (s.life = 0 → (∀ k ∈ [1, 2, 3, 4, 5, 6, 9, 10, 11, 12, 13, 14], s.fuse k ≠ []) → Completes (.lock t) s (fun u => u.life = 0x5A ∧
      u.f F.SEC_STATUS_life = 0x5A ∧ u.f F.SEC_PROV_STAT_st = 0 ∧ (∀ j : Fin 16, j ≠ 0 → u.fuse j = s.fuse j) ∧ Keeps [0x200F] s u)) ∧
    (s.life ≠ 0 ∨ s.fuse 9 = [] ∨ s.fuse 10 = [] ∨ s.fuse 14 = [] → Completes (.lock t) s (fun u => u.resp = .errState ∧ u.sec = s.sec ∧
      SameWords (fun a => a = A.SEC_PROV_STAT) s u ∧ SameMemory s u)) ∧
    (s.life = 0x5A → s.drbgStopped = false → Calm s → s.spanFault (s.dword A.SEC_AJOB_ADDR) 32 true State.ownMaster = none → Completes (.challenge t) s (fun u => (∃ l, u.sec.retChallenge = some l ∧ l.length = 32 ∧
        u.bytes (s.dword A.SEC_AJOB_ADDR) 32 = l) ∧ SameMemoryBut (s.dword A.SEC_AJOB_ADDR) 32 s u ∧ u.f F.SEC_PROV_STAT_st = 0 ∧
      SameWords (fun a => a = A.SEC_PROV_STAT) s u)) ∧
    (s.life ≠ 0x5A ∨ s.drbgStopped = true → Completes (.challenge t) s (fun u => u.resp = .errState ∧ u.sec = s.sec ∧
      SameWords (fun a => a = A.SEC_PROV_STAT) s u ∧ SameMemory s u)) ∧
    (s.life = 0x5A → s.sec.retChallenge.isSome = true →
      (s.fuse 9 ≠ [] → Completes (.returnToken t true) s (fun u => u.life = 0xA5 ∧ u.f F.SEC_STATUS_life = 0xA5 ∧
        u.sec.retChallenge = none ∧ u.sec.returnDue = some (max s.tick t + State.us 2) ∧ u.f F.SEC_PROV_STAT_st = 0 ∧ Keeps [0x200F] s u)) ∧
      (Fresh Src.SEC_AUTH t s → Completes (.returnToken t false) s (fun u => u.life = 0x5A ∧ u.sec.retChallenge = none ∧
        u.resp = .errDenied ∧ u.f F.SEC_PROV_STAT_st = 0x13 ∧ Raised Src.SEC_AUTH 0 s u ∧ SameMemory s u))) ∧
    (∀ b : Bool, s.life ≠ 0x5A ∨ s.sec.retChallenge = none → Completes (.returnToken t b) s (fun u => u.resp = .errState ∧ u.sec = s.sec ∧
      SameWords (fun a => a = A.SEC_PROV_STAT) s u ∧ SameMemory s u)) ∧
    (∀ d, s.sec.returnDue = some d → d ≤ max s.tick t → Completes (.lifecycleReturnReset t) s (DeviceReset false 0x23 s)) ∧
    (s.sec.returnDue = none → Completes (.lifecycleReturnReset t) s (fun u => u.sec = s.sec ∧ Keeps [] s u))

/-- Key epochs, the archive's keys and page jobs, and the random source (R435, R470 to R472, R475 to R479, R481). -/
def Obligations.KeysAndPagesAreHeld : Prop :=
  ∀ (t : Nat) (n : Fin 1024) (v : Word) (s : State),
    (s.enabled.contains n.val = false → Completes (.keyEpoch t false n) s (fun u => u.f F.SEC_KSTAT_st = 0x11 ∧ u.ctx n = s.ctx n ∧
      SameWords (fun a => a = A.SEC_KSTAT) s u ∧ SameMemory s u)) ∧
    (s.enabled.contains n.val = true → s.trust n ≠ 0 → (s.ctx n).change = .none →
      (s.f (F.EV_CTX_KEY_epoch n) ≠ 0xFFFF → Completes (.keyEpoch t false n) s (fun u => u.f F.SEC_KSTAT_st = 0 ∧
        (u.ctx n).change = (match (s.ctx n).old with
          | .none => .made (max s.tick t)
          | .spent k => .made (max (max s.tick t) (k + 1))
          | _ => .held) ∧
        u.on (F.EV_CTX_KEY_held n) = (match (s.ctx n).old with
          | .none => false
          | .spent k => decide (max s.tick t < k + 1)
          | _ => true) ∧ Keeps [0x2006, 0x200F] s u)) ∧
      (s.f (F.EV_CTX_KEY_epoch n) = 0xFFFF → Completes (.keyEpoch t false n) s (fun u => u.f F.SEC_KSTAT_st = 0x10 ∧
        Counted F.SEC_KSTAT_exh s u ∧ u.ctx n = s.ctx n ∧ Keeps [0x200F] s u))) ∧
    (s.enabled = [] → Completes (.keyEpoch t true n) s (fun u => u.f F.SEC_KSTAT_st = 0 ∧ SameWords (fun a => a = A.SEC_KSTAT) s u ∧ SameMemory s u)) ∧
    (s.enabled = [n.val] → s.trust n ≠ 0 → (s.ctx n).change = .none → (s.ctx n).old = .none → s.f (F.EV_CTX_KEY_epoch n) ≠ 0xFFFF →
      Completes (.keyEpoch t true n) s (fun u => u.f F.SEC_KSTAT_st = 0 ∧ (u.ctx n).change = .made (max s.tick t) ∧ Keeps [0x2006, 0x200F] s u)) ∧
    (s.f F.SEC_VEPOCH_epoch ≠ 0xFFFF → Completes (.verdictEpoch t) s (fun u => u.f F.SEC_VEPOCH_epoch = s.f F.SEC_VEPOCH_epoch + 1 ∧
      u.f F.SEC_KSTAT_st = 0 ∧ SameWords (fun a => a = A.SEC_VEPOCH ∨ a = A.SEC_KSTAT) s u ∧ SameMemory s u)) ∧
    (s.f F.SEC_VEPOCH_epoch = 0xFFFF → Completes (.verdictEpoch t) s (fun u => u.f F.SEC_KSTAT_st = 0x10 ∧ u.sec = s.sec ∧
      SameWords (fun a => a = A.SEC_KSTAT) s u ∧ SameMemory s u)) ∧
    (s.on F.SEC_ASTAT_old_valid = false → s.f F.SEC_ASTAT_epoch ≠ 0xFFFF → Completes (.rotate t) s (fun u =>
      u.f F.SEC_ASTAT_epoch = s.f F.SEC_ASTAT_epoch + 1 ∧ u.on F.SEC_ASTAT_old_valid = true ∧ u.on F.SEC_ASTAT_sweep = true ∧
      u.sec.oldEpoch = s.f F.SEC_ASTAT_epoch ∧ u.resp = .ok ∧
      (∀ j, s.sec.job = some j → j.decrypt = true → j.epoch = s.f F.SEC_ASTAT_epoch → u.f F.SEC_ASTAT_reads = 1) ∧ Keeps [0x200F] s u)) ∧
    ((s.on F.SEC_ASTAT_old_valid = true ∧ s.on F.SEC_ASTAT_sweep = true) ∨ s.f F.SEC_ASTAT_epoch = 0xFFFF → Completes (.rotate t) s (fun u => u.resp = .errState ∧
      u.f F.SEC_ASTAT_epoch = s.f F.SEC_ASTAT_epoch ∧ Keeps [0x200F] s u)) ∧
    (s.on F.SEC_ASTAT_sweep = true → Completes (.sweepDone t) s (fun u => u.on F.SEC_ASTAT_sweep = false ∧
      u.on F.SEC_ASTAT_old_valid = s.on F.SEC_ASTAT_old_valid ∧ u.sec.zeroAt = max s.tick t + 1 ∧ u.resp = .ok ∧ Keeps [0x200F] s u)) ∧
    (s.on F.SEC_ASTAT_sweep = false → Completes (.sweepDone t) s (fun u => u.resp = .errState ∧ Keeps [0x200F] s u)) ∧
    (∀ d : Bool, (s.sec.job.isSome = true → Completes (.pageJobStart t d) s (fun u => u.resp = .errState ∧ u.sec.job = s.sec.job ∧ Keeps [0x200F] s u)) ∧
      (s.sec.job = none → s.sec.rotTick ≠ max s.tick t + 1 → Completes (.pageJobStart t d) s (fun u => u.on F.SEC_AJOB_go = true ∧ u.on F.SEC_AJOB_dir = d ∧
        u.sec.job = some ⟨d, if d then s.memVal (s.dword A.SEC_AJOB_ADDR + 4096) 2 else s.f F.SEC_ASTAT_epoch, s.dword A.SEC_AJOB_ADDR,
          max s.tick t + State.us 12⟩ ∧ Keeps [0x200F] s u))) ∧
    (s.sec.job = none → Completes (.pageJobEnd t 0) s (fun u => u.sec = s.sec ∧ Keeps [] s u)) ∧
    (∀ j, s.sec.job = some j → PlainRead State.ownMaster j.base 4112 s →
      (j.decrypt = false → s.spanFault j.base 4110 true State.ownMaster = none → Completes (.pageJobEnd t 0) s (fun u => u.sec.job = none ∧ u.on F.SEC_AJOB_go = false ∧ u.f F.SEC_AJOB_st = 0 ∧
        u.bytes j.base 4080 = gcmCrypt (s.archiveKey j.epoch) (State.pageIv j.epoch (s.memVal (j.base + 4098) 8)) (s.bytes j.base 4080) ∧
        u.bytes (j.base + 4080) 16 = Config.gcmTag (s.archiveKey j.epoch) (State.pageIv j.epoch (s.memVal (j.base + 4098) 8))
          (leBytes 2 j.epoch ++ leBytes 8 (s.memVal (j.base + 4098) 8)) (u.bytes j.base 4080) ∧
        u.memVal (j.base + 4096) 2 = j.epoch % 65536 ∧ u.memVal (j.base + 4106) 4 = crc32c (u.bytes j.base 4096) ∧
        SameMemoryBut j.base 4110 s u ∧ SameWords (InBlocks [0x2009, 0x200F]) s u)) ∧
      (j.decrypt = true → j.epoch ≠ s.f F.SEC_ASTAT_epoch → s.on F.SEC_ASTAT_old_valid = false → Completes (.pageJobEnd t 0) s (fun u =>
        u.sec.job = none ∧ u.on F.SEC_AJOB_go = false ∧ u.f F.SEC_AJOB_st = 2 ∧ SameMemory s u)) ∧
      (j.decrypt = true → j.epoch = s.f F.SEC_ASTAT_epoch →
        Config.gcmTag (s.archiveKey j.epoch) (State.pageIv j.epoch (s.memVal (j.base + 4098) 8)) (s.bytes (j.base + 4096) 10) (s.bytes j.base 4080) =
          s.bytes (j.base + 4080) 16 → s.spanFault j.base 4080 true State.ownMaster = none → Completes (.pageJobEnd t 0) s (fun u => u.sec.job = none ∧ u.f F.SEC_AJOB_st = 0 ∧
            u.bytes j.base 4080 = gcmCrypt (s.archiveKey j.epoch) (State.pageIv j.epoch (s.memVal (j.base + 4098) 8)) (s.bytes j.base 4080) ∧
            SameMemoryBut j.base 4080 s u))) ∧
    (Fresh Src.SEC_RNG t s → Completes (.rngHealthFail t) s (fun u => Raised Src.SEC_RNG 0 s u ∧
      u.f F.SEC_STATUS_rng = (if s.f F.SEC_STATUS_rng = 2 ∨ s.sec.seeded = false then 2 else 1) ∧ SameMemory s u)) ∧
    ((s.start t).reseedDue = true → Completes (.drbgReseed t) s (fun u => u.f F.SEC_STATUS_rng = 0 ∧ u.sec.seeded = true ∧ u.sec.requests = 0 ∧
      u.sec.reseedTick = max s.tick t ∧ SameWords (fun a => a = A.SEC_STATUS) s u ∧ SameMemory s u)) ∧
    ((s.start t).reseedDue = false → Completes (.drbgReseed t) s (fun u => u.sec = s.sec ∧ Keeps [] s u)) ∧
    (s.f F.SEC_STATUS_rng = 1 → 2 ^ 32 ≤ s.sec.requests → Completes (.drbgStop t) s (fun u => u.f F.SEC_STATUS_rng = 2 ∧
      SameWords (fun a => a = A.SEC_STATUS) s u ∧ SameMemory s u)) ∧
    (s.f F.SEC_STATUS_rng ≠ 1 ∨ s.sec.requests < 2 ^ 32 → Completes (.drbgStop t) s (fun u => u.sec = s.sec ∧ Keeps [] s u)) ∧
    (bitOf v.toNat 0 = true → Completes (.secClr t v) s (fun u => u.f F.SEC_KSTAT_vwrap = 0 ∧ u.f F.SEC_KSTAT_exh = 0 ∧ u.f F.SEC_KSTAT_kerr = 0 ∧
      u.f F.SEC_STATUS_sat = 0 ∧ u.sec = s.sec ∧ Keeps [0x200F] s u)) ∧
    (bitOf v.toNat 0 = false → Completes (.secClr t v) s (fun u => u.sec = s.sec ∧ Keeps [] s u))

/-! ### Boot, configuration and update (R482 to R496) -/

/-- The boot chain (R318, R321, R334, R482, R483, R506): a stage that found a cause of R335 stops it in sentinel service, as fewer than two
working pairs do from stage 4 on; each of the stages that read no image
ends in the next; stage 8 begins service; a stopped or finished chain does nothing. -/
def Obligations.BootStagesEnd : Prop :=
  ∀ (t : Nat) (diff : BitVec 20) (auth : BitVec 4) (g : Bool) (stop : Fin 8) (s : State),
    (s.holds ≠ 0 ∨ s.boot.stopped = true ∨ s.f F.SYS_SVC_level ≠ 0 → Completes (.bootStageEnd t stop diff auth g) s (fun u =>
      u.boot = s.boot ∧ Keeps [] s u)) ∧
    (s.holds = 0 → s.boot.stopped = false → s.f F.SYS_SVC_level = 0 →
      (stop ≠ 0 → Completes (.bootStageEnd t stop diff auth g) s (fun u => u.boot.stopped = true ∧ u.f F.SYS_SVC_level = 2 ∧
        u.f F.SYS_SVC_cause = stop)) ∧
      (s.f F.SYS_BOOT_stage = 3 → Completes (.bootStageEnd t 0 diff auth g) s (fun u => u.f F.SYS_BOOT_stage = 4 ∧
        (∀ v : Fin 4, s.on (F.SYS_VP_STAT_fallow v) = false → u.f (F.SYS_VP_STAT_state v) = 2) ∧
        (∀ r : Fin 4, (∀ v : Fin 4, s.on (F.SYS_VP_STAT_fallow v) = false) → u.rolePair r = some r.val) ∧ SameMemory s u)) ∧
      (4 ≤ s.f F.SYS_BOOT_stage → s.workingPairs < 2 → Completes (.bootStageEnd t 0 diff auth g) s (fun u => u.boot.stopped = true ∧
        u.f F.SYS_SVC_level = 2 ∧ u.f F.SYS_SVC_cause = 1)) ∧
      (s.f F.SYS_BOOT_stage = 4 → 2 ≤ s.workingPairs → (∀ d : Fin 4, s.dieReached d = false) →
        Completes (.bootStageEnd t 0 diff auth g) s (fun u => u.boot.stopped = true ∧ u.f F.SYS_SVC_level = 2 ∧ u.f F.SYS_SVC_cause = 4)) ∧
      (s.f F.SYS_BOOT_stage = 5 → 2 ≤ s.workingPairs → Completes (.bootStageEnd t 0 diff auth g) s (fun u => u.f F.SYS_BOOT_stage = 6 ∧
        (∀ d : Fin 4, u.f (F.SYS_DIE_state d) = (if s.f (F.SYS_DIE_state d) = 3 then 4 else s.f (F.SYS_DIE_state d))) ∧ Keeps [0x2001, 0x2010] s u)) ∧
      (s.f F.SYS_BOOT_stage = 7 → 2 ≤ s.workingPairs → s.enabled = [] → Completes (.bootStageEnd t 0 diff auth g) s (fun u => u.f F.SYS_BOOT_stage = 8 ∧ Keeps [0x2010] s u)) ∧
      (∀ a : Fin 4, s.f F.SYS_BOOT_stage = 7 → 2 ≤ s.workingPairs → s.enabled.any (fun n => s.bound n a) = true → s.on (F.SIO_ACC_STAT_pwr a) = false →
        s.on (F.SIO_ACC_STAT_rst a) = false → Completes (.bootStageEnd t 0 diff auth g) s (fun u => u.f F.SYS_BOOT_stage = 8 ∧
          u.on (F.SIO_ACC_STAT_pwr a) = true ∧ Keeps [0x2009, 0x200A, 0x2010] s u)) ∧
      (s.f F.SYS_BOOT_stage = 8 → 2 ≤ s.workingPairs → s.enabled = [] → s.f F.SYS_UPD_STAT_state ≠ 3 → s.on F.ML_CTRL_en = false →
        Completes (.bootStageEnd t 0 diff auth g) s (fun u => u.f F.SYS_SVC_level = 1 ∧ u.ret 8 = 0 ∧ u.ret 12 = 0 ∧
          u.fc.quietStart = some (max s.tick t) ∧ SameMemory s u)))

/-- The commit of a Safety Parameter Set and the end of its flash write (R460, R491 to R493): an image that fails R460 is refused with
index 0xFFFF and SEC_AUTH; a set that R491 refuses changes no committed register and names its record; one that it takes is in
force, with its checksum, and is written to both copies in flash. -/
def Obligations.ParameterSetsAreCommitted : Prop :=
  ∀ (t : Nat) (s : State) (h b : List Byte), h = s.spsImage.1 → b = s.spsImage.2 →
    (s.boot.spsWrite.isSome = true → ∀ ok : Bool, Completes (.commit t ok) s (fun u => u.resp = .stBusy ∧ u.f F.SYS_SPS_STAT_st = 1 ∧
      u.committed = s.committed ∧ SameWords (fun a => a = A.SYS_SPS_STAT) s u ∧ SameMemory s u)) ∧
    (s.boot.spsWrite = none →
      (Fresh Src.SEC_AUTH t s → Completes (.commit t false) s (fun u => u.resp = .errParam ∧ u.f F.SYS_SPS_STAT_st = 0x11 ∧
        u.f F.SYS_SPS_STAT_index = 0xFFFF ∧ Raised Src.SEC_AUTH 0 s u ∧ u.enabled = s.enabled ∧ u.committed = s.committed ∧ SameMemory s u)) ∧
      (s.imageOk 7 h true = true →
        (State.spsBodyOk b = false → Completes (.commit t true) s (fun u => u.resp = .errParam ∧ u.f F.SYS_SPS_STAT_index = 0xFFFF ∧
          u.enabled = s.enabled ∧ SameWords (fun a => a = A.SYS_SPS_STAT) s u ∧ SameMemory s u)) ∧
        (State.spsBodyOk b = true →
          (∀ k, (s.start t).stageSet b = .error k → Completes (.commit t true) s (fun u => u.resp = .errParam ∧ u.f F.SYS_SPS_STAT_st = 0x11 ∧
            u.f F.SYS_SPS_STAT_index = k % 65536 ∧ u.committed = s.committed ∧ u.enabled = s.enabled ∧
            SameWords (fun a => a = A.SYS_SPS_STAT) s u ∧ SameMemory s u)) ∧
          (∀ r, (s.start t).stageSet b = .ok r → Completes (.commit t true) s (fun u => u.resp = .ok ∧ u.f F.SYS_SPS_STAT_st = 0 ∧
            u.on F.SYS_SPS_STAT_busy = true ∧ u.committed = true ∧ u.enabled = r.setContexts ∧ u.word A.SYS_SPS_CHK = crc32c b ∧
            u.boot.spsWrite.isSome = true ∧ (∀ k : Fin 1024, u.word (A.VD_CTX_CFG k) = r.word (A.VD_CTX_CFG k) ∧
              u.word (A.VD_CTX_THR k) = r.word (A.VD_CTX_THR k) ∧ u.word (A.VD_CTX_REACT k) = r.word (A.VD_CTX_REACT k))))))) ∧
    (∀ img, s.boot.spsWrite = some img → img.length ≤ 0x20000 → Completes (.spsFlashWriteDone t) s (fun u => u.boot.spsWrite = none ∧
      u.on F.SYS_SPS_STAT_busy = false ∧ (∀ k : Fin 2, u.flashBytes 0 (State.spsBase k) img.length = img) ∧
      SameWords (fun a => a = A.SYS_SPS_STAT) s u ∧ SameMemory s u)) ∧
    (s.boot.spsWrite = none → Completes (.spsFlashWriteDone t) s (fun u => u.flash = s.flash ∧ Keeps [] s u))

/-- A/B update (R494, R495): a command is accepted in its state only, and while no other runs; BEGIN opens the other slot, sectors are
erased in order, and a running command ends in the next state of the update. -/
def Obligations.UpdatesAreMade : Prop :=
  ∀ (t : Nat) (b : Bool) (s : State),
    (s.boot.upd.isSome = true →
      Completes (.updBegin t) s (fun u => u.resp = .stBusy ∧ u.f F.SYS_UPD_STAT_st = 1 ∧ u.boot = s.boot ∧ SameWords (fun a => a = A.SYS_UPD_STAT) s u ∧ SameMemory s u) ∧
      Completes (.updVerify t b) s (fun u => u.resp = .stBusy ∧ u.boot = s.boot ∧ SameWords (fun a => a = A.SYS_UPD_STAT) s u) ∧
      Completes (.updActivate t) s (fun u => u.resp = .stBusy ∧ u.boot = s.boot ∧ SameWords (fun a => a = A.SYS_UPD_STAT) s u) ∧
      Completes (.updConfirm t) s (fun u => u.resp = .stBusy ∧ u.boot = s.boot ∧ SameWords (fun a => a = A.SYS_UPD_STAT) s u) ∧
      Completes (.updAbort t) s (fun u => u.resp = .stBusy ∧ u.boot = s.boot ∧ SameWords (fun a => a = A.SYS_UPD_STAT) s u)) ∧
    (s.boot.upd = none →
      (s.f F.SYS_UPD_STAT_state = 0 → ∀ d, s.desc = some d → Completes (.updBegin t) s (fun u => u.f F.SYS_UPD_STAT_state = 1 ∧
        u.f F.SYS_UPD_STAT_slot = 1 - State.descActive d ∧ u.f F.SYS_UPD_STAT_erase_next = 0 ∧ u.word A.SYS_UPD_ACK = 0 ∧ u.f F.SYS_UPD_STAT_st = 0 ∧
        u.resp = .ok ∧ u.boot.stored = 0 ∧ ((∀ n : Nat, (s.ctx n).waitAdmit = .none) → SameMemory s u))) ∧
      (s.f F.SYS_UPD_STAT_state ≠ 0 → Completes (.updBegin t) s (fun u => u.resp = .errState ∧ u.f F.SYS_UPD_STAT_st = 0x10 ∧
        u.boot = s.boot ∧ SameWords (fun a => a = A.SYS_UPD_STAT) s u ∧ SameMemory s u)) ∧
      (s.f F.SYS_UPD_STAT_state = 1 → s.updSectors ≤ s.f F.SYS_UPD_STAT_erase_next → Completes (.updVerify t b) s (fun u =>
        u.on F.SYS_UPD_STAT_busy = true ∧ u.boot.upd = some ⟨2, s.slotSound (s.f F.SYS_UPD_STAT_slot) b⟩ ∧ u.resp = .ok ∧
        SameWords (fun a => a = A.SYS_UPD_STAT) s u ∧ SameMemory s u)) ∧
      (s.f F.SYS_UPD_STAT_state ≠ 1 ∨ s.f F.SYS_UPD_STAT_erase_next < s.updSectors → Completes (.updVerify t b) s (fun u => u.resp = .errState ∧
        u.boot = s.boot ∧ SameWords (fun a => a = A.SYS_UPD_STAT) s u)) ∧
      (s.f F.SYS_UPD_STAT_state = 2 → Completes (.updActivate t) s (fun u => u.on F.SYS_UPD_STAT_busy = true ∧ u.boot.upd = some ⟨3, true⟩ ∧
        u.resp = .ok ∧ SameWords (fun a => a = A.SYS_UPD_STAT) s u)) ∧
      (s.f F.SYS_UPD_STAT_state ≠ 2 → Completes (.updActivate t) s (fun u => u.resp = .errState ∧ u.boot = s.boot)) ∧
      (s.f F.SYS_UPD_STAT_state = 3 → s.f F.SYS_BOOT_slot = s.f F.SYS_UPD_STAT_slot → s.f F.SYS_SVC_level = 1 → Completes (.updConfirm t) s (fun u =>
        u.on F.SYS_UPD_STAT_busy = true ∧ u.boot.upd = some ⟨4, true⟩ ∧ u.resp = .ok ∧ SameWords (fun a => a = A.SYS_UPD_STAT) s u)) ∧
      (s.f F.SYS_UPD_STAT_state ≠ 3 ∨ s.f F.SYS_SVC_level ≠ 1 → Completes (.updConfirm t) s (fun u => u.resp = .errState ∧ u.boot = s.boot)) ∧
      (1 ≤ s.f F.SYS_UPD_STAT_state → s.f F.SYS_UPD_STAT_state ≤ 3 → Completes (.updAbort t) s (fun u => u.on F.SYS_UPD_STAT_busy = true ∧
        u.boot.upd = some ⟨5, true⟩ ∧ u.resp = .ok ∧ SameWords (fun a => a = A.SYS_UPD_STAT) s u)) ∧
      (s.f F.SYS_UPD_STAT_state = 0 ∨ 3 < s.f F.SYS_UPD_STAT_state → Completes (.updAbort t) s (fun u => u.resp = .errState ∧ u.boot = s.boot)) ∧
      Completes (.updateCommandDone t) s (fun u => u.boot = s.boot ∧ u.flash = s.flash ∧ Keeps [] s u)) ∧
    (s.f F.SYS_UPD_STAT_state = 1 → s.f F.SYS_UPD_STAT_erase_next < s.updSectors → s.updSlot.1 % 0x10000 = 0 → Completes (.sectorEraseDone t) s (fun u =>
      u.f F.SYS_UPD_STAT_erase_next = s.f F.SYS_UPD_STAT_erase_next + 1 ∧ ((∀ n : Nat, (s.ctx n).waitAdmit = .none) → SameMemory s u) ∧
      ((s.f F.SYS_UPD_STAT_erase_next + 1) % 16 ≠ 0 → s.f F.SYS_UPD_STAT_erase_next + 1 ≠ s.updSectors →
        u.flashBytes 0 (s.updSlot.1 + 0x10000 * s.f F.SYS_UPD_STAT_erase_next) 256 = List.replicate 256 0xFF))) ∧
    (s.f F.SYS_UPD_STAT_state ≠ 1 ∨ s.updSectors ≤ s.f F.SYS_UPD_STAT_erase_next → Completes (.sectorEraseDone t) s (fun u => u.flash = s.flash ∧ Keeps [] s u)) ∧
    (∀ x, s.boot.upd = some x →
      (x.op = 2 → x.ok = true → s.on F.XSP_STRIPE_en = false → Completes (.updateCommandDone t) s (fun u => u.f F.SYS_UPD_STAT_state = 2 ∧
        u.on F.SYS_UPD_STAT_busy = false ∧ u.boot.upd = none ∧ ((∀ n : Nat, (s.ctx n).waitAdmit = .none) → SameMemory s u))) ∧
      (x.op = 2 → x.ok = false → Fresh Src.SEC_AUTH t s → Completes (.updateCommandDone t) s (fun u => u.f F.SYS_UPD_STAT_st = 0x12 ∧
        u.f F.SYS_UPD_STAT_state = s.f F.SYS_UPD_STAT_state ∧ u.on F.SYS_UPD_STAT_busy = false ∧ u.boot.upd = none ∧ Raised Src.SEC_AUTH 0 s u)) ∧
      (x.op = 3 → Completes (.updateCommandDone t) s (fun u => u.f F.SYS_UPD_STAT_state = 3 ∧ u.on F.SYS_UPD_STAT_busy = false ∧
        u.boot.upd = none ∧ ((∀ n : Nat, (s.ctx n).waitAdmit = .none) → SameMemory s u))) ∧
      (x.op = 4 → Completes (.updateCommandDone t) s (fun u => u.f F.SYS_UPD_STAT_state = 0 ∧ u.on F.SYS_UPD_STAT_busy = false ∧
        u.f F.SYS_BOOT_trial = 0 ∧ u.boot.upd = none ∧ ((∀ n : Nat, (s.ctx n).waitAdmit = .none) → SameMemory s u))) ∧
      (x.op = 5 → Completes (.updateCommandDone t) s (fun u => u.f F.SYS_UPD_STAT_state = 0 ∧ u.on F.SYS_UPD_STAT_busy = false ∧
        u.boot.upd = none ∧ ((∀ n : Nat, (s.ctx n).waitAdmit = .none) → SameMemory s u))))

/-! ### Safety inputs and outputs, loop-backs and JTAG (R499 to R520) -/

/-- Safety inputs and safe outputs (R499 to R505, R509): a level change moves the input's state; a pending discrepancy latches once its time
is over; a test pulse starts and ends when due; a readback difference outside the settle time latches, and is released only
with the ball low. -/
def Obligations.SafetyLevelsAct : Prop :=
  ∀ (t : Nat) (k : Fin 8) (o : Fin 4) (v : Word) (s : State),
    (∀ a b : Bool, s.f (F.SIO_IN_STAT_state k) ≠ 2 ∨ max s.tick t ≤ s.discDue k →
      (s.on (F.SIO_IN_CFG_en k) = false → Completes (.sinLevelChange t k a b) s (fun u => u.f (F.SIO_IN_STAT_state k) = 0 ∧
        u.on (if a then F.SIO_IN_STAT_b k else F.SIO_IN_STAT_a k) = b ∧ SameMemory s u)) ∧
      (s.on (F.SIO_IN_CFG_en k) = true → s.f (F.SIO_IN_STAT_state k) = 3 → Completes (.sinLevelChange t k a b) s (fun u =>
        u.f (F.SIO_IN_STAT_state k) = (if u.pairOff k then 0 else 3) ∧ u.on (if a then F.SIO_IN_STAT_b k else F.SIO_IN_STAT_a k) = b ∧ SameMemory s u)) ∧
      (∀ x y : Bool, x = (if a then s.on (F.SIO_IN_STAT_a k) else b) → y = (if a then b else s.on (F.SIO_IN_STAT_b k)) →
        s.on (F.SIO_IN_CFG_en k) = true → s.f (F.SIO_IN_STAT_state k) ≠ 3 →
        (x = true → y = !s.on (F.SIO_IN_CFG_mode k) → Completes (.sinLevelChange t k a b) s (fun u => u.f (F.SIO_IN_STAT_state k) = 1 ∧ SameMemory s u)) ∧
        (x = false → y = s.on (F.SIO_IN_CFG_mode k) → Completes (.sinLevelChange t k a b) s (fun u => u.f (F.SIO_IN_STAT_state k) = 0 ∧ SameMemory s u)) ∧
        (x ≠ (y != s.on (F.SIO_IN_CFG_mode k)) → Completes (.sinLevelChange t k a b) s (fun u => u.f (F.SIO_IN_STAT_state k) = 2 ∧
          u.discStart k = (if s.f (F.SIO_IN_STAT_state k) = 2 then s.discStart k else max s.tick t) ∧ SameMemory s u)))) ∧
    (s.f (F.SIO_IN_STAT_state k) = 2 → s.discDue k ≤ max s.tick t → Fresh (Src.SIO_DISC k) t s → Completes (.discrepancyExpire t k) s (fun u =>
      u.f (F.SIO_IN_STAT_state k) = 3 ∧ Counted (F.SIO_IN_STAT_disc k) s u ∧
      Raised (Src.SIO_DISC k) (2 * s.f (F.SIO_IN_STAT_a k) + s.f (F.SIO_IN_STAT_b k)) s u ∧ SameMemory s u)) ∧
    (s.f (F.SIO_IN_STAT_state k) ≠ 2 ∨ max s.tick t < s.discDue k → Completes (.discrepancyExpire t k) s (fun u => Keeps [] s u)) ∧
    (s.soutBase o = true → s.on (F.SIO_OUT_STAT_drive o) = true → s.f (F.SIO_OUT_CFG_tp_us o) ≠ 0 → (s.outX o).periodFrom + State.ms (s.f (F.SIO_OUT_CFG_tp_ms o)) ≤ max s.tick t →
      Completes (.testPulseStart t o) s (fun u => u.on (F.SIO_OUT_STAT_pulse o) = true ∧ u.on (F.SIO_OUT_STAT_drive o) = false ∧
        (u.outX o).pulseFrom = max s.tick t ∧ Keeps [0x200A] s u)) ∧
    (s.on (F.SIO_OUT_STAT_drive o) = false ∨ s.f (F.SIO_OUT_CFG_tp_us o) = 0 ∨ max s.tick t < (s.outX o).periodFrom + State.ms (s.f (F.SIO_OUT_CFG_tp_ms o)) →
      Completes (.testPulseStart t o) s (fun u => Keeps [] s u)) ∧
    (s.on (F.SIO_OUT_STAT_pulse o) = true → (s.outX o).pulseFrom + State.us (s.f (F.SIO_OUT_CFG_tp_us o)) ≤ max s.tick t →
      Completes (.testPulseEnd t o) s (fun u => u.on (F.SIO_OUT_STAT_pulse o) = false ∧ (u.outX o).periodFrom = max s.tick t ∧ Keeps [0x200A] s u)) ∧
    (s.on (F.SIO_OUT_STAT_pulse o) = false ∨ max s.tick t < (s.outX o).pulseFrom + State.us (s.f (F.SIO_OUT_CFG_tp_us o)) →
      Completes (.testPulseEnd t o) s (fun u => Keeps [] s u)) ∧
    (∀ b : Bool, (b ≠ s.on (F.SIO_OUT_STAT_drive o) → (s.outX o).changed + State.us (s.f (F.SIO_OUT_CFG_rb_us o)) < max s.tick t →
        s.on (F.SIO_OUT_STAT_latch o) = false → Fresh (Src.SIO_READBACK o) t s → Completes (.readbackMismatch t o b) s (fun u =>
          u.on (F.SIO_OUT_STAT_latch o) = true ∧ u.on (F.SIO_OUT_STAT_drive o) = false ∧ u.on (F.SIO_OUT_STAT_rb o) = b ∧
          Counted (F.SIO_OUT_STAT_mism o) s u ∧ Raised (Src.SIO_READBACK o) (bit (s.on (F.SIO_OUT_STAT_drive o))) s u ∧ SameMemory s u)) ∧
      (b = s.on (F.SIO_OUT_STAT_drive o) ∨ max s.tick t ≤ (s.outX o).changed + State.us (s.f (F.SIO_OUT_CFG_rb_us o)) →
        Completes (.readbackMismatch t o b) s (fun u => u.on (F.SIO_OUT_STAT_rb o) = b ∧ u.on (F.SIO_OUT_STAT_latch o) = s.on (F.SIO_OUT_STAT_latch o) ∧
          Keeps [0x200A] s u))) ∧
    (s.on (F.SIO_OUT_STAT_rb o) = true → Completes (.readbackRelease t o) s (fun u => Keeps [] s u)) ∧
    (s.on (F.SIO_OUT_STAT_rb o) = false → Completes (.readbackRelease t o) s (fun u => u.on (F.SIO_OUT_STAT_latch o) = false ∧ Keeps [0x200A] s u)) ∧
    (bitOf v.toNat 0 = true → Completes (.sioClr t v) s (fun u => (∀ j : Fin 8, u.f (F.SIO_IN_STAT_disc j) = 0) ∧
      (∀ j : Fin 4, u.f (F.SIO_OUT_STAT_mism j) = 0 ∧ u.f (F.SIO_ACC_STAT_mism j) = 0) ∧ u.f F.SIO_STATUS_sat = 0 ∧ Keeps [0x200A] s u)) ∧
    (bitOf v.toNat 0 = false → Completes (.sioClr t v) s (fun u => Keeps [] s u))

/-- Loop-back tests and JTAG (R510 to R520): GO starts a test where R512 allows it, a lock is waited for 10 ms, the end leaves the results; an
instruction becomes current, in FIELD only BYPASS and IDCODE, and DBG_ACCESS reads or writes one aligned word. -/
def Obligations.LoopbacksAndJtagAct : Prop :=
  ∀ (t : Nat) (s : State),
    (s.lb.isSome = true → Completes (.lbGo t) s (fun u => u.resp = .stBusy ∧ u.lb = s.lb ∧ Keeps [] s u) ∧
      Completes (.lbAbort t) s (fun u => u.lb = none ∧ u.on F.SYS_LB_STAT_busy = false ∧ u.f F.SYS_LB_STAT_st = 4 ∧
        SameWords (fun a => a = A.SYS_LB_STAT) s u ∧ (s.f F.SYS_LB_CFG_iface ≠ 6 ∨ s.f F.SYS_LB_CFG_depth ≠ 2 → SameMemory s u))) ∧
    (s.lb = none →
      Completes (.lbAbort t) s (fun u => u.lb = none ∧ Keeps [] s u) ∧
      Completes (.loopbackLock t) s (fun u => u.lb = none ∧ Keeps [] s u) ∧ Completes (.loopbackLockTimeout t) s (fun u => u.lb = none ∧ Keeps [] s u) ∧
      (s.f F.SYS_LB_CFG_ms = 0 ∨ s.f F.SYS_LB_CFG_iface = 0 ∨ 8 < s.f F.SYS_LB_CFG_iface ∨ s.f F.SYS_LB_CFG_depth = 0 →
        Completes (.lbGo t) s (fun u => u.resp = .errParam ∧ u.f F.SYS_LB_STAT_st = 0x11 ∧ u.lb = none ∧
          SameWords (fun a => a = A.SYS_LB_STAT) s u ∧ SameMemory s u)) ∧
      (s.f F.SYS_LB_CFG_ms ≠ 0 → s.f F.SYS_LB_CFG_depth = 1 → s.f F.SYS_LB_CFG_iface = 5 → s.f F.SYS_LB_CFG_num < 48 →
        (s.lbAllowed = true → Completes (.lbGo t) s (fun u => u.lb = some ⟨max s.tick t, none⟩ ∧ u.on F.SYS_LB_STAT_busy = true ∧
          u.on F.SYS_LB_STAT_lock = false ∧ u.f F.SYS_LB_STAT_st = 0 ∧ u.dword A.SYS_LB_BITS = 0 ∧ u.word A.SYS_LB_ERRS = 0 ∧
          u.dword A.SYS_LB_FIRST = 0 ∧ u.resp = .ok ∧ Keeps [0x2010] s u)) ∧
        (s.lbAllowed = false → Completes (.lbGo t) s (fun u => u.resp = .errState ∧ u.f F.SYS_LB_STAT_st = 0x10 ∧ u.lb = none ∧
          SameWords (fun a => a = A.SYS_LB_STAT) s u ∧ SameMemory s u)))) ∧
    (∀ r, s.lb = some r → r.locked = none →
      (max s.tick t ≤ r.go + State.ms 10 → Completes (.loopbackLock t) s (fun u => u.lb = some ⟨r.go, some (max s.tick t)⟩ ∧ u.on F.SYS_LB_STAT_lock = true ∧
        SameWords (fun a => a = A.SYS_LB_STAT) s u ∧ SameMemory s u)) ∧
      (r.go + State.ms 10 ≤ max s.tick t → Completes (.loopbackLockTimeout t) s (fun u => u.lb = none ∧ u.on F.SYS_LB_STAT_busy = false ∧
        u.f F.SYS_LB_STAT_st = 3 ∧ SameWords (fun a => a = A.SYS_LB_STAT) s u ∧ SameMemory s u)) ∧
      (max s.tick t < r.go + State.ms 10 → Completes (.loopbackLockTimeout t) s (fun u => u.lb = s.lb ∧ Keeps [] s u))) ∧
    (∀ r, s.lb = some r → ∀ l, r.locked = some l → s.f F.SYS_LB_CFG_iface ≠ 6 → ∀ (n : BitVec 48) (first : DWord),
      ((s.start t).lbOver l = true →
        Completes (.loopbackEnd t n 0 first []) s (fun u => u.lb = none ∧ u.on F.SYS_LB_STAT_busy = false ∧ u.f F.SYS_LB_STAT_st = 0 ∧
          u.dword A.SYS_LB_BITS = n.toNat ∧ u.word A.SYS_LB_ERRS = 0 ∧ u.dword A.SYS_LB_FIRST = 0 ∧ Keeps [0x2010] s u) ∧
        (∀ e : Word, e ≠ 0 → Completes (.loopbackEnd t n e.toNat first []) s (fun u => u.lb = none ∧ u.f F.SYS_LB_STAT_st = 2 ∧
          u.dword A.SYS_LB_BITS = n.toNat ∧ u.word A.SYS_LB_ERRS = e.toNat ∧ u.dword A.SYS_LB_FIRST = first.toNat ∧ Keeps [0x2010] s u))) ∧
      ((s.start t).lbOver l = false → Completes (.loopbackEnd t n 0 first []) s (fun u => u.lb = s.lb ∧ Keeps [] s u))) ∧
    Completes (.bypass t) s (fun u => u.jtag = 0xFF ∧ Keeps [] s u) ∧
    Completes (.idcode t) s (fun u => u.jtag = 1 ∧ u.rdata = [0x1A31666F] ∧ Keeps [] s u) ∧
    Completes (.clamp t) s (fun u => u.jtag = (if s.life = 0x5A then 0xFF else 4) ∧ Keeps [] s u) ∧
    Completes (.highz t) s (fun u => u.jtag = (if s.life = 0x5A then 0xFF else 5) ∧ Keeps [] s u) ∧
    (∀ n : BitVec 64, (s.life ≠ 0x5A → Completes (.samplePreload t n.toNat) s (fun u => u.jtag = 2 ∧ u.boundary = n.toNat ∧ Keeps [] s u) ∧
        Completes (.extest t n.toNat) s (fun u => u.jtag = 3 ∧ u.boundary = n.toNat ∧ Keeps [] s u)) ∧
      (s.life = 0x5A → Completes (.samplePreload t n.toNat) s (fun u => u.jtag = 0xFF ∧ u.boundary = s.boundary ∧ Keeps [] s u) ∧
        Completes (.extest t n.toNat) s (fun u => u.jtag = 0xFF ∧ u.boundary = s.boundary ∧ Keeps [] s u))) ∧
    (∀ (w : Bool) (a : BitVec 48) (v : Word),
      (s.life = 0x5A → Completes (.dbgAccess t w a v) s (fun u => u.jtag = 0xFF ∧ Keeps [] s u)) ∧
      (s.life ≠ 0x5A →
        (a.toNat % 4 ≠ 0 → Completes (.dbgAccess t w a v) s (fun u => u.jtag = 0x20 ∧ u.resp = .errAlign ∧ SameMemory s u)) ∧
        (a.toNat % 4 = 0 → State.region a.toNat = .warden →
          (∀ x, PlainWrite (State.jtagMaster x) a.toNat 4 s) → s.gs.ended = [] → Completes (.dbgAccess t true a v) s (fun u => u.jtag = 0x20 ∧
          u.resp = .ok ∧ u.bytes a.toNat 4 = leBytes 4 v.toNat ∧ SameMemoryBut a.toNat 4 s u ∧ SameWords (InBlocks [0x2009]) s u)) ∧
        (a.toNat % 4 = 0 → State.region a.toNat = .warden →
          (∀ x, PlainRead (State.jtagMaster x) a.toNat 4 s) → Completes (.dbgAccess t false a v) s (fun u => u.jtag = 0x20 ∧
          u.resp = .ok ∧ u.rdata = [s.memVal a.toNat 4] ∧ Keeps [0x2009] s u))))

/-- One loop-back test at a time (R513): while one runs, GO answers ST_BUSY and changes nothing, ABORT ends it with ERR_ABORT,
and a write of SYS_LB_CFG is ignored and answers ST_BUSY. -/
def Obligations.OneLoopbackAtATime : Prop :=
  ∀ (t : Nat) (m : BitVec 11) (v : DWord) (s : State), s.lb.isSome = true →
    Completes (.lbGo t) s (fun u => u.resp = .stBusy ∧ u.lb = s.lb ∧ Keeps [] s u) ∧
    Completes (.lbAbort t) s (fun u => u.lb = none ∧ u.on F.SYS_LB_STAT_busy = false ∧ u.f F.SYS_LB_STAT_st = 4 ∧
      SameWords (fun a => a = A.SYS_LB_STAT) s u ∧ (s.f F.SYS_LB_CFG_iface ≠ 6 ∨ s.f F.SYS_LB_CFG_depth ≠ 2 → SameMemory s u)) ∧
    (s.regReach A.SYS_LB_CFG m.toNat true = true → Completes (.registerWrite t m (BitVec.ofNat 48 A.SYS_LB_CFG) ⟨2, 0⟩ v) s (fun u =>
      u.resp = .stBusy ∧ u.lb = s.lb ∧ u.word A.SYS_LB_CFG = s.word A.SYS_LB_CFG ∧ (Healthy s → Keeps [] s u)))

/-! ### The block as a whole -/

/-- The queue (log 1): a step takes the command at its front and runs it with the rest of the queue; with an empty queue one tick of
CLK_TIME passes. -/
def Obligations.StepRunsFrontCommand : Prop :=
  ∀ (c : Instr) (l : List Instr) (s : State),
    (s.pending = c :: l → step s = exec c { s with pending := l }) ∧
    (s.pending = [] → step s = .next (s.upto (s.tick + 1)))

/-- Registers as bus masters reach them (R5 to R8, R11, R322, R323): one aligned word at a time; a word that no register has reads zero
and ignores writes. Of a register whose write has no effect of its own, the RW bits and, until the commit, the RWL bits take what is
written, but for the fields whose value is refused (ERR_PARAM) and the fixed bits of FC_SEV; a W1C bit written 1 is cleared, unless
hardware sets it in this tick; after the commit a word with RWL bits answers ERR_LOCKED. A read answers what the register shows,
with W bits as zero, and the read of a low word latches the high word for the read that follows. -/
def Obligations.RegistersAreReadAndWritten : Prop :=
  ∀ (t : Nat) (m : BitVec 11) (a : BitVec 48) (z : Form) (v : DWord) (n : Fin 1024) (w : Fin 9) (s : State),
    (State.region a.toNat = .regs →
      (z.size ≠ 2 ∨ a.toNat % 4 ≠ 0 →
        Completes (.registerWrite t m a z v) s (fun u => u.resp = .errAlign ∧ SameMemory s u ∧ u.enabled = s.enabled) ∧
        Completes (.lowWordRead t m a z) s (fun u => u.resp = .errAlign ∧ u.rdata = [0] ∧ SameMemory s u)) ∧
      (z.size = 2 → a.toNat % 4 = 0 → s.regReach a.toNat m.toNat true = false →
        Completes (.registerWrite t m a z v) s (fun u => u.resp = .errDecode ∧ SameMemory s u ∧ u.enabled = s.enabled)) ∧
      (z.size = 2 → a.toNat % 4 = 0 → s.regReach a.toNat m.toNat false = false →
        Completes (.lowWordRead t m a z) s (fun u => u.resp = .errDecode ∧ u.rdata = [0] ∧ SameMemory s u)) ∧
      (z.size = 2 → a.toNat % 4 = 0 → State.inRetained a.toNat = false → regAt a.toNat = none → s.regReach a.toNat m.toNat true = true →
        Healthy s → Completes (.registerWrite t m a z v) s (fun u => u.resp = .ok ∧ Keeps [] s u)) ∧
      (z.size = 2 → a.toNat % 4 = 0 → State.inRetained a.toNat = false → regAt a.toNat = none → s.regReach a.toNat m.toNat false = true →
        z.det ≠ 2 ∨ a.toNat < A.CT_REC 0 ∨ A.CT_REC 8192 ≤ a.toNat →
        Completes (.lowWordRead t m a z) s (fun u => u.resp = .ok ∧ u.rdata = [0] ∧ Keeps [] s u)) ∧
      (∀ (r : RegRow) (i k : Nat), z.size = 2 → a.toNat % 4 = 0 → State.inRetained a.toNat = false → regAt a.toNat = some (r, i, k) →
        let b := a.toNat - r.stride * i - 4 * k
        let rw := (wordMasks a.toNat).1
        let rwl := (wordMasks a.toNat).2.1
        let w1c := (wordMasks a.toNat).2.2.1
        let wo := (wordMasks a.toNat).2.2.2
        let x := v.toNat % 2 ^ 32
        let bad := s.refusedBits b i k x
        let key := m.toNat * 2 ^ 48 + (a.toNat - 4 * k)
        (s.regReach a.toNat m.toNat true = true → Healthy s → (s.start t).actOn a.toNat b i k x 2 m.toNat = none →
          Completes (.registerWrite t m a z v) s (fun u => SameMemory s u ∧
            u.resp = (if s.committed = true ∧ rwl ≠ 0 then .errLocked else if bad ≠ 0 then .errParam else .ok) ∧
            (∀ j : Fin 32, (bitOf rw j || bitOf rwl j) = true →
              bitOf (u.word a.toNat) j = bitOf (if (bitOf rw j || !s.committed) && !bitOf bad j && !bitOf (State.fixedBits b i) j then x
                else s.word a.toNat) j) ∧
            (rwl = 0 → a.toNat / 0x10000 ≠ 0x200A → ∀ j : Fin 32, bitOf w1c j = true → bitOf rw j = false →
              bitOf (u.word a.toNat) j = (bitOf (s.word a.toNat) j &&
                (!bitOf x j || bitOf ((s.start t).heldBits a.toNat b i) j))))) ∧
        (s.regReach a.toNat m.toNat false = true → z.det ≠ 2 ∨ a.toNat < A.CT_REC 0 ∨ A.CT_REC 8192 ≤ a.toNat → b ∉ [A.TM_ETS_ID 0, A.I3C_C_IBI, A.SEC_ASTAT] →
          (b = A.CT_CVAL → State.ctDefined (s.f F.CT_CSEL_code) = true) →
          (r.wide && k = 1 → Table.get (fun _ => none) s.latch key = none) →
          Completes (.lowWordRead t m a z) s (fun u => u.resp = .ok ∧ Keeps [] s u ∧
            u.rdata = [(s.start t).regValue a.toNat b i k - ((s.start t).regValue a.toNat b i k &&& wo)] ∧
            (r.wide → k = 0 → (wordMasks (a.toNat + 4)).2.2.2 = 0 →
              Table.get (fun _ => none) u.latch key = some (BitVec.ofNat 32 ((s.start t).regValue (a.toNat + 4) b i 1))))))) ∧
    (Healthy s →
      (∀ x : Fin 2, s.regReach (A.XSP_LEN x) m.toNat true = true → Completes (.registerWrite t m (BitVec.ofNat 48 (A.XSP_LEN x)) ⟨2, z.det⟩ v) s (fun u => u.resp = .ok ∧
        u.word (A.XSP_LEN x) = v.toNat % 2 ^ 32 ∧ SameWords (fun b => b = A.XSP_LEN x) s u ∧ SameMemory s u)) ∧
      (s.regReach (A.VD_ADMIT n) m.toNat true = true → Completes (.registerWrite t m (BitVec.ofNat 48 (A.VD_ADMIT n)) ⟨2, z.det⟩ v) s (fun u => u.resp = .ok ∧ Keeps [] s u)) ∧
      (s.regReach (A.VD_CTX_THR n) m.toNat true = true → s.committed = false → Completes (.registerWrite t m (BitVec.ofNat 48 (A.VD_CTX_THR n)) ⟨2, z.det⟩ v) s (fun u => u.resp = .ok ∧
        u.f (F.VD_CTX_THR_n n) = v.toNat % 128 ∧ u.f (F.VD_CTX_THR_m n) = v.toNat / 256 % 256 ∧ SameWords (fun b => b = A.VD_CTX_THR n) s u ∧ SameMemory s u)) ∧
      (s.regReach (A.VD_CTX_THR n) m.toNat true = true → s.committed = true → Completes (.registerWrite t m (BitVec.ofNat 48 (A.VD_CTX_THR n)) ⟨2, z.det⟩ v) s (fun u => u.resp = .errLocked ∧
        u.word (A.VD_CTX_THR n) = s.word (A.VD_CTX_THR n) ∧ SameMemory s u))) ∧
    ((s.regReach (A.WD_REF w) m.toNat false = true → Table.get (fun _ => none) s.latch (m.toNat * 2 ^ 48 + A.WD_REF w) = none →
        Completes (.lowWordRead t m (BitVec.ofNat 48 (A.WD_REF w)) ⟨2, z.det⟩) s (fun u => u.resp = .ok ∧ u.rdata = [s.word (A.WD_REF w)] ∧
          Table.get (fun _ => none) u.latch (m.toNat * 2 ^ 48 + A.WD_REF w) = some (BitVec.ofNat 32 (s.word (A.WD_REF w + 4))) ∧ Keeps [] s u)) ∧
      (∀ x, s.regReach (A.WD_REF w) m.toNat false = true → Table.get (fun _ => none) s.latch (m.toNat * 2 ^ 48 + A.WD_REF w) = some x →
        Completes (.lowWordRead t m (BitVec.ofNat 48 (A.WD_REF w + 4)) ⟨2, z.det⟩) s (fun u => u.resp = .ok ∧ u.rdata = [x.toNat] ∧
          Table.get (fun _ => none) u.latch (m.toNat * 2 ^ 48 + A.WD_REF w) = none ∧ Keeps [] s u)))

/-- Reset values that the register tables give (R27, R110, R362, R419, R437, R438): no context is in service, no set committed, no
loop-back runs, JTAG passes by; memory, registers and contexts have their canonical form. -/
def Obligations.ResetIsWellFormed : Prop :=
  Memory.wf State.reset ∧ Registers.wf State.reset ∧ Contexts.inRange State.reset ∧ State.reset.pending = [] ∧
  (∀ n : Fin 1024, State.reset.trust n = 0) ∧ State.reset.f F.SYS_SVC_level = 0 ∧ State.reset.f F.SYS_BOOT_stage = 1 ∧
  (∀ w : Fin 9, State.reset.f (F.WD_CFG_act w) = (if w = 4 then 3 else 1)) ∧ State.reset.f F.I3C_C_CFG_sdr = 4 ∧
  State.reset.on F.I3C_T_STAT_ibien = true ∧ State.reset.on F.I3C_T_STAT_dav = false ∧ State.reset.committed = false

/-- Every command of the table completes: it leaves the queue as it was and time does not run backwards (R410). -/
def Obligations.EveryCommandCompletes : Prop :=
  ∀ (c : Instr) (s : State), Completes c s (fun u => u.pending = s.pending ∧ s.tick ≤ u.tick)

/-- Every step keeps memory and the register table in their canonical forms and the enabled contexts among the 1,024 (R13). -/
def Obligations.StepKeepsStateWellFormed : Prop :=
  ∀ s u : State, Memory.wf s → Registers.wf s → Contexts.inRange s → step s = .next u →
    Memory.wf u ∧ Registers.wf u ∧ Contexts.inRange u

/-- The lifecycle only moves from MANUF to FIELD and from FIELD to RETURN, whatever the command (R458). -/
def Obligations.LifecycleOnlyMovesForward : Prop :=
  ∀ s u : State, step s = .next u → u.life = s.life ∨ (s.life = 0x00 ∧ u.life = 0x5A) ∨ (s.life = 0x5A ∧ u.life = 0xA5)
end

