-- ==== Sys2Proof/Laws/State.lean ====
section
/-! SUPPORT. One lemma for each field of the state and each plain update: what an update does not write, it leaves. -/

namespace Sys2Proof.Machine.State

open Sys2Proof

variable (s : State)

/-! ### What `setWord` leaves -/

@[simp] theorem setWord_pending (a v : Nat) : (s.setWord a v).pending = s.pending := rfl
@[simp] theorem setWord_tick (a v : Nat) : (s.setWord a v).tick = s.tick := rfl
@[simp] theorem setWord_free (a v : Nat) : (s.setWord a v).free = s.free := rfl
@[simp] theorem setWord_latch (a v : Nat) : (s.setWord a v).latch = s.latch := rfl
@[simp] theorem setWord_held (a v : Nat) : (s.setWord a v).held = s.held := rfl
@[simp] theorem setWord_mem (a v : Nat) : (s.setWord a v).mem = s.mem := rfl
@[simp] theorem setWord_lost (a v : Nat) : (s.setWord a v).lost = s.lost := rfl
@[simp] theorem setWord_g6Hot (a v : Nat) : (s.setWord a v).g6Hot = s.g6Hot := rfl
@[simp] theorem setWord_resp (a v : Nat) : (s.setWord a v).resp = s.resp := rfl
@[simp] theorem setWord_rdata (a v : Nat) : (s.setWord a v).rdata = s.rdata := rfl
@[simp] theorem setWord_evt (a v : Nat) : (s.setWord a v).evt = s.evt := rfl
@[simp] theorem setWord_vdBusy (a v : Nat) : (s.setWord a v).vdBusy = s.vdBusy := rfl
@[simp] theorem setWord_soutReq (a v : Nat) : (s.setWord a v).soutReq = s.soutReq := rfl
@[simp] theorem setWord_enabled (a v : Nat) : (s.setWord a v).enabled = s.enabled := rfl
@[simp] theorem setWord_ctxs (a v : Nat) : (s.setWord a v).ctxs = s.ctxs := rfl
@[simp] theorem setWord_accSeq (a v : Nat) : (s.setWord a v).accSeq = s.accSeq := rfl
@[simp] theorem setWord_verdict (a v : Nat) : (s.setWord a v).verdict = s.verdict := rfl
@[simp] theorem setWord_cin (a v : Nat) : (s.setWord a v).cin = s.cin := rfl
@[simp] theorem setWord_slots (a v : Nat) : (s.setWord a v).slots = s.slots := rfl
@[simp] theorem setWord_tx (a v : Nat) : (s.setWord a v).tx = s.tx := rfl
@[simp] theorem setWord_plibBad (a v : Nat) : (s.setWord a v).plibBad = s.plibBad := rfl
@[simp] theorem setWord_evOpen (a v : Nat) : (s.setWord a v).evOpen = s.evOpen := rfl
@[simp] theorem setWord_evSlots (a v : Nat) : (s.setWord a v).evSlots = s.evSlots := rfl
@[simp] theorem setWord_evTimer (a v : Nat) : (s.setWord a v).evTimer = s.evTimer := rfl
@[simp] theorem setWord_evTimerOn (a v : Nat) : (s.setWord a v).evTimerOn = s.evTimerOn := rfl
@[simp] theorem setWord_harts (a v : Nat) : (s.setWord a v).harts = s.harts := rfl
@[simp] theorem setWord_instret (a v : Nat) : (s.setWord a v).instret = s.instret := rfl
@[simp] theorem setWord_vp2 (a v : Nat) : (s.setWord a v).vp2 = s.vp2 := rfl
@[simp] theorem setWord_agParams (a v : Nat) : (s.setWord a v).agParams = s.agParams := rfl
@[simp] theorem setWord_gs (a v : Nat) : (s.setWord a v).gs = s.gs := rfl
@[simp] theorem setWord_since (a v : Nat) : (s.setWord a v).since = s.since := rfl
@[simp] theorem setWord_ct (a v : Nat) : (s.setWord a v).ct = s.ct := rfl
@[simp] theorem setWord_pairs (a v : Nat) : (s.setWord a v).pairs = s.pairs := rfl
@[simp] theorem setWord_roleMoves (a v : Nat) : (s.setWord a v).roleMoves = s.roleMoves := rfl
@[simp] theorem setWord_mbx (a v : Nat) : (s.setWord a v).mbx = s.mbx := rfl
@[simp] theorem setWord_retFlag (a v : Nat) : (s.setWord a v).retFlag = s.retFlag := rfl
@[simp] theorem setWord_fc (a v : Nat) : (s.setWord a v).fc = s.fc := rfl
@[simp] theorem setWord_wd (a v : Nat) : (s.setWord a v).wd = s.wd := rfl
@[simp] theorem setWord_dma (a v : Nat) : (s.setWord a v).dma = s.dma := rfl
@[simp] theorem setWord_tm (a v : Nat) : (s.setWord a v).tm = s.tm := rfl
@[simp] theorem setWord_eth (a v : Nat) : (s.setWord a v).eth = s.eth := rfl
@[simp] theorem setWord_ibi (a v : Nat) : (s.setWord a v).ibi = s.ibi := rfl
@[simp] theorem setWord_i3c (a v : Nat) : (s.setWord a v).i3c = s.i3c := rfl
@[simp] theorem setWord_xsp (a v : Nat) : (s.setWord a v).xsp = s.xsp := rfl
@[simp] theorem setWord_hostIrq (a v : Nat) : (s.setWord a v).hostIrq = s.hostIrq := rfl
@[simp] theorem setWord_ml (a v : Nat) : (s.setWord a v).ml = s.ml := rfl
@[simp] theorem setWord_sec (a v : Nat) : (s.setWord a v).sec = s.sec := rfl
@[simp] theorem setWord_boot (a v : Nat) : (s.setWord a v).boot = s.boot := rfl
@[simp] theorem setWord_flash (a v : Nat) : (s.setWord a v).flash = s.flash := rfl
@[simp] theorem setWord_dieReset (a v : Nat) : (s.setWord a v).dieReset = s.dieReset := rfl
@[simp] theorem setWord_holds (a v : Nat) : (s.setWord a v).holds = s.holds := rfl
@[simp] theorem setWord_railsLow (a v : Nat) : (s.setWord a v).railsLow = s.railsLow := rfl
@[simp] theorem setWord_committed (a v : Nat) : (s.setWord a v).committed = s.committed := rfl
@[simp] theorem setWord_spsTick (a v : Nat) : (s.setWord a v).spsTick = s.spsTick := rfl
@[simp] theorem setWord_protect (a v : Nat) : (s.setWord a v).protect = s.protect := rfl
@[simp] theorem setWord_sioIn (a v : Nat) : (s.setWord a v).sioIn = s.sioIn := rfl
@[simp] theorem setWord_sioOut (a v : Nat) : (s.setWord a v).sioOut = s.sioOut := rfl
@[simp] theorem setWord_accCmd (a v : Nat) : (s.setWord a v).accCmd = s.accCmd := rfl
@[simp] theorem setWord_lb (a v : Nat) : (s.setWord a v).lb = s.lb := rfl
@[simp] theorem setWord_jtag (a v : Nat) : (s.setWord a v).jtag = s.jtag := rfl
@[simp] theorem setWord_boundary (a v : Nat) : (s.setWord a v).boundary = s.boundary := rfl

/-! ### What `setF` leaves -/

@[simp] theorem setF_pending (x : Field) (v : Nat) : (s.setF x v).pending = s.pending := rfl
@[simp] theorem setF_tick (x : Field) (v : Nat) : (s.setF x v).tick = s.tick := rfl
@[simp] theorem setF_free (x : Field) (v : Nat) : (s.setF x v).free = s.free := rfl
@[simp] theorem setF_latch (x : Field) (v : Nat) : (s.setF x v).latch = s.latch := rfl
@[simp] theorem setF_held (x : Field) (v : Nat) : (s.setF x v).held = s.held := rfl
@[simp] theorem setF_mem (x : Field) (v : Nat) : (s.setF x v).mem = s.mem := rfl
@[simp] theorem setF_lost (x : Field) (v : Nat) : (s.setF x v).lost = s.lost := rfl
@[simp] theorem setF_g6Hot (x : Field) (v : Nat) : (s.setF x v).g6Hot = s.g6Hot := rfl
@[simp] theorem setF_resp (x : Field) (v : Nat) : (s.setF x v).resp = s.resp := rfl
@[simp] theorem setF_rdata (x : Field) (v : Nat) : (s.setF x v).rdata = s.rdata := rfl
@[simp] theorem setF_evt (x : Field) (v : Nat) : (s.setF x v).evt = s.evt := rfl
@[simp] theorem setF_vdBusy (x : Field) (v : Nat) : (s.setF x v).vdBusy = s.vdBusy := rfl
@[simp] theorem setF_soutReq (x : Field) (v : Nat) : (s.setF x v).soutReq = s.soutReq := rfl
@[simp] theorem setF_enabled (x : Field) (v : Nat) : (s.setF x v).enabled = s.enabled := rfl
@[simp] theorem setF_ctxs (x : Field) (v : Nat) : (s.setF x v).ctxs = s.ctxs := rfl
@[simp] theorem setF_accSeq (x : Field) (v : Nat) : (s.setF x v).accSeq = s.accSeq := rfl
@[simp] theorem setF_verdict (x : Field) (v : Nat) : (s.setF x v).verdict = s.verdict := rfl
@[simp] theorem setF_cin (x : Field) (v : Nat) : (s.setF x v).cin = s.cin := rfl
@[simp] theorem setF_slots (x : Field) (v : Nat) : (s.setF x v).slots = s.slots := rfl
@[simp] theorem setF_tx (x : Field) (v : Nat) : (s.setF x v).tx = s.tx := rfl
@[simp] theorem setF_plibBad (x : Field) (v : Nat) : (s.setF x v).plibBad = s.plibBad := rfl
@[simp] theorem setF_evOpen (x : Field) (v : Nat) : (s.setF x v).evOpen = s.evOpen := rfl
@[simp] theorem setF_evSlots (x : Field) (v : Nat) : (s.setF x v).evSlots = s.evSlots := rfl
@[simp] theorem setF_evTimer (x : Field) (v : Nat) : (s.setF x v).evTimer = s.evTimer := rfl
@[simp] theorem setF_evTimerOn (x : Field) (v : Nat) : (s.setF x v).evTimerOn = s.evTimerOn := rfl
@[simp] theorem setF_harts (x : Field) (v : Nat) : (s.setF x v).harts = s.harts := rfl
@[simp] theorem setF_instret (x : Field) (v : Nat) : (s.setF x v).instret = s.instret := rfl
@[simp] theorem setF_vp2 (x : Field) (v : Nat) : (s.setF x v).vp2 = s.vp2 := rfl
@[simp] theorem setF_agParams (x : Field) (v : Nat) : (s.setF x v).agParams = s.agParams := rfl
@[simp] theorem setF_gs (x : Field) (v : Nat) : (s.setF x v).gs = s.gs := rfl
@[simp] theorem setF_since (x : Field) (v : Nat) : (s.setF x v).since = s.since := rfl
@[simp] theorem setF_ct (x : Field) (v : Nat) : (s.setF x v).ct = s.ct := rfl
@[simp] theorem setF_pairs (x : Field) (v : Nat) : (s.setF x v).pairs = s.pairs := rfl
@[simp] theorem setF_roleMoves (x : Field) (v : Nat) : (s.setF x v).roleMoves = s.roleMoves := rfl
@[simp] theorem setF_mbx (x : Field) (v : Nat) : (s.setF x v).mbx = s.mbx := rfl
@[simp] theorem setF_retFlag (x : Field) (v : Nat) : (s.setF x v).retFlag = s.retFlag := rfl
@[simp] theorem setF_fc (x : Field) (v : Nat) : (s.setF x v).fc = s.fc := rfl
@[simp] theorem setF_wd (x : Field) (v : Nat) : (s.setF x v).wd = s.wd := rfl
@[simp] theorem setF_dma (x : Field) (v : Nat) : (s.setF x v).dma = s.dma := rfl
@[simp] theorem setF_tm (x : Field) (v : Nat) : (s.setF x v).tm = s.tm := rfl
@[simp] theorem setF_eth (x : Field) (v : Nat) : (s.setF x v).eth = s.eth := rfl
@[simp] theorem setF_ibi (x : Field) (v : Nat) : (s.setF x v).ibi = s.ibi := rfl
@[simp] theorem setF_i3c (x : Field) (v : Nat) : (s.setF x v).i3c = s.i3c := rfl
@[simp] theorem setF_xsp (x : Field) (v : Nat) : (s.setF x v).xsp = s.xsp := rfl
@[simp] theorem setF_hostIrq (x : Field) (v : Nat) : (s.setF x v).hostIrq = s.hostIrq := rfl
@[simp] theorem setF_ml (x : Field) (v : Nat) : (s.setF x v).ml = s.ml := rfl
@[simp] theorem setF_sec (x : Field) (v : Nat) : (s.setF x v).sec = s.sec := rfl
@[simp] theorem setF_boot (x : Field) (v : Nat) : (s.setF x v).boot = s.boot := rfl
@[simp] theorem setF_flash (x : Field) (v : Nat) : (s.setF x v).flash = s.flash := rfl
@[simp] theorem setF_dieReset (x : Field) (v : Nat) : (s.setF x v).dieReset = s.dieReset := rfl
@[simp] theorem setF_holds (x : Field) (v : Nat) : (s.setF x v).holds = s.holds := rfl
@[simp] theorem setF_railsLow (x : Field) (v : Nat) : (s.setF x v).railsLow = s.railsLow := rfl
@[simp] theorem setF_committed (x : Field) (v : Nat) : (s.setF x v).committed = s.committed := rfl
@[simp] theorem setF_spsTick (x : Field) (v : Nat) : (s.setF x v).spsTick = s.spsTick := rfl
@[simp] theorem setF_protect (x : Field) (v : Nat) : (s.setF x v).protect = s.protect := rfl
@[simp] theorem setF_sioIn (x : Field) (v : Nat) : (s.setF x v).sioIn = s.sioIn := rfl
@[simp] theorem setF_sioOut (x : Field) (v : Nat) : (s.setF x v).sioOut = s.sioOut := rfl
@[simp] theorem setF_accCmd (x : Field) (v : Nat) : (s.setF x v).accCmd = s.accCmd := rfl
@[simp] theorem setF_lb (x : Field) (v : Nat) : (s.setF x v).lb = s.lb := rfl
@[simp] theorem setF_jtag (x : Field) (v : Nat) : (s.setF x v).jtag = s.jtag := rfl
@[simp] theorem setF_boundary (x : Field) (v : Nat) : (s.setF x v).boundary = s.boundary := rfl

/-! ### What `flag` leaves -/

@[simp] theorem flag_pending (x : Field) (b : Bool) : (s.flag x b).pending = s.pending := rfl
@[simp] theorem flag_tick (x : Field) (b : Bool) : (s.flag x b).tick = s.tick := rfl
@[simp] theorem flag_free (x : Field) (b : Bool) : (s.flag x b).free = s.free := rfl
@[simp] theorem flag_latch (x : Field) (b : Bool) : (s.flag x b).latch = s.latch := rfl
@[simp] theorem flag_held (x : Field) (b : Bool) : (s.flag x b).held = s.held := rfl
@[simp] theorem flag_mem (x : Field) (b : Bool) : (s.flag x b).mem = s.mem := rfl
@[simp] theorem flag_lost (x : Field) (b : Bool) : (s.flag x b).lost = s.lost := rfl
@[simp] theorem flag_g6Hot (x : Field) (b : Bool) : (s.flag x b).g6Hot = s.g6Hot := rfl
@[simp] theorem flag_resp (x : Field) (b : Bool) : (s.flag x b).resp = s.resp := rfl
@[simp] theorem flag_rdata (x : Field) (b : Bool) : (s.flag x b).rdata = s.rdata := rfl
@[simp] theorem flag_evt (x : Field) (b : Bool) : (s.flag x b).evt = s.evt := rfl
@[simp] theorem flag_vdBusy (x : Field) (b : Bool) : (s.flag x b).vdBusy = s.vdBusy := rfl
@[simp] theorem flag_soutReq (x : Field) (b : Bool) : (s.flag x b).soutReq = s.soutReq := rfl
@[simp] theorem flag_enabled (x : Field) (b : Bool) : (s.flag x b).enabled = s.enabled := rfl
@[simp] theorem flag_ctxs (x : Field) (b : Bool) : (s.flag x b).ctxs = s.ctxs := rfl
@[simp] theorem flag_accSeq (x : Field) (b : Bool) : (s.flag x b).accSeq = s.accSeq := rfl
@[simp] theorem flag_verdict (x : Field) (b : Bool) : (s.flag x b).verdict = s.verdict := rfl
@[simp] theorem flag_cin (x : Field) (b : Bool) : (s.flag x b).cin = s.cin := rfl
@[simp] theorem flag_slots (x : Field) (b : Bool) : (s.flag x b).slots = s.slots := rfl
@[simp] theorem flag_tx (x : Field) (b : Bool) : (s.flag x b).tx = s.tx := rfl
@[simp] theorem flag_plibBad (x : Field) (b : Bool) : (s.flag x b).plibBad = s.plibBad := rfl
@[simp] theorem flag_evOpen (x : Field) (b : Bool) : (s.flag x b).evOpen = s.evOpen := rfl
@[simp] theorem flag_evSlots (x : Field) (b : Bool) : (s.flag x b).evSlots = s.evSlots := rfl
@[simp] theorem flag_evTimer (x : Field) (b : Bool) : (s.flag x b).evTimer = s.evTimer := rfl
@[simp] theorem flag_evTimerOn (x : Field) (b : Bool) : (s.flag x b).evTimerOn = s.evTimerOn := rfl
@[simp] theorem flag_harts (x : Field) (b : Bool) : (s.flag x b).harts = s.harts := rfl
@[simp] theorem flag_instret (x : Field) (b : Bool) : (s.flag x b).instret = s.instret := rfl
@[simp] theorem flag_vp2 (x : Field) (b : Bool) : (s.flag x b).vp2 = s.vp2 := rfl
@[simp] theorem flag_agParams (x : Field) (b : Bool) : (s.flag x b).agParams = s.agParams := rfl
@[simp] theorem flag_gs (x : Field) (b : Bool) : (s.flag x b).gs = s.gs := rfl
@[simp] theorem flag_since (x : Field) (b : Bool) : (s.flag x b).since = s.since := rfl
@[simp] theorem flag_ct (x : Field) (b : Bool) : (s.flag x b).ct = s.ct := rfl
@[simp] theorem flag_pairs (x : Field) (b : Bool) : (s.flag x b).pairs = s.pairs := rfl
@[simp] theorem flag_roleMoves (x : Field) (b : Bool) : (s.flag x b).roleMoves = s.roleMoves := rfl
@[simp] theorem flag_mbx (x : Field) (b : Bool) : (s.flag x b).mbx = s.mbx := rfl
@[simp] theorem flag_retFlag (x : Field) (b : Bool) : (s.flag x b).retFlag = s.retFlag := rfl
@[simp] theorem flag_fc (x : Field) (b : Bool) : (s.flag x b).fc = s.fc := rfl
@[simp] theorem flag_wd (x : Field) (b : Bool) : (s.flag x b).wd = s.wd := rfl
@[simp] theorem flag_dma (x : Field) (b : Bool) : (s.flag x b).dma = s.dma := rfl
@[simp] theorem flag_tm (x : Field) (b : Bool) : (s.flag x b).tm = s.tm := rfl
@[simp] theorem flag_eth (x : Field) (b : Bool) : (s.flag x b).eth = s.eth := rfl
@[simp] theorem flag_ibi (x : Field) (b : Bool) : (s.flag x b).ibi = s.ibi := rfl
@[simp] theorem flag_i3c (x : Field) (b : Bool) : (s.flag x b).i3c = s.i3c := rfl
@[simp] theorem flag_xsp (x : Field) (b : Bool) : (s.flag x b).xsp = s.xsp := rfl
@[simp] theorem flag_hostIrq (x : Field) (b : Bool) : (s.flag x b).hostIrq = s.hostIrq := rfl
@[simp] theorem flag_ml (x : Field) (b : Bool) : (s.flag x b).ml = s.ml := rfl
@[simp] theorem flag_sec (x : Field) (b : Bool) : (s.flag x b).sec = s.sec := rfl
@[simp] theorem flag_boot (x : Field) (b : Bool) : (s.flag x b).boot = s.boot := rfl
@[simp] theorem flag_flash (x : Field) (b : Bool) : (s.flag x b).flash = s.flash := rfl
@[simp] theorem flag_dieReset (x : Field) (b : Bool) : (s.flag x b).dieReset = s.dieReset := rfl
@[simp] theorem flag_holds (x : Field) (b : Bool) : (s.flag x b).holds = s.holds := rfl
@[simp] theorem flag_railsLow (x : Field) (b : Bool) : (s.flag x b).railsLow = s.railsLow := rfl
@[simp] theorem flag_committed (x : Field) (b : Bool) : (s.flag x b).committed = s.committed := rfl
@[simp] theorem flag_spsTick (x : Field) (b : Bool) : (s.flag x b).spsTick = s.spsTick := rfl
@[simp] theorem flag_protect (x : Field) (b : Bool) : (s.flag x b).protect = s.protect := rfl
@[simp] theorem flag_sioIn (x : Field) (b : Bool) : (s.flag x b).sioIn = s.sioIn := rfl
@[simp] theorem flag_sioOut (x : Field) (b : Bool) : (s.flag x b).sioOut = s.sioOut := rfl
@[simp] theorem flag_accCmd (x : Field) (b : Bool) : (s.flag x b).accCmd = s.accCmd := rfl
@[simp] theorem flag_lb (x : Field) (b : Bool) : (s.flag x b).lb = s.lb := rfl
@[simp] theorem flag_jtag (x : Field) (b : Bool) : (s.flag x b).jtag = s.jtag := rfl
@[simp] theorem flag_boundary (x : Field) (b : Bool) : (s.flag x b).boundary = s.boundary := rfl

/-! ### What `setDword` leaves -/

@[simp] theorem setDword_pending (a v : Nat) : (s.setDword a v).pending = s.pending := rfl
@[simp] theorem setDword_tick (a v : Nat) : (s.setDword a v).tick = s.tick := rfl
@[simp] theorem setDword_free (a v : Nat) : (s.setDword a v).free = s.free := rfl
@[simp] theorem setDword_latch (a v : Nat) : (s.setDword a v).latch = s.latch := rfl
@[simp] theorem setDword_held (a v : Nat) : (s.setDword a v).held = s.held := rfl
@[simp] theorem setDword_mem (a v : Nat) : (s.setDword a v).mem = s.mem := rfl
@[simp] theorem setDword_lost (a v : Nat) : (s.setDword a v).lost = s.lost := rfl
@[simp] theorem setDword_g6Hot (a v : Nat) : (s.setDword a v).g6Hot = s.g6Hot := rfl
@[simp] theorem setDword_resp (a v : Nat) : (s.setDword a v).resp = s.resp := rfl
@[simp] theorem setDword_rdata (a v : Nat) : (s.setDword a v).rdata = s.rdata := rfl
@[simp] theorem setDword_evt (a v : Nat) : (s.setDword a v).evt = s.evt := rfl
@[simp] theorem setDword_vdBusy (a v : Nat) : (s.setDword a v).vdBusy = s.vdBusy := rfl
@[simp] theorem setDword_soutReq (a v : Nat) : (s.setDword a v).soutReq = s.soutReq := rfl
@[simp] theorem setDword_enabled (a v : Nat) : (s.setDword a v).enabled = s.enabled := rfl
@[simp] theorem setDword_ctxs (a v : Nat) : (s.setDword a v).ctxs = s.ctxs := rfl
@[simp] theorem setDword_accSeq (a v : Nat) : (s.setDword a v).accSeq = s.accSeq := rfl
@[simp] theorem setDword_verdict (a v : Nat) : (s.setDword a v).verdict = s.verdict := rfl
@[simp] theorem setDword_cin (a v : Nat) : (s.setDword a v).cin = s.cin := rfl
@[simp] theorem setDword_slots (a v : Nat) : (s.setDword a v).slots = s.slots := rfl
@[simp] theorem setDword_tx (a v : Nat) : (s.setDword a v).tx = s.tx := rfl
@[simp] theorem setDword_plibBad (a v : Nat) : (s.setDword a v).plibBad = s.plibBad := rfl
@[simp] theorem setDword_evOpen (a v : Nat) : (s.setDword a v).evOpen = s.evOpen := rfl
@[simp] theorem setDword_evSlots (a v : Nat) : (s.setDword a v).evSlots = s.evSlots := rfl
@[simp] theorem setDword_evTimer (a v : Nat) : (s.setDword a v).evTimer = s.evTimer := rfl
@[simp] theorem setDword_evTimerOn (a v : Nat) : (s.setDword a v).evTimerOn = s.evTimerOn := rfl
@[simp] theorem setDword_harts (a v : Nat) : (s.setDword a v).harts = s.harts := rfl
@[simp] theorem setDword_instret (a v : Nat) : (s.setDword a v).instret = s.instret := rfl
@[simp] theorem setDword_vp2 (a v : Nat) : (s.setDword a v).vp2 = s.vp2 := rfl
@[simp] theorem setDword_agParams (a v : Nat) : (s.setDword a v).agParams = s.agParams := rfl
@[simp] theorem setDword_gs (a v : Nat) : (s.setDword a v).gs = s.gs := rfl
@[simp] theorem setDword_since (a v : Nat) : (s.setDword a v).since = s.since := rfl
@[simp] theorem setDword_ct (a v : Nat) : (s.setDword a v).ct = s.ct := rfl
@[simp] theorem setDword_pairs (a v : Nat) : (s.setDword a v).pairs = s.pairs := rfl
@[simp] theorem setDword_roleMoves (a v : Nat) : (s.setDword a v).roleMoves = s.roleMoves := rfl
@[simp] theorem setDword_mbx (a v : Nat) : (s.setDword a v).mbx = s.mbx := rfl
@[simp] theorem setDword_retFlag (a v : Nat) : (s.setDword a v).retFlag = s.retFlag := rfl
@[simp] theorem setDword_fc (a v : Nat) : (s.setDword a v).fc = s.fc := rfl
@[simp] theorem setDword_wd (a v : Nat) : (s.setDword a v).wd = s.wd := rfl
@[simp] theorem setDword_dma (a v : Nat) : (s.setDword a v).dma = s.dma := rfl
@[simp] theorem setDword_tm (a v : Nat) : (s.setDword a v).tm = s.tm := rfl
@[simp] theorem setDword_eth (a v : Nat) : (s.setDword a v).eth = s.eth := rfl
@[simp] theorem setDword_ibi (a v : Nat) : (s.setDword a v).ibi = s.ibi := rfl
@[simp] theorem setDword_i3c (a v : Nat) : (s.setDword a v).i3c = s.i3c := rfl
@[simp] theorem setDword_xsp (a v : Nat) : (s.setDword a v).xsp = s.xsp := rfl
@[simp] theorem setDword_hostIrq (a v : Nat) : (s.setDword a v).hostIrq = s.hostIrq := rfl
@[simp] theorem setDword_ml (a v : Nat) : (s.setDword a v).ml = s.ml := rfl
@[simp] theorem setDword_sec (a v : Nat) : (s.setDword a v).sec = s.sec := rfl
@[simp] theorem setDword_boot (a v : Nat) : (s.setDword a v).boot = s.boot := rfl
@[simp] theorem setDword_flash (a v : Nat) : (s.setDword a v).flash = s.flash := rfl
@[simp] theorem setDword_dieReset (a v : Nat) : (s.setDword a v).dieReset = s.dieReset := rfl
@[simp] theorem setDword_holds (a v : Nat) : (s.setDword a v).holds = s.holds := rfl
@[simp] theorem setDword_railsLow (a v : Nat) : (s.setDword a v).railsLow = s.railsLow := rfl
@[simp] theorem setDword_committed (a v : Nat) : (s.setDword a v).committed = s.committed := rfl
@[simp] theorem setDword_spsTick (a v : Nat) : (s.setDword a v).spsTick = s.spsTick := rfl
@[simp] theorem setDword_protect (a v : Nat) : (s.setDword a v).protect = s.protect := rfl
@[simp] theorem setDword_sioIn (a v : Nat) : (s.setDword a v).sioIn = s.sioIn := rfl
@[simp] theorem setDword_sioOut (a v : Nat) : (s.setDword a v).sioOut = s.sioOut := rfl
@[simp] theorem setDword_accCmd (a v : Nat) : (s.setDword a v).accCmd = s.accCmd := rfl
@[simp] theorem setDword_lb (a v : Nat) : (s.setDword a v).lb = s.lb := rfl
@[simp] theorem setDword_jtag (a v : Nat) : (s.setDword a v).jtag = s.jtag := rfl
@[simp] theorem setDword_boundary (a v : Nat) : (s.setDword a v).boundary = s.boundary := rfl

/-! ### What `respond` leaves -/

@[simp] theorem respond_pending (r : Resp) : (s.respond r).pending = s.pending := rfl
@[simp] theorem respond_tick (r : Resp) : (s.respond r).tick = s.tick := rfl
@[simp] theorem respond_free (r : Resp) : (s.respond r).free = s.free := rfl
@[simp] theorem respond_regs (r : Resp) : (s.respond r).regs = s.regs := rfl
@[simp] theorem respond_latch (r : Resp) : (s.respond r).latch = s.latch := rfl
@[simp] theorem respond_held (r : Resp) : (s.respond r).held = s.held := rfl
@[simp] theorem respond_mem (r : Resp) : (s.respond r).mem = s.mem := rfl
@[simp] theorem respond_lost (r : Resp) : (s.respond r).lost = s.lost := rfl
@[simp] theorem respond_g6Hot (r : Resp) : (s.respond r).g6Hot = s.g6Hot := rfl
@[simp] theorem respond_rdata (r : Resp) : (s.respond r).rdata = s.rdata := rfl
@[simp] theorem respond_evt (r : Resp) : (s.respond r).evt = s.evt := rfl
@[simp] theorem respond_vdBusy (r : Resp) : (s.respond r).vdBusy = s.vdBusy := rfl
@[simp] theorem respond_soutReq (r : Resp) : (s.respond r).soutReq = s.soutReq := rfl
@[simp] theorem respond_enabled (r : Resp) : (s.respond r).enabled = s.enabled := rfl
@[simp] theorem respond_ctxs (r : Resp) : (s.respond r).ctxs = s.ctxs := rfl
@[simp] theorem respond_accSeq (r : Resp) : (s.respond r).accSeq = s.accSeq := rfl
@[simp] theorem respond_verdict (r : Resp) : (s.respond r).verdict = s.verdict := rfl
@[simp] theorem respond_cin (r : Resp) : (s.respond r).cin = s.cin := rfl
@[simp] theorem respond_slots (r : Resp) : (s.respond r).slots = s.slots := rfl
@[simp] theorem respond_tx (r : Resp) : (s.respond r).tx = s.tx := rfl
@[simp] theorem respond_plibBad (r : Resp) : (s.respond r).plibBad = s.plibBad := rfl
@[simp] theorem respond_evOpen (r : Resp) : (s.respond r).evOpen = s.evOpen := rfl
@[simp] theorem respond_evSlots (r : Resp) : (s.respond r).evSlots = s.evSlots := rfl
@[simp] theorem respond_evTimer (r : Resp) : (s.respond r).evTimer = s.evTimer := rfl
@[simp] theorem respond_evTimerOn (r : Resp) : (s.respond r).evTimerOn = s.evTimerOn := rfl
@[simp] theorem respond_harts (r : Resp) : (s.respond r).harts = s.harts := rfl
@[simp] theorem respond_instret (r : Resp) : (s.respond r).instret = s.instret := rfl
@[simp] theorem respond_vp2 (r : Resp) : (s.respond r).vp2 = s.vp2 := rfl
@[simp] theorem respond_agParams (r : Resp) : (s.respond r).agParams = s.agParams := rfl
@[simp] theorem respond_gs (r : Resp) : (s.respond r).gs = s.gs := rfl
@[simp] theorem respond_since (r : Resp) : (s.respond r).since = s.since := rfl
@[simp] theorem respond_ct (r : Resp) : (s.respond r).ct = s.ct := rfl
@[simp] theorem respond_pairs (r : Resp) : (s.respond r).pairs = s.pairs := rfl
@[simp] theorem respond_roleMoves (r : Resp) : (s.respond r).roleMoves = s.roleMoves := rfl
@[simp] theorem respond_mbx (r : Resp) : (s.respond r).mbx = s.mbx := rfl
@[simp] theorem respond_retFlag (r : Resp) : (s.respond r).retFlag = s.retFlag := rfl
@[simp] theorem respond_fc (r : Resp) : (s.respond r).fc = s.fc := rfl
@[simp] theorem respond_wd (r : Resp) : (s.respond r).wd = s.wd := rfl
@[simp] theorem respond_dma (r : Resp) : (s.respond r).dma = s.dma := rfl
@[simp] theorem respond_tm (r : Resp) : (s.respond r).tm = s.tm := rfl
@[simp] theorem respond_eth (r : Resp) : (s.respond r).eth = s.eth := rfl
@[simp] theorem respond_ibi (r : Resp) : (s.respond r).ibi = s.ibi := rfl
@[simp] theorem respond_i3c (r : Resp) : (s.respond r).i3c = s.i3c := rfl
@[simp] theorem respond_xsp (r : Resp) : (s.respond r).xsp = s.xsp := rfl
@[simp] theorem respond_hostIrq (r : Resp) : (s.respond r).hostIrq = s.hostIrq := rfl
@[simp] theorem respond_ml (r : Resp) : (s.respond r).ml = s.ml := rfl
@[simp] theorem respond_sec (r : Resp) : (s.respond r).sec = s.sec := rfl
@[simp] theorem respond_boot (r : Resp) : (s.respond r).boot = s.boot := rfl
@[simp] theorem respond_flash (r : Resp) : (s.respond r).flash = s.flash := rfl
@[simp] theorem respond_dieReset (r : Resp) : (s.respond r).dieReset = s.dieReset := rfl
@[simp] theorem respond_holds (r : Resp) : (s.respond r).holds = s.holds := rfl
@[simp] theorem respond_railsLow (r : Resp) : (s.respond r).railsLow = s.railsLow := rfl
@[simp] theorem respond_committed (r : Resp) : (s.respond r).committed = s.committed := rfl
@[simp] theorem respond_spsTick (r : Resp) : (s.respond r).spsTick = s.spsTick := rfl
@[simp] theorem respond_protect (r : Resp) : (s.respond r).protect = s.protect := rfl
@[simp] theorem respond_sioIn (r : Resp) : (s.respond r).sioIn = s.sioIn := rfl
@[simp] theorem respond_sioOut (r : Resp) : (s.respond r).sioOut = s.sioOut := rfl
@[simp] theorem respond_accCmd (r : Resp) : (s.respond r).accCmd = s.accCmd := rfl
@[simp] theorem respond_lb (r : Resp) : (s.respond r).lb = s.lb := rfl
@[simp] theorem respond_jtag (r : Resp) : (s.respond r).jtag = s.jtag := rfl
@[simp] theorem respond_boundary (r : Resp) : (s.respond r).boundary = s.boundary := rfl

/-! ### What `returned` leaves -/

@[simp] theorem returned_pending (l : List Nat) : (s.returned l).pending = s.pending := rfl
@[simp] theorem returned_tick (l : List Nat) : (s.returned l).tick = s.tick := rfl
@[simp] theorem returned_free (l : List Nat) : (s.returned l).free = s.free := rfl
@[simp] theorem returned_regs (l : List Nat) : (s.returned l).regs = s.regs := rfl
@[simp] theorem returned_latch (l : List Nat) : (s.returned l).latch = s.latch := rfl
@[simp] theorem returned_held (l : List Nat) : (s.returned l).held = s.held := rfl
@[simp] theorem returned_mem (l : List Nat) : (s.returned l).mem = s.mem := rfl
@[simp] theorem returned_lost (l : List Nat) : (s.returned l).lost = s.lost := rfl
@[simp] theorem returned_g6Hot (l : List Nat) : (s.returned l).g6Hot = s.g6Hot := rfl
@[simp] theorem returned_resp (l : List Nat) : (s.returned l).resp = s.resp := rfl
@[simp] theorem returned_evt (l : List Nat) : (s.returned l).evt = s.evt := rfl
@[simp] theorem returned_vdBusy (l : List Nat) : (s.returned l).vdBusy = s.vdBusy := rfl
@[simp] theorem returned_soutReq (l : List Nat) : (s.returned l).soutReq = s.soutReq := rfl
@[simp] theorem returned_enabled (l : List Nat) : (s.returned l).enabled = s.enabled := rfl
@[simp] theorem returned_ctxs (l : List Nat) : (s.returned l).ctxs = s.ctxs := rfl
@[simp] theorem returned_accSeq (l : List Nat) : (s.returned l).accSeq = s.accSeq := rfl
@[simp] theorem returned_verdict (l : List Nat) : (s.returned l).verdict = s.verdict := rfl
@[simp] theorem returned_cin (l : List Nat) : (s.returned l).cin = s.cin := rfl
@[simp] theorem returned_slots (l : List Nat) : (s.returned l).slots = s.slots := rfl
@[simp] theorem returned_tx (l : List Nat) : (s.returned l).tx = s.tx := rfl
@[simp] theorem returned_plibBad (l : List Nat) : (s.returned l).plibBad = s.plibBad := rfl
@[simp] theorem returned_evOpen (l : List Nat) : (s.returned l).evOpen = s.evOpen := rfl
@[simp] theorem returned_evSlots (l : List Nat) : (s.returned l).evSlots = s.evSlots := rfl
@[simp] theorem returned_evTimer (l : List Nat) : (s.returned l).evTimer = s.evTimer := rfl
@[simp] theorem returned_evTimerOn (l : List Nat) : (s.returned l).evTimerOn = s.evTimerOn := rfl
@[simp] theorem returned_harts (l : List Nat) : (s.returned l).harts = s.harts := rfl
@[simp] theorem returned_instret (l : List Nat) : (s.returned l).instret = s.instret := rfl
@[simp] theorem returned_vp2 (l : List Nat) : (s.returned l).vp2 = s.vp2 := rfl
@[simp] theorem returned_agParams (l : List Nat) : (s.returned l).agParams = s.agParams := rfl
@[simp] theorem returned_gs (l : List Nat) : (s.returned l).gs = s.gs := rfl
@[simp] theorem returned_since (l : List Nat) : (s.returned l).since = s.since := rfl
@[simp] theorem returned_ct (l : List Nat) : (s.returned l).ct = s.ct := rfl
@[simp] theorem returned_pairs (l : List Nat) : (s.returned l).pairs = s.pairs := rfl
@[simp] theorem returned_roleMoves (l : List Nat) : (s.returned l).roleMoves = s.roleMoves := rfl
@[simp] theorem returned_mbx (l : List Nat) : (s.returned l).mbx = s.mbx := rfl
@[simp] theorem returned_retFlag (l : List Nat) : (s.returned l).retFlag = s.retFlag := rfl
@[simp] theorem returned_fc (l : List Nat) : (s.returned l).fc = s.fc := rfl
@[simp] theorem returned_wd (l : List Nat) : (s.returned l).wd = s.wd := rfl
@[simp] theorem returned_dma (l : List Nat) : (s.returned l).dma = s.dma := rfl
@[simp] theorem returned_tm (l : List Nat) : (s.returned l).tm = s.tm := rfl
@[simp] theorem returned_eth (l : List Nat) : (s.returned l).eth = s.eth := rfl
@[simp] theorem returned_ibi (l : List Nat) : (s.returned l).ibi = s.ibi := rfl
@[simp] theorem returned_i3c (l : List Nat) : (s.returned l).i3c = s.i3c := rfl
@[simp] theorem returned_xsp (l : List Nat) : (s.returned l).xsp = s.xsp := rfl
@[simp] theorem returned_hostIrq (l : List Nat) : (s.returned l).hostIrq = s.hostIrq := rfl
@[simp] theorem returned_ml (l : List Nat) : (s.returned l).ml = s.ml := rfl
@[simp] theorem returned_sec (l : List Nat) : (s.returned l).sec = s.sec := rfl
@[simp] theorem returned_boot (l : List Nat) : (s.returned l).boot = s.boot := rfl
@[simp] theorem returned_flash (l : List Nat) : (s.returned l).flash = s.flash := rfl
@[simp] theorem returned_dieReset (l : List Nat) : (s.returned l).dieReset = s.dieReset := rfl
@[simp] theorem returned_holds (l : List Nat) : (s.returned l).holds = s.holds := rfl
@[simp] theorem returned_railsLow (l : List Nat) : (s.returned l).railsLow = s.railsLow := rfl
@[simp] theorem returned_committed (l : List Nat) : (s.returned l).committed = s.committed := rfl
@[simp] theorem returned_spsTick (l : List Nat) : (s.returned l).spsTick = s.spsTick := rfl
@[simp] theorem returned_protect (l : List Nat) : (s.returned l).protect = s.protect := rfl
@[simp] theorem returned_sioIn (l : List Nat) : (s.returned l).sioIn = s.sioIn := rfl
@[simp] theorem returned_sioOut (l : List Nat) : (s.returned l).sioOut = s.sioOut := rfl
@[simp] theorem returned_accCmd (l : List Nat) : (s.returned l).accCmd = s.accCmd := rfl
@[simp] theorem returned_lb (l : List Nat) : (s.returned l).lb = s.lb := rfl
@[simp] theorem returned_jtag (l : List Nat) : (s.returned l).jtag = s.jtag := rfl
@[simp] theorem returned_boundary (l : List Nat) : (s.returned l).boundary = s.boundary := rfl

/-! ### What `setHart` leaves -/

@[simp] theorem setHart_pending (h : Nat) (x : Hart) : (s.setHart h x).pending = s.pending := rfl
@[simp] theorem setHart_tick (h : Nat) (x : Hart) : (s.setHart h x).tick = s.tick := rfl
@[simp] theorem setHart_free (h : Nat) (x : Hart) : (s.setHart h x).free = s.free := rfl
@[simp] theorem setHart_regs (h : Nat) (x : Hart) : (s.setHart h x).regs = s.regs := rfl
@[simp] theorem setHart_latch (h : Nat) (x : Hart) : (s.setHart h x).latch = s.latch := rfl
@[simp] theorem setHart_held (h : Nat) (x : Hart) : (s.setHart h x).held = s.held := rfl
@[simp] theorem setHart_mem (h : Nat) (x : Hart) : (s.setHart h x).mem = s.mem := rfl
@[simp] theorem setHart_lost (h : Nat) (x : Hart) : (s.setHart h x).lost = s.lost := rfl
@[simp] theorem setHart_g6Hot (h : Nat) (x : Hart) : (s.setHart h x).g6Hot = s.g6Hot := rfl
@[simp] theorem setHart_resp (h : Nat) (x : Hart) : (s.setHart h x).resp = s.resp := rfl
@[simp] theorem setHart_rdata (h : Nat) (x : Hart) : (s.setHart h x).rdata = s.rdata := rfl
@[simp] theorem setHart_evt (h : Nat) (x : Hart) : (s.setHart h x).evt = s.evt := rfl
@[simp] theorem setHart_vdBusy (h : Nat) (x : Hart) : (s.setHart h x).vdBusy = s.vdBusy := rfl
@[simp] theorem setHart_soutReq (h : Nat) (x : Hart) : (s.setHart h x).soutReq = s.soutReq := rfl
@[simp] theorem setHart_enabled (h : Nat) (x : Hart) : (s.setHart h x).enabled = s.enabled := rfl
@[simp] theorem setHart_ctxs (h : Nat) (x : Hart) : (s.setHart h x).ctxs = s.ctxs := rfl
@[simp] theorem setHart_accSeq (h : Nat) (x : Hart) : (s.setHart h x).accSeq = s.accSeq := rfl
@[simp] theorem setHart_verdict (h : Nat) (x : Hart) : (s.setHart h x).verdict = s.verdict := rfl
@[simp] theorem setHart_cin (h : Nat) (x : Hart) : (s.setHart h x).cin = s.cin := rfl
@[simp] theorem setHart_slots (h : Nat) (x : Hart) : (s.setHart h x).slots = s.slots := rfl
@[simp] theorem setHart_tx (h : Nat) (x : Hart) : (s.setHart h x).tx = s.tx := rfl
@[simp] theorem setHart_plibBad (h : Nat) (x : Hart) : (s.setHart h x).plibBad = s.plibBad := rfl
@[simp] theorem setHart_evOpen (h : Nat) (x : Hart) : (s.setHart h x).evOpen = s.evOpen := rfl
@[simp] theorem setHart_evSlots (h : Nat) (x : Hart) : (s.setHart h x).evSlots = s.evSlots := rfl
@[simp] theorem setHart_evTimer (h : Nat) (x : Hart) : (s.setHart h x).evTimer = s.evTimer := rfl
@[simp] theorem setHart_evTimerOn (h : Nat) (x : Hart) : (s.setHart h x).evTimerOn = s.evTimerOn := rfl
@[simp] theorem setHart_instret (h : Nat) (x : Hart) : (s.setHart h x).instret = s.instret := rfl
@[simp] theorem setHart_vp2 (h : Nat) (x : Hart) : (s.setHart h x).vp2 = s.vp2 := rfl
@[simp] theorem setHart_agParams (h : Nat) (x : Hart) : (s.setHart h x).agParams = s.agParams := rfl
@[simp] theorem setHart_gs (h : Nat) (x : Hart) : (s.setHart h x).gs = s.gs := rfl
@[simp] theorem setHart_since (h : Nat) (x : Hart) : (s.setHart h x).since = s.since := rfl
@[simp] theorem setHart_ct (h : Nat) (x : Hart) : (s.setHart h x).ct = s.ct := rfl
@[simp] theorem setHart_pairs (h : Nat) (x : Hart) : (s.setHart h x).pairs = s.pairs := rfl
@[simp] theorem setHart_roleMoves (h : Nat) (x : Hart) : (s.setHart h x).roleMoves = s.roleMoves := rfl
@[simp] theorem setHart_mbx (h : Nat) (x : Hart) : (s.setHart h x).mbx = s.mbx := rfl
@[simp] theorem setHart_retFlag (h : Nat) (x : Hart) : (s.setHart h x).retFlag = s.retFlag := rfl
@[simp] theorem setHart_fc (h : Nat) (x : Hart) : (s.setHart h x).fc = s.fc := rfl
@[simp] theorem setHart_wd (h : Nat) (x : Hart) : (s.setHart h x).wd = s.wd := rfl
@[simp] theorem setHart_dma (h : Nat) (x : Hart) : (s.setHart h x).dma = s.dma := rfl
@[simp] theorem setHart_tm (h : Nat) (x : Hart) : (s.setHart h x).tm = s.tm := rfl
@[simp] theorem setHart_eth (h : Nat) (x : Hart) : (s.setHart h x).eth = s.eth := rfl
@[simp] theorem setHart_ibi (h : Nat) (x : Hart) : (s.setHart h x).ibi = s.ibi := rfl
@[simp] theorem setHart_i3c (h : Nat) (x : Hart) : (s.setHart h x).i3c = s.i3c := rfl
@[simp] theorem setHart_xsp (h : Nat) (x : Hart) : (s.setHart h x).xsp = s.xsp := rfl
@[simp] theorem setHart_hostIrq (h : Nat) (x : Hart) : (s.setHart h x).hostIrq = s.hostIrq := rfl
@[simp] theorem setHart_ml (h : Nat) (x : Hart) : (s.setHart h x).ml = s.ml := rfl
@[simp] theorem setHart_sec (h : Nat) (x : Hart) : (s.setHart h x).sec = s.sec := rfl
@[simp] theorem setHart_boot (h : Nat) (x : Hart) : (s.setHart h x).boot = s.boot := rfl
@[simp] theorem setHart_flash (h : Nat) (x : Hart) : (s.setHart h x).flash = s.flash := rfl
@[simp] theorem setHart_dieReset (h : Nat) (x : Hart) : (s.setHart h x).dieReset = s.dieReset := rfl
@[simp] theorem setHart_holds (h : Nat) (x : Hart) : (s.setHart h x).holds = s.holds := rfl
@[simp] theorem setHart_railsLow (h : Nat) (x : Hart) : (s.setHart h x).railsLow = s.railsLow := rfl
@[simp] theorem setHart_committed (h : Nat) (x : Hart) : (s.setHart h x).committed = s.committed := rfl
@[simp] theorem setHart_spsTick (h : Nat) (x : Hart) : (s.setHart h x).spsTick = s.spsTick := rfl
@[simp] theorem setHart_protect (h : Nat) (x : Hart) : (s.setHart h x).protect = s.protect := rfl
@[simp] theorem setHart_sioIn (h : Nat) (x : Hart) : (s.setHart h x).sioIn = s.sioIn := rfl
@[simp] theorem setHart_sioOut (h : Nat) (x : Hart) : (s.setHart h x).sioOut = s.sioOut := rfl
@[simp] theorem setHart_accCmd (h : Nat) (x : Hart) : (s.setHart h x).accCmd = s.accCmd := rfl
@[simp] theorem setHart_lb (h : Nat) (x : Hart) : (s.setHart h x).lb = s.lb := rfl
@[simp] theorem setHart_jtag (h : Nat) (x : Hart) : (s.setHart h x).jtag = s.jtag := rfl
@[simp] theorem setHart_boundary (h : Nat) (x : Hart) : (s.setHart h x).boundary = s.boundary := rfl

/-! ### What `setByte` leaves -/

@[simp] theorem setByte_pending (a : Nat) (b : Byte) : (s.setByte a b).pending = s.pending := rfl
@[simp] theorem setByte_tick (a : Nat) (b : Byte) : (s.setByte a b).tick = s.tick := rfl
@[simp] theorem setByte_free (a : Nat) (b : Byte) : (s.setByte a b).free = s.free := rfl
@[simp] theorem setByte_regs (a : Nat) (b : Byte) : (s.setByte a b).regs = s.regs := rfl
@[simp] theorem setByte_latch (a : Nat) (b : Byte) : (s.setByte a b).latch = s.latch := rfl
@[simp] theorem setByte_held (a : Nat) (b : Byte) : (s.setByte a b).held = s.held := rfl
@[simp] theorem setByte_lost (a : Nat) (b : Byte) : (s.setByte a b).lost = s.lost := rfl
@[simp] theorem setByte_g6Hot (a : Nat) (b : Byte) : (s.setByte a b).g6Hot = s.g6Hot := rfl
@[simp] theorem setByte_resp (a : Nat) (b : Byte) : (s.setByte a b).resp = s.resp := rfl
@[simp] theorem setByte_rdata (a : Nat) (b : Byte) : (s.setByte a b).rdata = s.rdata := rfl
@[simp] theorem setByte_evt (a : Nat) (b : Byte) : (s.setByte a b).evt = s.evt := rfl
@[simp] theorem setByte_vdBusy (a : Nat) (b : Byte) : (s.setByte a b).vdBusy = s.vdBusy := rfl
@[simp] theorem setByte_soutReq (a : Nat) (b : Byte) : (s.setByte a b).soutReq = s.soutReq := rfl
@[simp] theorem setByte_enabled (a : Nat) (b : Byte) : (s.setByte a b).enabled = s.enabled := rfl
@[simp] theorem setByte_ctxs (a : Nat) (b : Byte) : (s.setByte a b).ctxs = s.ctxs := rfl
@[simp] theorem setByte_accSeq (a : Nat) (b : Byte) : (s.setByte a b).accSeq = s.accSeq := rfl
@[simp] theorem setByte_verdict (a : Nat) (b : Byte) : (s.setByte a b).verdict = s.verdict := rfl
@[simp] theorem setByte_cin (a : Nat) (b : Byte) : (s.setByte a b).cin = s.cin := rfl
@[simp] theorem setByte_slots (a : Nat) (b : Byte) : (s.setByte a b).slots = s.slots := rfl
@[simp] theorem setByte_tx (a : Nat) (b : Byte) : (s.setByte a b).tx = s.tx := rfl
@[simp] theorem setByte_plibBad (a : Nat) (b : Byte) : (s.setByte a b).plibBad = s.plibBad := rfl
@[simp] theorem setByte_evOpen (a : Nat) (b : Byte) : (s.setByte a b).evOpen = s.evOpen := rfl
@[simp] theorem setByte_evSlots (a : Nat) (b : Byte) : (s.setByte a b).evSlots = s.evSlots := rfl
@[simp] theorem setByte_evTimer (a : Nat) (b : Byte) : (s.setByte a b).evTimer = s.evTimer := rfl
@[simp] theorem setByte_evTimerOn (a : Nat) (b : Byte) : (s.setByte a b).evTimerOn = s.evTimerOn := rfl
@[simp] theorem setByte_harts (a : Nat) (b : Byte) : (s.setByte a b).harts = s.harts := rfl
@[simp] theorem setByte_instret (a : Nat) (b : Byte) : (s.setByte a b).instret = s.instret := rfl
@[simp] theorem setByte_vp2 (a : Nat) (b : Byte) : (s.setByte a b).vp2 = s.vp2 := rfl
@[simp] theorem setByte_agParams (a : Nat) (b : Byte) : (s.setByte a b).agParams = s.agParams := rfl
@[simp] theorem setByte_gs (a : Nat) (b : Byte) : (s.setByte a b).gs = s.gs := rfl
@[simp] theorem setByte_since (a : Nat) (b : Byte) : (s.setByte a b).since = s.since := rfl
@[simp] theorem setByte_ct (a : Nat) (b : Byte) : (s.setByte a b).ct = s.ct := rfl
@[simp] theorem setByte_pairs (a : Nat) (b : Byte) : (s.setByte a b).pairs = s.pairs := rfl
@[simp] theorem setByte_roleMoves (a : Nat) (b : Byte) : (s.setByte a b).roleMoves = s.roleMoves := rfl
@[simp] theorem setByte_mbx (a : Nat) (b : Byte) : (s.setByte a b).mbx = s.mbx := rfl
@[simp] theorem setByte_retFlag (a : Nat) (b : Byte) : (s.setByte a b).retFlag = s.retFlag := rfl
@[simp] theorem setByte_fc (a : Nat) (b : Byte) : (s.setByte a b).fc = s.fc := rfl
@[simp] theorem setByte_wd (a : Nat) (b : Byte) : (s.setByte a b).wd = s.wd := rfl
@[simp] theorem setByte_dma (a : Nat) (b : Byte) : (s.setByte a b).dma = s.dma := rfl
@[simp] theorem setByte_tm (a : Nat) (b : Byte) : (s.setByte a b).tm = s.tm := rfl
@[simp] theorem setByte_eth (a : Nat) (b : Byte) : (s.setByte a b).eth = s.eth := rfl
@[simp] theorem setByte_ibi (a : Nat) (b : Byte) : (s.setByte a b).ibi = s.ibi := rfl
@[simp] theorem setByte_i3c (a : Nat) (b : Byte) : (s.setByte a b).i3c = s.i3c := rfl
@[simp] theorem setByte_xsp (a : Nat) (b : Byte) : (s.setByte a b).xsp = s.xsp := rfl
@[simp] theorem setByte_hostIrq (a : Nat) (b : Byte) : (s.setByte a b).hostIrq = s.hostIrq := rfl
@[simp] theorem setByte_ml (a : Nat) (b : Byte) : (s.setByte a b).ml = s.ml := rfl
@[simp] theorem setByte_sec (a : Nat) (b : Byte) : (s.setByte a b).sec = s.sec := rfl
@[simp] theorem setByte_boot (a : Nat) (b : Byte) : (s.setByte a b).boot = s.boot := rfl
@[simp] theorem setByte_flash (a : Nat) (b : Byte) : (s.setByte a b).flash = s.flash := rfl
@[simp] theorem setByte_dieReset (a : Nat) (b : Byte) : (s.setByte a b).dieReset = s.dieReset := rfl
@[simp] theorem setByte_holds (a : Nat) (b : Byte) : (s.setByte a b).holds = s.holds := rfl
@[simp] theorem setByte_railsLow (a : Nat) (b : Byte) : (s.setByte a b).railsLow = s.railsLow := rfl
@[simp] theorem setByte_committed (a : Nat) (b : Byte) : (s.setByte a b).committed = s.committed := rfl
@[simp] theorem setByte_spsTick (a : Nat) (b : Byte) : (s.setByte a b).spsTick = s.spsTick := rfl
@[simp] theorem setByte_protect (a : Nat) (b : Byte) : (s.setByte a b).protect = s.protect := rfl
@[simp] theorem setByte_sioIn (a : Nat) (b : Byte) : (s.setByte a b).sioIn = s.sioIn := rfl
@[simp] theorem setByte_sioOut (a : Nat) (b : Byte) : (s.setByte a b).sioOut = s.sioOut := rfl
@[simp] theorem setByte_accCmd (a : Nat) (b : Byte) : (s.setByte a b).accCmd = s.accCmd := rfl
@[simp] theorem setByte_lb (a : Nat) (b : Byte) : (s.setByte a b).lb = s.lb := rfl
@[simp] theorem setByte_jtag (a : Nat) (b : Byte) : (s.setByte a b).jtag = s.jtag := rfl
@[simp] theorem setByte_boundary (a : Nat) (b : Byte) : (s.setByte a b).boundary = s.boundary := rfl

/-! ### What `countUp` leaves -/

@[simp] theorem countUp_pending (x : Field) : (s.countUp x).pending = s.pending := rfl
@[simp] theorem countUp_tick (x : Field) : (s.countUp x).tick = s.tick := rfl
@[simp] theorem countUp_free (x : Field) : (s.countUp x).free = s.free := rfl
@[simp] theorem countUp_latch (x : Field) : (s.countUp x).latch = s.latch := rfl
@[simp] theorem countUp_held (x : Field) : (s.countUp x).held = s.held := rfl
@[simp] theorem countUp_mem (x : Field) : (s.countUp x).mem = s.mem := rfl
@[simp] theorem countUp_lost (x : Field) : (s.countUp x).lost = s.lost := rfl
@[simp] theorem countUp_g6Hot (x : Field) : (s.countUp x).g6Hot = s.g6Hot := rfl
@[simp] theorem countUp_resp (x : Field) : (s.countUp x).resp = s.resp := rfl
@[simp] theorem countUp_rdata (x : Field) : (s.countUp x).rdata = s.rdata := rfl
@[simp] theorem countUp_evt (x : Field) : (s.countUp x).evt = s.evt := rfl
@[simp] theorem countUp_vdBusy (x : Field) : (s.countUp x).vdBusy = s.vdBusy := rfl
@[simp] theorem countUp_soutReq (x : Field) : (s.countUp x).soutReq = s.soutReq := rfl
@[simp] theorem countUp_enabled (x : Field) : (s.countUp x).enabled = s.enabled := rfl
@[simp] theorem countUp_ctxs (x : Field) : (s.countUp x).ctxs = s.ctxs := rfl
@[simp] theorem countUp_accSeq (x : Field) : (s.countUp x).accSeq = s.accSeq := rfl
@[simp] theorem countUp_verdict (x : Field) : (s.countUp x).verdict = s.verdict := rfl
@[simp] theorem countUp_cin (x : Field) : (s.countUp x).cin = s.cin := rfl
@[simp] theorem countUp_slots (x : Field) : (s.countUp x).slots = s.slots := rfl
@[simp] theorem countUp_tx (x : Field) : (s.countUp x).tx = s.tx := rfl
@[simp] theorem countUp_plibBad (x : Field) : (s.countUp x).plibBad = s.plibBad := rfl
@[simp] theorem countUp_evOpen (x : Field) : (s.countUp x).evOpen = s.evOpen := rfl
@[simp] theorem countUp_evSlots (x : Field) : (s.countUp x).evSlots = s.evSlots := rfl
@[simp] theorem countUp_evTimer (x : Field) : (s.countUp x).evTimer = s.evTimer := rfl
@[simp] theorem countUp_evTimerOn (x : Field) : (s.countUp x).evTimerOn = s.evTimerOn := rfl
@[simp] theorem countUp_harts (x : Field) : (s.countUp x).harts = s.harts := rfl
@[simp] theorem countUp_instret (x : Field) : (s.countUp x).instret = s.instret := rfl
@[simp] theorem countUp_vp2 (x : Field) : (s.countUp x).vp2 = s.vp2 := rfl
@[simp] theorem countUp_agParams (x : Field) : (s.countUp x).agParams = s.agParams := rfl
@[simp] theorem countUp_gs (x : Field) : (s.countUp x).gs = s.gs := rfl
@[simp] theorem countUp_since (x : Field) : (s.countUp x).since = s.since := rfl
@[simp] theorem countUp_ct (x : Field) : (s.countUp x).ct = s.ct := rfl
@[simp] theorem countUp_pairs (x : Field) : (s.countUp x).pairs = s.pairs := rfl
@[simp] theorem countUp_roleMoves (x : Field) : (s.countUp x).roleMoves = s.roleMoves := rfl
@[simp] theorem countUp_mbx (x : Field) : (s.countUp x).mbx = s.mbx := rfl
@[simp] theorem countUp_retFlag (x : Field) : (s.countUp x).retFlag = s.retFlag := rfl
@[simp] theorem countUp_fc (x : Field) : (s.countUp x).fc = s.fc := rfl
@[simp] theorem countUp_wd (x : Field) : (s.countUp x).wd = s.wd := rfl
@[simp] theorem countUp_dma (x : Field) : (s.countUp x).dma = s.dma := rfl
@[simp] theorem countUp_tm (x : Field) : (s.countUp x).tm = s.tm := rfl
@[simp] theorem countUp_eth (x : Field) : (s.countUp x).eth = s.eth := rfl
@[simp] theorem countUp_ibi (x : Field) : (s.countUp x).ibi = s.ibi := rfl
@[simp] theorem countUp_i3c (x : Field) : (s.countUp x).i3c = s.i3c := rfl
@[simp] theorem countUp_xsp (x : Field) : (s.countUp x).xsp = s.xsp := rfl
@[simp] theorem countUp_hostIrq (x : Field) : (s.countUp x).hostIrq = s.hostIrq := rfl
@[simp] theorem countUp_ml (x : Field) : (s.countUp x).ml = s.ml := rfl
@[simp] theorem countUp_sec (x : Field) : (s.countUp x).sec = s.sec := rfl
@[simp] theorem countUp_boot (x : Field) : (s.countUp x).boot = s.boot := rfl
@[simp] theorem countUp_flash (x : Field) : (s.countUp x).flash = s.flash := rfl
@[simp] theorem countUp_dieReset (x : Field) : (s.countUp x).dieReset = s.dieReset := rfl
@[simp] theorem countUp_holds (x : Field) : (s.countUp x).holds = s.holds := rfl
@[simp] theorem countUp_railsLow (x : Field) : (s.countUp x).railsLow = s.railsLow := rfl
@[simp] theorem countUp_committed (x : Field) : (s.countUp x).committed = s.committed := rfl
@[simp] theorem countUp_spsTick (x : Field) : (s.countUp x).spsTick = s.spsTick := rfl
@[simp] theorem countUp_protect (x : Field) : (s.countUp x).protect = s.protect := rfl
@[simp] theorem countUp_sioIn (x : Field) : (s.countUp x).sioIn = s.sioIn := rfl
@[simp] theorem countUp_sioOut (x : Field) : (s.countUp x).sioOut = s.sioOut := rfl
@[simp] theorem countUp_accCmd (x : Field) : (s.countUp x).accCmd = s.accCmd := rfl
@[simp] theorem countUp_lb (x : Field) : (s.countUp x).lb = s.lb := rfl
@[simp] theorem countUp_jtag (x : Field) : (s.countUp x).jtag = s.jtag := rfl
@[simp] theorem countUp_boundary (x : Field) : (s.countUp x).boundary = s.boundary := rfl

/-! ### What `setRet` leaves -/

@[simp] theorem setRet_pending (o v : Nat) : (s.setRet o v).pending = s.pending := rfl
@[simp] theorem setRet_tick (o v : Nat) : (s.setRet o v).tick = s.tick := rfl
@[simp] theorem setRet_free (o v : Nat) : (s.setRet o v).free = s.free := rfl
@[simp] theorem setRet_latch (o v : Nat) : (s.setRet o v).latch = s.latch := rfl
@[simp] theorem setRet_held (o v : Nat) : (s.setRet o v).held = s.held := rfl
@[simp] theorem setRet_mem (o v : Nat) : (s.setRet o v).mem = s.mem := rfl
@[simp] theorem setRet_lost (o v : Nat) : (s.setRet o v).lost = s.lost := rfl
@[simp] theorem setRet_g6Hot (o v : Nat) : (s.setRet o v).g6Hot = s.g6Hot := rfl
@[simp] theorem setRet_resp (o v : Nat) : (s.setRet o v).resp = s.resp := rfl
@[simp] theorem setRet_rdata (o v : Nat) : (s.setRet o v).rdata = s.rdata := rfl
@[simp] theorem setRet_evt (o v : Nat) : (s.setRet o v).evt = s.evt := rfl
@[simp] theorem setRet_vdBusy (o v : Nat) : (s.setRet o v).vdBusy = s.vdBusy := rfl
@[simp] theorem setRet_soutReq (o v : Nat) : (s.setRet o v).soutReq = s.soutReq := rfl
@[simp] theorem setRet_enabled (o v : Nat) : (s.setRet o v).enabled = s.enabled := rfl
@[simp] theorem setRet_ctxs (o v : Nat) : (s.setRet o v).ctxs = s.ctxs := rfl
@[simp] theorem setRet_accSeq (o v : Nat) : (s.setRet o v).accSeq = s.accSeq := rfl
@[simp] theorem setRet_verdict (o v : Nat) : (s.setRet o v).verdict = s.verdict := rfl
@[simp] theorem setRet_cin (o v : Nat) : (s.setRet o v).cin = s.cin := rfl
@[simp] theorem setRet_slots (o v : Nat) : (s.setRet o v).slots = s.slots := rfl
@[simp] theorem setRet_tx (o v : Nat) : (s.setRet o v).tx = s.tx := rfl
@[simp] theorem setRet_plibBad (o v : Nat) : (s.setRet o v).plibBad = s.plibBad := rfl
@[simp] theorem setRet_evOpen (o v : Nat) : (s.setRet o v).evOpen = s.evOpen := rfl
@[simp] theorem setRet_evSlots (o v : Nat) : (s.setRet o v).evSlots = s.evSlots := rfl
@[simp] theorem setRet_evTimer (o v : Nat) : (s.setRet o v).evTimer = s.evTimer := rfl
@[simp] theorem setRet_evTimerOn (o v : Nat) : (s.setRet o v).evTimerOn = s.evTimerOn := rfl
@[simp] theorem setRet_harts (o v : Nat) : (s.setRet o v).harts = s.harts := rfl
@[simp] theorem setRet_instret (o v : Nat) : (s.setRet o v).instret = s.instret := rfl
@[simp] theorem setRet_vp2 (o v : Nat) : (s.setRet o v).vp2 = s.vp2 := rfl
@[simp] theorem setRet_agParams (o v : Nat) : (s.setRet o v).agParams = s.agParams := rfl
@[simp] theorem setRet_gs (o v : Nat) : (s.setRet o v).gs = s.gs := rfl
@[simp] theorem setRet_since (o v : Nat) : (s.setRet o v).since = s.since := rfl
@[simp] theorem setRet_ct (o v : Nat) : (s.setRet o v).ct = s.ct := rfl
@[simp] theorem setRet_pairs (o v : Nat) : (s.setRet o v).pairs = s.pairs := rfl
@[simp] theorem setRet_roleMoves (o v : Nat) : (s.setRet o v).roleMoves = s.roleMoves := rfl
@[simp] theorem setRet_mbx (o v : Nat) : (s.setRet o v).mbx = s.mbx := rfl
@[simp] theorem setRet_fc (o v : Nat) : (s.setRet o v).fc = s.fc := rfl
@[simp] theorem setRet_wd (o v : Nat) : (s.setRet o v).wd = s.wd := rfl
@[simp] theorem setRet_dma (o v : Nat) : (s.setRet o v).dma = s.dma := rfl
@[simp] theorem setRet_tm (o v : Nat) : (s.setRet o v).tm = s.tm := rfl
@[simp] theorem setRet_eth (o v : Nat) : (s.setRet o v).eth = s.eth := rfl
@[simp] theorem setRet_ibi (o v : Nat) : (s.setRet o v).ibi = s.ibi := rfl
@[simp] theorem setRet_i3c (o v : Nat) : (s.setRet o v).i3c = s.i3c := rfl
@[simp] theorem setRet_xsp (o v : Nat) : (s.setRet o v).xsp = s.xsp := rfl
@[simp] theorem setRet_hostIrq (o v : Nat) : (s.setRet o v).hostIrq = s.hostIrq := rfl
@[simp] theorem setRet_ml (o v : Nat) : (s.setRet o v).ml = s.ml := rfl
@[simp] theorem setRet_sec (o v : Nat) : (s.setRet o v).sec = s.sec := rfl
@[simp] theorem setRet_boot (o v : Nat) : (s.setRet o v).boot = s.boot := rfl
@[simp] theorem setRet_flash (o v : Nat) : (s.setRet o v).flash = s.flash := rfl
@[simp] theorem setRet_dieReset (o v : Nat) : (s.setRet o v).dieReset = s.dieReset := rfl
@[simp] theorem setRet_holds (o v : Nat) : (s.setRet o v).holds = s.holds := rfl
@[simp] theorem setRet_railsLow (o v : Nat) : (s.setRet o v).railsLow = s.railsLow := rfl
@[simp] theorem setRet_committed (o v : Nat) : (s.setRet o v).committed = s.committed := rfl
@[simp] theorem setRet_spsTick (o v : Nat) : (s.setRet o v).spsTick = s.spsTick := rfl
@[simp] theorem setRet_protect (o v : Nat) : (s.setRet o v).protect = s.protect := rfl
@[simp] theorem setRet_sioIn (o v : Nat) : (s.setRet o v).sioIn = s.sioIn := rfl
@[simp] theorem setRet_sioOut (o v : Nat) : (s.setRet o v).sioOut = s.sioOut := rfl
@[simp] theorem setRet_accCmd (o v : Nat) : (s.setRet o v).accCmd = s.accCmd := rfl
@[simp] theorem setRet_lb (o v : Nat) : (s.setRet o v).lb = s.lb := rfl
@[simp] theorem setRet_jtag (o v : Nat) : (s.setRet o v).jtag = s.jtag := rfl
@[simp] theorem setRet_boundary (o v : Nat) : (s.setRet o v).boundary = s.boundary := rfl

/-! ### What `withPending` leaves -/

@[simp] theorem withPending_tick (x) : (s.withPending x).tick = s.tick := rfl
@[simp] theorem withPending_free (x) : (s.withPending x).free = s.free := rfl
@[simp] theorem withPending_regs (x) : (s.withPending x).regs = s.regs := rfl
@[simp] theorem withPending_latch (x) : (s.withPending x).latch = s.latch := rfl
@[simp] theorem withPending_held (x) : (s.withPending x).held = s.held := rfl
@[simp] theorem withPending_mem (x) : (s.withPending x).mem = s.mem := rfl
@[simp] theorem withPending_lost (x) : (s.withPending x).lost = s.lost := rfl
@[simp] theorem withPending_g6Hot (x) : (s.withPending x).g6Hot = s.g6Hot := rfl
@[simp] theorem withPending_resp (x) : (s.withPending x).resp = s.resp := rfl
@[simp] theorem withPending_rdata (x) : (s.withPending x).rdata = s.rdata := rfl
@[simp] theorem withPending_evt (x) : (s.withPending x).evt = s.evt := rfl
@[simp] theorem withPending_vdBusy (x) : (s.withPending x).vdBusy = s.vdBusy := rfl
@[simp] theorem withPending_soutReq (x) : (s.withPending x).soutReq = s.soutReq := rfl
@[simp] theorem withPending_enabled (x) : (s.withPending x).enabled = s.enabled := rfl
@[simp] theorem withPending_ctxs (x) : (s.withPending x).ctxs = s.ctxs := rfl
@[simp] theorem withPending_accSeq (x) : (s.withPending x).accSeq = s.accSeq := rfl
@[simp] theorem withPending_verdict (x) : (s.withPending x).verdict = s.verdict := rfl
@[simp] theorem withPending_cin (x) : (s.withPending x).cin = s.cin := rfl
@[simp] theorem withPending_slots (x) : (s.withPending x).slots = s.slots := rfl
@[simp] theorem withPending_tx (x) : (s.withPending x).tx = s.tx := rfl
@[simp] theorem withPending_plibBad (x) : (s.withPending x).plibBad = s.plibBad := rfl
@[simp] theorem withPending_evOpen (x) : (s.withPending x).evOpen = s.evOpen := rfl
@[simp] theorem withPending_evSlots (x) : (s.withPending x).evSlots = s.evSlots := rfl
@[simp] theorem withPending_evTimer (x) : (s.withPending x).evTimer = s.evTimer := rfl
@[simp] theorem withPending_evTimerOn (x) : (s.withPending x).evTimerOn = s.evTimerOn := rfl
@[simp] theorem withPending_harts (x) : (s.withPending x).harts = s.harts := rfl
@[simp] theorem withPending_instret (x) : (s.withPending x).instret = s.instret := rfl
@[simp] theorem withPending_vp2 (x) : (s.withPending x).vp2 = s.vp2 := rfl
@[simp] theorem withPending_agParams (x) : (s.withPending x).agParams = s.agParams := rfl
@[simp] theorem withPending_gs (x) : (s.withPending x).gs = s.gs := rfl
@[simp] theorem withPending_since (x) : (s.withPending x).since = s.since := rfl
@[simp] theorem withPending_ct (x) : (s.withPending x).ct = s.ct := rfl
@[simp] theorem withPending_pairs (x) : (s.withPending x).pairs = s.pairs := rfl
@[simp] theorem withPending_roleMoves (x) : (s.withPending x).roleMoves = s.roleMoves := rfl
@[simp] theorem withPending_mbx (x) : (s.withPending x).mbx = s.mbx := rfl
@[simp] theorem withPending_retFlag (x) : (s.withPending x).retFlag = s.retFlag := rfl
@[simp] theorem withPending_fc (x) : (s.withPending x).fc = s.fc := rfl
@[simp] theorem withPending_wd (x) : (s.withPending x).wd = s.wd := rfl
@[simp] theorem withPending_dma (x) : (s.withPending x).dma = s.dma := rfl
@[simp] theorem withPending_tm (x) : (s.withPending x).tm = s.tm := rfl
@[simp] theorem withPending_eth (x) : (s.withPending x).eth = s.eth := rfl
@[simp] theorem withPending_ibi (x) : (s.withPending x).ibi = s.ibi := rfl
@[simp] theorem withPending_i3c (x) : (s.withPending x).i3c = s.i3c := rfl
@[simp] theorem withPending_xsp (x) : (s.withPending x).xsp = s.xsp := rfl
@[simp] theorem withPending_hostIrq (x) : (s.withPending x).hostIrq = s.hostIrq := rfl
@[simp] theorem withPending_ml (x) : (s.withPending x).ml = s.ml := rfl
@[simp] theorem withPending_sec (x) : (s.withPending x).sec = s.sec := rfl
@[simp] theorem withPending_boot (x) : (s.withPending x).boot = s.boot := rfl
@[simp] theorem withPending_flash (x) : (s.withPending x).flash = s.flash := rfl
@[simp] theorem withPending_dieReset (x) : (s.withPending x).dieReset = s.dieReset := rfl
@[simp] theorem withPending_holds (x) : (s.withPending x).holds = s.holds := rfl
@[simp] theorem withPending_railsLow (x) : (s.withPending x).railsLow = s.railsLow := rfl
@[simp] theorem withPending_committed (x) : (s.withPending x).committed = s.committed := rfl
@[simp] theorem withPending_spsTick (x) : (s.withPending x).spsTick = s.spsTick := rfl
@[simp] theorem withPending_protect (x) : (s.withPending x).protect = s.protect := rfl
@[simp] theorem withPending_sioIn (x) : (s.withPending x).sioIn = s.sioIn := rfl
@[simp] theorem withPending_sioOut (x) : (s.withPending x).sioOut = s.sioOut := rfl
@[simp] theorem withPending_accCmd (x) : (s.withPending x).accCmd = s.accCmd := rfl
@[simp] theorem withPending_lb (x) : (s.withPending x).lb = s.lb := rfl
@[simp] theorem withPending_jtag (x) : (s.withPending x).jtag = s.jtag := rfl
@[simp] theorem withPending_boundary (x) : (s.withPending x).boundary = s.boundary := rfl

/-! ### What `withTick` leaves -/

@[simp] theorem withTick_pending (x) : (s.withTick x).pending = s.pending := rfl
@[simp] theorem withTick_free (x) : (s.withTick x).free = s.free := rfl
@[simp] theorem withTick_regs (x) : (s.withTick x).regs = s.regs := rfl
@[simp] theorem withTick_latch (x) : (s.withTick x).latch = s.latch := rfl
@[simp] theorem withTick_held (x) : (s.withTick x).held = s.held := rfl
@[simp] theorem withTick_mem (x) : (s.withTick x).mem = s.mem := rfl
@[simp] theorem withTick_lost (x) : (s.withTick x).lost = s.lost := rfl
@[simp] theorem withTick_g6Hot (x) : (s.withTick x).g6Hot = s.g6Hot := rfl
@[simp] theorem withTick_resp (x) : (s.withTick x).resp = s.resp := rfl
@[simp] theorem withTick_rdata (x) : (s.withTick x).rdata = s.rdata := rfl
@[simp] theorem withTick_evt (x) : (s.withTick x).evt = s.evt := rfl
@[simp] theorem withTick_vdBusy (x) : (s.withTick x).vdBusy = s.vdBusy := rfl
@[simp] theorem withTick_soutReq (x) : (s.withTick x).soutReq = s.soutReq := rfl
@[simp] theorem withTick_enabled (x) : (s.withTick x).enabled = s.enabled := rfl
@[simp] theorem withTick_ctxs (x) : (s.withTick x).ctxs = s.ctxs := rfl
@[simp] theorem withTick_accSeq (x) : (s.withTick x).accSeq = s.accSeq := rfl
@[simp] theorem withTick_verdict (x) : (s.withTick x).verdict = s.verdict := rfl
@[simp] theorem withTick_cin (x) : (s.withTick x).cin = s.cin := rfl
@[simp] theorem withTick_slots (x) : (s.withTick x).slots = s.slots := rfl
@[simp] theorem withTick_tx (x) : (s.withTick x).tx = s.tx := rfl
@[simp] theorem withTick_plibBad (x) : (s.withTick x).plibBad = s.plibBad := rfl
@[simp] theorem withTick_evOpen (x) : (s.withTick x).evOpen = s.evOpen := rfl
@[simp] theorem withTick_evSlots (x) : (s.withTick x).evSlots = s.evSlots := rfl
@[simp] theorem withTick_evTimer (x) : (s.withTick x).evTimer = s.evTimer := rfl
@[simp] theorem withTick_evTimerOn (x) : (s.withTick x).evTimerOn = s.evTimerOn := rfl
@[simp] theorem withTick_harts (x) : (s.withTick x).harts = s.harts := rfl
@[simp] theorem withTick_instret (x) : (s.withTick x).instret = s.instret := rfl
@[simp] theorem withTick_vp2 (x) : (s.withTick x).vp2 = s.vp2 := rfl
@[simp] theorem withTick_agParams (x) : (s.withTick x).agParams = s.agParams := rfl
@[simp] theorem withTick_gs (x) : (s.withTick x).gs = s.gs := rfl
@[simp] theorem withTick_since (x) : (s.withTick x).since = s.since := rfl
@[simp] theorem withTick_ct (x) : (s.withTick x).ct = s.ct := rfl
@[simp] theorem withTick_pairs (x) : (s.withTick x).pairs = s.pairs := rfl
@[simp] theorem withTick_roleMoves (x) : (s.withTick x).roleMoves = s.roleMoves := rfl
@[simp] theorem withTick_mbx (x) : (s.withTick x).mbx = s.mbx := rfl
@[simp] theorem withTick_retFlag (x) : (s.withTick x).retFlag = s.retFlag := rfl
@[simp] theorem withTick_fc (x) : (s.withTick x).fc = s.fc := rfl
@[simp] theorem withTick_wd (x) : (s.withTick x).wd = s.wd := rfl
@[simp] theorem withTick_dma (x) : (s.withTick x).dma = s.dma := rfl
@[simp] theorem withTick_tm (x) : (s.withTick x).tm = s.tm := rfl
@[simp] theorem withTick_eth (x) : (s.withTick x).eth = s.eth := rfl
@[simp] theorem withTick_ibi (x) : (s.withTick x).ibi = s.ibi := rfl
@[simp] theorem withTick_i3c (x) : (s.withTick x).i3c = s.i3c := rfl
@[simp] theorem withTick_xsp (x) : (s.withTick x).xsp = s.xsp := rfl
@[simp] theorem withTick_hostIrq (x) : (s.withTick x).hostIrq = s.hostIrq := rfl
@[simp] theorem withTick_ml (x) : (s.withTick x).ml = s.ml := rfl
@[simp] theorem withTick_sec (x) : (s.withTick x).sec = s.sec := rfl
@[simp] theorem withTick_boot (x) : (s.withTick x).boot = s.boot := rfl
@[simp] theorem withTick_flash (x) : (s.withTick x).flash = s.flash := rfl
@[simp] theorem withTick_dieReset (x) : (s.withTick x).dieReset = s.dieReset := rfl
@[simp] theorem withTick_holds (x) : (s.withTick x).holds = s.holds := rfl
@[simp] theorem withTick_railsLow (x) : (s.withTick x).railsLow = s.railsLow := rfl
@[simp] theorem withTick_committed (x) : (s.withTick x).committed = s.committed := rfl
@[simp] theorem withTick_spsTick (x) : (s.withTick x).spsTick = s.spsTick := rfl
@[simp] theorem withTick_protect (x) : (s.withTick x).protect = s.protect := rfl
@[simp] theorem withTick_sioIn (x) : (s.withTick x).sioIn = s.sioIn := rfl
@[simp] theorem withTick_sioOut (x) : (s.withTick x).sioOut = s.sioOut := rfl
@[simp] theorem withTick_accCmd (x) : (s.withTick x).accCmd = s.accCmd := rfl
@[simp] theorem withTick_lb (x) : (s.withTick x).lb = s.lb := rfl
@[simp] theorem withTick_jtag (x) : (s.withTick x).jtag = s.jtag := rfl
@[simp] theorem withTick_boundary (x) : (s.withTick x).boundary = s.boundary := rfl

/-! ### What `withFree` leaves -/

@[simp] theorem withFree_pending (x) : (s.withFree x).pending = s.pending := rfl
@[simp] theorem withFree_tick (x) : (s.withFree x).tick = s.tick := rfl
@[simp] theorem withFree_regs (x) : (s.withFree x).regs = s.regs := rfl
@[simp] theorem withFree_latch (x) : (s.withFree x).latch = s.latch := rfl
@[simp] theorem withFree_held (x) : (s.withFree x).held = s.held := rfl
@[simp] theorem withFree_mem (x) : (s.withFree x).mem = s.mem := rfl
@[simp] theorem withFree_lost (x) : (s.withFree x).lost = s.lost := rfl
@[simp] theorem withFree_g6Hot (x) : (s.withFree x).g6Hot = s.g6Hot := rfl
@[simp] theorem withFree_resp (x) : (s.withFree x).resp = s.resp := rfl
@[simp] theorem withFree_rdata (x) : (s.withFree x).rdata = s.rdata := rfl
@[simp] theorem withFree_evt (x) : (s.withFree x).evt = s.evt := rfl
@[simp] theorem withFree_vdBusy (x) : (s.withFree x).vdBusy = s.vdBusy := rfl
@[simp] theorem withFree_soutReq (x) : (s.withFree x).soutReq = s.soutReq := rfl
@[simp] theorem withFree_enabled (x) : (s.withFree x).enabled = s.enabled := rfl
@[simp] theorem withFree_ctxs (x) : (s.withFree x).ctxs = s.ctxs := rfl
@[simp] theorem withFree_accSeq (x) : (s.withFree x).accSeq = s.accSeq := rfl
@[simp] theorem withFree_verdict (x) : (s.withFree x).verdict = s.verdict := rfl
@[simp] theorem withFree_cin (x) : (s.withFree x).cin = s.cin := rfl
@[simp] theorem withFree_slots (x) : (s.withFree x).slots = s.slots := rfl
@[simp] theorem withFree_tx (x) : (s.withFree x).tx = s.tx := rfl
@[simp] theorem withFree_plibBad (x) : (s.withFree x).plibBad = s.plibBad := rfl
@[simp] theorem withFree_evOpen (x) : (s.withFree x).evOpen = s.evOpen := rfl
@[simp] theorem withFree_evSlots (x) : (s.withFree x).evSlots = s.evSlots := rfl
@[simp] theorem withFree_evTimer (x) : (s.withFree x).evTimer = s.evTimer := rfl
@[simp] theorem withFree_evTimerOn (x) : (s.withFree x).evTimerOn = s.evTimerOn := rfl
@[simp] theorem withFree_harts (x) : (s.withFree x).harts = s.harts := rfl
@[simp] theorem withFree_instret (x) : (s.withFree x).instret = s.instret := rfl
@[simp] theorem withFree_vp2 (x) : (s.withFree x).vp2 = s.vp2 := rfl
@[simp] theorem withFree_agParams (x) : (s.withFree x).agParams = s.agParams := rfl
@[simp] theorem withFree_gs (x) : (s.withFree x).gs = s.gs := rfl
@[simp] theorem withFree_since (x) : (s.withFree x).since = s.since := rfl
@[simp] theorem withFree_ct (x) : (s.withFree x).ct = s.ct := rfl
@[simp] theorem withFree_pairs (x) : (s.withFree x).pairs = s.pairs := rfl
@[simp] theorem withFree_roleMoves (x) : (s.withFree x).roleMoves = s.roleMoves := rfl
@[simp] theorem withFree_mbx (x) : (s.withFree x).mbx = s.mbx := rfl
@[simp] theorem withFree_retFlag (x) : (s.withFree x).retFlag = s.retFlag := rfl
@[simp] theorem withFree_fc (x) : (s.withFree x).fc = s.fc := rfl
@[simp] theorem withFree_wd (x) : (s.withFree x).wd = s.wd := rfl
@[simp] theorem withFree_dma (x) : (s.withFree x).dma = s.dma := rfl
@[simp] theorem withFree_tm (x) : (s.withFree x).tm = s.tm := rfl
@[simp] theorem withFree_eth (x) : (s.withFree x).eth = s.eth := rfl
@[simp] theorem withFree_ibi (x) : (s.withFree x).ibi = s.ibi := rfl
@[simp] theorem withFree_i3c (x) : (s.withFree x).i3c = s.i3c := rfl
@[simp] theorem withFree_xsp (x) : (s.withFree x).xsp = s.xsp := rfl
@[simp] theorem withFree_hostIrq (x) : (s.withFree x).hostIrq = s.hostIrq := rfl
@[simp] theorem withFree_ml (x) : (s.withFree x).ml = s.ml := rfl
@[simp] theorem withFree_sec (x) : (s.withFree x).sec = s.sec := rfl
@[simp] theorem withFree_boot (x) : (s.withFree x).boot = s.boot := rfl
@[simp] theorem withFree_flash (x) : (s.withFree x).flash = s.flash := rfl
@[simp] theorem withFree_dieReset (x) : (s.withFree x).dieReset = s.dieReset := rfl
@[simp] theorem withFree_holds (x) : (s.withFree x).holds = s.holds := rfl
@[simp] theorem withFree_railsLow (x) : (s.withFree x).railsLow = s.railsLow := rfl
@[simp] theorem withFree_committed (x) : (s.withFree x).committed = s.committed := rfl
@[simp] theorem withFree_spsTick (x) : (s.withFree x).spsTick = s.spsTick := rfl
@[simp] theorem withFree_protect (x) : (s.withFree x).protect = s.protect := rfl
@[simp] theorem withFree_sioIn (x) : (s.withFree x).sioIn = s.sioIn := rfl
@[simp] theorem withFree_sioOut (x) : (s.withFree x).sioOut = s.sioOut := rfl
@[simp] theorem withFree_accCmd (x) : (s.withFree x).accCmd = s.accCmd := rfl
@[simp] theorem withFree_lb (x) : (s.withFree x).lb = s.lb := rfl
@[simp] theorem withFree_jtag (x) : (s.withFree x).jtag = s.jtag := rfl
@[simp] theorem withFree_boundary (x) : (s.withFree x).boundary = s.boundary := rfl

/-! ### What `withRegs` leaves -/

@[simp] theorem withRegs_pending (x) : (s.withRegs x).pending = s.pending := rfl
@[simp] theorem withRegs_tick (x) : (s.withRegs x).tick = s.tick := rfl
@[simp] theorem withRegs_free (x) : (s.withRegs x).free = s.free := rfl
@[simp] theorem withRegs_latch (x) : (s.withRegs x).latch = s.latch := rfl
@[simp] theorem withRegs_held (x) : (s.withRegs x).held = s.held := rfl
@[simp] theorem withRegs_mem (x) : (s.withRegs x).mem = s.mem := rfl
@[simp] theorem withRegs_lost (x) : (s.withRegs x).lost = s.lost := rfl
@[simp] theorem withRegs_g6Hot (x) : (s.withRegs x).g6Hot = s.g6Hot := rfl
@[simp] theorem withRegs_resp (x) : (s.withRegs x).resp = s.resp := rfl
@[simp] theorem withRegs_rdata (x) : (s.withRegs x).rdata = s.rdata := rfl
@[simp] theorem withRegs_evt (x) : (s.withRegs x).evt = s.evt := rfl
@[simp] theorem withRegs_vdBusy (x) : (s.withRegs x).vdBusy = s.vdBusy := rfl
@[simp] theorem withRegs_soutReq (x) : (s.withRegs x).soutReq = s.soutReq := rfl
@[simp] theorem withRegs_enabled (x) : (s.withRegs x).enabled = s.enabled := rfl
@[simp] theorem withRegs_ctxs (x) : (s.withRegs x).ctxs = s.ctxs := rfl
@[simp] theorem withRegs_accSeq (x) : (s.withRegs x).accSeq = s.accSeq := rfl
@[simp] theorem withRegs_verdict (x) : (s.withRegs x).verdict = s.verdict := rfl
@[simp] theorem withRegs_cin (x) : (s.withRegs x).cin = s.cin := rfl
@[simp] theorem withRegs_slots (x) : (s.withRegs x).slots = s.slots := rfl
@[simp] theorem withRegs_tx (x) : (s.withRegs x).tx = s.tx := rfl
@[simp] theorem withRegs_plibBad (x) : (s.withRegs x).plibBad = s.plibBad := rfl
@[simp] theorem withRegs_evOpen (x) : (s.withRegs x).evOpen = s.evOpen := rfl
@[simp] theorem withRegs_evSlots (x) : (s.withRegs x).evSlots = s.evSlots := rfl
@[simp] theorem withRegs_evTimer (x) : (s.withRegs x).evTimer = s.evTimer := rfl
@[simp] theorem withRegs_evTimerOn (x) : (s.withRegs x).evTimerOn = s.evTimerOn := rfl
@[simp] theorem withRegs_harts (x) : (s.withRegs x).harts = s.harts := rfl
@[simp] theorem withRegs_instret (x) : (s.withRegs x).instret = s.instret := rfl
@[simp] theorem withRegs_vp2 (x) : (s.withRegs x).vp2 = s.vp2 := rfl
@[simp] theorem withRegs_agParams (x) : (s.withRegs x).agParams = s.agParams := rfl
@[simp] theorem withRegs_gs (x) : (s.withRegs x).gs = s.gs := rfl
@[simp] theorem withRegs_since (x) : (s.withRegs x).since = s.since := rfl
@[simp] theorem withRegs_ct (x) : (s.withRegs x).ct = s.ct := rfl
@[simp] theorem withRegs_pairs (x) : (s.withRegs x).pairs = s.pairs := rfl
@[simp] theorem withRegs_roleMoves (x) : (s.withRegs x).roleMoves = s.roleMoves := rfl
@[simp] theorem withRegs_mbx (x) : (s.withRegs x).mbx = s.mbx := rfl
@[simp] theorem withRegs_retFlag (x) : (s.withRegs x).retFlag = s.retFlag := rfl
@[simp] theorem withRegs_fc (x) : (s.withRegs x).fc = s.fc := rfl
@[simp] theorem withRegs_wd (x) : (s.withRegs x).wd = s.wd := rfl
@[simp] theorem withRegs_dma (x) : (s.withRegs x).dma = s.dma := rfl
@[simp] theorem withRegs_tm (x) : (s.withRegs x).tm = s.tm := rfl
@[simp] theorem withRegs_eth (x) : (s.withRegs x).eth = s.eth := rfl
@[simp] theorem withRegs_ibi (x) : (s.withRegs x).ibi = s.ibi := rfl
@[simp] theorem withRegs_i3c (x) : (s.withRegs x).i3c = s.i3c := rfl
@[simp] theorem withRegs_xsp (x) : (s.withRegs x).xsp = s.xsp := rfl
@[simp] theorem withRegs_hostIrq (x) : (s.withRegs x).hostIrq = s.hostIrq := rfl
@[simp] theorem withRegs_ml (x) : (s.withRegs x).ml = s.ml := rfl
@[simp] theorem withRegs_sec (x) : (s.withRegs x).sec = s.sec := rfl
@[simp] theorem withRegs_boot (x) : (s.withRegs x).boot = s.boot := rfl
@[simp] theorem withRegs_flash (x) : (s.withRegs x).flash = s.flash := rfl
@[simp] theorem withRegs_dieReset (x) : (s.withRegs x).dieReset = s.dieReset := rfl
@[simp] theorem withRegs_holds (x) : (s.withRegs x).holds = s.holds := rfl
@[simp] theorem withRegs_railsLow (x) : (s.withRegs x).railsLow = s.railsLow := rfl
@[simp] theorem withRegs_committed (x) : (s.withRegs x).committed = s.committed := rfl
@[simp] theorem withRegs_spsTick (x) : (s.withRegs x).spsTick = s.spsTick := rfl
@[simp] theorem withRegs_protect (x) : (s.withRegs x).protect = s.protect := rfl
@[simp] theorem withRegs_sioIn (x) : (s.withRegs x).sioIn = s.sioIn := rfl
@[simp] theorem withRegs_sioOut (x) : (s.withRegs x).sioOut = s.sioOut := rfl
@[simp] theorem withRegs_accCmd (x) : (s.withRegs x).accCmd = s.accCmd := rfl
@[simp] theorem withRegs_lb (x) : (s.withRegs x).lb = s.lb := rfl
@[simp] theorem withRegs_jtag (x) : (s.withRegs x).jtag = s.jtag := rfl
@[simp] theorem withRegs_boundary (x) : (s.withRegs x).boundary = s.boundary := rfl

/-! ### What `withLatch` leaves -/

@[simp] theorem withLatch_pending (x) : (s.withLatch x).pending = s.pending := rfl
@[simp] theorem withLatch_tick (x) : (s.withLatch x).tick = s.tick := rfl
@[simp] theorem withLatch_free (x) : (s.withLatch x).free = s.free := rfl
@[simp] theorem withLatch_regs (x) : (s.withLatch x).regs = s.regs := rfl
@[simp] theorem withLatch_held (x) : (s.withLatch x).held = s.held := rfl
@[simp] theorem withLatch_mem (x) : (s.withLatch x).mem = s.mem := rfl
@[simp] theorem withLatch_lost (x) : (s.withLatch x).lost = s.lost := rfl
@[simp] theorem withLatch_g6Hot (x) : (s.withLatch x).g6Hot = s.g6Hot := rfl
@[simp] theorem withLatch_resp (x) : (s.withLatch x).resp = s.resp := rfl
@[simp] theorem withLatch_rdata (x) : (s.withLatch x).rdata = s.rdata := rfl
@[simp] theorem withLatch_evt (x) : (s.withLatch x).evt = s.evt := rfl
@[simp] theorem withLatch_vdBusy (x) : (s.withLatch x).vdBusy = s.vdBusy := rfl
@[simp] theorem withLatch_soutReq (x) : (s.withLatch x).soutReq = s.soutReq := rfl
@[simp] theorem withLatch_enabled (x) : (s.withLatch x).enabled = s.enabled := rfl
@[simp] theorem withLatch_ctxs (x) : (s.withLatch x).ctxs = s.ctxs := rfl
@[simp] theorem withLatch_accSeq (x) : (s.withLatch x).accSeq = s.accSeq := rfl
@[simp] theorem withLatch_verdict (x) : (s.withLatch x).verdict = s.verdict := rfl
@[simp] theorem withLatch_cin (x) : (s.withLatch x).cin = s.cin := rfl
@[simp] theorem withLatch_slots (x) : (s.withLatch x).slots = s.slots := rfl
@[simp] theorem withLatch_tx (x) : (s.withLatch x).tx = s.tx := rfl
@[simp] theorem withLatch_plibBad (x) : (s.withLatch x).plibBad = s.plibBad := rfl
@[simp] theorem withLatch_evOpen (x) : (s.withLatch x).evOpen = s.evOpen := rfl
@[simp] theorem withLatch_evSlots (x) : (s.withLatch x).evSlots = s.evSlots := rfl
@[simp] theorem withLatch_evTimer (x) : (s.withLatch x).evTimer = s.evTimer := rfl
@[simp] theorem withLatch_evTimerOn (x) : (s.withLatch x).evTimerOn = s.evTimerOn := rfl
@[simp] theorem withLatch_harts (x) : (s.withLatch x).harts = s.harts := rfl
@[simp] theorem withLatch_instret (x) : (s.withLatch x).instret = s.instret := rfl
@[simp] theorem withLatch_vp2 (x) : (s.withLatch x).vp2 = s.vp2 := rfl
@[simp] theorem withLatch_agParams (x) : (s.withLatch x).agParams = s.agParams := rfl
@[simp] theorem withLatch_gs (x) : (s.withLatch x).gs = s.gs := rfl
@[simp] theorem withLatch_since (x) : (s.withLatch x).since = s.since := rfl
@[simp] theorem withLatch_ct (x) : (s.withLatch x).ct = s.ct := rfl
@[simp] theorem withLatch_pairs (x) : (s.withLatch x).pairs = s.pairs := rfl
@[simp] theorem withLatch_roleMoves (x) : (s.withLatch x).roleMoves = s.roleMoves := rfl
@[simp] theorem withLatch_mbx (x) : (s.withLatch x).mbx = s.mbx := rfl
@[simp] theorem withLatch_retFlag (x) : (s.withLatch x).retFlag = s.retFlag := rfl
@[simp] theorem withLatch_fc (x) : (s.withLatch x).fc = s.fc := rfl
@[simp] theorem withLatch_wd (x) : (s.withLatch x).wd = s.wd := rfl
@[simp] theorem withLatch_dma (x) : (s.withLatch x).dma = s.dma := rfl
@[simp] theorem withLatch_tm (x) : (s.withLatch x).tm = s.tm := rfl
@[simp] theorem withLatch_eth (x) : (s.withLatch x).eth = s.eth := rfl
@[simp] theorem withLatch_ibi (x) : (s.withLatch x).ibi = s.ibi := rfl
@[simp] theorem withLatch_i3c (x) : (s.withLatch x).i3c = s.i3c := rfl
@[simp] theorem withLatch_xsp (x) : (s.withLatch x).xsp = s.xsp := rfl
@[simp] theorem withLatch_hostIrq (x) : (s.withLatch x).hostIrq = s.hostIrq := rfl
@[simp] theorem withLatch_ml (x) : (s.withLatch x).ml = s.ml := rfl
@[simp] theorem withLatch_sec (x) : (s.withLatch x).sec = s.sec := rfl
@[simp] theorem withLatch_boot (x) : (s.withLatch x).boot = s.boot := rfl
@[simp] theorem withLatch_flash (x) : (s.withLatch x).flash = s.flash := rfl
@[simp] theorem withLatch_dieReset (x) : (s.withLatch x).dieReset = s.dieReset := rfl
@[simp] theorem withLatch_holds (x) : (s.withLatch x).holds = s.holds := rfl
@[simp] theorem withLatch_railsLow (x) : (s.withLatch x).railsLow = s.railsLow := rfl
@[simp] theorem withLatch_committed (x) : (s.withLatch x).committed = s.committed := rfl
@[simp] theorem withLatch_spsTick (x) : (s.withLatch x).spsTick = s.spsTick := rfl
@[simp] theorem withLatch_protect (x) : (s.withLatch x).protect = s.protect := rfl
@[simp] theorem withLatch_sioIn (x) : (s.withLatch x).sioIn = s.sioIn := rfl
@[simp] theorem withLatch_sioOut (x) : (s.withLatch x).sioOut = s.sioOut := rfl
@[simp] theorem withLatch_accCmd (x) : (s.withLatch x).accCmd = s.accCmd := rfl
@[simp] theorem withLatch_lb (x) : (s.withLatch x).lb = s.lb := rfl
@[simp] theorem withLatch_jtag (x) : (s.withLatch x).jtag = s.jtag := rfl
@[simp] theorem withLatch_boundary (x) : (s.withLatch x).boundary = s.boundary := rfl

/-! ### What `withHeld` leaves -/

@[simp] theorem withHeld_pending (x) : (s.withHeld x).pending = s.pending := rfl
@[simp] theorem withHeld_tick (x) : (s.withHeld x).tick = s.tick := rfl
@[simp] theorem withHeld_free (x) : (s.withHeld x).free = s.free := rfl
@[simp] theorem withHeld_regs (x) : (s.withHeld x).regs = s.regs := rfl
@[simp] theorem withHeld_latch (x) : (s.withHeld x).latch = s.latch := rfl
@[simp] theorem withHeld_mem (x) : (s.withHeld x).mem = s.mem := rfl
@[simp] theorem withHeld_lost (x) : (s.withHeld x).lost = s.lost := rfl
@[simp] theorem withHeld_g6Hot (x) : (s.withHeld x).g6Hot = s.g6Hot := rfl
@[simp] theorem withHeld_resp (x) : (s.withHeld x).resp = s.resp := rfl
@[simp] theorem withHeld_rdata (x) : (s.withHeld x).rdata = s.rdata := rfl
@[simp] theorem withHeld_evt (x) : (s.withHeld x).evt = s.evt := rfl
@[simp] theorem withHeld_vdBusy (x) : (s.withHeld x).vdBusy = s.vdBusy := rfl
@[simp] theorem withHeld_soutReq (x) : (s.withHeld x).soutReq = s.soutReq := rfl
@[simp] theorem withHeld_enabled (x) : (s.withHeld x).enabled = s.enabled := rfl
@[simp] theorem withHeld_ctxs (x) : (s.withHeld x).ctxs = s.ctxs := rfl
@[simp] theorem withHeld_accSeq (x) : (s.withHeld x).accSeq = s.accSeq := rfl
@[simp] theorem withHeld_verdict (x) : (s.withHeld x).verdict = s.verdict := rfl
@[simp] theorem withHeld_cin (x) : (s.withHeld x).cin = s.cin := rfl
@[simp] theorem withHeld_slots (x) : (s.withHeld x).slots = s.slots := rfl
@[simp] theorem withHeld_tx (x) : (s.withHeld x).tx = s.tx := rfl
@[simp] theorem withHeld_plibBad (x) : (s.withHeld x).plibBad = s.plibBad := rfl
@[simp] theorem withHeld_evOpen (x) : (s.withHeld x).evOpen = s.evOpen := rfl
@[simp] theorem withHeld_evSlots (x) : (s.withHeld x).evSlots = s.evSlots := rfl
@[simp] theorem withHeld_evTimer (x) : (s.withHeld x).evTimer = s.evTimer := rfl
@[simp] theorem withHeld_evTimerOn (x) : (s.withHeld x).evTimerOn = s.evTimerOn := rfl
@[simp] theorem withHeld_harts (x) : (s.withHeld x).harts = s.harts := rfl
@[simp] theorem withHeld_instret (x) : (s.withHeld x).instret = s.instret := rfl
@[simp] theorem withHeld_vp2 (x) : (s.withHeld x).vp2 = s.vp2 := rfl
@[simp] theorem withHeld_agParams (x) : (s.withHeld x).agParams = s.agParams := rfl
@[simp] theorem withHeld_gs (x) : (s.withHeld x).gs = s.gs := rfl
@[simp] theorem withHeld_since (x) : (s.withHeld x).since = s.since := rfl
@[simp] theorem withHeld_ct (x) : (s.withHeld x).ct = s.ct := rfl
@[simp] theorem withHeld_pairs (x) : (s.withHeld x).pairs = s.pairs := rfl
@[simp] theorem withHeld_roleMoves (x) : (s.withHeld x).roleMoves = s.roleMoves := rfl
@[simp] theorem withHeld_mbx (x) : (s.withHeld x).mbx = s.mbx := rfl
@[simp] theorem withHeld_retFlag (x) : (s.withHeld x).retFlag = s.retFlag := rfl
@[simp] theorem withHeld_fc (x) : (s.withHeld x).fc = s.fc := rfl
@[simp] theorem withHeld_wd (x) : (s.withHeld x).wd = s.wd := rfl
@[simp] theorem withHeld_dma (x) : (s.withHeld x).dma = s.dma := rfl
@[simp] theorem withHeld_tm (x) : (s.withHeld x).tm = s.tm := rfl
@[simp] theorem withHeld_eth (x) : (s.withHeld x).eth = s.eth := rfl
@[simp] theorem withHeld_ibi (x) : (s.withHeld x).ibi = s.ibi := rfl
@[simp] theorem withHeld_i3c (x) : (s.withHeld x).i3c = s.i3c := rfl
@[simp] theorem withHeld_xsp (x) : (s.withHeld x).xsp = s.xsp := rfl
@[simp] theorem withHeld_hostIrq (x) : (s.withHeld x).hostIrq = s.hostIrq := rfl
@[simp] theorem withHeld_ml (x) : (s.withHeld x).ml = s.ml := rfl
@[simp] theorem withHeld_sec (x) : (s.withHeld x).sec = s.sec := rfl
@[simp] theorem withHeld_boot (x) : (s.withHeld x).boot = s.boot := rfl
@[simp] theorem withHeld_flash (x) : (s.withHeld x).flash = s.flash := rfl
@[simp] theorem withHeld_dieReset (x) : (s.withHeld x).dieReset = s.dieReset := rfl
@[simp] theorem withHeld_holds (x) : (s.withHeld x).holds = s.holds := rfl
@[simp] theorem withHeld_railsLow (x) : (s.withHeld x).railsLow = s.railsLow := rfl
@[simp] theorem withHeld_committed (x) : (s.withHeld x).committed = s.committed := rfl
@[simp] theorem withHeld_spsTick (x) : (s.withHeld x).spsTick = s.spsTick := rfl
@[simp] theorem withHeld_protect (x) : (s.withHeld x).protect = s.protect := rfl
@[simp] theorem withHeld_sioIn (x) : (s.withHeld x).sioIn = s.sioIn := rfl
@[simp] theorem withHeld_sioOut (x) : (s.withHeld x).sioOut = s.sioOut := rfl
@[simp] theorem withHeld_accCmd (x) : (s.withHeld x).accCmd = s.accCmd := rfl
@[simp] theorem withHeld_lb (x) : (s.withHeld x).lb = s.lb := rfl
@[simp] theorem withHeld_jtag (x) : (s.withHeld x).jtag = s.jtag := rfl
@[simp] theorem withHeld_boundary (x) : (s.withHeld x).boundary = s.boundary := rfl

/-! ### What `withMem` leaves -/

@[simp] theorem withMem_pending (x) : (s.withMem x).pending = s.pending := rfl
@[simp] theorem withMem_tick (x) : (s.withMem x).tick = s.tick := rfl
@[simp] theorem withMem_free (x) : (s.withMem x).free = s.free := rfl
@[simp] theorem withMem_regs (x) : (s.withMem x).regs = s.regs := rfl
@[simp] theorem withMem_latch (x) : (s.withMem x).latch = s.latch := rfl
@[simp] theorem withMem_held (x) : (s.withMem x).held = s.held := rfl
@[simp] theorem withMem_lost (x) : (s.withMem x).lost = s.lost := rfl
@[simp] theorem withMem_g6Hot (x) : (s.withMem x).g6Hot = s.g6Hot := rfl
@[simp] theorem withMem_resp (x) : (s.withMem x).resp = s.resp := rfl
@[simp] theorem withMem_rdata (x) : (s.withMem x).rdata = s.rdata := rfl
@[simp] theorem withMem_evt (x) : (s.withMem x).evt = s.evt := rfl
@[simp] theorem withMem_vdBusy (x) : (s.withMem x).vdBusy = s.vdBusy := rfl
@[simp] theorem withMem_soutReq (x) : (s.withMem x).soutReq = s.soutReq := rfl
@[simp] theorem withMem_enabled (x) : (s.withMem x).enabled = s.enabled := rfl
@[simp] theorem withMem_ctxs (x) : (s.withMem x).ctxs = s.ctxs := rfl
@[simp] theorem withMem_accSeq (x) : (s.withMem x).accSeq = s.accSeq := rfl
@[simp] theorem withMem_verdict (x) : (s.withMem x).verdict = s.verdict := rfl
@[simp] theorem withMem_cin (x) : (s.withMem x).cin = s.cin := rfl
@[simp] theorem withMem_slots (x) : (s.withMem x).slots = s.slots := rfl
@[simp] theorem withMem_tx (x) : (s.withMem x).tx = s.tx := rfl
@[simp] theorem withMem_plibBad (x) : (s.withMem x).plibBad = s.plibBad := rfl
@[simp] theorem withMem_evOpen (x) : (s.withMem x).evOpen = s.evOpen := rfl
@[simp] theorem withMem_evSlots (x) : (s.withMem x).evSlots = s.evSlots := rfl
@[simp] theorem withMem_evTimer (x) : (s.withMem x).evTimer = s.evTimer := rfl
@[simp] theorem withMem_evTimerOn (x) : (s.withMem x).evTimerOn = s.evTimerOn := rfl
@[simp] theorem withMem_harts (x) : (s.withMem x).harts = s.harts := rfl
@[simp] theorem withMem_instret (x) : (s.withMem x).instret = s.instret := rfl
@[simp] theorem withMem_vp2 (x) : (s.withMem x).vp2 = s.vp2 := rfl
@[simp] theorem withMem_agParams (x) : (s.withMem x).agParams = s.agParams := rfl
@[simp] theorem withMem_gs (x) : (s.withMem x).gs = s.gs := rfl
@[simp] theorem withMem_since (x) : (s.withMem x).since = s.since := rfl
@[simp] theorem withMem_ct (x) : (s.withMem x).ct = s.ct := rfl
@[simp] theorem withMem_pairs (x) : (s.withMem x).pairs = s.pairs := rfl
@[simp] theorem withMem_roleMoves (x) : (s.withMem x).roleMoves = s.roleMoves := rfl
@[simp] theorem withMem_mbx (x) : (s.withMem x).mbx = s.mbx := rfl
@[simp] theorem withMem_retFlag (x) : (s.withMem x).retFlag = s.retFlag := rfl
@[simp] theorem withMem_fc (x) : (s.withMem x).fc = s.fc := rfl
@[simp] theorem withMem_wd (x) : (s.withMem x).wd = s.wd := rfl
@[simp] theorem withMem_dma (x) : (s.withMem x).dma = s.dma := rfl
@[simp] theorem withMem_tm (x) : (s.withMem x).tm = s.tm := rfl
@[simp] theorem withMem_eth (x) : (s.withMem x).eth = s.eth := rfl
@[simp] theorem withMem_ibi (x) : (s.withMem x).ibi = s.ibi := rfl
@[simp] theorem withMem_i3c (x) : (s.withMem x).i3c = s.i3c := rfl
@[simp] theorem withMem_xsp (x) : (s.withMem x).xsp = s.xsp := rfl
@[simp] theorem withMem_hostIrq (x) : (s.withMem x).hostIrq = s.hostIrq := rfl
@[simp] theorem withMem_ml (x) : (s.withMem x).ml = s.ml := rfl
@[simp] theorem withMem_sec (x) : (s.withMem x).sec = s.sec := rfl
@[simp] theorem withMem_boot (x) : (s.withMem x).boot = s.boot := rfl
@[simp] theorem withMem_flash (x) : (s.withMem x).flash = s.flash := rfl
@[simp] theorem withMem_dieReset (x) : (s.withMem x).dieReset = s.dieReset := rfl
@[simp] theorem withMem_holds (x) : (s.withMem x).holds = s.holds := rfl
@[simp] theorem withMem_railsLow (x) : (s.withMem x).railsLow = s.railsLow := rfl
@[simp] theorem withMem_committed (x) : (s.withMem x).committed = s.committed := rfl
@[simp] theorem withMem_spsTick (x) : (s.withMem x).spsTick = s.spsTick := rfl
@[simp] theorem withMem_protect (x) : (s.withMem x).protect = s.protect := rfl
@[simp] theorem withMem_sioIn (x) : (s.withMem x).sioIn = s.sioIn := rfl
@[simp] theorem withMem_sioOut (x) : (s.withMem x).sioOut = s.sioOut := rfl
@[simp] theorem withMem_accCmd (x) : (s.withMem x).accCmd = s.accCmd := rfl
@[simp] theorem withMem_lb (x) : (s.withMem x).lb = s.lb := rfl
@[simp] theorem withMem_jtag (x) : (s.withMem x).jtag = s.jtag := rfl
@[simp] theorem withMem_boundary (x) : (s.withMem x).boundary = s.boundary := rfl

/-! ### What `withLost` leaves -/

@[simp] theorem withLost_pending (x) : (s.withLost x).pending = s.pending := rfl
@[simp] theorem withLost_tick (x) : (s.withLost x).tick = s.tick := rfl
@[simp] theorem withLost_free (x) : (s.withLost x).free = s.free := rfl
@[simp] theorem withLost_regs (x) : (s.withLost x).regs = s.regs := rfl
@[simp] theorem withLost_latch (x) : (s.withLost x).latch = s.latch := rfl
@[simp] theorem withLost_held (x) : (s.withLost x).held = s.held := rfl
@[simp] theorem withLost_mem (x) : (s.withLost x).mem = s.mem := rfl
@[simp] theorem withLost_g6Hot (x) : (s.withLost x).g6Hot = s.g6Hot := rfl
@[simp] theorem withLost_resp (x) : (s.withLost x).resp = s.resp := rfl
@[simp] theorem withLost_rdata (x) : (s.withLost x).rdata = s.rdata := rfl
@[simp] theorem withLost_evt (x) : (s.withLost x).evt = s.evt := rfl
@[simp] theorem withLost_vdBusy (x) : (s.withLost x).vdBusy = s.vdBusy := rfl
@[simp] theorem withLost_soutReq (x) : (s.withLost x).soutReq = s.soutReq := rfl
@[simp] theorem withLost_enabled (x) : (s.withLost x).enabled = s.enabled := rfl
@[simp] theorem withLost_ctxs (x) : (s.withLost x).ctxs = s.ctxs := rfl
@[simp] theorem withLost_accSeq (x) : (s.withLost x).accSeq = s.accSeq := rfl
@[simp] theorem withLost_verdict (x) : (s.withLost x).verdict = s.verdict := rfl
@[simp] theorem withLost_cin (x) : (s.withLost x).cin = s.cin := rfl
@[simp] theorem withLost_slots (x) : (s.withLost x).slots = s.slots := rfl
@[simp] theorem withLost_tx (x) : (s.withLost x).tx = s.tx := rfl
@[simp] theorem withLost_plibBad (x) : (s.withLost x).plibBad = s.plibBad := rfl
@[simp] theorem withLost_evOpen (x) : (s.withLost x).evOpen = s.evOpen := rfl
@[simp] theorem withLost_evSlots (x) : (s.withLost x).evSlots = s.evSlots := rfl
@[simp] theorem withLost_evTimer (x) : (s.withLost x).evTimer = s.evTimer := rfl
@[simp] theorem withLost_evTimerOn (x) : (s.withLost x).evTimerOn = s.evTimerOn := rfl
@[simp] theorem withLost_harts (x) : (s.withLost x).harts = s.harts := rfl
@[simp] theorem withLost_instret (x) : (s.withLost x).instret = s.instret := rfl
@[simp] theorem withLost_vp2 (x) : (s.withLost x).vp2 = s.vp2 := rfl
@[simp] theorem withLost_agParams (x) : (s.withLost x).agParams = s.agParams := rfl
@[simp] theorem withLost_gs (x) : (s.withLost x).gs = s.gs := rfl
@[simp] theorem withLost_since (x) : (s.withLost x).since = s.since := rfl
@[simp] theorem withLost_ct (x) : (s.withLost x).ct = s.ct := rfl
@[simp] theorem withLost_pairs (x) : (s.withLost x).pairs = s.pairs := rfl
@[simp] theorem withLost_roleMoves (x) : (s.withLost x).roleMoves = s.roleMoves := rfl
@[simp] theorem withLost_mbx (x) : (s.withLost x).mbx = s.mbx := rfl
@[simp] theorem withLost_retFlag (x) : (s.withLost x).retFlag = s.retFlag := rfl
@[simp] theorem withLost_fc (x) : (s.withLost x).fc = s.fc := rfl
@[simp] theorem withLost_wd (x) : (s.withLost x).wd = s.wd := rfl
@[simp] theorem withLost_dma (x) : (s.withLost x).dma = s.dma := rfl
@[simp] theorem withLost_tm (x) : (s.withLost x).tm = s.tm := rfl
@[simp] theorem withLost_eth (x) : (s.withLost x).eth = s.eth := rfl
@[simp] theorem withLost_ibi (x) : (s.withLost x).ibi = s.ibi := rfl
@[simp] theorem withLost_i3c (x) : (s.withLost x).i3c = s.i3c := rfl
@[simp] theorem withLost_xsp (x) : (s.withLost x).xsp = s.xsp := rfl
@[simp] theorem withLost_hostIrq (x) : (s.withLost x).hostIrq = s.hostIrq := rfl
@[simp] theorem withLost_ml (x) : (s.withLost x).ml = s.ml := rfl
@[simp] theorem withLost_sec (x) : (s.withLost x).sec = s.sec := rfl
@[simp] theorem withLost_boot (x) : (s.withLost x).boot = s.boot := rfl
@[simp] theorem withLost_flash (x) : (s.withLost x).flash = s.flash := rfl
@[simp] theorem withLost_dieReset (x) : (s.withLost x).dieReset = s.dieReset := rfl
@[simp] theorem withLost_holds (x) : (s.withLost x).holds = s.holds := rfl
@[simp] theorem withLost_railsLow (x) : (s.withLost x).railsLow = s.railsLow := rfl
@[simp] theorem withLost_committed (x) : (s.withLost x).committed = s.committed := rfl
@[simp] theorem withLost_spsTick (x) : (s.withLost x).spsTick = s.spsTick := rfl
@[simp] theorem withLost_protect (x) : (s.withLost x).protect = s.protect := rfl
@[simp] theorem withLost_sioIn (x) : (s.withLost x).sioIn = s.sioIn := rfl
@[simp] theorem withLost_sioOut (x) : (s.withLost x).sioOut = s.sioOut := rfl
@[simp] theorem withLost_accCmd (x) : (s.withLost x).accCmd = s.accCmd := rfl
@[simp] theorem withLost_lb (x) : (s.withLost x).lb = s.lb := rfl
@[simp] theorem withLost_jtag (x) : (s.withLost x).jtag = s.jtag := rfl
@[simp] theorem withLost_boundary (x) : (s.withLost x).boundary = s.boundary := rfl

/-! ### What `withG6Hot` leaves -/

@[simp] theorem withG6Hot_pending (x) : (s.withG6Hot x).pending = s.pending := rfl
@[simp] theorem withG6Hot_tick (x) : (s.withG6Hot x).tick = s.tick := rfl
@[simp] theorem withG6Hot_free (x) : (s.withG6Hot x).free = s.free := rfl
@[simp] theorem withG6Hot_regs (x) : (s.withG6Hot x).regs = s.regs := rfl
@[simp] theorem withG6Hot_latch (x) : (s.withG6Hot x).latch = s.latch := rfl
@[simp] theorem withG6Hot_held (x) : (s.withG6Hot x).held = s.held := rfl
@[simp] theorem withG6Hot_mem (x) : (s.withG6Hot x).mem = s.mem := rfl
@[simp] theorem withG6Hot_lost (x) : (s.withG6Hot x).lost = s.lost := rfl
@[simp] theorem withG6Hot_resp (x) : (s.withG6Hot x).resp = s.resp := rfl
@[simp] theorem withG6Hot_rdata (x) : (s.withG6Hot x).rdata = s.rdata := rfl
@[simp] theorem withG6Hot_evt (x) : (s.withG6Hot x).evt = s.evt := rfl
@[simp] theorem withG6Hot_vdBusy (x) : (s.withG6Hot x).vdBusy = s.vdBusy := rfl
@[simp] theorem withG6Hot_soutReq (x) : (s.withG6Hot x).soutReq = s.soutReq := rfl
@[simp] theorem withG6Hot_enabled (x) : (s.withG6Hot x).enabled = s.enabled := rfl
@[simp] theorem withG6Hot_ctxs (x) : (s.withG6Hot x).ctxs = s.ctxs := rfl
@[simp] theorem withG6Hot_accSeq (x) : (s.withG6Hot x).accSeq = s.accSeq := rfl
@[simp] theorem withG6Hot_verdict (x) : (s.withG6Hot x).verdict = s.verdict := rfl
@[simp] theorem withG6Hot_cin (x) : (s.withG6Hot x).cin = s.cin := rfl
@[simp] theorem withG6Hot_slots (x) : (s.withG6Hot x).slots = s.slots := rfl
@[simp] theorem withG6Hot_tx (x) : (s.withG6Hot x).tx = s.tx := rfl
@[simp] theorem withG6Hot_plibBad (x) : (s.withG6Hot x).plibBad = s.plibBad := rfl
@[simp] theorem withG6Hot_evOpen (x) : (s.withG6Hot x).evOpen = s.evOpen := rfl
@[simp] theorem withG6Hot_evSlots (x) : (s.withG6Hot x).evSlots = s.evSlots := rfl
@[simp] theorem withG6Hot_evTimer (x) : (s.withG6Hot x).evTimer = s.evTimer := rfl
@[simp] theorem withG6Hot_evTimerOn (x) : (s.withG6Hot x).evTimerOn = s.evTimerOn := rfl
@[simp] theorem withG6Hot_harts (x) : (s.withG6Hot x).harts = s.harts := rfl
@[simp] theorem withG6Hot_instret (x) : (s.withG6Hot x).instret = s.instret := rfl
@[simp] theorem withG6Hot_vp2 (x) : (s.withG6Hot x).vp2 = s.vp2 := rfl
@[simp] theorem withG6Hot_agParams (x) : (s.withG6Hot x).agParams = s.agParams := rfl
@[simp] theorem withG6Hot_gs (x) : (s.withG6Hot x).gs = s.gs := rfl
@[simp] theorem withG6Hot_since (x) : (s.withG6Hot x).since = s.since := rfl
@[simp] theorem withG6Hot_ct (x) : (s.withG6Hot x).ct = s.ct := rfl
@[simp] theorem withG6Hot_pairs (x) : (s.withG6Hot x).pairs = s.pairs := rfl
@[simp] theorem withG6Hot_roleMoves (x) : (s.withG6Hot x).roleMoves = s.roleMoves := rfl
@[simp] theorem withG6Hot_mbx (x) : (s.withG6Hot x).mbx = s.mbx := rfl
@[simp] theorem withG6Hot_retFlag (x) : (s.withG6Hot x).retFlag = s.retFlag := rfl
@[simp] theorem withG6Hot_fc (x) : (s.withG6Hot x).fc = s.fc := rfl
@[simp] theorem withG6Hot_wd (x) : (s.withG6Hot x).wd = s.wd := rfl
@[simp] theorem withG6Hot_dma (x) : (s.withG6Hot x).dma = s.dma := rfl
@[simp] theorem withG6Hot_tm (x) : (s.withG6Hot x).tm = s.tm := rfl
@[simp] theorem withG6Hot_eth (x) : (s.withG6Hot x).eth = s.eth := rfl
@[simp] theorem withG6Hot_ibi (x) : (s.withG6Hot x).ibi = s.ibi := rfl
@[simp] theorem withG6Hot_i3c (x) : (s.withG6Hot x).i3c = s.i3c := rfl
@[simp] theorem withG6Hot_xsp (x) : (s.withG6Hot x).xsp = s.xsp := rfl
@[simp] theorem withG6Hot_hostIrq (x) : (s.withG6Hot x).hostIrq = s.hostIrq := rfl
@[simp] theorem withG6Hot_ml (x) : (s.withG6Hot x).ml = s.ml := rfl
@[simp] theorem withG6Hot_sec (x) : (s.withG6Hot x).sec = s.sec := rfl
@[simp] theorem withG6Hot_boot (x) : (s.withG6Hot x).boot = s.boot := rfl
@[simp] theorem withG6Hot_flash (x) : (s.withG6Hot x).flash = s.flash := rfl
@[simp] theorem withG6Hot_dieReset (x) : (s.withG6Hot x).dieReset = s.dieReset := rfl
@[simp] theorem withG6Hot_holds (x) : (s.withG6Hot x).holds = s.holds := rfl
@[simp] theorem withG6Hot_railsLow (x) : (s.withG6Hot x).railsLow = s.railsLow := rfl
@[simp] theorem withG6Hot_committed (x) : (s.withG6Hot x).committed = s.committed := rfl
@[simp] theorem withG6Hot_spsTick (x) : (s.withG6Hot x).spsTick = s.spsTick := rfl
@[simp] theorem withG6Hot_protect (x) : (s.withG6Hot x).protect = s.protect := rfl
@[simp] theorem withG6Hot_sioIn (x) : (s.withG6Hot x).sioIn = s.sioIn := rfl
@[simp] theorem withG6Hot_sioOut (x) : (s.withG6Hot x).sioOut = s.sioOut := rfl
@[simp] theorem withG6Hot_accCmd (x) : (s.withG6Hot x).accCmd = s.accCmd := rfl
@[simp] theorem withG6Hot_lb (x) : (s.withG6Hot x).lb = s.lb := rfl
@[simp] theorem withG6Hot_jtag (x) : (s.withG6Hot x).jtag = s.jtag := rfl
@[simp] theorem withG6Hot_boundary (x) : (s.withG6Hot x).boundary = s.boundary := rfl

/-! ### What `withResp` leaves -/

@[simp] theorem withResp_pending (x) : (s.withResp x).pending = s.pending := rfl
@[simp] theorem withResp_tick (x) : (s.withResp x).tick = s.tick := rfl
@[simp] theorem withResp_free (x) : (s.withResp x).free = s.free := rfl
@[simp] theorem withResp_regs (x) : (s.withResp x).regs = s.regs := rfl
@[simp] theorem withResp_latch (x) : (s.withResp x).latch = s.latch := rfl
@[simp] theorem withResp_held (x) : (s.withResp x).held = s.held := rfl
@[simp] theorem withResp_mem (x) : (s.withResp x).mem = s.mem := rfl
@[simp] theorem withResp_lost (x) : (s.withResp x).lost = s.lost := rfl
@[simp] theorem withResp_g6Hot (x) : (s.withResp x).g6Hot = s.g6Hot := rfl
@[simp] theorem withResp_rdata (x) : (s.withResp x).rdata = s.rdata := rfl
@[simp] theorem withResp_evt (x) : (s.withResp x).evt = s.evt := rfl
@[simp] theorem withResp_vdBusy (x) : (s.withResp x).vdBusy = s.vdBusy := rfl
@[simp] theorem withResp_soutReq (x) : (s.withResp x).soutReq = s.soutReq := rfl
@[simp] theorem withResp_enabled (x) : (s.withResp x).enabled = s.enabled := rfl
@[simp] theorem withResp_ctxs (x) : (s.withResp x).ctxs = s.ctxs := rfl
@[simp] theorem withResp_accSeq (x) : (s.withResp x).accSeq = s.accSeq := rfl
@[simp] theorem withResp_verdict (x) : (s.withResp x).verdict = s.verdict := rfl
@[simp] theorem withResp_cin (x) : (s.withResp x).cin = s.cin := rfl
@[simp] theorem withResp_slots (x) : (s.withResp x).slots = s.slots := rfl
@[simp] theorem withResp_tx (x) : (s.withResp x).tx = s.tx := rfl
@[simp] theorem withResp_plibBad (x) : (s.withResp x).plibBad = s.plibBad := rfl
@[simp] theorem withResp_evOpen (x) : (s.withResp x).evOpen = s.evOpen := rfl
@[simp] theorem withResp_evSlots (x) : (s.withResp x).evSlots = s.evSlots := rfl
@[simp] theorem withResp_evTimer (x) : (s.withResp x).evTimer = s.evTimer := rfl
@[simp] theorem withResp_evTimerOn (x) : (s.withResp x).evTimerOn = s.evTimerOn := rfl
@[simp] theorem withResp_harts (x) : (s.withResp x).harts = s.harts := rfl
@[simp] theorem withResp_instret (x) : (s.withResp x).instret = s.instret := rfl
@[simp] theorem withResp_vp2 (x) : (s.withResp x).vp2 = s.vp2 := rfl
@[simp] theorem withResp_agParams (x) : (s.withResp x).agParams = s.agParams := rfl
@[simp] theorem withResp_gs (x) : (s.withResp x).gs = s.gs := rfl
@[simp] theorem withResp_since (x) : (s.withResp x).since = s.since := rfl
@[simp] theorem withResp_ct (x) : (s.withResp x).ct = s.ct := rfl
@[simp] theorem withResp_pairs (x) : (s.withResp x).pairs = s.pairs := rfl
@[simp] theorem withResp_roleMoves (x) : (s.withResp x).roleMoves = s.roleMoves := rfl
@[simp] theorem withResp_mbx (x) : (s.withResp x).mbx = s.mbx := rfl
@[simp] theorem withResp_retFlag (x) : (s.withResp x).retFlag = s.retFlag := rfl
@[simp] theorem withResp_fc (x) : (s.withResp x).fc = s.fc := rfl
@[simp] theorem withResp_wd (x) : (s.withResp x).wd = s.wd := rfl
@[simp] theorem withResp_dma (x) : (s.withResp x).dma = s.dma := rfl
@[simp] theorem withResp_tm (x) : (s.withResp x).tm = s.tm := rfl
@[simp] theorem withResp_eth (x) : (s.withResp x).eth = s.eth := rfl
@[simp] theorem withResp_ibi (x) : (s.withResp x).ibi = s.ibi := rfl
@[simp] theorem withResp_i3c (x) : (s.withResp x).i3c = s.i3c := rfl
@[simp] theorem withResp_xsp (x) : (s.withResp x).xsp = s.xsp := rfl
@[simp] theorem withResp_hostIrq (x) : (s.withResp x).hostIrq = s.hostIrq := rfl
@[simp] theorem withResp_ml (x) : (s.withResp x).ml = s.ml := rfl
@[simp] theorem withResp_sec (x) : (s.withResp x).sec = s.sec := rfl
@[simp] theorem withResp_boot (x) : (s.withResp x).boot = s.boot := rfl
@[simp] theorem withResp_flash (x) : (s.withResp x).flash = s.flash := rfl
@[simp] theorem withResp_dieReset (x) : (s.withResp x).dieReset = s.dieReset := rfl
@[simp] theorem withResp_holds (x) : (s.withResp x).holds = s.holds := rfl
@[simp] theorem withResp_railsLow (x) : (s.withResp x).railsLow = s.railsLow := rfl
@[simp] theorem withResp_committed (x) : (s.withResp x).committed = s.committed := rfl
@[simp] theorem withResp_spsTick (x) : (s.withResp x).spsTick = s.spsTick := rfl
@[simp] theorem withResp_protect (x) : (s.withResp x).protect = s.protect := rfl
@[simp] theorem withResp_sioIn (x) : (s.withResp x).sioIn = s.sioIn := rfl
@[simp] theorem withResp_sioOut (x) : (s.withResp x).sioOut = s.sioOut := rfl
@[simp] theorem withResp_accCmd (x) : (s.withResp x).accCmd = s.accCmd := rfl
@[simp] theorem withResp_lb (x) : (s.withResp x).lb = s.lb := rfl
@[simp] theorem withResp_jtag (x) : (s.withResp x).jtag = s.jtag := rfl
@[simp] theorem withResp_boundary (x) : (s.withResp x).boundary = s.boundary := rfl

/-! ### What `withRdata` leaves -/

@[simp] theorem withRdata_pending (x) : (s.withRdata x).pending = s.pending := rfl
@[simp] theorem withRdata_tick (x) : (s.withRdata x).tick = s.tick := rfl
@[simp] theorem withRdata_free (x) : (s.withRdata x).free = s.free := rfl
@[simp] theorem withRdata_regs (x) : (s.withRdata x).regs = s.regs := rfl
@[simp] theorem withRdata_latch (x) : (s.withRdata x).latch = s.latch := rfl
@[simp] theorem withRdata_held (x) : (s.withRdata x).held = s.held := rfl
@[simp] theorem withRdata_mem (x) : (s.withRdata x).mem = s.mem := rfl
@[simp] theorem withRdata_lost (x) : (s.withRdata x).lost = s.lost := rfl
@[simp] theorem withRdata_g6Hot (x) : (s.withRdata x).g6Hot = s.g6Hot := rfl
@[simp] theorem withRdata_resp (x) : (s.withRdata x).resp = s.resp := rfl
@[simp] theorem withRdata_evt (x) : (s.withRdata x).evt = s.evt := rfl
@[simp] theorem withRdata_vdBusy (x) : (s.withRdata x).vdBusy = s.vdBusy := rfl
@[simp] theorem withRdata_soutReq (x) : (s.withRdata x).soutReq = s.soutReq := rfl
@[simp] theorem withRdata_enabled (x) : (s.withRdata x).enabled = s.enabled := rfl
@[simp] theorem withRdata_ctxs (x) : (s.withRdata x).ctxs = s.ctxs := rfl
@[simp] theorem withRdata_accSeq (x) : (s.withRdata x).accSeq = s.accSeq := rfl
@[simp] theorem withRdata_verdict (x) : (s.withRdata x).verdict = s.verdict := rfl
@[simp] theorem withRdata_cin (x) : (s.withRdata x).cin = s.cin := rfl
@[simp] theorem withRdata_slots (x) : (s.withRdata x).slots = s.slots := rfl
@[simp] theorem withRdata_tx (x) : (s.withRdata x).tx = s.tx := rfl
@[simp] theorem withRdata_plibBad (x) : (s.withRdata x).plibBad = s.plibBad := rfl
@[simp] theorem withRdata_evOpen (x) : (s.withRdata x).evOpen = s.evOpen := rfl
@[simp] theorem withRdata_evSlots (x) : (s.withRdata x).evSlots = s.evSlots := rfl
@[simp] theorem withRdata_evTimer (x) : (s.withRdata x).evTimer = s.evTimer := rfl
@[simp] theorem withRdata_evTimerOn (x) : (s.withRdata x).evTimerOn = s.evTimerOn := rfl
@[simp] theorem withRdata_harts (x) : (s.withRdata x).harts = s.harts := rfl
@[simp] theorem withRdata_instret (x) : (s.withRdata x).instret = s.instret := rfl
@[simp] theorem withRdata_vp2 (x) : (s.withRdata x).vp2 = s.vp2 := rfl
@[simp] theorem withRdata_agParams (x) : (s.withRdata x).agParams = s.agParams := rfl
@[simp] theorem withRdata_gs (x) : (s.withRdata x).gs = s.gs := rfl
@[simp] theorem withRdata_since (x) : (s.withRdata x).since = s.since := rfl
@[simp] theorem withRdata_ct (x) : (s.withRdata x).ct = s.ct := rfl
@[simp] theorem withRdata_pairs (x) : (s.withRdata x).pairs = s.pairs := rfl
@[simp] theorem withRdata_roleMoves (x) : (s.withRdata x).roleMoves = s.roleMoves := rfl
@[simp] theorem withRdata_mbx (x) : (s.withRdata x).mbx = s.mbx := rfl
@[simp] theorem withRdata_retFlag (x) : (s.withRdata x).retFlag = s.retFlag := rfl
@[simp] theorem withRdata_fc (x) : (s.withRdata x).fc = s.fc := rfl
@[simp] theorem withRdata_wd (x) : (s.withRdata x).wd = s.wd := rfl
@[simp] theorem withRdata_dma (x) : (s.withRdata x).dma = s.dma := rfl
@[simp] theorem withRdata_tm (x) : (s.withRdata x).tm = s.tm := rfl
@[simp] theorem withRdata_eth (x) : (s.withRdata x).eth = s.eth := rfl
@[simp] theorem withRdata_ibi (x) : (s.withRdata x).ibi = s.ibi := rfl
@[simp] theorem withRdata_i3c (x) : (s.withRdata x).i3c = s.i3c := rfl
@[simp] theorem withRdata_xsp (x) : (s.withRdata x).xsp = s.xsp := rfl
@[simp] theorem withRdata_hostIrq (x) : (s.withRdata x).hostIrq = s.hostIrq := rfl
@[simp] theorem withRdata_ml (x) : (s.withRdata x).ml = s.ml := rfl
@[simp] theorem withRdata_sec (x) : (s.withRdata x).sec = s.sec := rfl
@[simp] theorem withRdata_boot (x) : (s.withRdata x).boot = s.boot := rfl
@[simp] theorem withRdata_flash (x) : (s.withRdata x).flash = s.flash := rfl
@[simp] theorem withRdata_dieReset (x) : (s.withRdata x).dieReset = s.dieReset := rfl
@[simp] theorem withRdata_holds (x) : (s.withRdata x).holds = s.holds := rfl
@[simp] theorem withRdata_railsLow (x) : (s.withRdata x).railsLow = s.railsLow := rfl
@[simp] theorem withRdata_committed (x) : (s.withRdata x).committed = s.committed := rfl
@[simp] theorem withRdata_spsTick (x) : (s.withRdata x).spsTick = s.spsTick := rfl
@[simp] theorem withRdata_protect (x) : (s.withRdata x).protect = s.protect := rfl
@[simp] theorem withRdata_sioIn (x) : (s.withRdata x).sioIn = s.sioIn := rfl
@[simp] theorem withRdata_sioOut (x) : (s.withRdata x).sioOut = s.sioOut := rfl
@[simp] theorem withRdata_accCmd (x) : (s.withRdata x).accCmd = s.accCmd := rfl
@[simp] theorem withRdata_lb (x) : (s.withRdata x).lb = s.lb := rfl
@[simp] theorem withRdata_jtag (x) : (s.withRdata x).jtag = s.jtag := rfl
@[simp] theorem withRdata_boundary (x) : (s.withRdata x).boundary = s.boundary := rfl

/-! ### What `withEvt` leaves -/

@[simp] theorem withEvt_pending (x) : (s.withEvt x).pending = s.pending := rfl
@[simp] theorem withEvt_tick (x) : (s.withEvt x).tick = s.tick := rfl
@[simp] theorem withEvt_free (x) : (s.withEvt x).free = s.free := rfl
@[simp] theorem withEvt_regs (x) : (s.withEvt x).regs = s.regs := rfl
@[simp] theorem withEvt_latch (x) : (s.withEvt x).latch = s.latch := rfl
@[simp] theorem withEvt_held (x) : (s.withEvt x).held = s.held := rfl
@[simp] theorem withEvt_mem (x) : (s.withEvt x).mem = s.mem := rfl
@[simp] theorem withEvt_lost (x) : (s.withEvt x).lost = s.lost := rfl
@[simp] theorem withEvt_g6Hot (x) : (s.withEvt x).g6Hot = s.g6Hot := rfl
@[simp] theorem withEvt_resp (x) : (s.withEvt x).resp = s.resp := rfl
@[simp] theorem withEvt_rdata (x) : (s.withEvt x).rdata = s.rdata := rfl
@[simp] theorem withEvt_vdBusy (x) : (s.withEvt x).vdBusy = s.vdBusy := rfl
@[simp] theorem withEvt_soutReq (x) : (s.withEvt x).soutReq = s.soutReq := rfl
@[simp] theorem withEvt_enabled (x) : (s.withEvt x).enabled = s.enabled := rfl
@[simp] theorem withEvt_ctxs (x) : (s.withEvt x).ctxs = s.ctxs := rfl
@[simp] theorem withEvt_accSeq (x) : (s.withEvt x).accSeq = s.accSeq := rfl
@[simp] theorem withEvt_verdict (x) : (s.withEvt x).verdict = s.verdict := rfl
@[simp] theorem withEvt_cin (x) : (s.withEvt x).cin = s.cin := rfl
@[simp] theorem withEvt_slots (x) : (s.withEvt x).slots = s.slots := rfl
@[simp] theorem withEvt_tx (x) : (s.withEvt x).tx = s.tx := rfl
@[simp] theorem withEvt_plibBad (x) : (s.withEvt x).plibBad = s.plibBad := rfl
@[simp] theorem withEvt_evOpen (x) : (s.withEvt x).evOpen = s.evOpen := rfl
@[simp] theorem withEvt_evSlots (x) : (s.withEvt x).evSlots = s.evSlots := rfl
@[simp] theorem withEvt_evTimer (x) : (s.withEvt x).evTimer = s.evTimer := rfl
@[simp] theorem withEvt_evTimerOn (x) : (s.withEvt x).evTimerOn = s.evTimerOn := rfl
@[simp] theorem withEvt_harts (x) : (s.withEvt x).harts = s.harts := rfl
@[simp] theorem withEvt_instret (x) : (s.withEvt x).instret = s.instret := rfl
@[simp] theorem withEvt_vp2 (x) : (s.withEvt x).vp2 = s.vp2 := rfl
@[simp] theorem withEvt_agParams (x) : (s.withEvt x).agParams = s.agParams := rfl
@[simp] theorem withEvt_gs (x) : (s.withEvt x).gs = s.gs := rfl
@[simp] theorem withEvt_since (x) : (s.withEvt x).since = s.since := rfl
@[simp] theorem withEvt_ct (x) : (s.withEvt x).ct = s.ct := rfl
@[simp] theorem withEvt_pairs (x) : (s.withEvt x).pairs = s.pairs := rfl
@[simp] theorem withEvt_roleMoves (x) : (s.withEvt x).roleMoves = s.roleMoves := rfl
@[simp] theorem withEvt_mbx (x) : (s.withEvt x).mbx = s.mbx := rfl
@[simp] theorem withEvt_retFlag (x) : (s.withEvt x).retFlag = s.retFlag := rfl
@[simp] theorem withEvt_fc (x) : (s.withEvt x).fc = s.fc := rfl
@[simp] theorem withEvt_wd (x) : (s.withEvt x).wd = s.wd := rfl
@[simp] theorem withEvt_dma (x) : (s.withEvt x).dma = s.dma := rfl
@[simp] theorem withEvt_tm (x) : (s.withEvt x).tm = s.tm := rfl
@[simp] theorem withEvt_eth (x) : (s.withEvt x).eth = s.eth := rfl
@[simp] theorem withEvt_ibi (x) : (s.withEvt x).ibi = s.ibi := rfl
@[simp] theorem withEvt_i3c (x) : (s.withEvt x).i3c = s.i3c := rfl
@[simp] theorem withEvt_xsp (x) : (s.withEvt x).xsp = s.xsp := rfl
@[simp] theorem withEvt_hostIrq (x) : (s.withEvt x).hostIrq = s.hostIrq := rfl
@[simp] theorem withEvt_ml (x) : (s.withEvt x).ml = s.ml := rfl
@[simp] theorem withEvt_sec (x) : (s.withEvt x).sec = s.sec := rfl
@[simp] theorem withEvt_boot (x) : (s.withEvt x).boot = s.boot := rfl
@[simp] theorem withEvt_flash (x) : (s.withEvt x).flash = s.flash := rfl
@[simp] theorem withEvt_dieReset (x) : (s.withEvt x).dieReset = s.dieReset := rfl
@[simp] theorem withEvt_holds (x) : (s.withEvt x).holds = s.holds := rfl
@[simp] theorem withEvt_railsLow (x) : (s.withEvt x).railsLow = s.railsLow := rfl
@[simp] theorem withEvt_committed (x) : (s.withEvt x).committed = s.committed := rfl
@[simp] theorem withEvt_spsTick (x) : (s.withEvt x).spsTick = s.spsTick := rfl
@[simp] theorem withEvt_protect (x) : (s.withEvt x).protect = s.protect := rfl
@[simp] theorem withEvt_sioIn (x) : (s.withEvt x).sioIn = s.sioIn := rfl
@[simp] theorem withEvt_sioOut (x) : (s.withEvt x).sioOut = s.sioOut := rfl
@[simp] theorem withEvt_accCmd (x) : (s.withEvt x).accCmd = s.accCmd := rfl
@[simp] theorem withEvt_lb (x) : (s.withEvt x).lb = s.lb := rfl
@[simp] theorem withEvt_jtag (x) : (s.withEvt x).jtag = s.jtag := rfl
@[simp] theorem withEvt_boundary (x) : (s.withEvt x).boundary = s.boundary := rfl

/-! ### What `withSoutReq` leaves -/

@[simp] theorem withSoutReq_pending (x) : (s.withSoutReq x).pending = s.pending := rfl
@[simp] theorem withSoutReq_tick (x) : (s.withSoutReq x).tick = s.tick := rfl
@[simp] theorem withSoutReq_free (x) : (s.withSoutReq x).free = s.free := rfl
@[simp] theorem withSoutReq_regs (x) : (s.withSoutReq x).regs = s.regs := rfl
@[simp] theorem withSoutReq_latch (x) : (s.withSoutReq x).latch = s.latch := rfl
@[simp] theorem withSoutReq_held (x) : (s.withSoutReq x).held = s.held := rfl
@[simp] theorem withSoutReq_mem (x) : (s.withSoutReq x).mem = s.mem := rfl
@[simp] theorem withSoutReq_lost (x) : (s.withSoutReq x).lost = s.lost := rfl
@[simp] theorem withSoutReq_g6Hot (x) : (s.withSoutReq x).g6Hot = s.g6Hot := rfl
@[simp] theorem withSoutReq_resp (x) : (s.withSoutReq x).resp = s.resp := rfl
@[simp] theorem withSoutReq_rdata (x) : (s.withSoutReq x).rdata = s.rdata := rfl
@[simp] theorem withSoutReq_evt (x) : (s.withSoutReq x).evt = s.evt := rfl
@[simp] theorem withSoutReq_vdBusy (x) : (s.withSoutReq x).vdBusy = s.vdBusy := rfl
@[simp] theorem withSoutReq_enabled (x) : (s.withSoutReq x).enabled = s.enabled := rfl
@[simp] theorem withSoutReq_ctxs (x) : (s.withSoutReq x).ctxs = s.ctxs := rfl
@[simp] theorem withSoutReq_accSeq (x) : (s.withSoutReq x).accSeq = s.accSeq := rfl
@[simp] theorem withSoutReq_verdict (x) : (s.withSoutReq x).verdict = s.verdict := rfl
@[simp] theorem withSoutReq_cin (x) : (s.withSoutReq x).cin = s.cin := rfl
@[simp] theorem withSoutReq_slots (x) : (s.withSoutReq x).slots = s.slots := rfl
@[simp] theorem withSoutReq_tx (x) : (s.withSoutReq x).tx = s.tx := rfl
@[simp] theorem withSoutReq_plibBad (x) : (s.withSoutReq x).plibBad = s.plibBad := rfl
@[simp] theorem withSoutReq_evOpen (x) : (s.withSoutReq x).evOpen = s.evOpen := rfl
@[simp] theorem withSoutReq_evSlots (x) : (s.withSoutReq x).evSlots = s.evSlots := rfl
@[simp] theorem withSoutReq_evTimer (x) : (s.withSoutReq x).evTimer = s.evTimer := rfl
@[simp] theorem withSoutReq_evTimerOn (x) : (s.withSoutReq x).evTimerOn = s.evTimerOn := rfl
@[simp] theorem withSoutReq_harts (x) : (s.withSoutReq x).harts = s.harts := rfl
@[simp] theorem withSoutReq_instret (x) : (s.withSoutReq x).instret = s.instret := rfl
@[simp] theorem withSoutReq_vp2 (x) : (s.withSoutReq x).vp2 = s.vp2 := rfl
@[simp] theorem withSoutReq_agParams (x) : (s.withSoutReq x).agParams = s.agParams := rfl
@[simp] theorem withSoutReq_gs (x) : (s.withSoutReq x).gs = s.gs := rfl
@[simp] theorem withSoutReq_since (x) : (s.withSoutReq x).since = s.since := rfl
@[simp] theorem withSoutReq_ct (x) : (s.withSoutReq x).ct = s.ct := rfl
@[simp] theorem withSoutReq_pairs (x) : (s.withSoutReq x).pairs = s.pairs := rfl
@[simp] theorem withSoutReq_roleMoves (x) : (s.withSoutReq x).roleMoves = s.roleMoves := rfl
@[simp] theorem withSoutReq_mbx (x) : (s.withSoutReq x).mbx = s.mbx := rfl
@[simp] theorem withSoutReq_retFlag (x) : (s.withSoutReq x).retFlag = s.retFlag := rfl
@[simp] theorem withSoutReq_fc (x) : (s.withSoutReq x).fc = s.fc := rfl
@[simp] theorem withSoutReq_wd (x) : (s.withSoutReq x).wd = s.wd := rfl
@[simp] theorem withSoutReq_dma (x) : (s.withSoutReq x).dma = s.dma := rfl
@[simp] theorem withSoutReq_tm (x) : (s.withSoutReq x).tm = s.tm := rfl
@[simp] theorem withSoutReq_eth (x) : (s.withSoutReq x).eth = s.eth := rfl
@[simp] theorem withSoutReq_ibi (x) : (s.withSoutReq x).ibi = s.ibi := rfl
@[simp] theorem withSoutReq_i3c (x) : (s.withSoutReq x).i3c = s.i3c := rfl
@[simp] theorem withSoutReq_xsp (x) : (s.withSoutReq x).xsp = s.xsp := rfl
@[simp] theorem withSoutReq_hostIrq (x) : (s.withSoutReq x).hostIrq = s.hostIrq := rfl
@[simp] theorem withSoutReq_ml (x) : (s.withSoutReq x).ml = s.ml := rfl
@[simp] theorem withSoutReq_sec (x) : (s.withSoutReq x).sec = s.sec := rfl
@[simp] theorem withSoutReq_boot (x) : (s.withSoutReq x).boot = s.boot := rfl
@[simp] theorem withSoutReq_flash (x) : (s.withSoutReq x).flash = s.flash := rfl
@[simp] theorem withSoutReq_dieReset (x) : (s.withSoutReq x).dieReset = s.dieReset := rfl
@[simp] theorem withSoutReq_holds (x) : (s.withSoutReq x).holds = s.holds := rfl
@[simp] theorem withSoutReq_railsLow (x) : (s.withSoutReq x).railsLow = s.railsLow := rfl
@[simp] theorem withSoutReq_committed (x) : (s.withSoutReq x).committed = s.committed := rfl
@[simp] theorem withSoutReq_spsTick (x) : (s.withSoutReq x).spsTick = s.spsTick := rfl
@[simp] theorem withSoutReq_protect (x) : (s.withSoutReq x).protect = s.protect := rfl
@[simp] theorem withSoutReq_sioIn (x) : (s.withSoutReq x).sioIn = s.sioIn := rfl
@[simp] theorem withSoutReq_sioOut (x) : (s.withSoutReq x).sioOut = s.sioOut := rfl
@[simp] theorem withSoutReq_accCmd (x) : (s.withSoutReq x).accCmd = s.accCmd := rfl
@[simp] theorem withSoutReq_lb (x) : (s.withSoutReq x).lb = s.lb := rfl
@[simp] theorem withSoutReq_jtag (x) : (s.withSoutReq x).jtag = s.jtag := rfl
@[simp] theorem withSoutReq_boundary (x) : (s.withSoutReq x).boundary = s.boundary := rfl

/-! ### What `withEnabled` leaves -/

@[simp] theorem withEnabled_pending (x) : (s.withEnabled x).pending = s.pending := rfl
@[simp] theorem withEnabled_tick (x) : (s.withEnabled x).tick = s.tick := rfl
@[simp] theorem withEnabled_free (x) : (s.withEnabled x).free = s.free := rfl
@[simp] theorem withEnabled_regs (x) : (s.withEnabled x).regs = s.regs := rfl
@[simp] theorem withEnabled_latch (x) : (s.withEnabled x).latch = s.latch := rfl
@[simp] theorem withEnabled_held (x) : (s.withEnabled x).held = s.held := rfl
@[simp] theorem withEnabled_mem (x) : (s.withEnabled x).mem = s.mem := rfl
@[simp] theorem withEnabled_lost (x) : (s.withEnabled x).lost = s.lost := rfl
@[simp] theorem withEnabled_g6Hot (x) : (s.withEnabled x).g6Hot = s.g6Hot := rfl
@[simp] theorem withEnabled_resp (x) : (s.withEnabled x).resp = s.resp := rfl
@[simp] theorem withEnabled_rdata (x) : (s.withEnabled x).rdata = s.rdata := rfl
@[simp] theorem withEnabled_evt (x) : (s.withEnabled x).evt = s.evt := rfl
@[simp] theorem withEnabled_vdBusy (x) : (s.withEnabled x).vdBusy = s.vdBusy := rfl
@[simp] theorem withEnabled_soutReq (x) : (s.withEnabled x).soutReq = s.soutReq := rfl
@[simp] theorem withEnabled_ctxs (x) : (s.withEnabled x).ctxs = s.ctxs := rfl
@[simp] theorem withEnabled_accSeq (x) : (s.withEnabled x).accSeq = s.accSeq := rfl
@[simp] theorem withEnabled_verdict (x) : (s.withEnabled x).verdict = s.verdict := rfl
@[simp] theorem withEnabled_cin (x) : (s.withEnabled x).cin = s.cin := rfl
@[simp] theorem withEnabled_slots (x) : (s.withEnabled x).slots = s.slots := rfl
@[simp] theorem withEnabled_tx (x) : (s.withEnabled x).tx = s.tx := rfl
@[simp] theorem withEnabled_plibBad (x) : (s.withEnabled x).plibBad = s.plibBad := rfl
@[simp] theorem withEnabled_evOpen (x) : (s.withEnabled x).evOpen = s.evOpen := rfl
@[simp] theorem withEnabled_evSlots (x) : (s.withEnabled x).evSlots = s.evSlots := rfl
@[simp] theorem withEnabled_evTimer (x) : (s.withEnabled x).evTimer = s.evTimer := rfl
@[simp] theorem withEnabled_evTimerOn (x) : (s.withEnabled x).evTimerOn = s.evTimerOn := rfl
@[simp] theorem withEnabled_harts (x) : (s.withEnabled x).harts = s.harts := rfl
@[simp] theorem withEnabled_instret (x) : (s.withEnabled x).instret = s.instret := rfl
@[simp] theorem withEnabled_vp2 (x) : (s.withEnabled x).vp2 = s.vp2 := rfl
@[simp] theorem withEnabled_agParams (x) : (s.withEnabled x).agParams = s.agParams := rfl
@[simp] theorem withEnabled_gs (x) : (s.withEnabled x).gs = s.gs := rfl
@[simp] theorem withEnabled_since (x) : (s.withEnabled x).since = s.since := rfl
@[simp] theorem withEnabled_ct (x) : (s.withEnabled x).ct = s.ct := rfl
@[simp] theorem withEnabled_pairs (x) : (s.withEnabled x).pairs = s.pairs := rfl
@[simp] theorem withEnabled_roleMoves (x) : (s.withEnabled x).roleMoves = s.roleMoves := rfl
@[simp] theorem withEnabled_mbx (x) : (s.withEnabled x).mbx = s.mbx := rfl
@[simp] theorem withEnabled_retFlag (x) : (s.withEnabled x).retFlag = s.retFlag := rfl
@[simp] theorem withEnabled_fc (x) : (s.withEnabled x).fc = s.fc := rfl
@[simp] theorem withEnabled_wd (x) : (s.withEnabled x).wd = s.wd := rfl
@[simp] theorem withEnabled_dma (x) : (s.withEnabled x).dma = s.dma := rfl
@[simp] theorem withEnabled_tm (x) : (s.withEnabled x).tm = s.tm := rfl
@[simp] theorem withEnabled_eth (x) : (s.withEnabled x).eth = s.eth := rfl
@[simp] theorem withEnabled_ibi (x) : (s.withEnabled x).ibi = s.ibi := rfl
@[simp] theorem withEnabled_i3c (x) : (s.withEnabled x).i3c = s.i3c := rfl
@[simp] theorem withEnabled_xsp (x) : (s.withEnabled x).xsp = s.xsp := rfl
@[simp] theorem withEnabled_hostIrq (x) : (s.withEnabled x).hostIrq = s.hostIrq := rfl
@[simp] theorem withEnabled_ml (x) : (s.withEnabled x).ml = s.ml := rfl
@[simp] theorem withEnabled_sec (x) : (s.withEnabled x).sec = s.sec := rfl
@[simp] theorem withEnabled_boot (x) : (s.withEnabled x).boot = s.boot := rfl
@[simp] theorem withEnabled_flash (x) : (s.withEnabled x).flash = s.flash := rfl
@[simp] theorem withEnabled_dieReset (x) : (s.withEnabled x).dieReset = s.dieReset := rfl
@[simp] theorem withEnabled_holds (x) : (s.withEnabled x).holds = s.holds := rfl
@[simp] theorem withEnabled_railsLow (x) : (s.withEnabled x).railsLow = s.railsLow := rfl
@[simp] theorem withEnabled_committed (x) : (s.withEnabled x).committed = s.committed := rfl
@[simp] theorem withEnabled_spsTick (x) : (s.withEnabled x).spsTick = s.spsTick := rfl
@[simp] theorem withEnabled_protect (x) : (s.withEnabled x).protect = s.protect := rfl
@[simp] theorem withEnabled_sioIn (x) : (s.withEnabled x).sioIn = s.sioIn := rfl
@[simp] theorem withEnabled_sioOut (x) : (s.withEnabled x).sioOut = s.sioOut := rfl
@[simp] theorem withEnabled_accCmd (x) : (s.withEnabled x).accCmd = s.accCmd := rfl
@[simp] theorem withEnabled_lb (x) : (s.withEnabled x).lb = s.lb := rfl
@[simp] theorem withEnabled_jtag (x) : (s.withEnabled x).jtag = s.jtag := rfl
@[simp] theorem withEnabled_boundary (x) : (s.withEnabled x).boundary = s.boundary := rfl

/-! ### What `withCtxs` leaves -/

@[simp] theorem withCtxs_pending (x) : (s.withCtxs x).pending = s.pending := rfl
@[simp] theorem withCtxs_tick (x) : (s.withCtxs x).tick = s.tick := rfl
@[simp] theorem withCtxs_free (x) : (s.withCtxs x).free = s.free := rfl
@[simp] theorem withCtxs_regs (x) : (s.withCtxs x).regs = s.regs := rfl
@[simp] theorem withCtxs_latch (x) : (s.withCtxs x).latch = s.latch := rfl
@[simp] theorem withCtxs_held (x) : (s.withCtxs x).held = s.held := rfl
@[simp] theorem withCtxs_mem (x) : (s.withCtxs x).mem = s.mem := rfl
@[simp] theorem withCtxs_lost (x) : (s.withCtxs x).lost = s.lost := rfl
@[simp] theorem withCtxs_g6Hot (x) : (s.withCtxs x).g6Hot = s.g6Hot := rfl
@[simp] theorem withCtxs_resp (x) : (s.withCtxs x).resp = s.resp := rfl
@[simp] theorem withCtxs_rdata (x) : (s.withCtxs x).rdata = s.rdata := rfl
@[simp] theorem withCtxs_evt (x) : (s.withCtxs x).evt = s.evt := rfl
@[simp] theorem withCtxs_vdBusy (x) : (s.withCtxs x).vdBusy = s.vdBusy := rfl
@[simp] theorem withCtxs_soutReq (x) : (s.withCtxs x).soutReq = s.soutReq := rfl
@[simp] theorem withCtxs_enabled (x) : (s.withCtxs x).enabled = s.enabled := rfl
@[simp] theorem withCtxs_accSeq (x) : (s.withCtxs x).accSeq = s.accSeq := rfl
@[simp] theorem withCtxs_verdict (x) : (s.withCtxs x).verdict = s.verdict := rfl
@[simp] theorem withCtxs_cin (x) : (s.withCtxs x).cin = s.cin := rfl
@[simp] theorem withCtxs_slots (x) : (s.withCtxs x).slots = s.slots := rfl
@[simp] theorem withCtxs_tx (x) : (s.withCtxs x).tx = s.tx := rfl
@[simp] theorem withCtxs_plibBad (x) : (s.withCtxs x).plibBad = s.plibBad := rfl
@[simp] theorem withCtxs_evOpen (x) : (s.withCtxs x).evOpen = s.evOpen := rfl
@[simp] theorem withCtxs_evSlots (x) : (s.withCtxs x).evSlots = s.evSlots := rfl
@[simp] theorem withCtxs_evTimer (x) : (s.withCtxs x).evTimer = s.evTimer := rfl
@[simp] theorem withCtxs_evTimerOn (x) : (s.withCtxs x).evTimerOn = s.evTimerOn := rfl
@[simp] theorem withCtxs_harts (x) : (s.withCtxs x).harts = s.harts := rfl
@[simp] theorem withCtxs_instret (x) : (s.withCtxs x).instret = s.instret := rfl
@[simp] theorem withCtxs_vp2 (x) : (s.withCtxs x).vp2 = s.vp2 := rfl
@[simp] theorem withCtxs_agParams (x) : (s.withCtxs x).agParams = s.agParams := rfl
@[simp] theorem withCtxs_gs (x) : (s.withCtxs x).gs = s.gs := rfl
@[simp] theorem withCtxs_since (x) : (s.withCtxs x).since = s.since := rfl
@[simp] theorem withCtxs_ct (x) : (s.withCtxs x).ct = s.ct := rfl
@[simp] theorem withCtxs_pairs (x) : (s.withCtxs x).pairs = s.pairs := rfl
@[simp] theorem withCtxs_roleMoves (x) : (s.withCtxs x).roleMoves = s.roleMoves := rfl
@[simp] theorem withCtxs_mbx (x) : (s.withCtxs x).mbx = s.mbx := rfl
@[simp] theorem withCtxs_retFlag (x) : (s.withCtxs x).retFlag = s.retFlag := rfl
@[simp] theorem withCtxs_fc (x) : (s.withCtxs x).fc = s.fc := rfl
@[simp] theorem withCtxs_wd (x) : (s.withCtxs x).wd = s.wd := rfl
@[simp] theorem withCtxs_dma (x) : (s.withCtxs x).dma = s.dma := rfl
@[simp] theorem withCtxs_tm (x) : (s.withCtxs x).tm = s.tm := rfl
@[simp] theorem withCtxs_eth (x) : (s.withCtxs x).eth = s.eth := rfl
@[simp] theorem withCtxs_ibi (x) : (s.withCtxs x).ibi = s.ibi := rfl
@[simp] theorem withCtxs_i3c (x) : (s.withCtxs x).i3c = s.i3c := rfl
@[simp] theorem withCtxs_xsp (x) : (s.withCtxs x).xsp = s.xsp := rfl
@[simp] theorem withCtxs_hostIrq (x) : (s.withCtxs x).hostIrq = s.hostIrq := rfl
@[simp] theorem withCtxs_ml (x) : (s.withCtxs x).ml = s.ml := rfl
@[simp] theorem withCtxs_sec (x) : (s.withCtxs x).sec = s.sec := rfl
@[simp] theorem withCtxs_boot (x) : (s.withCtxs x).boot = s.boot := rfl
@[simp] theorem withCtxs_flash (x) : (s.withCtxs x).flash = s.flash := rfl
@[simp] theorem withCtxs_dieReset (x) : (s.withCtxs x).dieReset = s.dieReset := rfl
@[simp] theorem withCtxs_holds (x) : (s.withCtxs x).holds = s.holds := rfl
@[simp] theorem withCtxs_railsLow (x) : (s.withCtxs x).railsLow = s.railsLow := rfl
@[simp] theorem withCtxs_committed (x) : (s.withCtxs x).committed = s.committed := rfl
@[simp] theorem withCtxs_spsTick (x) : (s.withCtxs x).spsTick = s.spsTick := rfl
@[simp] theorem withCtxs_protect (x) : (s.withCtxs x).protect = s.protect := rfl
@[simp] theorem withCtxs_sioIn (x) : (s.withCtxs x).sioIn = s.sioIn := rfl
@[simp] theorem withCtxs_sioOut (x) : (s.withCtxs x).sioOut = s.sioOut := rfl
@[simp] theorem withCtxs_accCmd (x) : (s.withCtxs x).accCmd = s.accCmd := rfl
@[simp] theorem withCtxs_lb (x) : (s.withCtxs x).lb = s.lb := rfl
@[simp] theorem withCtxs_jtag (x) : (s.withCtxs x).jtag = s.jtag := rfl
@[simp] theorem withCtxs_boundary (x) : (s.withCtxs x).boundary = s.boundary := rfl

/-! ### What `withAccSeq` leaves -/

@[simp] theorem withAccSeq_pending (x) : (s.withAccSeq x).pending = s.pending := rfl
@[simp] theorem withAccSeq_tick (x) : (s.withAccSeq x).tick = s.tick := rfl
@[simp] theorem withAccSeq_free (x) : (s.withAccSeq x).free = s.free := rfl
@[simp] theorem withAccSeq_regs (x) : (s.withAccSeq x).regs = s.regs := rfl
@[simp] theorem withAccSeq_latch (x) : (s.withAccSeq x).latch = s.latch := rfl
@[simp] theorem withAccSeq_held (x) : (s.withAccSeq x).held = s.held := rfl
@[simp] theorem withAccSeq_mem (x) : (s.withAccSeq x).mem = s.mem := rfl
@[simp] theorem withAccSeq_lost (x) : (s.withAccSeq x).lost = s.lost := rfl
@[simp] theorem withAccSeq_g6Hot (x) : (s.withAccSeq x).g6Hot = s.g6Hot := rfl
@[simp] theorem withAccSeq_resp (x) : (s.withAccSeq x).resp = s.resp := rfl
@[simp] theorem withAccSeq_rdata (x) : (s.withAccSeq x).rdata = s.rdata := rfl
@[simp] theorem withAccSeq_evt (x) : (s.withAccSeq x).evt = s.evt := rfl
@[simp] theorem withAccSeq_vdBusy (x) : (s.withAccSeq x).vdBusy = s.vdBusy := rfl
@[simp] theorem withAccSeq_soutReq (x) : (s.withAccSeq x).soutReq = s.soutReq := rfl
@[simp] theorem withAccSeq_enabled (x) : (s.withAccSeq x).enabled = s.enabled := rfl
@[simp] theorem withAccSeq_ctxs (x) : (s.withAccSeq x).ctxs = s.ctxs := rfl
@[simp] theorem withAccSeq_verdict (x) : (s.withAccSeq x).verdict = s.verdict := rfl
@[simp] theorem withAccSeq_cin (x) : (s.withAccSeq x).cin = s.cin := rfl
@[simp] theorem withAccSeq_slots (x) : (s.withAccSeq x).slots = s.slots := rfl
@[simp] theorem withAccSeq_tx (x) : (s.withAccSeq x).tx = s.tx := rfl
@[simp] theorem withAccSeq_plibBad (x) : (s.withAccSeq x).plibBad = s.plibBad := rfl
@[simp] theorem withAccSeq_evOpen (x) : (s.withAccSeq x).evOpen = s.evOpen := rfl
@[simp] theorem withAccSeq_evSlots (x) : (s.withAccSeq x).evSlots = s.evSlots := rfl
@[simp] theorem withAccSeq_evTimer (x) : (s.withAccSeq x).evTimer = s.evTimer := rfl
@[simp] theorem withAccSeq_evTimerOn (x) : (s.withAccSeq x).evTimerOn = s.evTimerOn := rfl
@[simp] theorem withAccSeq_harts (x) : (s.withAccSeq x).harts = s.harts := rfl
@[simp] theorem withAccSeq_instret (x) : (s.withAccSeq x).instret = s.instret := rfl
@[simp] theorem withAccSeq_vp2 (x) : (s.withAccSeq x).vp2 = s.vp2 := rfl
@[simp] theorem withAccSeq_agParams (x) : (s.withAccSeq x).agParams = s.agParams := rfl
@[simp] theorem withAccSeq_gs (x) : (s.withAccSeq x).gs = s.gs := rfl
@[simp] theorem withAccSeq_since (x) : (s.withAccSeq x).since = s.since := rfl
@[simp] theorem withAccSeq_ct (x) : (s.withAccSeq x).ct = s.ct := rfl
@[simp] theorem withAccSeq_pairs (x) : (s.withAccSeq x).pairs = s.pairs := rfl
@[simp] theorem withAccSeq_roleMoves (x) : (s.withAccSeq x).roleMoves = s.roleMoves := rfl
@[simp] theorem withAccSeq_mbx (x) : (s.withAccSeq x).mbx = s.mbx := rfl
@[simp] theorem withAccSeq_retFlag (x) : (s.withAccSeq x).retFlag = s.retFlag := rfl
@[simp] theorem withAccSeq_fc (x) : (s.withAccSeq x).fc = s.fc := rfl
@[simp] theorem withAccSeq_wd (x) : (s.withAccSeq x).wd = s.wd := rfl
@[simp] theorem withAccSeq_dma (x) : (s.withAccSeq x).dma = s.dma := rfl
@[simp] theorem withAccSeq_tm (x) : (s.withAccSeq x).tm = s.tm := rfl
@[simp] theorem withAccSeq_eth (x) : (s.withAccSeq x).eth = s.eth := rfl
@[simp] theorem withAccSeq_ibi (x) : (s.withAccSeq x).ibi = s.ibi := rfl
@[simp] theorem withAccSeq_i3c (x) : (s.withAccSeq x).i3c = s.i3c := rfl
@[simp] theorem withAccSeq_xsp (x) : (s.withAccSeq x).xsp = s.xsp := rfl
@[simp] theorem withAccSeq_hostIrq (x) : (s.withAccSeq x).hostIrq = s.hostIrq := rfl
@[simp] theorem withAccSeq_ml (x) : (s.withAccSeq x).ml = s.ml := rfl
@[simp] theorem withAccSeq_sec (x) : (s.withAccSeq x).sec = s.sec := rfl
@[simp] theorem withAccSeq_boot (x) : (s.withAccSeq x).boot = s.boot := rfl
@[simp] theorem withAccSeq_flash (x) : (s.withAccSeq x).flash = s.flash := rfl
@[simp] theorem withAccSeq_dieReset (x) : (s.withAccSeq x).dieReset = s.dieReset := rfl
@[simp] theorem withAccSeq_holds (x) : (s.withAccSeq x).holds = s.holds := rfl
@[simp] theorem withAccSeq_railsLow (x) : (s.withAccSeq x).railsLow = s.railsLow := rfl
@[simp] theorem withAccSeq_committed (x) : (s.withAccSeq x).committed = s.committed := rfl
@[simp] theorem withAccSeq_spsTick (x) : (s.withAccSeq x).spsTick = s.spsTick := rfl
@[simp] theorem withAccSeq_protect (x) : (s.withAccSeq x).protect = s.protect := rfl
@[simp] theorem withAccSeq_sioIn (x) : (s.withAccSeq x).sioIn = s.sioIn := rfl
@[simp] theorem withAccSeq_sioOut (x) : (s.withAccSeq x).sioOut = s.sioOut := rfl
@[simp] theorem withAccSeq_accCmd (x) : (s.withAccSeq x).accCmd = s.accCmd := rfl
@[simp] theorem withAccSeq_lb (x) : (s.withAccSeq x).lb = s.lb := rfl
@[simp] theorem withAccSeq_jtag (x) : (s.withAccSeq x).jtag = s.jtag := rfl
@[simp] theorem withAccSeq_boundary (x) : (s.withAccSeq x).boundary = s.boundary := rfl

/-! ### What `withVerdict` leaves -/

@[simp] theorem withVerdict_pending (x) : (s.withVerdict x).pending = s.pending := rfl
@[simp] theorem withVerdict_tick (x) : (s.withVerdict x).tick = s.tick := rfl
@[simp] theorem withVerdict_free (x) : (s.withVerdict x).free = s.free := rfl
@[simp] theorem withVerdict_regs (x) : (s.withVerdict x).regs = s.regs := rfl
@[simp] theorem withVerdict_latch (x) : (s.withVerdict x).latch = s.latch := rfl
@[simp] theorem withVerdict_held (x) : (s.withVerdict x).held = s.held := rfl
@[simp] theorem withVerdict_mem (x) : (s.withVerdict x).mem = s.mem := rfl
@[simp] theorem withVerdict_lost (x) : (s.withVerdict x).lost = s.lost := rfl
@[simp] theorem withVerdict_g6Hot (x) : (s.withVerdict x).g6Hot = s.g6Hot := rfl
@[simp] theorem withVerdict_resp (x) : (s.withVerdict x).resp = s.resp := rfl
@[simp] theorem withVerdict_rdata (x) : (s.withVerdict x).rdata = s.rdata := rfl
@[simp] theorem withVerdict_evt (x) : (s.withVerdict x).evt = s.evt := rfl
@[simp] theorem withVerdict_vdBusy (x) : (s.withVerdict x).vdBusy = s.vdBusy := rfl
@[simp] theorem withVerdict_soutReq (x) : (s.withVerdict x).soutReq = s.soutReq := rfl
@[simp] theorem withVerdict_enabled (x) : (s.withVerdict x).enabled = s.enabled := rfl
@[simp] theorem withVerdict_ctxs (x) : (s.withVerdict x).ctxs = s.ctxs := rfl
@[simp] theorem withVerdict_accSeq (x) : (s.withVerdict x).accSeq = s.accSeq := rfl
@[simp] theorem withVerdict_cin (x) : (s.withVerdict x).cin = s.cin := rfl
@[simp] theorem withVerdict_slots (x) : (s.withVerdict x).slots = s.slots := rfl
@[simp] theorem withVerdict_tx (x) : (s.withVerdict x).tx = s.tx := rfl
@[simp] theorem withVerdict_plibBad (x) : (s.withVerdict x).plibBad = s.plibBad := rfl
@[simp] theorem withVerdict_evOpen (x) : (s.withVerdict x).evOpen = s.evOpen := rfl
@[simp] theorem withVerdict_evSlots (x) : (s.withVerdict x).evSlots = s.evSlots := rfl
@[simp] theorem withVerdict_evTimer (x) : (s.withVerdict x).evTimer = s.evTimer := rfl
@[simp] theorem withVerdict_evTimerOn (x) : (s.withVerdict x).evTimerOn = s.evTimerOn := rfl
@[simp] theorem withVerdict_harts (x) : (s.withVerdict x).harts = s.harts := rfl
@[simp] theorem withVerdict_instret (x) : (s.withVerdict x).instret = s.instret := rfl
@[simp] theorem withVerdict_vp2 (x) : (s.withVerdict x).vp2 = s.vp2 := rfl
@[simp] theorem withVerdict_agParams (x) : (s.withVerdict x).agParams = s.agParams := rfl
@[simp] theorem withVerdict_gs (x) : (s.withVerdict x).gs = s.gs := rfl
@[simp] theorem withVerdict_since (x) : (s.withVerdict x).since = s.since := rfl
@[simp] theorem withVerdict_ct (x) : (s.withVerdict x).ct = s.ct := rfl
@[simp] theorem withVerdict_pairs (x) : (s.withVerdict x).pairs = s.pairs := rfl
@[simp] theorem withVerdict_roleMoves (x) : (s.withVerdict x).roleMoves = s.roleMoves := rfl
@[simp] theorem withVerdict_mbx (x) : (s.withVerdict x).mbx = s.mbx := rfl
@[simp] theorem withVerdict_retFlag (x) : (s.withVerdict x).retFlag = s.retFlag := rfl
@[simp] theorem withVerdict_fc (x) : (s.withVerdict x).fc = s.fc := rfl
@[simp] theorem withVerdict_wd (x) : (s.withVerdict x).wd = s.wd := rfl
@[simp] theorem withVerdict_dma (x) : (s.withVerdict x).dma = s.dma := rfl
@[simp] theorem withVerdict_tm (x) : (s.withVerdict x).tm = s.tm := rfl
@[simp] theorem withVerdict_eth (x) : (s.withVerdict x).eth = s.eth := rfl
@[simp] theorem withVerdict_ibi (x) : (s.withVerdict x).ibi = s.ibi := rfl
@[simp] theorem withVerdict_i3c (x) : (s.withVerdict x).i3c = s.i3c := rfl
@[simp] theorem withVerdict_xsp (x) : (s.withVerdict x).xsp = s.xsp := rfl
@[simp] theorem withVerdict_hostIrq (x) : (s.withVerdict x).hostIrq = s.hostIrq := rfl
@[simp] theorem withVerdict_ml (x) : (s.withVerdict x).ml = s.ml := rfl
@[simp] theorem withVerdict_sec (x) : (s.withVerdict x).sec = s.sec := rfl
@[simp] theorem withVerdict_boot (x) : (s.withVerdict x).boot = s.boot := rfl
@[simp] theorem withVerdict_flash (x) : (s.withVerdict x).flash = s.flash := rfl
@[simp] theorem withVerdict_dieReset (x) : (s.withVerdict x).dieReset = s.dieReset := rfl
@[simp] theorem withVerdict_holds (x) : (s.withVerdict x).holds = s.holds := rfl
@[simp] theorem withVerdict_railsLow (x) : (s.withVerdict x).railsLow = s.railsLow := rfl
@[simp] theorem withVerdict_committed (x) : (s.withVerdict x).committed = s.committed := rfl
@[simp] theorem withVerdict_spsTick (x) : (s.withVerdict x).spsTick = s.spsTick := rfl
@[simp] theorem withVerdict_protect (x) : (s.withVerdict x).protect = s.protect := rfl
@[simp] theorem withVerdict_sioIn (x) : (s.withVerdict x).sioIn = s.sioIn := rfl
@[simp] theorem withVerdict_sioOut (x) : (s.withVerdict x).sioOut = s.sioOut := rfl
@[simp] theorem withVerdict_accCmd (x) : (s.withVerdict x).accCmd = s.accCmd := rfl
@[simp] theorem withVerdict_lb (x) : (s.withVerdict x).lb = s.lb := rfl
@[simp] theorem withVerdict_jtag (x) : (s.withVerdict x).jtag = s.jtag := rfl
@[simp] theorem withVerdict_boundary (x) : (s.withVerdict x).boundary = s.boundary := rfl

/-! ### What `withCin` leaves -/

@[simp] theorem withCin_pending (x) : (s.withCin x).pending = s.pending := rfl
@[simp] theorem withCin_tick (x) : (s.withCin x).tick = s.tick := rfl
@[simp] theorem withCin_free (x) : (s.withCin x).free = s.free := rfl
@[simp] theorem withCin_regs (x) : (s.withCin x).regs = s.regs := rfl
@[simp] theorem withCin_latch (x) : (s.withCin x).latch = s.latch := rfl
@[simp] theorem withCin_held (x) : (s.withCin x).held = s.held := rfl
@[simp] theorem withCin_mem (x) : (s.withCin x).mem = s.mem := rfl
@[simp] theorem withCin_lost (x) : (s.withCin x).lost = s.lost := rfl
@[simp] theorem withCin_g6Hot (x) : (s.withCin x).g6Hot = s.g6Hot := rfl
@[simp] theorem withCin_resp (x) : (s.withCin x).resp = s.resp := rfl
@[simp] theorem withCin_rdata (x) : (s.withCin x).rdata = s.rdata := rfl
@[simp] theorem withCin_evt (x) : (s.withCin x).evt = s.evt := rfl
@[simp] theorem withCin_vdBusy (x) : (s.withCin x).vdBusy = s.vdBusy := rfl
@[simp] theorem withCin_soutReq (x) : (s.withCin x).soutReq = s.soutReq := rfl
@[simp] theorem withCin_enabled (x) : (s.withCin x).enabled = s.enabled := rfl
@[simp] theorem withCin_ctxs (x) : (s.withCin x).ctxs = s.ctxs := rfl
@[simp] theorem withCin_accSeq (x) : (s.withCin x).accSeq = s.accSeq := rfl
@[simp] theorem withCin_verdict (x) : (s.withCin x).verdict = s.verdict := rfl
@[simp] theorem withCin_slots (x) : (s.withCin x).slots = s.slots := rfl
@[simp] theorem withCin_tx (x) : (s.withCin x).tx = s.tx := rfl
@[simp] theorem withCin_plibBad (x) : (s.withCin x).plibBad = s.plibBad := rfl
@[simp] theorem withCin_evOpen (x) : (s.withCin x).evOpen = s.evOpen := rfl
@[simp] theorem withCin_evSlots (x) : (s.withCin x).evSlots = s.evSlots := rfl
@[simp] theorem withCin_evTimer (x) : (s.withCin x).evTimer = s.evTimer := rfl
@[simp] theorem withCin_evTimerOn (x) : (s.withCin x).evTimerOn = s.evTimerOn := rfl
@[simp] theorem withCin_harts (x) : (s.withCin x).harts = s.harts := rfl
@[simp] theorem withCin_instret (x) : (s.withCin x).instret = s.instret := rfl
@[simp] theorem withCin_vp2 (x) : (s.withCin x).vp2 = s.vp2 := rfl
@[simp] theorem withCin_agParams (x) : (s.withCin x).agParams = s.agParams := rfl
@[simp] theorem withCin_gs (x) : (s.withCin x).gs = s.gs := rfl
@[simp] theorem withCin_since (x) : (s.withCin x).since = s.since := rfl
@[simp] theorem withCin_ct (x) : (s.withCin x).ct = s.ct := rfl
@[simp] theorem withCin_pairs (x) : (s.withCin x).pairs = s.pairs := rfl
@[simp] theorem withCin_roleMoves (x) : (s.withCin x).roleMoves = s.roleMoves := rfl
@[simp] theorem withCin_mbx (x) : (s.withCin x).mbx = s.mbx := rfl
@[simp] theorem withCin_retFlag (x) : (s.withCin x).retFlag = s.retFlag := rfl
@[simp] theorem withCin_fc (x) : (s.withCin x).fc = s.fc := rfl
@[simp] theorem withCin_wd (x) : (s.withCin x).wd = s.wd := rfl
@[simp] theorem withCin_dma (x) : (s.withCin x).dma = s.dma := rfl
@[simp] theorem withCin_tm (x) : (s.withCin x).tm = s.tm := rfl
@[simp] theorem withCin_eth (x) : (s.withCin x).eth = s.eth := rfl
@[simp] theorem withCin_ibi (x) : (s.withCin x).ibi = s.ibi := rfl
@[simp] theorem withCin_i3c (x) : (s.withCin x).i3c = s.i3c := rfl
@[simp] theorem withCin_xsp (x) : (s.withCin x).xsp = s.xsp := rfl
@[simp] theorem withCin_hostIrq (x) : (s.withCin x).hostIrq = s.hostIrq := rfl
@[simp] theorem withCin_ml (x) : (s.withCin x).ml = s.ml := rfl
@[simp] theorem withCin_sec (x) : (s.withCin x).sec = s.sec := rfl
@[simp] theorem withCin_boot (x) : (s.withCin x).boot = s.boot := rfl
@[simp] theorem withCin_flash (x) : (s.withCin x).flash = s.flash := rfl
@[simp] theorem withCin_dieReset (x) : (s.withCin x).dieReset = s.dieReset := rfl
@[simp] theorem withCin_holds (x) : (s.withCin x).holds = s.holds := rfl
@[simp] theorem withCin_railsLow (x) : (s.withCin x).railsLow = s.railsLow := rfl
@[simp] theorem withCin_committed (x) : (s.withCin x).committed = s.committed := rfl
@[simp] theorem withCin_spsTick (x) : (s.withCin x).spsTick = s.spsTick := rfl
@[simp] theorem withCin_protect (x) : (s.withCin x).protect = s.protect := rfl
@[simp] theorem withCin_sioIn (x) : (s.withCin x).sioIn = s.sioIn := rfl
@[simp] theorem withCin_sioOut (x) : (s.withCin x).sioOut = s.sioOut := rfl
@[simp] theorem withCin_accCmd (x) : (s.withCin x).accCmd = s.accCmd := rfl
@[simp] theorem withCin_lb (x) : (s.withCin x).lb = s.lb := rfl
@[simp] theorem withCin_jtag (x) : (s.withCin x).jtag = s.jtag := rfl
@[simp] theorem withCin_boundary (x) : (s.withCin x).boundary = s.boundary := rfl

/-! ### What `withSlots` leaves -/

@[simp] theorem withSlots_pending (x) : (s.withSlots x).pending = s.pending := rfl
@[simp] theorem withSlots_tick (x) : (s.withSlots x).tick = s.tick := rfl
@[simp] theorem withSlots_free (x) : (s.withSlots x).free = s.free := rfl
@[simp] theorem withSlots_regs (x) : (s.withSlots x).regs = s.regs := rfl
@[simp] theorem withSlots_latch (x) : (s.withSlots x).latch = s.latch := rfl
@[simp] theorem withSlots_held (x) : (s.withSlots x).held = s.held := rfl
@[simp] theorem withSlots_mem (x) : (s.withSlots x).mem = s.mem := rfl
@[simp] theorem withSlots_lost (x) : (s.withSlots x).lost = s.lost := rfl
@[simp] theorem withSlots_g6Hot (x) : (s.withSlots x).g6Hot = s.g6Hot := rfl
@[simp] theorem withSlots_resp (x) : (s.withSlots x).resp = s.resp := rfl
@[simp] theorem withSlots_rdata (x) : (s.withSlots x).rdata = s.rdata := rfl
@[simp] theorem withSlots_evt (x) : (s.withSlots x).evt = s.evt := rfl
@[simp] theorem withSlots_vdBusy (x) : (s.withSlots x).vdBusy = s.vdBusy := rfl
@[simp] theorem withSlots_soutReq (x) : (s.withSlots x).soutReq = s.soutReq := rfl
@[simp] theorem withSlots_enabled (x) : (s.withSlots x).enabled = s.enabled := rfl
@[simp] theorem withSlots_ctxs (x) : (s.withSlots x).ctxs = s.ctxs := rfl
@[simp] theorem withSlots_accSeq (x) : (s.withSlots x).accSeq = s.accSeq := rfl
@[simp] theorem withSlots_verdict (x) : (s.withSlots x).verdict = s.verdict := rfl
@[simp] theorem withSlots_cin (x) : (s.withSlots x).cin = s.cin := rfl
@[simp] theorem withSlots_tx (x) : (s.withSlots x).tx = s.tx := rfl
@[simp] theorem withSlots_plibBad (x) : (s.withSlots x).plibBad = s.plibBad := rfl
@[simp] theorem withSlots_evOpen (x) : (s.withSlots x).evOpen = s.evOpen := rfl
@[simp] theorem withSlots_evSlots (x) : (s.withSlots x).evSlots = s.evSlots := rfl
@[simp] theorem withSlots_evTimer (x) : (s.withSlots x).evTimer = s.evTimer := rfl
@[simp] theorem withSlots_evTimerOn (x) : (s.withSlots x).evTimerOn = s.evTimerOn := rfl
@[simp] theorem withSlots_harts (x) : (s.withSlots x).harts = s.harts := rfl
@[simp] theorem withSlots_instret (x) : (s.withSlots x).instret = s.instret := rfl
@[simp] theorem withSlots_vp2 (x) : (s.withSlots x).vp2 = s.vp2 := rfl
@[simp] theorem withSlots_agParams (x) : (s.withSlots x).agParams = s.agParams := rfl
@[simp] theorem withSlots_gs (x) : (s.withSlots x).gs = s.gs := rfl
@[simp] theorem withSlots_since (x) : (s.withSlots x).since = s.since := rfl
@[simp] theorem withSlots_ct (x) : (s.withSlots x).ct = s.ct := rfl
@[simp] theorem withSlots_pairs (x) : (s.withSlots x).pairs = s.pairs := rfl
@[simp] theorem withSlots_roleMoves (x) : (s.withSlots x).roleMoves = s.roleMoves := rfl
@[simp] theorem withSlots_mbx (x) : (s.withSlots x).mbx = s.mbx := rfl
@[simp] theorem withSlots_retFlag (x) : (s.withSlots x).retFlag = s.retFlag := rfl
@[simp] theorem withSlots_fc (x) : (s.withSlots x).fc = s.fc := rfl
@[simp] theorem withSlots_wd (x) : (s.withSlots x).wd = s.wd := rfl
@[simp] theorem withSlots_dma (x) : (s.withSlots x).dma = s.dma := rfl
@[simp] theorem withSlots_tm (x) : (s.withSlots x).tm = s.tm := rfl
@[simp] theorem withSlots_eth (x) : (s.withSlots x).eth = s.eth := rfl
@[simp] theorem withSlots_ibi (x) : (s.withSlots x).ibi = s.ibi := rfl
@[simp] theorem withSlots_i3c (x) : (s.withSlots x).i3c = s.i3c := rfl
@[simp] theorem withSlots_xsp (x) : (s.withSlots x).xsp = s.xsp := rfl
@[simp] theorem withSlots_hostIrq (x) : (s.withSlots x).hostIrq = s.hostIrq := rfl
@[simp] theorem withSlots_ml (x) : (s.withSlots x).ml = s.ml := rfl
@[simp] theorem withSlots_sec (x) : (s.withSlots x).sec = s.sec := rfl
@[simp] theorem withSlots_boot (x) : (s.withSlots x).boot = s.boot := rfl
@[simp] theorem withSlots_flash (x) : (s.withSlots x).flash = s.flash := rfl
@[simp] theorem withSlots_dieReset (x) : (s.withSlots x).dieReset = s.dieReset := rfl
@[simp] theorem withSlots_holds (x) : (s.withSlots x).holds = s.holds := rfl
@[simp] theorem withSlots_railsLow (x) : (s.withSlots x).railsLow = s.railsLow := rfl
@[simp] theorem withSlots_committed (x) : (s.withSlots x).committed = s.committed := rfl
@[simp] theorem withSlots_spsTick (x) : (s.withSlots x).spsTick = s.spsTick := rfl
@[simp] theorem withSlots_protect (x) : (s.withSlots x).protect = s.protect := rfl
@[simp] theorem withSlots_sioIn (x) : (s.withSlots x).sioIn = s.sioIn := rfl
@[simp] theorem withSlots_sioOut (x) : (s.withSlots x).sioOut = s.sioOut := rfl
@[simp] theorem withSlots_accCmd (x) : (s.withSlots x).accCmd = s.accCmd := rfl
@[simp] theorem withSlots_lb (x) : (s.withSlots x).lb = s.lb := rfl
@[simp] theorem withSlots_jtag (x) : (s.withSlots x).jtag = s.jtag := rfl
@[simp] theorem withSlots_boundary (x) : (s.withSlots x).boundary = s.boundary := rfl

/-! ### What `withPlibBad` leaves -/

@[simp] theorem withPlibBad_pending (x) : (s.withPlibBad x).pending = s.pending := rfl
@[simp] theorem withPlibBad_tick (x) : (s.withPlibBad x).tick = s.tick := rfl
@[simp] theorem withPlibBad_free (x) : (s.withPlibBad x).free = s.free := rfl
@[simp] theorem withPlibBad_regs (x) : (s.withPlibBad x).regs = s.regs := rfl
@[simp] theorem withPlibBad_latch (x) : (s.withPlibBad x).latch = s.latch := rfl
@[simp] theorem withPlibBad_held (x) : (s.withPlibBad x).held = s.held := rfl
@[simp] theorem withPlibBad_mem (x) : (s.withPlibBad x).mem = s.mem := rfl
@[simp] theorem withPlibBad_lost (x) : (s.withPlibBad x).lost = s.lost := rfl
@[simp] theorem withPlibBad_g6Hot (x) : (s.withPlibBad x).g6Hot = s.g6Hot := rfl
@[simp] theorem withPlibBad_resp (x) : (s.withPlibBad x).resp = s.resp := rfl
@[simp] theorem withPlibBad_rdata (x) : (s.withPlibBad x).rdata = s.rdata := rfl
@[simp] theorem withPlibBad_evt (x) : (s.withPlibBad x).evt = s.evt := rfl
@[simp] theorem withPlibBad_vdBusy (x) : (s.withPlibBad x).vdBusy = s.vdBusy := rfl
@[simp] theorem withPlibBad_soutReq (x) : (s.withPlibBad x).soutReq = s.soutReq := rfl
@[simp] theorem withPlibBad_enabled (x) : (s.withPlibBad x).enabled = s.enabled := rfl
@[simp] theorem withPlibBad_ctxs (x) : (s.withPlibBad x).ctxs = s.ctxs := rfl
@[simp] theorem withPlibBad_accSeq (x) : (s.withPlibBad x).accSeq = s.accSeq := rfl
@[simp] theorem withPlibBad_verdict (x) : (s.withPlibBad x).verdict = s.verdict := rfl
@[simp] theorem withPlibBad_cin (x) : (s.withPlibBad x).cin = s.cin := rfl
@[simp] theorem withPlibBad_slots (x) : (s.withPlibBad x).slots = s.slots := rfl
@[simp] theorem withPlibBad_tx (x) : (s.withPlibBad x).tx = s.tx := rfl
@[simp] theorem withPlibBad_evOpen (x) : (s.withPlibBad x).evOpen = s.evOpen := rfl
@[simp] theorem withPlibBad_evSlots (x) : (s.withPlibBad x).evSlots = s.evSlots := rfl
@[simp] theorem withPlibBad_evTimer (x) : (s.withPlibBad x).evTimer = s.evTimer := rfl
@[simp] theorem withPlibBad_evTimerOn (x) : (s.withPlibBad x).evTimerOn = s.evTimerOn := rfl
@[simp] theorem withPlibBad_harts (x) : (s.withPlibBad x).harts = s.harts := rfl
@[simp] theorem withPlibBad_instret (x) : (s.withPlibBad x).instret = s.instret := rfl
@[simp] theorem withPlibBad_vp2 (x) : (s.withPlibBad x).vp2 = s.vp2 := rfl
@[simp] theorem withPlibBad_agParams (x) : (s.withPlibBad x).agParams = s.agParams := rfl
@[simp] theorem withPlibBad_gs (x) : (s.withPlibBad x).gs = s.gs := rfl
@[simp] theorem withPlibBad_since (x) : (s.withPlibBad x).since = s.since := rfl
@[simp] theorem withPlibBad_ct (x) : (s.withPlibBad x).ct = s.ct := rfl
@[simp] theorem withPlibBad_pairs (x) : (s.withPlibBad x).pairs = s.pairs := rfl
@[simp] theorem withPlibBad_roleMoves (x) : (s.withPlibBad x).roleMoves = s.roleMoves := rfl
@[simp] theorem withPlibBad_mbx (x) : (s.withPlibBad x).mbx = s.mbx := rfl
@[simp] theorem withPlibBad_retFlag (x) : (s.withPlibBad x).retFlag = s.retFlag := rfl
@[simp] theorem withPlibBad_fc (x) : (s.withPlibBad x).fc = s.fc := rfl
@[simp] theorem withPlibBad_wd (x) : (s.withPlibBad x).wd = s.wd := rfl
@[simp] theorem withPlibBad_dma (x) : (s.withPlibBad x).dma = s.dma := rfl
@[simp] theorem withPlibBad_tm (x) : (s.withPlibBad x).tm = s.tm := rfl
@[simp] theorem withPlibBad_eth (x) : (s.withPlibBad x).eth = s.eth := rfl
@[simp] theorem withPlibBad_ibi (x) : (s.withPlibBad x).ibi = s.ibi := rfl
@[simp] theorem withPlibBad_i3c (x) : (s.withPlibBad x).i3c = s.i3c := rfl
@[simp] theorem withPlibBad_xsp (x) : (s.withPlibBad x).xsp = s.xsp := rfl
@[simp] theorem withPlibBad_hostIrq (x) : (s.withPlibBad x).hostIrq = s.hostIrq := rfl
@[simp] theorem withPlibBad_ml (x) : (s.withPlibBad x).ml = s.ml := rfl
@[simp] theorem withPlibBad_sec (x) : (s.withPlibBad x).sec = s.sec := rfl
@[simp] theorem withPlibBad_boot (x) : (s.withPlibBad x).boot = s.boot := rfl
@[simp] theorem withPlibBad_flash (x) : (s.withPlibBad x).flash = s.flash := rfl
@[simp] theorem withPlibBad_dieReset (x) : (s.withPlibBad x).dieReset = s.dieReset := rfl
@[simp] theorem withPlibBad_holds (x) : (s.withPlibBad x).holds = s.holds := rfl
@[simp] theorem withPlibBad_railsLow (x) : (s.withPlibBad x).railsLow = s.railsLow := rfl
@[simp] theorem withPlibBad_committed (x) : (s.withPlibBad x).committed = s.committed := rfl
@[simp] theorem withPlibBad_spsTick (x) : (s.withPlibBad x).spsTick = s.spsTick := rfl
@[simp] theorem withPlibBad_protect (x) : (s.withPlibBad x).protect = s.protect := rfl
@[simp] theorem withPlibBad_sioIn (x) : (s.withPlibBad x).sioIn = s.sioIn := rfl
@[simp] theorem withPlibBad_sioOut (x) : (s.withPlibBad x).sioOut = s.sioOut := rfl
@[simp] theorem withPlibBad_accCmd (x) : (s.withPlibBad x).accCmd = s.accCmd := rfl
@[simp] theorem withPlibBad_lb (x) : (s.withPlibBad x).lb = s.lb := rfl
@[simp] theorem withPlibBad_jtag (x) : (s.withPlibBad x).jtag = s.jtag := rfl
@[simp] theorem withPlibBad_boundary (x) : (s.withPlibBad x).boundary = s.boundary := rfl

/-! ### What `withEvOpen` leaves -/

@[simp] theorem withEvOpen_pending (x) : (s.withEvOpen x).pending = s.pending := rfl
@[simp] theorem withEvOpen_tick (x) : (s.withEvOpen x).tick = s.tick := rfl
@[simp] theorem withEvOpen_free (x) : (s.withEvOpen x).free = s.free := rfl
@[simp] theorem withEvOpen_regs (x) : (s.withEvOpen x).regs = s.regs := rfl
@[simp] theorem withEvOpen_latch (x) : (s.withEvOpen x).latch = s.latch := rfl
@[simp] theorem withEvOpen_held (x) : (s.withEvOpen x).held = s.held := rfl
@[simp] theorem withEvOpen_mem (x) : (s.withEvOpen x).mem = s.mem := rfl
@[simp] theorem withEvOpen_lost (x) : (s.withEvOpen x).lost = s.lost := rfl
@[simp] theorem withEvOpen_g6Hot (x) : (s.withEvOpen x).g6Hot = s.g6Hot := rfl
@[simp] theorem withEvOpen_resp (x) : (s.withEvOpen x).resp = s.resp := rfl
@[simp] theorem withEvOpen_rdata (x) : (s.withEvOpen x).rdata = s.rdata := rfl
@[simp] theorem withEvOpen_evt (x) : (s.withEvOpen x).evt = s.evt := rfl
@[simp] theorem withEvOpen_vdBusy (x) : (s.withEvOpen x).vdBusy = s.vdBusy := rfl
@[simp] theorem withEvOpen_soutReq (x) : (s.withEvOpen x).soutReq = s.soutReq := rfl
@[simp] theorem withEvOpen_enabled (x) : (s.withEvOpen x).enabled = s.enabled := rfl
@[simp] theorem withEvOpen_ctxs (x) : (s.withEvOpen x).ctxs = s.ctxs := rfl
@[simp] theorem withEvOpen_accSeq (x) : (s.withEvOpen x).accSeq = s.accSeq := rfl
@[simp] theorem withEvOpen_verdict (x) : (s.withEvOpen x).verdict = s.verdict := rfl
@[simp] theorem withEvOpen_cin (x) : (s.withEvOpen x).cin = s.cin := rfl
@[simp] theorem withEvOpen_slots (x) : (s.withEvOpen x).slots = s.slots := rfl
@[simp] theorem withEvOpen_tx (x) : (s.withEvOpen x).tx = s.tx := rfl
@[simp] theorem withEvOpen_plibBad (x) : (s.withEvOpen x).plibBad = s.plibBad := rfl
@[simp] theorem withEvOpen_evSlots (x) : (s.withEvOpen x).evSlots = s.evSlots := rfl
@[simp] theorem withEvOpen_evTimer (x) : (s.withEvOpen x).evTimer = s.evTimer := rfl
@[simp] theorem withEvOpen_evTimerOn (x) : (s.withEvOpen x).evTimerOn = s.evTimerOn := rfl
@[simp] theorem withEvOpen_harts (x) : (s.withEvOpen x).harts = s.harts := rfl
@[simp] theorem withEvOpen_instret (x) : (s.withEvOpen x).instret = s.instret := rfl
@[simp] theorem withEvOpen_vp2 (x) : (s.withEvOpen x).vp2 = s.vp2 := rfl
@[simp] theorem withEvOpen_agParams (x) : (s.withEvOpen x).agParams = s.agParams := rfl
@[simp] theorem withEvOpen_gs (x) : (s.withEvOpen x).gs = s.gs := rfl
@[simp] theorem withEvOpen_since (x) : (s.withEvOpen x).since = s.since := rfl
@[simp] theorem withEvOpen_ct (x) : (s.withEvOpen x).ct = s.ct := rfl
@[simp] theorem withEvOpen_pairs (x) : (s.withEvOpen x).pairs = s.pairs := rfl
@[simp] theorem withEvOpen_roleMoves (x) : (s.withEvOpen x).roleMoves = s.roleMoves := rfl
@[simp] theorem withEvOpen_mbx (x) : (s.withEvOpen x).mbx = s.mbx := rfl
@[simp] theorem withEvOpen_retFlag (x) : (s.withEvOpen x).retFlag = s.retFlag := rfl
@[simp] theorem withEvOpen_fc (x) : (s.withEvOpen x).fc = s.fc := rfl
@[simp] theorem withEvOpen_wd (x) : (s.withEvOpen x).wd = s.wd := rfl
@[simp] theorem withEvOpen_dma (x) : (s.withEvOpen x).dma = s.dma := rfl
@[simp] theorem withEvOpen_tm (x) : (s.withEvOpen x).tm = s.tm := rfl
@[simp] theorem withEvOpen_eth (x) : (s.withEvOpen x).eth = s.eth := rfl
@[simp] theorem withEvOpen_ibi (x) : (s.withEvOpen x).ibi = s.ibi := rfl
@[simp] theorem withEvOpen_i3c (x) : (s.withEvOpen x).i3c = s.i3c := rfl
@[simp] theorem withEvOpen_xsp (x) : (s.withEvOpen x).xsp = s.xsp := rfl
@[simp] theorem withEvOpen_hostIrq (x) : (s.withEvOpen x).hostIrq = s.hostIrq := rfl
@[simp] theorem withEvOpen_ml (x) : (s.withEvOpen x).ml = s.ml := rfl
@[simp] theorem withEvOpen_sec (x) : (s.withEvOpen x).sec = s.sec := rfl
@[simp] theorem withEvOpen_boot (x) : (s.withEvOpen x).boot = s.boot := rfl
@[simp] theorem withEvOpen_flash (x) : (s.withEvOpen x).flash = s.flash := rfl
@[simp] theorem withEvOpen_dieReset (x) : (s.withEvOpen x).dieReset = s.dieReset := rfl
@[simp] theorem withEvOpen_holds (x) : (s.withEvOpen x).holds = s.holds := rfl
@[simp] theorem withEvOpen_railsLow (x) : (s.withEvOpen x).railsLow = s.railsLow := rfl
@[simp] theorem withEvOpen_committed (x) : (s.withEvOpen x).committed = s.committed := rfl
@[simp] theorem withEvOpen_spsTick (x) : (s.withEvOpen x).spsTick = s.spsTick := rfl
@[simp] theorem withEvOpen_protect (x) : (s.withEvOpen x).protect = s.protect := rfl
@[simp] theorem withEvOpen_sioIn (x) : (s.withEvOpen x).sioIn = s.sioIn := rfl
@[simp] theorem withEvOpen_sioOut (x) : (s.withEvOpen x).sioOut = s.sioOut := rfl
@[simp] theorem withEvOpen_accCmd (x) : (s.withEvOpen x).accCmd = s.accCmd := rfl
@[simp] theorem withEvOpen_lb (x) : (s.withEvOpen x).lb = s.lb := rfl
@[simp] theorem withEvOpen_jtag (x) : (s.withEvOpen x).jtag = s.jtag := rfl
@[simp] theorem withEvOpen_boundary (x) : (s.withEvOpen x).boundary = s.boundary := rfl

/-! ### What `withEvSlots` leaves -/

@[simp] theorem withEvSlots_pending (x) : (s.withEvSlots x).pending = s.pending := rfl
@[simp] theorem withEvSlots_tick (x) : (s.withEvSlots x).tick = s.tick := rfl
@[simp] theorem withEvSlots_free (x) : (s.withEvSlots x).free = s.free := rfl
@[simp] theorem withEvSlots_regs (x) : (s.withEvSlots x).regs = s.regs := rfl
@[simp] theorem withEvSlots_latch (x) : (s.withEvSlots x).latch = s.latch := rfl
@[simp] theorem withEvSlots_held (x) : (s.withEvSlots x).held = s.held := rfl
@[simp] theorem withEvSlots_mem (x) : (s.withEvSlots x).mem = s.mem := rfl
@[simp] theorem withEvSlots_lost (x) : (s.withEvSlots x).lost = s.lost := rfl
@[simp] theorem withEvSlots_g6Hot (x) : (s.withEvSlots x).g6Hot = s.g6Hot := rfl
@[simp] theorem withEvSlots_resp (x) : (s.withEvSlots x).resp = s.resp := rfl
@[simp] theorem withEvSlots_rdata (x) : (s.withEvSlots x).rdata = s.rdata := rfl
@[simp] theorem withEvSlots_evt (x) : (s.withEvSlots x).evt = s.evt := rfl
@[simp] theorem withEvSlots_vdBusy (x) : (s.withEvSlots x).vdBusy = s.vdBusy := rfl
@[simp] theorem withEvSlots_soutReq (x) : (s.withEvSlots x).soutReq = s.soutReq := rfl
@[simp] theorem withEvSlots_enabled (x) : (s.withEvSlots x).enabled = s.enabled := rfl
@[simp] theorem withEvSlots_ctxs (x) : (s.withEvSlots x).ctxs = s.ctxs := rfl
@[simp] theorem withEvSlots_accSeq (x) : (s.withEvSlots x).accSeq = s.accSeq := rfl
@[simp] theorem withEvSlots_verdict (x) : (s.withEvSlots x).verdict = s.verdict := rfl
@[simp] theorem withEvSlots_cin (x) : (s.withEvSlots x).cin = s.cin := rfl
@[simp] theorem withEvSlots_slots (x) : (s.withEvSlots x).slots = s.slots := rfl
@[simp] theorem withEvSlots_tx (x) : (s.withEvSlots x).tx = s.tx := rfl
@[simp] theorem withEvSlots_plibBad (x) : (s.withEvSlots x).plibBad = s.plibBad := rfl
@[simp] theorem withEvSlots_evOpen (x) : (s.withEvSlots x).evOpen = s.evOpen := rfl
@[simp] theorem withEvSlots_evTimer (x) : (s.withEvSlots x).evTimer = s.evTimer := rfl
@[simp] theorem withEvSlots_evTimerOn (x) : (s.withEvSlots x).evTimerOn = s.evTimerOn := rfl
@[simp] theorem withEvSlots_harts (x) : (s.withEvSlots x).harts = s.harts := rfl
@[simp] theorem withEvSlots_instret (x) : (s.withEvSlots x).instret = s.instret := rfl
@[simp] theorem withEvSlots_vp2 (x) : (s.withEvSlots x).vp2 = s.vp2 := rfl
@[simp] theorem withEvSlots_agParams (x) : (s.withEvSlots x).agParams = s.agParams := rfl
@[simp] theorem withEvSlots_gs (x) : (s.withEvSlots x).gs = s.gs := rfl
@[simp] theorem withEvSlots_since (x) : (s.withEvSlots x).since = s.since := rfl
@[simp] theorem withEvSlots_ct (x) : (s.withEvSlots x).ct = s.ct := rfl
@[simp] theorem withEvSlots_pairs (x) : (s.withEvSlots x).pairs = s.pairs := rfl
@[simp] theorem withEvSlots_roleMoves (x) : (s.withEvSlots x).roleMoves = s.roleMoves := rfl
@[simp] theorem withEvSlots_mbx (x) : (s.withEvSlots x).mbx = s.mbx := rfl
@[simp] theorem withEvSlots_retFlag (x) : (s.withEvSlots x).retFlag = s.retFlag := rfl
@[simp] theorem withEvSlots_fc (x) : (s.withEvSlots x).fc = s.fc := rfl
@[simp] theorem withEvSlots_wd (x) : (s.withEvSlots x).wd = s.wd := rfl
@[simp] theorem withEvSlots_dma (x) : (s.withEvSlots x).dma = s.dma := rfl
@[simp] theorem withEvSlots_tm (x) : (s.withEvSlots x).tm = s.tm := rfl
@[simp] theorem withEvSlots_eth (x) : (s.withEvSlots x).eth = s.eth := rfl
@[simp] theorem withEvSlots_ibi (x) : (s.withEvSlots x).ibi = s.ibi := rfl
@[simp] theorem withEvSlots_i3c (x) : (s.withEvSlots x).i3c = s.i3c := rfl
@[simp] theorem withEvSlots_xsp (x) : (s.withEvSlots x).xsp = s.xsp := rfl
@[simp] theorem withEvSlots_hostIrq (x) : (s.withEvSlots x).hostIrq = s.hostIrq := rfl
@[simp] theorem withEvSlots_ml (x) : (s.withEvSlots x).ml = s.ml := rfl
@[simp] theorem withEvSlots_sec (x) : (s.withEvSlots x).sec = s.sec := rfl
@[simp] theorem withEvSlots_boot (x) : (s.withEvSlots x).boot = s.boot := rfl
@[simp] theorem withEvSlots_flash (x) : (s.withEvSlots x).flash = s.flash := rfl
@[simp] theorem withEvSlots_dieReset (x) : (s.withEvSlots x).dieReset = s.dieReset := rfl
@[simp] theorem withEvSlots_holds (x) : (s.withEvSlots x).holds = s.holds := rfl
@[simp] theorem withEvSlots_railsLow (x) : (s.withEvSlots x).railsLow = s.railsLow := rfl
@[simp] theorem withEvSlots_committed (x) : (s.withEvSlots x).committed = s.committed := rfl
@[simp] theorem withEvSlots_spsTick (x) : (s.withEvSlots x).spsTick = s.spsTick := rfl
@[simp] theorem withEvSlots_protect (x) : (s.withEvSlots x).protect = s.protect := rfl
@[simp] theorem withEvSlots_sioIn (x) : (s.withEvSlots x).sioIn = s.sioIn := rfl
@[simp] theorem withEvSlots_sioOut (x) : (s.withEvSlots x).sioOut = s.sioOut := rfl
@[simp] theorem withEvSlots_accCmd (x) : (s.withEvSlots x).accCmd = s.accCmd := rfl
@[simp] theorem withEvSlots_lb (x) : (s.withEvSlots x).lb = s.lb := rfl
@[simp] theorem withEvSlots_jtag (x) : (s.withEvSlots x).jtag = s.jtag := rfl
@[simp] theorem withEvSlots_boundary (x) : (s.withEvSlots x).boundary = s.boundary := rfl

/-! ### What `withEvTimer` leaves -/

@[simp] theorem withEvTimer_pending (x) : (s.withEvTimer x).pending = s.pending := rfl
@[simp] theorem withEvTimer_tick (x) : (s.withEvTimer x).tick = s.tick := rfl
@[simp] theorem withEvTimer_free (x) : (s.withEvTimer x).free = s.free := rfl
@[simp] theorem withEvTimer_regs (x) : (s.withEvTimer x).regs = s.regs := rfl
@[simp] theorem withEvTimer_latch (x) : (s.withEvTimer x).latch = s.latch := rfl
@[simp] theorem withEvTimer_held (x) : (s.withEvTimer x).held = s.held := rfl
@[simp] theorem withEvTimer_mem (x) : (s.withEvTimer x).mem = s.mem := rfl
@[simp] theorem withEvTimer_lost (x) : (s.withEvTimer x).lost = s.lost := rfl
@[simp] theorem withEvTimer_g6Hot (x) : (s.withEvTimer x).g6Hot = s.g6Hot := rfl
@[simp] theorem withEvTimer_resp (x) : (s.withEvTimer x).resp = s.resp := rfl
@[simp] theorem withEvTimer_rdata (x) : (s.withEvTimer x).rdata = s.rdata := rfl
@[simp] theorem withEvTimer_evt (x) : (s.withEvTimer x).evt = s.evt := rfl
@[simp] theorem withEvTimer_vdBusy (x) : (s.withEvTimer x).vdBusy = s.vdBusy := rfl
@[simp] theorem withEvTimer_soutReq (x) : (s.withEvTimer x).soutReq = s.soutReq := rfl
@[simp] theorem withEvTimer_enabled (x) : (s.withEvTimer x).enabled = s.enabled := rfl
@[simp] theorem withEvTimer_ctxs (x) : (s.withEvTimer x).ctxs = s.ctxs := rfl
@[simp] theorem withEvTimer_accSeq (x) : (s.withEvTimer x).accSeq = s.accSeq := rfl
@[simp] theorem withEvTimer_verdict (x) : (s.withEvTimer x).verdict = s.verdict := rfl
@[simp] theorem withEvTimer_cin (x) : (s.withEvTimer x).cin = s.cin := rfl
@[simp] theorem withEvTimer_slots (x) : (s.withEvTimer x).slots = s.slots := rfl
@[simp] theorem withEvTimer_tx (x) : (s.withEvTimer x).tx = s.tx := rfl
@[simp] theorem withEvTimer_plibBad (x) : (s.withEvTimer x).plibBad = s.plibBad := rfl
@[simp] theorem withEvTimer_evOpen (x) : (s.withEvTimer x).evOpen = s.evOpen := rfl
@[simp] theorem withEvTimer_evSlots (x) : (s.withEvTimer x).evSlots = s.evSlots := rfl
@[simp] theorem withEvTimer_evTimerOn (x) : (s.withEvTimer x).evTimerOn = s.evTimerOn := rfl
@[simp] theorem withEvTimer_harts (x) : (s.withEvTimer x).harts = s.harts := rfl
@[simp] theorem withEvTimer_instret (x) : (s.withEvTimer x).instret = s.instret := rfl
@[simp] theorem withEvTimer_vp2 (x) : (s.withEvTimer x).vp2 = s.vp2 := rfl
@[simp] theorem withEvTimer_agParams (x) : (s.withEvTimer x).agParams = s.agParams := rfl
@[simp] theorem withEvTimer_gs (x) : (s.withEvTimer x).gs = s.gs := rfl
@[simp] theorem withEvTimer_since (x) : (s.withEvTimer x).since = s.since := rfl
@[simp] theorem withEvTimer_ct (x) : (s.withEvTimer x).ct = s.ct := rfl
@[simp] theorem withEvTimer_pairs (x) : (s.withEvTimer x).pairs = s.pairs := rfl
@[simp] theorem withEvTimer_roleMoves (x) : (s.withEvTimer x).roleMoves = s.roleMoves := rfl
@[simp] theorem withEvTimer_mbx (x) : (s.withEvTimer x).mbx = s.mbx := rfl
@[simp] theorem withEvTimer_retFlag (x) : (s.withEvTimer x).retFlag = s.retFlag := rfl
@[simp] theorem withEvTimer_fc (x) : (s.withEvTimer x).fc = s.fc := rfl
@[simp] theorem withEvTimer_wd (x) : (s.withEvTimer x).wd = s.wd := rfl
@[simp] theorem withEvTimer_dma (x) : (s.withEvTimer x).dma = s.dma := rfl
@[simp] theorem withEvTimer_tm (x) : (s.withEvTimer x).tm = s.tm := rfl
@[simp] theorem withEvTimer_eth (x) : (s.withEvTimer x).eth = s.eth := rfl
@[simp] theorem withEvTimer_ibi (x) : (s.withEvTimer x).ibi = s.ibi := rfl
@[simp] theorem withEvTimer_i3c (x) : (s.withEvTimer x).i3c = s.i3c := rfl
@[simp] theorem withEvTimer_xsp (x) : (s.withEvTimer x).xsp = s.xsp := rfl
@[simp] theorem withEvTimer_hostIrq (x) : (s.withEvTimer x).hostIrq = s.hostIrq := rfl
@[simp] theorem withEvTimer_ml (x) : (s.withEvTimer x).ml = s.ml := rfl
@[simp] theorem withEvTimer_sec (x) : (s.withEvTimer x).sec = s.sec := rfl
@[simp] theorem withEvTimer_boot (x) : (s.withEvTimer x).boot = s.boot := rfl
@[simp] theorem withEvTimer_flash (x) : (s.withEvTimer x).flash = s.flash := rfl
@[simp] theorem withEvTimer_dieReset (x) : (s.withEvTimer x).dieReset = s.dieReset := rfl
@[simp] theorem withEvTimer_holds (x) : (s.withEvTimer x).holds = s.holds := rfl
@[simp] theorem withEvTimer_railsLow (x) : (s.withEvTimer x).railsLow = s.railsLow := rfl
@[simp] theorem withEvTimer_committed (x) : (s.withEvTimer x).committed = s.committed := rfl
@[simp] theorem withEvTimer_spsTick (x) : (s.withEvTimer x).spsTick = s.spsTick := rfl
@[simp] theorem withEvTimer_protect (x) : (s.withEvTimer x).protect = s.protect := rfl
@[simp] theorem withEvTimer_sioIn (x) : (s.withEvTimer x).sioIn = s.sioIn := rfl
@[simp] theorem withEvTimer_sioOut (x) : (s.withEvTimer x).sioOut = s.sioOut := rfl
@[simp] theorem withEvTimer_accCmd (x) : (s.withEvTimer x).accCmd = s.accCmd := rfl
@[simp] theorem withEvTimer_lb (x) : (s.withEvTimer x).lb = s.lb := rfl
@[simp] theorem withEvTimer_jtag (x) : (s.withEvTimer x).jtag = s.jtag := rfl
@[simp] theorem withEvTimer_boundary (x) : (s.withEvTimer x).boundary = s.boundary := rfl

/-! ### What `withEvTimerOn` leaves -/

@[simp] theorem withEvTimerOn_pending (x) : (s.withEvTimerOn x).pending = s.pending := rfl
@[simp] theorem withEvTimerOn_tick (x) : (s.withEvTimerOn x).tick = s.tick := rfl
@[simp] theorem withEvTimerOn_free (x) : (s.withEvTimerOn x).free = s.free := rfl
@[simp] theorem withEvTimerOn_regs (x) : (s.withEvTimerOn x).regs = s.regs := rfl
@[simp] theorem withEvTimerOn_latch (x) : (s.withEvTimerOn x).latch = s.latch := rfl
@[simp] theorem withEvTimerOn_held (x) : (s.withEvTimerOn x).held = s.held := rfl
@[simp] theorem withEvTimerOn_mem (x) : (s.withEvTimerOn x).mem = s.mem := rfl
@[simp] theorem withEvTimerOn_lost (x) : (s.withEvTimerOn x).lost = s.lost := rfl
@[simp] theorem withEvTimerOn_g6Hot (x) : (s.withEvTimerOn x).g6Hot = s.g6Hot := rfl
@[simp] theorem withEvTimerOn_resp (x) : (s.withEvTimerOn x).resp = s.resp := rfl
@[simp] theorem withEvTimerOn_rdata (x) : (s.withEvTimerOn x).rdata = s.rdata := rfl
@[simp] theorem withEvTimerOn_evt (x) : (s.withEvTimerOn x).evt = s.evt := rfl
@[simp] theorem withEvTimerOn_vdBusy (x) : (s.withEvTimerOn x).vdBusy = s.vdBusy := rfl
@[simp] theorem withEvTimerOn_soutReq (x) : (s.withEvTimerOn x).soutReq = s.soutReq := rfl
@[simp] theorem withEvTimerOn_enabled (x) : (s.withEvTimerOn x).enabled = s.enabled := rfl
@[simp] theorem withEvTimerOn_ctxs (x) : (s.withEvTimerOn x).ctxs = s.ctxs := rfl
@[simp] theorem withEvTimerOn_accSeq (x) : (s.withEvTimerOn x).accSeq = s.accSeq := rfl
@[simp] theorem withEvTimerOn_verdict (x) : (s.withEvTimerOn x).verdict = s.verdict := rfl
@[simp] theorem withEvTimerOn_cin (x) : (s.withEvTimerOn x).cin = s.cin := rfl
@[simp] theorem withEvTimerOn_slots (x) : (s.withEvTimerOn x).slots = s.slots := rfl
@[simp] theorem withEvTimerOn_tx (x) : (s.withEvTimerOn x).tx = s.tx := rfl
@[simp] theorem withEvTimerOn_plibBad (x) : (s.withEvTimerOn x).plibBad = s.plibBad := rfl
@[simp] theorem withEvTimerOn_evOpen (x) : (s.withEvTimerOn x).evOpen = s.evOpen := rfl
@[simp] theorem withEvTimerOn_evSlots (x) : (s.withEvTimerOn x).evSlots = s.evSlots := rfl
@[simp] theorem withEvTimerOn_evTimer (x) : (s.withEvTimerOn x).evTimer = s.evTimer := rfl
@[simp] theorem withEvTimerOn_harts (x) : (s.withEvTimerOn x).harts = s.harts := rfl
@[simp] theorem withEvTimerOn_instret (x) : (s.withEvTimerOn x).instret = s.instret := rfl
@[simp] theorem withEvTimerOn_vp2 (x) : (s.withEvTimerOn x).vp2 = s.vp2 := rfl
@[simp] theorem withEvTimerOn_agParams (x) : (s.withEvTimerOn x).agParams = s.agParams := rfl
@[simp] theorem withEvTimerOn_gs (x) : (s.withEvTimerOn x).gs = s.gs := rfl
@[simp] theorem withEvTimerOn_since (x) : (s.withEvTimerOn x).since = s.since := rfl
@[simp] theorem withEvTimerOn_ct (x) : (s.withEvTimerOn x).ct = s.ct := rfl
@[simp] theorem withEvTimerOn_pairs (x) : (s.withEvTimerOn x).pairs = s.pairs := rfl
@[simp] theorem withEvTimerOn_roleMoves (x) : (s.withEvTimerOn x).roleMoves = s.roleMoves := rfl
@[simp] theorem withEvTimerOn_mbx (x) : (s.withEvTimerOn x).mbx = s.mbx := rfl
@[simp] theorem withEvTimerOn_retFlag (x) : (s.withEvTimerOn x).retFlag = s.retFlag := rfl
@[simp] theorem withEvTimerOn_fc (x) : (s.withEvTimerOn x).fc = s.fc := rfl
@[simp] theorem withEvTimerOn_wd (x) : (s.withEvTimerOn x).wd = s.wd := rfl
@[simp] theorem withEvTimerOn_dma (x) : (s.withEvTimerOn x).dma = s.dma := rfl
@[simp] theorem withEvTimerOn_tm (x) : (s.withEvTimerOn x).tm = s.tm := rfl
@[simp] theorem withEvTimerOn_eth (x) : (s.withEvTimerOn x).eth = s.eth := rfl
@[simp] theorem withEvTimerOn_ibi (x) : (s.withEvTimerOn x).ibi = s.ibi := rfl
@[simp] theorem withEvTimerOn_i3c (x) : (s.withEvTimerOn x).i3c = s.i3c := rfl
@[simp] theorem withEvTimerOn_xsp (x) : (s.withEvTimerOn x).xsp = s.xsp := rfl
@[simp] theorem withEvTimerOn_hostIrq (x) : (s.withEvTimerOn x).hostIrq = s.hostIrq := rfl
@[simp] theorem withEvTimerOn_ml (x) : (s.withEvTimerOn x).ml = s.ml := rfl
@[simp] theorem withEvTimerOn_sec (x) : (s.withEvTimerOn x).sec = s.sec := rfl
@[simp] theorem withEvTimerOn_boot (x) : (s.withEvTimerOn x).boot = s.boot := rfl
@[simp] theorem withEvTimerOn_flash (x) : (s.withEvTimerOn x).flash = s.flash := rfl
@[simp] theorem withEvTimerOn_dieReset (x) : (s.withEvTimerOn x).dieReset = s.dieReset := rfl
@[simp] theorem withEvTimerOn_holds (x) : (s.withEvTimerOn x).holds = s.holds := rfl
@[simp] theorem withEvTimerOn_railsLow (x) : (s.withEvTimerOn x).railsLow = s.railsLow := rfl
@[simp] theorem withEvTimerOn_committed (x) : (s.withEvTimerOn x).committed = s.committed := rfl
@[simp] theorem withEvTimerOn_spsTick (x) : (s.withEvTimerOn x).spsTick = s.spsTick := rfl
@[simp] theorem withEvTimerOn_protect (x) : (s.withEvTimerOn x).protect = s.protect := rfl
@[simp] theorem withEvTimerOn_sioIn (x) : (s.withEvTimerOn x).sioIn = s.sioIn := rfl
@[simp] theorem withEvTimerOn_sioOut (x) : (s.withEvTimerOn x).sioOut = s.sioOut := rfl
@[simp] theorem withEvTimerOn_accCmd (x) : (s.withEvTimerOn x).accCmd = s.accCmd := rfl
@[simp] theorem withEvTimerOn_lb (x) : (s.withEvTimerOn x).lb = s.lb := rfl
@[simp] theorem withEvTimerOn_jtag (x) : (s.withEvTimerOn x).jtag = s.jtag := rfl
@[simp] theorem withEvTimerOn_boundary (x) : (s.withEvTimerOn x).boundary = s.boundary := rfl

/-! ### What `withHarts` leaves -/

@[simp] theorem withHarts_pending (x) : (s.withHarts x).pending = s.pending := rfl
@[simp] theorem withHarts_tick (x) : (s.withHarts x).tick = s.tick := rfl
@[simp] theorem withHarts_free (x) : (s.withHarts x).free = s.free := rfl
@[simp] theorem withHarts_regs (x) : (s.withHarts x).regs = s.regs := rfl
@[simp] theorem withHarts_latch (x) : (s.withHarts x).latch = s.latch := rfl
@[simp] theorem withHarts_held (x) : (s.withHarts x).held = s.held := rfl
@[simp] theorem withHarts_mem (x) : (s.withHarts x).mem = s.mem := rfl
@[simp] theorem withHarts_lost (x) : (s.withHarts x).lost = s.lost := rfl
@[simp] theorem withHarts_g6Hot (x) : (s.withHarts x).g6Hot = s.g6Hot := rfl
@[simp] theorem withHarts_resp (x) : (s.withHarts x).resp = s.resp := rfl
@[simp] theorem withHarts_rdata (x) : (s.withHarts x).rdata = s.rdata := rfl
@[simp] theorem withHarts_evt (x) : (s.withHarts x).evt = s.evt := rfl
@[simp] theorem withHarts_vdBusy (x) : (s.withHarts x).vdBusy = s.vdBusy := rfl
@[simp] theorem withHarts_soutReq (x) : (s.withHarts x).soutReq = s.soutReq := rfl
@[simp] theorem withHarts_enabled (x) : (s.withHarts x).enabled = s.enabled := rfl
@[simp] theorem withHarts_ctxs (x) : (s.withHarts x).ctxs = s.ctxs := rfl
@[simp] theorem withHarts_accSeq (x) : (s.withHarts x).accSeq = s.accSeq := rfl
@[simp] theorem withHarts_verdict (x) : (s.withHarts x).verdict = s.verdict := rfl
@[simp] theorem withHarts_cin (x) : (s.withHarts x).cin = s.cin := rfl
@[simp] theorem withHarts_slots (x) : (s.withHarts x).slots = s.slots := rfl
@[simp] theorem withHarts_tx (x) : (s.withHarts x).tx = s.tx := rfl
@[simp] theorem withHarts_plibBad (x) : (s.withHarts x).plibBad = s.plibBad := rfl
@[simp] theorem withHarts_evOpen (x) : (s.withHarts x).evOpen = s.evOpen := rfl
@[simp] theorem withHarts_evSlots (x) : (s.withHarts x).evSlots = s.evSlots := rfl
@[simp] theorem withHarts_evTimer (x) : (s.withHarts x).evTimer = s.evTimer := rfl
@[simp] theorem withHarts_evTimerOn (x) : (s.withHarts x).evTimerOn = s.evTimerOn := rfl
@[simp] theorem withHarts_instret (x) : (s.withHarts x).instret = s.instret := rfl
@[simp] theorem withHarts_vp2 (x) : (s.withHarts x).vp2 = s.vp2 := rfl
@[simp] theorem withHarts_agParams (x) : (s.withHarts x).agParams = s.agParams := rfl
@[simp] theorem withHarts_gs (x) : (s.withHarts x).gs = s.gs := rfl
@[simp] theorem withHarts_since (x) : (s.withHarts x).since = s.since := rfl
@[simp] theorem withHarts_ct (x) : (s.withHarts x).ct = s.ct := rfl
@[simp] theorem withHarts_pairs (x) : (s.withHarts x).pairs = s.pairs := rfl
@[simp] theorem withHarts_roleMoves (x) : (s.withHarts x).roleMoves = s.roleMoves := rfl
@[simp] theorem withHarts_mbx (x) : (s.withHarts x).mbx = s.mbx := rfl
@[simp] theorem withHarts_retFlag (x) : (s.withHarts x).retFlag = s.retFlag := rfl
@[simp] theorem withHarts_fc (x) : (s.withHarts x).fc = s.fc := rfl
@[simp] theorem withHarts_wd (x) : (s.withHarts x).wd = s.wd := rfl
@[simp] theorem withHarts_dma (x) : (s.withHarts x).dma = s.dma := rfl
@[simp] theorem withHarts_tm (x) : (s.withHarts x).tm = s.tm := rfl
@[simp] theorem withHarts_eth (x) : (s.withHarts x).eth = s.eth := rfl
@[simp] theorem withHarts_ibi (x) : (s.withHarts x).ibi = s.ibi := rfl
@[simp] theorem withHarts_i3c (x) : (s.withHarts x).i3c = s.i3c := rfl
@[simp] theorem withHarts_xsp (x) : (s.withHarts x).xsp = s.xsp := rfl
@[simp] theorem withHarts_hostIrq (x) : (s.withHarts x).hostIrq = s.hostIrq := rfl
@[simp] theorem withHarts_ml (x) : (s.withHarts x).ml = s.ml := rfl
@[simp] theorem withHarts_sec (x) : (s.withHarts x).sec = s.sec := rfl
@[simp] theorem withHarts_boot (x) : (s.withHarts x).boot = s.boot := rfl
@[simp] theorem withHarts_flash (x) : (s.withHarts x).flash = s.flash := rfl
@[simp] theorem withHarts_dieReset (x) : (s.withHarts x).dieReset = s.dieReset := rfl
@[simp] theorem withHarts_holds (x) : (s.withHarts x).holds = s.holds := rfl
@[simp] theorem withHarts_railsLow (x) : (s.withHarts x).railsLow = s.railsLow := rfl
@[simp] theorem withHarts_committed (x) : (s.withHarts x).committed = s.committed := rfl
@[simp] theorem withHarts_spsTick (x) : (s.withHarts x).spsTick = s.spsTick := rfl
@[simp] theorem withHarts_protect (x) : (s.withHarts x).protect = s.protect := rfl
@[simp] theorem withHarts_sioIn (x) : (s.withHarts x).sioIn = s.sioIn := rfl
@[simp] theorem withHarts_sioOut (x) : (s.withHarts x).sioOut = s.sioOut := rfl
@[simp] theorem withHarts_accCmd (x) : (s.withHarts x).accCmd = s.accCmd := rfl
@[simp] theorem withHarts_lb (x) : (s.withHarts x).lb = s.lb := rfl
@[simp] theorem withHarts_jtag (x) : (s.withHarts x).jtag = s.jtag := rfl
@[simp] theorem withHarts_boundary (x) : (s.withHarts x).boundary = s.boundary := rfl

/-! ### What `withInstret` leaves -/

@[simp] theorem withInstret_pending (x) : (s.withInstret x).pending = s.pending := rfl
@[simp] theorem withInstret_tick (x) : (s.withInstret x).tick = s.tick := rfl
@[simp] theorem withInstret_free (x) : (s.withInstret x).free = s.free := rfl
@[simp] theorem withInstret_regs (x) : (s.withInstret x).regs = s.regs := rfl
@[simp] theorem withInstret_latch (x) : (s.withInstret x).latch = s.latch := rfl
@[simp] theorem withInstret_held (x) : (s.withInstret x).held = s.held := rfl
@[simp] theorem withInstret_mem (x) : (s.withInstret x).mem = s.mem := rfl
@[simp] theorem withInstret_lost (x) : (s.withInstret x).lost = s.lost := rfl
@[simp] theorem withInstret_g6Hot (x) : (s.withInstret x).g6Hot = s.g6Hot := rfl
@[simp] theorem withInstret_resp (x) : (s.withInstret x).resp = s.resp := rfl
@[simp] theorem withInstret_rdata (x) : (s.withInstret x).rdata = s.rdata := rfl
@[simp] theorem withInstret_evt (x) : (s.withInstret x).evt = s.evt := rfl
@[simp] theorem withInstret_vdBusy (x) : (s.withInstret x).vdBusy = s.vdBusy := rfl
@[simp] theorem withInstret_soutReq (x) : (s.withInstret x).soutReq = s.soutReq := rfl
@[simp] theorem withInstret_enabled (x) : (s.withInstret x).enabled = s.enabled := rfl
@[simp] theorem withInstret_ctxs (x) : (s.withInstret x).ctxs = s.ctxs := rfl
@[simp] theorem withInstret_accSeq (x) : (s.withInstret x).accSeq = s.accSeq := rfl
@[simp] theorem withInstret_verdict (x) : (s.withInstret x).verdict = s.verdict := rfl
@[simp] theorem withInstret_cin (x) : (s.withInstret x).cin = s.cin := rfl
@[simp] theorem withInstret_slots (x) : (s.withInstret x).slots = s.slots := rfl
@[simp] theorem withInstret_tx (x) : (s.withInstret x).tx = s.tx := rfl
@[simp] theorem withInstret_plibBad (x) : (s.withInstret x).plibBad = s.plibBad := rfl
@[simp] theorem withInstret_evOpen (x) : (s.withInstret x).evOpen = s.evOpen := rfl
@[simp] theorem withInstret_evSlots (x) : (s.withInstret x).evSlots = s.evSlots := rfl
@[simp] theorem withInstret_evTimer (x) : (s.withInstret x).evTimer = s.evTimer := rfl
@[simp] theorem withInstret_evTimerOn (x) : (s.withInstret x).evTimerOn = s.evTimerOn := rfl
@[simp] theorem withInstret_harts (x) : (s.withInstret x).harts = s.harts := rfl
@[simp] theorem withInstret_vp2 (x) : (s.withInstret x).vp2 = s.vp2 := rfl
@[simp] theorem withInstret_agParams (x) : (s.withInstret x).agParams = s.agParams := rfl
@[simp] theorem withInstret_gs (x) : (s.withInstret x).gs = s.gs := rfl
@[simp] theorem withInstret_since (x) : (s.withInstret x).since = s.since := rfl
@[simp] theorem withInstret_ct (x) : (s.withInstret x).ct = s.ct := rfl
@[simp] theorem withInstret_pairs (x) : (s.withInstret x).pairs = s.pairs := rfl
@[simp] theorem withInstret_roleMoves (x) : (s.withInstret x).roleMoves = s.roleMoves := rfl
@[simp] theorem withInstret_mbx (x) : (s.withInstret x).mbx = s.mbx := rfl
@[simp] theorem withInstret_retFlag (x) : (s.withInstret x).retFlag = s.retFlag := rfl
@[simp] theorem withInstret_fc (x) : (s.withInstret x).fc = s.fc := rfl
@[simp] theorem withInstret_wd (x) : (s.withInstret x).wd = s.wd := rfl
@[simp] theorem withInstret_dma (x) : (s.withInstret x).dma = s.dma := rfl
@[simp] theorem withInstret_tm (x) : (s.withInstret x).tm = s.tm := rfl
@[simp] theorem withInstret_eth (x) : (s.withInstret x).eth = s.eth := rfl
@[simp] theorem withInstret_ibi (x) : (s.withInstret x).ibi = s.ibi := rfl
@[simp] theorem withInstret_i3c (x) : (s.withInstret x).i3c = s.i3c := rfl
@[simp] theorem withInstret_xsp (x) : (s.withInstret x).xsp = s.xsp := rfl
@[simp] theorem withInstret_hostIrq (x) : (s.withInstret x).hostIrq = s.hostIrq := rfl
@[simp] theorem withInstret_ml (x) : (s.withInstret x).ml = s.ml := rfl
@[simp] theorem withInstret_sec (x) : (s.withInstret x).sec = s.sec := rfl
@[simp] theorem withInstret_boot (x) : (s.withInstret x).boot = s.boot := rfl
@[simp] theorem withInstret_flash (x) : (s.withInstret x).flash = s.flash := rfl
@[simp] theorem withInstret_dieReset (x) : (s.withInstret x).dieReset = s.dieReset := rfl
@[simp] theorem withInstret_holds (x) : (s.withInstret x).holds = s.holds := rfl
@[simp] theorem withInstret_railsLow (x) : (s.withInstret x).railsLow = s.railsLow := rfl
@[simp] theorem withInstret_committed (x) : (s.withInstret x).committed = s.committed := rfl
@[simp] theorem withInstret_spsTick (x) : (s.withInstret x).spsTick = s.spsTick := rfl
@[simp] theorem withInstret_protect (x) : (s.withInstret x).protect = s.protect := rfl
@[simp] theorem withInstret_sioIn (x) : (s.withInstret x).sioIn = s.sioIn := rfl
@[simp] theorem withInstret_sioOut (x) : (s.withInstret x).sioOut = s.sioOut := rfl
@[simp] theorem withInstret_accCmd (x) : (s.withInstret x).accCmd = s.accCmd := rfl
@[simp] theorem withInstret_lb (x) : (s.withInstret x).lb = s.lb := rfl
@[simp] theorem withInstret_jtag (x) : (s.withInstret x).jtag = s.jtag := rfl
@[simp] theorem withInstret_boundary (x) : (s.withInstret x).boundary = s.boundary := rfl

/-! ### What `withVp2` leaves -/

@[simp] theorem withVp2_pending (x) : (s.withVp2 x).pending = s.pending := rfl
@[simp] theorem withVp2_tick (x) : (s.withVp2 x).tick = s.tick := rfl
@[simp] theorem withVp2_free (x) : (s.withVp2 x).free = s.free := rfl
@[simp] theorem withVp2_regs (x) : (s.withVp2 x).regs = s.regs := rfl
@[simp] theorem withVp2_latch (x) : (s.withVp2 x).latch = s.latch := rfl
@[simp] theorem withVp2_held (x) : (s.withVp2 x).held = s.held := rfl
@[simp] theorem withVp2_mem (x) : (s.withVp2 x).mem = s.mem := rfl
@[simp] theorem withVp2_lost (x) : (s.withVp2 x).lost = s.lost := rfl
@[simp] theorem withVp2_g6Hot (x) : (s.withVp2 x).g6Hot = s.g6Hot := rfl
@[simp] theorem withVp2_resp (x) : (s.withVp2 x).resp = s.resp := rfl
@[simp] theorem withVp2_rdata (x) : (s.withVp2 x).rdata = s.rdata := rfl
@[simp] theorem withVp2_evt (x) : (s.withVp2 x).evt = s.evt := rfl
@[simp] theorem withVp2_vdBusy (x) : (s.withVp2 x).vdBusy = s.vdBusy := rfl
@[simp] theorem withVp2_soutReq (x) : (s.withVp2 x).soutReq = s.soutReq := rfl
@[simp] theorem withVp2_enabled (x) : (s.withVp2 x).enabled = s.enabled := rfl
@[simp] theorem withVp2_ctxs (x) : (s.withVp2 x).ctxs = s.ctxs := rfl
@[simp] theorem withVp2_accSeq (x) : (s.withVp2 x).accSeq = s.accSeq := rfl
@[simp] theorem withVp2_verdict (x) : (s.withVp2 x).verdict = s.verdict := rfl
@[simp] theorem withVp2_cin (x) : (s.withVp2 x).cin = s.cin := rfl
@[simp] theorem withVp2_slots (x) : (s.withVp2 x).slots = s.slots := rfl
@[simp] theorem withVp2_tx (x) : (s.withVp2 x).tx = s.tx := rfl
@[simp] theorem withVp2_plibBad (x) : (s.withVp2 x).plibBad = s.plibBad := rfl
@[simp] theorem withVp2_evOpen (x) : (s.withVp2 x).evOpen = s.evOpen := rfl
@[simp] theorem withVp2_evSlots (x) : (s.withVp2 x).evSlots = s.evSlots := rfl
@[simp] theorem withVp2_evTimer (x) : (s.withVp2 x).evTimer = s.evTimer := rfl
@[simp] theorem withVp2_evTimerOn (x) : (s.withVp2 x).evTimerOn = s.evTimerOn := rfl
@[simp] theorem withVp2_harts (x) : (s.withVp2 x).harts = s.harts := rfl
@[simp] theorem withVp2_instret (x) : (s.withVp2 x).instret = s.instret := rfl
@[simp] theorem withVp2_agParams (x) : (s.withVp2 x).agParams = s.agParams := rfl
@[simp] theorem withVp2_gs (x) : (s.withVp2 x).gs = s.gs := rfl
@[simp] theorem withVp2_since (x) : (s.withVp2 x).since = s.since := rfl
@[simp] theorem withVp2_ct (x) : (s.withVp2 x).ct = s.ct := rfl
@[simp] theorem withVp2_pairs (x) : (s.withVp2 x).pairs = s.pairs := rfl
@[simp] theorem withVp2_roleMoves (x) : (s.withVp2 x).roleMoves = s.roleMoves := rfl
@[simp] theorem withVp2_mbx (x) : (s.withVp2 x).mbx = s.mbx := rfl
@[simp] theorem withVp2_retFlag (x) : (s.withVp2 x).retFlag = s.retFlag := rfl
@[simp] theorem withVp2_fc (x) : (s.withVp2 x).fc = s.fc := rfl
@[simp] theorem withVp2_wd (x) : (s.withVp2 x).wd = s.wd := rfl
@[simp] theorem withVp2_dma (x) : (s.withVp2 x).dma = s.dma := rfl
@[simp] theorem withVp2_tm (x) : (s.withVp2 x).tm = s.tm := rfl
@[simp] theorem withVp2_eth (x) : (s.withVp2 x).eth = s.eth := rfl
@[simp] theorem withVp2_ibi (x) : (s.withVp2 x).ibi = s.ibi := rfl
@[simp] theorem withVp2_i3c (x) : (s.withVp2 x).i3c = s.i3c := rfl
@[simp] theorem withVp2_xsp (x) : (s.withVp2 x).xsp = s.xsp := rfl
@[simp] theorem withVp2_hostIrq (x) : (s.withVp2 x).hostIrq = s.hostIrq := rfl
@[simp] theorem withVp2_ml (x) : (s.withVp2 x).ml = s.ml := rfl
@[simp] theorem withVp2_sec (x) : (s.withVp2 x).sec = s.sec := rfl
@[simp] theorem withVp2_boot (x) : (s.withVp2 x).boot = s.boot := rfl
@[simp] theorem withVp2_flash (x) : (s.withVp2 x).flash = s.flash := rfl
@[simp] theorem withVp2_dieReset (x) : (s.withVp2 x).dieReset = s.dieReset := rfl
@[simp] theorem withVp2_holds (x) : (s.withVp2 x).holds = s.holds := rfl
@[simp] theorem withVp2_railsLow (x) : (s.withVp2 x).railsLow = s.railsLow := rfl
@[simp] theorem withVp2_committed (x) : (s.withVp2 x).committed = s.committed := rfl
@[simp] theorem withVp2_spsTick (x) : (s.withVp2 x).spsTick = s.spsTick := rfl
@[simp] theorem withVp2_protect (x) : (s.withVp2 x).protect = s.protect := rfl
@[simp] theorem withVp2_sioIn (x) : (s.withVp2 x).sioIn = s.sioIn := rfl
@[simp] theorem withVp2_sioOut (x) : (s.withVp2 x).sioOut = s.sioOut := rfl
@[simp] theorem withVp2_accCmd (x) : (s.withVp2 x).accCmd = s.accCmd := rfl
@[simp] theorem withVp2_lb (x) : (s.withVp2 x).lb = s.lb := rfl
@[simp] theorem withVp2_jtag (x) : (s.withVp2 x).jtag = s.jtag := rfl
@[simp] theorem withVp2_boundary (x) : (s.withVp2 x).boundary = s.boundary := rfl

/-! ### What `withAgParams` leaves -/

@[simp] theorem withAgParams_pending (x) : (s.withAgParams x).pending = s.pending := rfl
@[simp] theorem withAgParams_tick (x) : (s.withAgParams x).tick = s.tick := rfl
@[simp] theorem withAgParams_free (x) : (s.withAgParams x).free = s.free := rfl
@[simp] theorem withAgParams_regs (x) : (s.withAgParams x).regs = s.regs := rfl
@[simp] theorem withAgParams_latch (x) : (s.withAgParams x).latch = s.latch := rfl
@[simp] theorem withAgParams_held (x) : (s.withAgParams x).held = s.held := rfl
@[simp] theorem withAgParams_mem (x) : (s.withAgParams x).mem = s.mem := rfl
@[simp] theorem withAgParams_lost (x) : (s.withAgParams x).lost = s.lost := rfl
@[simp] theorem withAgParams_g6Hot (x) : (s.withAgParams x).g6Hot = s.g6Hot := rfl
@[simp] theorem withAgParams_resp (x) : (s.withAgParams x).resp = s.resp := rfl
@[simp] theorem withAgParams_rdata (x) : (s.withAgParams x).rdata = s.rdata := rfl
@[simp] theorem withAgParams_evt (x) : (s.withAgParams x).evt = s.evt := rfl
@[simp] theorem withAgParams_vdBusy (x) : (s.withAgParams x).vdBusy = s.vdBusy := rfl
@[simp] theorem withAgParams_soutReq (x) : (s.withAgParams x).soutReq = s.soutReq := rfl
@[simp] theorem withAgParams_enabled (x) : (s.withAgParams x).enabled = s.enabled := rfl
@[simp] theorem withAgParams_ctxs (x) : (s.withAgParams x).ctxs = s.ctxs := rfl
@[simp] theorem withAgParams_accSeq (x) : (s.withAgParams x).accSeq = s.accSeq := rfl
@[simp] theorem withAgParams_verdict (x) : (s.withAgParams x).verdict = s.verdict := rfl
@[simp] theorem withAgParams_cin (x) : (s.withAgParams x).cin = s.cin := rfl
@[simp] theorem withAgParams_slots (x) : (s.withAgParams x).slots = s.slots := rfl
@[simp] theorem withAgParams_tx (x) : (s.withAgParams x).tx = s.tx := rfl
@[simp] theorem withAgParams_plibBad (x) : (s.withAgParams x).plibBad = s.plibBad := rfl
@[simp] theorem withAgParams_evOpen (x) : (s.withAgParams x).evOpen = s.evOpen := rfl
@[simp] theorem withAgParams_evSlots (x) : (s.withAgParams x).evSlots = s.evSlots := rfl
@[simp] theorem withAgParams_evTimer (x) : (s.withAgParams x).evTimer = s.evTimer := rfl
@[simp] theorem withAgParams_evTimerOn (x) : (s.withAgParams x).evTimerOn = s.evTimerOn := rfl
@[simp] theorem withAgParams_harts (x) : (s.withAgParams x).harts = s.harts := rfl
@[simp] theorem withAgParams_instret (x) : (s.withAgParams x).instret = s.instret := rfl
@[simp] theorem withAgParams_vp2 (x) : (s.withAgParams x).vp2 = s.vp2 := rfl
@[simp] theorem withAgParams_gs (x) : (s.withAgParams x).gs = s.gs := rfl
@[simp] theorem withAgParams_since (x) : (s.withAgParams x).since = s.since := rfl
@[simp] theorem withAgParams_ct (x) : (s.withAgParams x).ct = s.ct := rfl
@[simp] theorem withAgParams_pairs (x) : (s.withAgParams x).pairs = s.pairs := rfl
@[simp] theorem withAgParams_roleMoves (x) : (s.withAgParams x).roleMoves = s.roleMoves := rfl
@[simp] theorem withAgParams_mbx (x) : (s.withAgParams x).mbx = s.mbx := rfl
@[simp] theorem withAgParams_retFlag (x) : (s.withAgParams x).retFlag = s.retFlag := rfl
@[simp] theorem withAgParams_fc (x) : (s.withAgParams x).fc = s.fc := rfl
@[simp] theorem withAgParams_wd (x) : (s.withAgParams x).wd = s.wd := rfl
@[simp] theorem withAgParams_dma (x) : (s.withAgParams x).dma = s.dma := rfl
@[simp] theorem withAgParams_tm (x) : (s.withAgParams x).tm = s.tm := rfl
@[simp] theorem withAgParams_eth (x) : (s.withAgParams x).eth = s.eth := rfl
@[simp] theorem withAgParams_ibi (x) : (s.withAgParams x).ibi = s.ibi := rfl
@[simp] theorem withAgParams_i3c (x) : (s.withAgParams x).i3c = s.i3c := rfl
@[simp] theorem withAgParams_xsp (x) : (s.withAgParams x).xsp = s.xsp := rfl
@[simp] theorem withAgParams_hostIrq (x) : (s.withAgParams x).hostIrq = s.hostIrq := rfl
@[simp] theorem withAgParams_ml (x) : (s.withAgParams x).ml = s.ml := rfl
@[simp] theorem withAgParams_sec (x) : (s.withAgParams x).sec = s.sec := rfl
@[simp] theorem withAgParams_boot (x) : (s.withAgParams x).boot = s.boot := rfl
@[simp] theorem withAgParams_flash (x) : (s.withAgParams x).flash = s.flash := rfl
@[simp] theorem withAgParams_dieReset (x) : (s.withAgParams x).dieReset = s.dieReset := rfl
@[simp] theorem withAgParams_holds (x) : (s.withAgParams x).holds = s.holds := rfl
@[simp] theorem withAgParams_railsLow (x) : (s.withAgParams x).railsLow = s.railsLow := rfl
@[simp] theorem withAgParams_committed (x) : (s.withAgParams x).committed = s.committed := rfl
@[simp] theorem withAgParams_spsTick (x) : (s.withAgParams x).spsTick = s.spsTick := rfl
@[simp] theorem withAgParams_protect (x) : (s.withAgParams x).protect = s.protect := rfl
@[simp] theorem withAgParams_sioIn (x) : (s.withAgParams x).sioIn = s.sioIn := rfl
@[simp] theorem withAgParams_sioOut (x) : (s.withAgParams x).sioOut = s.sioOut := rfl
@[simp] theorem withAgParams_accCmd (x) : (s.withAgParams x).accCmd = s.accCmd := rfl
@[simp] theorem withAgParams_lb (x) : (s.withAgParams x).lb = s.lb := rfl
@[simp] theorem withAgParams_jtag (x) : (s.withAgParams x).jtag = s.jtag := rfl
@[simp] theorem withAgParams_boundary (x) : (s.withAgParams x).boundary = s.boundary := rfl

/-! ### What `withGs` leaves -/

@[simp] theorem withGs_pending (x) : (s.withGs x).pending = s.pending := rfl
@[simp] theorem withGs_tick (x) : (s.withGs x).tick = s.tick := rfl
@[simp] theorem withGs_free (x) : (s.withGs x).free = s.free := rfl
@[simp] theorem withGs_regs (x) : (s.withGs x).regs = s.regs := rfl
@[simp] theorem withGs_latch (x) : (s.withGs x).latch = s.latch := rfl
@[simp] theorem withGs_held (x) : (s.withGs x).held = s.held := rfl
@[simp] theorem withGs_mem (x) : (s.withGs x).mem = s.mem := rfl
@[simp] theorem withGs_lost (x) : (s.withGs x).lost = s.lost := rfl
@[simp] theorem withGs_g6Hot (x) : (s.withGs x).g6Hot = s.g6Hot := rfl
@[simp] theorem withGs_resp (x) : (s.withGs x).resp = s.resp := rfl
@[simp] theorem withGs_rdata (x) : (s.withGs x).rdata = s.rdata := rfl
@[simp] theorem withGs_evt (x) : (s.withGs x).evt = s.evt := rfl
@[simp] theorem withGs_vdBusy (x) : (s.withGs x).vdBusy = s.vdBusy := rfl
@[simp] theorem withGs_soutReq (x) : (s.withGs x).soutReq = s.soutReq := rfl
@[simp] theorem withGs_enabled (x) : (s.withGs x).enabled = s.enabled := rfl
@[simp] theorem withGs_ctxs (x) : (s.withGs x).ctxs = s.ctxs := rfl
@[simp] theorem withGs_accSeq (x) : (s.withGs x).accSeq = s.accSeq := rfl
@[simp] theorem withGs_verdict (x) : (s.withGs x).verdict = s.verdict := rfl
@[simp] theorem withGs_cin (x) : (s.withGs x).cin = s.cin := rfl
@[simp] theorem withGs_slots (x) : (s.withGs x).slots = s.slots := rfl
@[simp] theorem withGs_tx (x) : (s.withGs x).tx = s.tx := rfl
@[simp] theorem withGs_plibBad (x) : (s.withGs x).plibBad = s.plibBad := rfl
@[simp] theorem withGs_evOpen (x) : (s.withGs x).evOpen = s.evOpen := rfl
@[simp] theorem withGs_evSlots (x) : (s.withGs x).evSlots = s.evSlots := rfl
@[simp] theorem withGs_evTimer (x) : (s.withGs x).evTimer = s.evTimer := rfl
@[simp] theorem withGs_evTimerOn (x) : (s.withGs x).evTimerOn = s.evTimerOn := rfl
@[simp] theorem withGs_harts (x) : (s.withGs x).harts = s.harts := rfl
@[simp] theorem withGs_instret (x) : (s.withGs x).instret = s.instret := rfl
@[simp] theorem withGs_vp2 (x) : (s.withGs x).vp2 = s.vp2 := rfl
@[simp] theorem withGs_agParams (x) : (s.withGs x).agParams = s.agParams := rfl
@[simp] theorem withGs_since (x) : (s.withGs x).since = s.since := rfl
@[simp] theorem withGs_ct (x) : (s.withGs x).ct = s.ct := rfl
@[simp] theorem withGs_pairs (x) : (s.withGs x).pairs = s.pairs := rfl
@[simp] theorem withGs_roleMoves (x) : (s.withGs x).roleMoves = s.roleMoves := rfl
@[simp] theorem withGs_mbx (x) : (s.withGs x).mbx = s.mbx := rfl
@[simp] theorem withGs_retFlag (x) : (s.withGs x).retFlag = s.retFlag := rfl
@[simp] theorem withGs_fc (x) : (s.withGs x).fc = s.fc := rfl
@[simp] theorem withGs_wd (x) : (s.withGs x).wd = s.wd := rfl
@[simp] theorem withGs_dma (x) : (s.withGs x).dma = s.dma := rfl
@[simp] theorem withGs_tm (x) : (s.withGs x).tm = s.tm := rfl
@[simp] theorem withGs_eth (x) : (s.withGs x).eth = s.eth := rfl
@[simp] theorem withGs_ibi (x) : (s.withGs x).ibi = s.ibi := rfl
@[simp] theorem withGs_i3c (x) : (s.withGs x).i3c = s.i3c := rfl
@[simp] theorem withGs_xsp (x) : (s.withGs x).xsp = s.xsp := rfl
@[simp] theorem withGs_hostIrq (x) : (s.withGs x).hostIrq = s.hostIrq := rfl
@[simp] theorem withGs_ml (x) : (s.withGs x).ml = s.ml := rfl
@[simp] theorem withGs_sec (x) : (s.withGs x).sec = s.sec := rfl
@[simp] theorem withGs_boot (x) : (s.withGs x).boot = s.boot := rfl
@[simp] theorem withGs_flash (x) : (s.withGs x).flash = s.flash := rfl
@[simp] theorem withGs_dieReset (x) : (s.withGs x).dieReset = s.dieReset := rfl
@[simp] theorem withGs_holds (x) : (s.withGs x).holds = s.holds := rfl
@[simp] theorem withGs_railsLow (x) : (s.withGs x).railsLow = s.railsLow := rfl
@[simp] theorem withGs_committed (x) : (s.withGs x).committed = s.committed := rfl
@[simp] theorem withGs_spsTick (x) : (s.withGs x).spsTick = s.spsTick := rfl
@[simp] theorem withGs_protect (x) : (s.withGs x).protect = s.protect := rfl
@[simp] theorem withGs_sioIn (x) : (s.withGs x).sioIn = s.sioIn := rfl
@[simp] theorem withGs_sioOut (x) : (s.withGs x).sioOut = s.sioOut := rfl
@[simp] theorem withGs_accCmd (x) : (s.withGs x).accCmd = s.accCmd := rfl
@[simp] theorem withGs_lb (x) : (s.withGs x).lb = s.lb := rfl
@[simp] theorem withGs_jtag (x) : (s.withGs x).jtag = s.jtag := rfl
@[simp] theorem withGs_boundary (x) : (s.withGs x).boundary = s.boundary := rfl

/-! ### What `withSince` leaves -/

@[simp] theorem withSince_pending (x) : (s.withSince x).pending = s.pending := rfl
@[simp] theorem withSince_tick (x) : (s.withSince x).tick = s.tick := rfl
@[simp] theorem withSince_free (x) : (s.withSince x).free = s.free := rfl
@[simp] theorem withSince_regs (x) : (s.withSince x).regs = s.regs := rfl
@[simp] theorem withSince_latch (x) : (s.withSince x).latch = s.latch := rfl
@[simp] theorem withSince_held (x) : (s.withSince x).held = s.held := rfl
@[simp] theorem withSince_mem (x) : (s.withSince x).mem = s.mem := rfl
@[simp] theorem withSince_lost (x) : (s.withSince x).lost = s.lost := rfl
@[simp] theorem withSince_g6Hot (x) : (s.withSince x).g6Hot = s.g6Hot := rfl
@[simp] theorem withSince_resp (x) : (s.withSince x).resp = s.resp := rfl
@[simp] theorem withSince_rdata (x) : (s.withSince x).rdata = s.rdata := rfl
@[simp] theorem withSince_evt (x) : (s.withSince x).evt = s.evt := rfl
@[simp] theorem withSince_vdBusy (x) : (s.withSince x).vdBusy = s.vdBusy := rfl
@[simp] theorem withSince_soutReq (x) : (s.withSince x).soutReq = s.soutReq := rfl
@[simp] theorem withSince_enabled (x) : (s.withSince x).enabled = s.enabled := rfl
@[simp] theorem withSince_ctxs (x) : (s.withSince x).ctxs = s.ctxs := rfl
@[simp] theorem withSince_accSeq (x) : (s.withSince x).accSeq = s.accSeq := rfl
@[simp] theorem withSince_verdict (x) : (s.withSince x).verdict = s.verdict := rfl
@[simp] theorem withSince_cin (x) : (s.withSince x).cin = s.cin := rfl
@[simp] theorem withSince_slots (x) : (s.withSince x).slots = s.slots := rfl
@[simp] theorem withSince_tx (x) : (s.withSince x).tx = s.tx := rfl
@[simp] theorem withSince_plibBad (x) : (s.withSince x).plibBad = s.plibBad := rfl
@[simp] theorem withSince_evOpen (x) : (s.withSince x).evOpen = s.evOpen := rfl
@[simp] theorem withSince_evSlots (x) : (s.withSince x).evSlots = s.evSlots := rfl
@[simp] theorem withSince_evTimer (x) : (s.withSince x).evTimer = s.evTimer := rfl
@[simp] theorem withSince_evTimerOn (x) : (s.withSince x).evTimerOn = s.evTimerOn := rfl
@[simp] theorem withSince_harts (x) : (s.withSince x).harts = s.harts := rfl
@[simp] theorem withSince_instret (x) : (s.withSince x).instret = s.instret := rfl
@[simp] theorem withSince_vp2 (x) : (s.withSince x).vp2 = s.vp2 := rfl
@[simp] theorem withSince_agParams (x) : (s.withSince x).agParams = s.agParams := rfl
@[simp] theorem withSince_gs (x) : (s.withSince x).gs = s.gs := rfl
@[simp] theorem withSince_ct (x) : (s.withSince x).ct = s.ct := rfl
@[simp] theorem withSince_pairs (x) : (s.withSince x).pairs = s.pairs := rfl
@[simp] theorem withSince_roleMoves (x) : (s.withSince x).roleMoves = s.roleMoves := rfl
@[simp] theorem withSince_mbx (x) : (s.withSince x).mbx = s.mbx := rfl
@[simp] theorem withSince_retFlag (x) : (s.withSince x).retFlag = s.retFlag := rfl
@[simp] theorem withSince_fc (x) : (s.withSince x).fc = s.fc := rfl
@[simp] theorem withSince_wd (x) : (s.withSince x).wd = s.wd := rfl
@[simp] theorem withSince_dma (x) : (s.withSince x).dma = s.dma := rfl
@[simp] theorem withSince_tm (x) : (s.withSince x).tm = s.tm := rfl
@[simp] theorem withSince_eth (x) : (s.withSince x).eth = s.eth := rfl
@[simp] theorem withSince_ibi (x) : (s.withSince x).ibi = s.ibi := rfl
@[simp] theorem withSince_i3c (x) : (s.withSince x).i3c = s.i3c := rfl
@[simp] theorem withSince_xsp (x) : (s.withSince x).xsp = s.xsp := rfl
@[simp] theorem withSince_hostIrq (x) : (s.withSince x).hostIrq = s.hostIrq := rfl
@[simp] theorem withSince_ml (x) : (s.withSince x).ml = s.ml := rfl
@[simp] theorem withSince_sec (x) : (s.withSince x).sec = s.sec := rfl
@[simp] theorem withSince_boot (x) : (s.withSince x).boot = s.boot := rfl
@[simp] theorem withSince_flash (x) : (s.withSince x).flash = s.flash := rfl
@[simp] theorem withSince_dieReset (x) : (s.withSince x).dieReset = s.dieReset := rfl
@[simp] theorem withSince_holds (x) : (s.withSince x).holds = s.holds := rfl
@[simp] theorem withSince_railsLow (x) : (s.withSince x).railsLow = s.railsLow := rfl
@[simp] theorem withSince_committed (x) : (s.withSince x).committed = s.committed := rfl
@[simp] theorem withSince_spsTick (x) : (s.withSince x).spsTick = s.spsTick := rfl
@[simp] theorem withSince_protect (x) : (s.withSince x).protect = s.protect := rfl
@[simp] theorem withSince_sioIn (x) : (s.withSince x).sioIn = s.sioIn := rfl
@[simp] theorem withSince_sioOut (x) : (s.withSince x).sioOut = s.sioOut := rfl
@[simp] theorem withSince_accCmd (x) : (s.withSince x).accCmd = s.accCmd := rfl
@[simp] theorem withSince_lb (x) : (s.withSince x).lb = s.lb := rfl
@[simp] theorem withSince_jtag (x) : (s.withSince x).jtag = s.jtag := rfl
@[simp] theorem withSince_boundary (x) : (s.withSince x).boundary = s.boundary := rfl

/-! ### What `withCt` leaves -/

@[simp] theorem withCt_pending (x) : (s.withCt x).pending = s.pending := rfl
@[simp] theorem withCt_tick (x) : (s.withCt x).tick = s.tick := rfl
@[simp] theorem withCt_free (x) : (s.withCt x).free = s.free := rfl
@[simp] theorem withCt_regs (x) : (s.withCt x).regs = s.regs := rfl
@[simp] theorem withCt_latch (x) : (s.withCt x).latch = s.latch := rfl
@[simp] theorem withCt_held (x) : (s.withCt x).held = s.held := rfl
@[simp] theorem withCt_mem (x) : (s.withCt x).mem = s.mem := rfl
@[simp] theorem withCt_lost (x) : (s.withCt x).lost = s.lost := rfl
@[simp] theorem withCt_g6Hot (x) : (s.withCt x).g6Hot = s.g6Hot := rfl
@[simp] theorem withCt_resp (x) : (s.withCt x).resp = s.resp := rfl
@[simp] theorem withCt_rdata (x) : (s.withCt x).rdata = s.rdata := rfl
@[simp] theorem withCt_evt (x) : (s.withCt x).evt = s.evt := rfl
@[simp] theorem withCt_vdBusy (x) : (s.withCt x).vdBusy = s.vdBusy := rfl
@[simp] theorem withCt_soutReq (x) : (s.withCt x).soutReq = s.soutReq := rfl
@[simp] theorem withCt_enabled (x) : (s.withCt x).enabled = s.enabled := rfl
@[simp] theorem withCt_ctxs (x) : (s.withCt x).ctxs = s.ctxs := rfl
@[simp] theorem withCt_accSeq (x) : (s.withCt x).accSeq = s.accSeq := rfl
@[simp] theorem withCt_verdict (x) : (s.withCt x).verdict = s.verdict := rfl
@[simp] theorem withCt_cin (x) : (s.withCt x).cin = s.cin := rfl
@[simp] theorem withCt_slots (x) : (s.withCt x).slots = s.slots := rfl
@[simp] theorem withCt_tx (x) : (s.withCt x).tx = s.tx := rfl
@[simp] theorem withCt_plibBad (x) : (s.withCt x).plibBad = s.plibBad := rfl
@[simp] theorem withCt_evOpen (x) : (s.withCt x).evOpen = s.evOpen := rfl
@[simp] theorem withCt_evSlots (x) : (s.withCt x).evSlots = s.evSlots := rfl
@[simp] theorem withCt_evTimer (x) : (s.withCt x).evTimer = s.evTimer := rfl
@[simp] theorem withCt_evTimerOn (x) : (s.withCt x).evTimerOn = s.evTimerOn := rfl
@[simp] theorem withCt_harts (x) : (s.withCt x).harts = s.harts := rfl
@[simp] theorem withCt_instret (x) : (s.withCt x).instret = s.instret := rfl
@[simp] theorem withCt_vp2 (x) : (s.withCt x).vp2 = s.vp2 := rfl
@[simp] theorem withCt_agParams (x) : (s.withCt x).agParams = s.agParams := rfl
@[simp] theorem withCt_gs (x) : (s.withCt x).gs = s.gs := rfl
@[simp] theorem withCt_since (x) : (s.withCt x).since = s.since := rfl
@[simp] theorem withCt_pairs (x) : (s.withCt x).pairs = s.pairs := rfl
@[simp] theorem withCt_roleMoves (x) : (s.withCt x).roleMoves = s.roleMoves := rfl
@[simp] theorem withCt_mbx (x) : (s.withCt x).mbx = s.mbx := rfl
@[simp] theorem withCt_retFlag (x) : (s.withCt x).retFlag = s.retFlag := rfl
@[simp] theorem withCt_fc (x) : (s.withCt x).fc = s.fc := rfl
@[simp] theorem withCt_wd (x) : (s.withCt x).wd = s.wd := rfl
@[simp] theorem withCt_dma (x) : (s.withCt x).dma = s.dma := rfl
@[simp] theorem withCt_tm (x) : (s.withCt x).tm = s.tm := rfl
@[simp] theorem withCt_eth (x) : (s.withCt x).eth = s.eth := rfl
@[simp] theorem withCt_ibi (x) : (s.withCt x).ibi = s.ibi := rfl
@[simp] theorem withCt_i3c (x) : (s.withCt x).i3c = s.i3c := rfl
@[simp] theorem withCt_xsp (x) : (s.withCt x).xsp = s.xsp := rfl
@[simp] theorem withCt_hostIrq (x) : (s.withCt x).hostIrq = s.hostIrq := rfl
@[simp] theorem withCt_ml (x) : (s.withCt x).ml = s.ml := rfl
@[simp] theorem withCt_sec (x) : (s.withCt x).sec = s.sec := rfl
@[simp] theorem withCt_boot (x) : (s.withCt x).boot = s.boot := rfl
@[simp] theorem withCt_flash (x) : (s.withCt x).flash = s.flash := rfl
@[simp] theorem withCt_dieReset (x) : (s.withCt x).dieReset = s.dieReset := rfl
@[simp] theorem withCt_holds (x) : (s.withCt x).holds = s.holds := rfl
@[simp] theorem withCt_railsLow (x) : (s.withCt x).railsLow = s.railsLow := rfl
@[simp] theorem withCt_committed (x) : (s.withCt x).committed = s.committed := rfl
@[simp] theorem withCt_spsTick (x) : (s.withCt x).spsTick = s.spsTick := rfl
@[simp] theorem withCt_protect (x) : (s.withCt x).protect = s.protect := rfl
@[simp] theorem withCt_sioIn (x) : (s.withCt x).sioIn = s.sioIn := rfl
@[simp] theorem withCt_sioOut (x) : (s.withCt x).sioOut = s.sioOut := rfl
@[simp] theorem withCt_accCmd (x) : (s.withCt x).accCmd = s.accCmd := rfl
@[simp] theorem withCt_lb (x) : (s.withCt x).lb = s.lb := rfl
@[simp] theorem withCt_jtag (x) : (s.withCt x).jtag = s.jtag := rfl
@[simp] theorem withCt_boundary (x) : (s.withCt x).boundary = s.boundary := rfl

/-! ### What `withPairs` leaves -/

@[simp] theorem withPairs_pending (x) : (s.withPairs x).pending = s.pending := rfl
@[simp] theorem withPairs_tick (x) : (s.withPairs x).tick = s.tick := rfl
@[simp] theorem withPairs_free (x) : (s.withPairs x).free = s.free := rfl
@[simp] theorem withPairs_regs (x) : (s.withPairs x).regs = s.regs := rfl
@[simp] theorem withPairs_latch (x) : (s.withPairs x).latch = s.latch := rfl
@[simp] theorem withPairs_held (x) : (s.withPairs x).held = s.held := rfl
@[simp] theorem withPairs_mem (x) : (s.withPairs x).mem = s.mem := rfl
@[simp] theorem withPairs_lost (x) : (s.withPairs x).lost = s.lost := rfl
@[simp] theorem withPairs_g6Hot (x) : (s.withPairs x).g6Hot = s.g6Hot := rfl
@[simp] theorem withPairs_resp (x) : (s.withPairs x).resp = s.resp := rfl
@[simp] theorem withPairs_rdata (x) : (s.withPairs x).rdata = s.rdata := rfl
@[simp] theorem withPairs_evt (x) : (s.withPairs x).evt = s.evt := rfl
@[simp] theorem withPairs_vdBusy (x) : (s.withPairs x).vdBusy = s.vdBusy := rfl
@[simp] theorem withPairs_soutReq (x) : (s.withPairs x).soutReq = s.soutReq := rfl
@[simp] theorem withPairs_enabled (x) : (s.withPairs x).enabled = s.enabled := rfl
@[simp] theorem withPairs_ctxs (x) : (s.withPairs x).ctxs = s.ctxs := rfl
@[simp] theorem withPairs_accSeq (x) : (s.withPairs x).accSeq = s.accSeq := rfl
@[simp] theorem withPairs_verdict (x) : (s.withPairs x).verdict = s.verdict := rfl
@[simp] theorem withPairs_cin (x) : (s.withPairs x).cin = s.cin := rfl
@[simp] theorem withPairs_slots (x) : (s.withPairs x).slots = s.slots := rfl
@[simp] theorem withPairs_tx (x) : (s.withPairs x).tx = s.tx := rfl
@[simp] theorem withPairs_plibBad (x) : (s.withPairs x).plibBad = s.plibBad := rfl
@[simp] theorem withPairs_evOpen (x) : (s.withPairs x).evOpen = s.evOpen := rfl
@[simp] theorem withPairs_evSlots (x) : (s.withPairs x).evSlots = s.evSlots := rfl
@[simp] theorem withPairs_evTimer (x) : (s.withPairs x).evTimer = s.evTimer := rfl
@[simp] theorem withPairs_evTimerOn (x) : (s.withPairs x).evTimerOn = s.evTimerOn := rfl
@[simp] theorem withPairs_harts (x) : (s.withPairs x).harts = s.harts := rfl
@[simp] theorem withPairs_instret (x) : (s.withPairs x).instret = s.instret := rfl
@[simp] theorem withPairs_vp2 (x) : (s.withPairs x).vp2 = s.vp2 := rfl
@[simp] theorem withPairs_agParams (x) : (s.withPairs x).agParams = s.agParams := rfl
@[simp] theorem withPairs_gs (x) : (s.withPairs x).gs = s.gs := rfl
@[simp] theorem withPairs_since (x) : (s.withPairs x).since = s.since := rfl
@[simp] theorem withPairs_ct (x) : (s.withPairs x).ct = s.ct := rfl
@[simp] theorem withPairs_roleMoves (x) : (s.withPairs x).roleMoves = s.roleMoves := rfl
@[simp] theorem withPairs_mbx (x) : (s.withPairs x).mbx = s.mbx := rfl
@[simp] theorem withPairs_retFlag (x) : (s.withPairs x).retFlag = s.retFlag := rfl
@[simp] theorem withPairs_fc (x) : (s.withPairs x).fc = s.fc := rfl
@[simp] theorem withPairs_wd (x) : (s.withPairs x).wd = s.wd := rfl
@[simp] theorem withPairs_dma (x) : (s.withPairs x).dma = s.dma := rfl
@[simp] theorem withPairs_tm (x) : (s.withPairs x).tm = s.tm := rfl
@[simp] theorem withPairs_eth (x) : (s.withPairs x).eth = s.eth := rfl
@[simp] theorem withPairs_ibi (x) : (s.withPairs x).ibi = s.ibi := rfl
@[simp] theorem withPairs_i3c (x) : (s.withPairs x).i3c = s.i3c := rfl
@[simp] theorem withPairs_xsp (x) : (s.withPairs x).xsp = s.xsp := rfl
@[simp] theorem withPairs_hostIrq (x) : (s.withPairs x).hostIrq = s.hostIrq := rfl
@[simp] theorem withPairs_ml (x) : (s.withPairs x).ml = s.ml := rfl
@[simp] theorem withPairs_sec (x) : (s.withPairs x).sec = s.sec := rfl
@[simp] theorem withPairs_boot (x) : (s.withPairs x).boot = s.boot := rfl
@[simp] theorem withPairs_flash (x) : (s.withPairs x).flash = s.flash := rfl
@[simp] theorem withPairs_dieReset (x) : (s.withPairs x).dieReset = s.dieReset := rfl
@[simp] theorem withPairs_holds (x) : (s.withPairs x).holds = s.holds := rfl
@[simp] theorem withPairs_railsLow (x) : (s.withPairs x).railsLow = s.railsLow := rfl
@[simp] theorem withPairs_committed (x) : (s.withPairs x).committed = s.committed := rfl
@[simp] theorem withPairs_spsTick (x) : (s.withPairs x).spsTick = s.spsTick := rfl
@[simp] theorem withPairs_protect (x) : (s.withPairs x).protect = s.protect := rfl
@[simp] theorem withPairs_sioIn (x) : (s.withPairs x).sioIn = s.sioIn := rfl
@[simp] theorem withPairs_sioOut (x) : (s.withPairs x).sioOut = s.sioOut := rfl
@[simp] theorem withPairs_accCmd (x) : (s.withPairs x).accCmd = s.accCmd := rfl
@[simp] theorem withPairs_lb (x) : (s.withPairs x).lb = s.lb := rfl
@[simp] theorem withPairs_jtag (x) : (s.withPairs x).jtag = s.jtag := rfl
@[simp] theorem withPairs_boundary (x) : (s.withPairs x).boundary = s.boundary := rfl

/-! ### What `withRoleMoves` leaves -/

@[simp] theorem withRoleMoves_pending (x) : (s.withRoleMoves x).pending = s.pending := rfl
@[simp] theorem withRoleMoves_tick (x) : (s.withRoleMoves x).tick = s.tick := rfl
@[simp] theorem withRoleMoves_free (x) : (s.withRoleMoves x).free = s.free := rfl
@[simp] theorem withRoleMoves_regs (x) : (s.withRoleMoves x).regs = s.regs := rfl
@[simp] theorem withRoleMoves_latch (x) : (s.withRoleMoves x).latch = s.latch := rfl
@[simp] theorem withRoleMoves_held (x) : (s.withRoleMoves x).held = s.held := rfl
@[simp] theorem withRoleMoves_mem (x) : (s.withRoleMoves x).mem = s.mem := rfl
@[simp] theorem withRoleMoves_lost (x) : (s.withRoleMoves x).lost = s.lost := rfl
@[simp] theorem withRoleMoves_g6Hot (x) : (s.withRoleMoves x).g6Hot = s.g6Hot := rfl
@[simp] theorem withRoleMoves_resp (x) : (s.withRoleMoves x).resp = s.resp := rfl
@[simp] theorem withRoleMoves_rdata (x) : (s.withRoleMoves x).rdata = s.rdata := rfl
@[simp] theorem withRoleMoves_evt (x) : (s.withRoleMoves x).evt = s.evt := rfl
@[simp] theorem withRoleMoves_vdBusy (x) : (s.withRoleMoves x).vdBusy = s.vdBusy := rfl
@[simp] theorem withRoleMoves_soutReq (x) : (s.withRoleMoves x).soutReq = s.soutReq := rfl
@[simp] theorem withRoleMoves_enabled (x) : (s.withRoleMoves x).enabled = s.enabled := rfl
@[simp] theorem withRoleMoves_ctxs (x) : (s.withRoleMoves x).ctxs = s.ctxs := rfl
@[simp] theorem withRoleMoves_accSeq (x) : (s.withRoleMoves x).accSeq = s.accSeq := rfl
@[simp] theorem withRoleMoves_verdict (x) : (s.withRoleMoves x).verdict = s.verdict := rfl
@[simp] theorem withRoleMoves_cin (x) : (s.withRoleMoves x).cin = s.cin := rfl
@[simp] theorem withRoleMoves_slots (x) : (s.withRoleMoves x).slots = s.slots := rfl
@[simp] theorem withRoleMoves_tx (x) : (s.withRoleMoves x).tx = s.tx := rfl
@[simp] theorem withRoleMoves_plibBad (x) : (s.withRoleMoves x).plibBad = s.plibBad := rfl
@[simp] theorem withRoleMoves_evOpen (x) : (s.withRoleMoves x).evOpen = s.evOpen := rfl
@[simp] theorem withRoleMoves_evSlots (x) : (s.withRoleMoves x).evSlots = s.evSlots := rfl
@[simp] theorem withRoleMoves_evTimer (x) : (s.withRoleMoves x).evTimer = s.evTimer := rfl
@[simp] theorem withRoleMoves_evTimerOn (x) : (s.withRoleMoves x).evTimerOn = s.evTimerOn := rfl
@[simp] theorem withRoleMoves_harts (x) : (s.withRoleMoves x).harts = s.harts := rfl
@[simp] theorem withRoleMoves_instret (x) : (s.withRoleMoves x).instret = s.instret := rfl
@[simp] theorem withRoleMoves_vp2 (x) : (s.withRoleMoves x).vp2 = s.vp2 := rfl
@[simp] theorem withRoleMoves_agParams (x) : (s.withRoleMoves x).agParams = s.agParams := rfl
@[simp] theorem withRoleMoves_gs (x) : (s.withRoleMoves x).gs = s.gs := rfl
@[simp] theorem withRoleMoves_since (x) : (s.withRoleMoves x).since = s.since := rfl
@[simp] theorem withRoleMoves_ct (x) : (s.withRoleMoves x).ct = s.ct := rfl
@[simp] theorem withRoleMoves_pairs (x) : (s.withRoleMoves x).pairs = s.pairs := rfl
@[simp] theorem withRoleMoves_mbx (x) : (s.withRoleMoves x).mbx = s.mbx := rfl
@[simp] theorem withRoleMoves_retFlag (x) : (s.withRoleMoves x).retFlag = s.retFlag := rfl
@[simp] theorem withRoleMoves_fc (x) : (s.withRoleMoves x).fc = s.fc := rfl
@[simp] theorem withRoleMoves_wd (x) : (s.withRoleMoves x).wd = s.wd := rfl
@[simp] theorem withRoleMoves_dma (x) : (s.withRoleMoves x).dma = s.dma := rfl
@[simp] theorem withRoleMoves_tm (x) : (s.withRoleMoves x).tm = s.tm := rfl
@[simp] theorem withRoleMoves_eth (x) : (s.withRoleMoves x).eth = s.eth := rfl
@[simp] theorem withRoleMoves_ibi (x) : (s.withRoleMoves x).ibi = s.ibi := rfl
@[simp] theorem withRoleMoves_i3c (x) : (s.withRoleMoves x).i3c = s.i3c := rfl
@[simp] theorem withRoleMoves_xsp (x) : (s.withRoleMoves x).xsp = s.xsp := rfl
@[simp] theorem withRoleMoves_hostIrq (x) : (s.withRoleMoves x).hostIrq = s.hostIrq := rfl
@[simp] theorem withRoleMoves_ml (x) : (s.withRoleMoves x).ml = s.ml := rfl
@[simp] theorem withRoleMoves_sec (x) : (s.withRoleMoves x).sec = s.sec := rfl
@[simp] theorem withRoleMoves_boot (x) : (s.withRoleMoves x).boot = s.boot := rfl
@[simp] theorem withRoleMoves_flash (x) : (s.withRoleMoves x).flash = s.flash := rfl
@[simp] theorem withRoleMoves_dieReset (x) : (s.withRoleMoves x).dieReset = s.dieReset := rfl
@[simp] theorem withRoleMoves_holds (x) : (s.withRoleMoves x).holds = s.holds := rfl
@[simp] theorem withRoleMoves_railsLow (x) : (s.withRoleMoves x).railsLow = s.railsLow := rfl
@[simp] theorem withRoleMoves_committed (x) : (s.withRoleMoves x).committed = s.committed := rfl
@[simp] theorem withRoleMoves_spsTick (x) : (s.withRoleMoves x).spsTick = s.spsTick := rfl
@[simp] theorem withRoleMoves_protect (x) : (s.withRoleMoves x).protect = s.protect := rfl
@[simp] theorem withRoleMoves_sioIn (x) : (s.withRoleMoves x).sioIn = s.sioIn := rfl
@[simp] theorem withRoleMoves_sioOut (x) : (s.withRoleMoves x).sioOut = s.sioOut := rfl
@[simp] theorem withRoleMoves_accCmd (x) : (s.withRoleMoves x).accCmd = s.accCmd := rfl
@[simp] theorem withRoleMoves_lb (x) : (s.withRoleMoves x).lb = s.lb := rfl
@[simp] theorem withRoleMoves_jtag (x) : (s.withRoleMoves x).jtag = s.jtag := rfl
@[simp] theorem withRoleMoves_boundary (x) : (s.withRoleMoves x).boundary = s.boundary := rfl

/-! ### What `withMbx` leaves -/

@[simp] theorem withMbx_pending (x) : (s.withMbx x).pending = s.pending := rfl
@[simp] theorem withMbx_tick (x) : (s.withMbx x).tick = s.tick := rfl
@[simp] theorem withMbx_free (x) : (s.withMbx x).free = s.free := rfl
@[simp] theorem withMbx_regs (x) : (s.withMbx x).regs = s.regs := rfl
@[simp] theorem withMbx_latch (x) : (s.withMbx x).latch = s.latch := rfl
@[simp] theorem withMbx_held (x) : (s.withMbx x).held = s.held := rfl
@[simp] theorem withMbx_mem (x) : (s.withMbx x).mem = s.mem := rfl
@[simp] theorem withMbx_lost (x) : (s.withMbx x).lost = s.lost := rfl
@[simp] theorem withMbx_g6Hot (x) : (s.withMbx x).g6Hot = s.g6Hot := rfl
@[simp] theorem withMbx_resp (x) : (s.withMbx x).resp = s.resp := rfl
@[simp] theorem withMbx_rdata (x) : (s.withMbx x).rdata = s.rdata := rfl
@[simp] theorem withMbx_evt (x) : (s.withMbx x).evt = s.evt := rfl
@[simp] theorem withMbx_vdBusy (x) : (s.withMbx x).vdBusy = s.vdBusy := rfl
@[simp] theorem withMbx_soutReq (x) : (s.withMbx x).soutReq = s.soutReq := rfl
@[simp] theorem withMbx_enabled (x) : (s.withMbx x).enabled = s.enabled := rfl
@[simp] theorem withMbx_ctxs (x) : (s.withMbx x).ctxs = s.ctxs := rfl
@[simp] theorem withMbx_accSeq (x) : (s.withMbx x).accSeq = s.accSeq := rfl
@[simp] theorem withMbx_verdict (x) : (s.withMbx x).verdict = s.verdict := rfl
@[simp] theorem withMbx_cin (x) : (s.withMbx x).cin = s.cin := rfl
@[simp] theorem withMbx_slots (x) : (s.withMbx x).slots = s.slots := rfl
@[simp] theorem withMbx_tx (x) : (s.withMbx x).tx = s.tx := rfl
@[simp] theorem withMbx_plibBad (x) : (s.withMbx x).plibBad = s.plibBad := rfl
@[simp] theorem withMbx_evOpen (x) : (s.withMbx x).evOpen = s.evOpen := rfl
@[simp] theorem withMbx_evSlots (x) : (s.withMbx x).evSlots = s.evSlots := rfl
@[simp] theorem withMbx_evTimer (x) : (s.withMbx x).evTimer = s.evTimer := rfl
@[simp] theorem withMbx_evTimerOn (x) : (s.withMbx x).evTimerOn = s.evTimerOn := rfl
@[simp] theorem withMbx_harts (x) : (s.withMbx x).harts = s.harts := rfl
@[simp] theorem withMbx_instret (x) : (s.withMbx x).instret = s.instret := rfl
@[simp] theorem withMbx_vp2 (x) : (s.withMbx x).vp2 = s.vp2 := rfl
@[simp] theorem withMbx_agParams (x) : (s.withMbx x).agParams = s.agParams := rfl
@[simp] theorem withMbx_gs (x) : (s.withMbx x).gs = s.gs := rfl
@[simp] theorem withMbx_since (x) : (s.withMbx x).since = s.since := rfl
@[simp] theorem withMbx_ct (x) : (s.withMbx x).ct = s.ct := rfl
@[simp] theorem withMbx_pairs (x) : (s.withMbx x).pairs = s.pairs := rfl
@[simp] theorem withMbx_roleMoves (x) : (s.withMbx x).roleMoves = s.roleMoves := rfl
@[simp] theorem withMbx_retFlag (x) : (s.withMbx x).retFlag = s.retFlag := rfl
@[simp] theorem withMbx_fc (x) : (s.withMbx x).fc = s.fc := rfl
@[simp] theorem withMbx_wd (x) : (s.withMbx x).wd = s.wd := rfl
@[simp] theorem withMbx_dma (x) : (s.withMbx x).dma = s.dma := rfl
@[simp] theorem withMbx_tm (x) : (s.withMbx x).tm = s.tm := rfl
@[simp] theorem withMbx_eth (x) : (s.withMbx x).eth = s.eth := rfl
@[simp] theorem withMbx_ibi (x) : (s.withMbx x).ibi = s.ibi := rfl
@[simp] theorem withMbx_i3c (x) : (s.withMbx x).i3c = s.i3c := rfl
@[simp] theorem withMbx_xsp (x) : (s.withMbx x).xsp = s.xsp := rfl
@[simp] theorem withMbx_hostIrq (x) : (s.withMbx x).hostIrq = s.hostIrq := rfl
@[simp] theorem withMbx_ml (x) : (s.withMbx x).ml = s.ml := rfl
@[simp] theorem withMbx_sec (x) : (s.withMbx x).sec = s.sec := rfl
@[simp] theorem withMbx_boot (x) : (s.withMbx x).boot = s.boot := rfl
@[simp] theorem withMbx_flash (x) : (s.withMbx x).flash = s.flash := rfl
@[simp] theorem withMbx_dieReset (x) : (s.withMbx x).dieReset = s.dieReset := rfl
@[simp] theorem withMbx_holds (x) : (s.withMbx x).holds = s.holds := rfl
@[simp] theorem withMbx_railsLow (x) : (s.withMbx x).railsLow = s.railsLow := rfl
@[simp] theorem withMbx_committed (x) : (s.withMbx x).committed = s.committed := rfl
@[simp] theorem withMbx_spsTick (x) : (s.withMbx x).spsTick = s.spsTick := rfl
@[simp] theorem withMbx_protect (x) : (s.withMbx x).protect = s.protect := rfl
@[simp] theorem withMbx_sioIn (x) : (s.withMbx x).sioIn = s.sioIn := rfl
@[simp] theorem withMbx_sioOut (x) : (s.withMbx x).sioOut = s.sioOut := rfl
@[simp] theorem withMbx_accCmd (x) : (s.withMbx x).accCmd = s.accCmd := rfl
@[simp] theorem withMbx_lb (x) : (s.withMbx x).lb = s.lb := rfl
@[simp] theorem withMbx_jtag (x) : (s.withMbx x).jtag = s.jtag := rfl
@[simp] theorem withMbx_boundary (x) : (s.withMbx x).boundary = s.boundary := rfl

/-! ### What `withRetFlag` leaves -/

@[simp] theorem withRetFlag_pending (x) : (s.withRetFlag x).pending = s.pending := rfl
@[simp] theorem withRetFlag_tick (x) : (s.withRetFlag x).tick = s.tick := rfl
@[simp] theorem withRetFlag_free (x) : (s.withRetFlag x).free = s.free := rfl
@[simp] theorem withRetFlag_regs (x) : (s.withRetFlag x).regs = s.regs := rfl
@[simp] theorem withRetFlag_latch (x) : (s.withRetFlag x).latch = s.latch := rfl
@[simp] theorem withRetFlag_held (x) : (s.withRetFlag x).held = s.held := rfl
@[simp] theorem withRetFlag_mem (x) : (s.withRetFlag x).mem = s.mem := rfl
@[simp] theorem withRetFlag_lost (x) : (s.withRetFlag x).lost = s.lost := rfl
@[simp] theorem withRetFlag_g6Hot (x) : (s.withRetFlag x).g6Hot = s.g6Hot := rfl
@[simp] theorem withRetFlag_resp (x) : (s.withRetFlag x).resp = s.resp := rfl
@[simp] theorem withRetFlag_rdata (x) : (s.withRetFlag x).rdata = s.rdata := rfl
@[simp] theorem withRetFlag_evt (x) : (s.withRetFlag x).evt = s.evt := rfl
@[simp] theorem withRetFlag_vdBusy (x) : (s.withRetFlag x).vdBusy = s.vdBusy := rfl
@[simp] theorem withRetFlag_soutReq (x) : (s.withRetFlag x).soutReq = s.soutReq := rfl
@[simp] theorem withRetFlag_enabled (x) : (s.withRetFlag x).enabled = s.enabled := rfl
@[simp] theorem withRetFlag_ctxs (x) : (s.withRetFlag x).ctxs = s.ctxs := rfl
@[simp] theorem withRetFlag_accSeq (x) : (s.withRetFlag x).accSeq = s.accSeq := rfl
@[simp] theorem withRetFlag_verdict (x) : (s.withRetFlag x).verdict = s.verdict := rfl
@[simp] theorem withRetFlag_cin (x) : (s.withRetFlag x).cin = s.cin := rfl
@[simp] theorem withRetFlag_slots (x) : (s.withRetFlag x).slots = s.slots := rfl
@[simp] theorem withRetFlag_tx (x) : (s.withRetFlag x).tx = s.tx := rfl
@[simp] theorem withRetFlag_plibBad (x) : (s.withRetFlag x).plibBad = s.plibBad := rfl
@[simp] theorem withRetFlag_evOpen (x) : (s.withRetFlag x).evOpen = s.evOpen := rfl
@[simp] theorem withRetFlag_evSlots (x) : (s.withRetFlag x).evSlots = s.evSlots := rfl
@[simp] theorem withRetFlag_evTimer (x) : (s.withRetFlag x).evTimer = s.evTimer := rfl
@[simp] theorem withRetFlag_evTimerOn (x) : (s.withRetFlag x).evTimerOn = s.evTimerOn := rfl
@[simp] theorem withRetFlag_harts (x) : (s.withRetFlag x).harts = s.harts := rfl
@[simp] theorem withRetFlag_instret (x) : (s.withRetFlag x).instret = s.instret := rfl
@[simp] theorem withRetFlag_vp2 (x) : (s.withRetFlag x).vp2 = s.vp2 := rfl
@[simp] theorem withRetFlag_agParams (x) : (s.withRetFlag x).agParams = s.agParams := rfl
@[simp] theorem withRetFlag_gs (x) : (s.withRetFlag x).gs = s.gs := rfl
@[simp] theorem withRetFlag_since (x) : (s.withRetFlag x).since = s.since := rfl
@[simp] theorem withRetFlag_ct (x) : (s.withRetFlag x).ct = s.ct := rfl
@[simp] theorem withRetFlag_pairs (x) : (s.withRetFlag x).pairs = s.pairs := rfl
@[simp] theorem withRetFlag_roleMoves (x) : (s.withRetFlag x).roleMoves = s.roleMoves := rfl
@[simp] theorem withRetFlag_mbx (x) : (s.withRetFlag x).mbx = s.mbx := rfl
@[simp] theorem withRetFlag_fc (x) : (s.withRetFlag x).fc = s.fc := rfl
@[simp] theorem withRetFlag_wd (x) : (s.withRetFlag x).wd = s.wd := rfl
@[simp] theorem withRetFlag_dma (x) : (s.withRetFlag x).dma = s.dma := rfl
@[simp] theorem withRetFlag_tm (x) : (s.withRetFlag x).tm = s.tm := rfl
@[simp] theorem withRetFlag_eth (x) : (s.withRetFlag x).eth = s.eth := rfl
@[simp] theorem withRetFlag_ibi (x) : (s.withRetFlag x).ibi = s.ibi := rfl
@[simp] theorem withRetFlag_i3c (x) : (s.withRetFlag x).i3c = s.i3c := rfl
@[simp] theorem withRetFlag_xsp (x) : (s.withRetFlag x).xsp = s.xsp := rfl
@[simp] theorem withRetFlag_hostIrq (x) : (s.withRetFlag x).hostIrq = s.hostIrq := rfl
@[simp] theorem withRetFlag_ml (x) : (s.withRetFlag x).ml = s.ml := rfl
@[simp] theorem withRetFlag_sec (x) : (s.withRetFlag x).sec = s.sec := rfl
@[simp] theorem withRetFlag_boot (x) : (s.withRetFlag x).boot = s.boot := rfl
@[simp] theorem withRetFlag_flash (x) : (s.withRetFlag x).flash = s.flash := rfl
@[simp] theorem withRetFlag_dieReset (x) : (s.withRetFlag x).dieReset = s.dieReset := rfl
@[simp] theorem withRetFlag_holds (x) : (s.withRetFlag x).holds = s.holds := rfl
@[simp] theorem withRetFlag_railsLow (x) : (s.withRetFlag x).railsLow = s.railsLow := rfl
@[simp] theorem withRetFlag_committed (x) : (s.withRetFlag x).committed = s.committed := rfl
@[simp] theorem withRetFlag_spsTick (x) : (s.withRetFlag x).spsTick = s.spsTick := rfl
@[simp] theorem withRetFlag_protect (x) : (s.withRetFlag x).protect = s.protect := rfl
@[simp] theorem withRetFlag_sioIn (x) : (s.withRetFlag x).sioIn = s.sioIn := rfl
@[simp] theorem withRetFlag_sioOut (x) : (s.withRetFlag x).sioOut = s.sioOut := rfl
@[simp] theorem withRetFlag_accCmd (x) : (s.withRetFlag x).accCmd = s.accCmd := rfl
@[simp] theorem withRetFlag_lb (x) : (s.withRetFlag x).lb = s.lb := rfl
@[simp] theorem withRetFlag_jtag (x) : (s.withRetFlag x).jtag = s.jtag := rfl
@[simp] theorem withRetFlag_boundary (x) : (s.withRetFlag x).boundary = s.boundary := rfl

/-! ### What `withFc` leaves -/

@[simp] theorem withFc_pending (x) : (s.withFc x).pending = s.pending := rfl
@[simp] theorem withFc_tick (x) : (s.withFc x).tick = s.tick := rfl
@[simp] theorem withFc_free (x) : (s.withFc x).free = s.free := rfl
@[simp] theorem withFc_regs (x) : (s.withFc x).regs = s.regs := rfl
@[simp] theorem withFc_latch (x) : (s.withFc x).latch = s.latch := rfl
@[simp] theorem withFc_held (x) : (s.withFc x).held = s.held := rfl
@[simp] theorem withFc_mem (x) : (s.withFc x).mem = s.mem := rfl
@[simp] theorem withFc_lost (x) : (s.withFc x).lost = s.lost := rfl
@[simp] theorem withFc_g6Hot (x) : (s.withFc x).g6Hot = s.g6Hot := rfl
@[simp] theorem withFc_resp (x) : (s.withFc x).resp = s.resp := rfl
@[simp] theorem withFc_rdata (x) : (s.withFc x).rdata = s.rdata := rfl
@[simp] theorem withFc_evt (x) : (s.withFc x).evt = s.evt := rfl
@[simp] theorem withFc_vdBusy (x) : (s.withFc x).vdBusy = s.vdBusy := rfl
@[simp] theorem withFc_soutReq (x) : (s.withFc x).soutReq = s.soutReq := rfl
@[simp] theorem withFc_enabled (x) : (s.withFc x).enabled = s.enabled := rfl
@[simp] theorem withFc_ctxs (x) : (s.withFc x).ctxs = s.ctxs := rfl
@[simp] theorem withFc_accSeq (x) : (s.withFc x).accSeq = s.accSeq := rfl
@[simp] theorem withFc_verdict (x) : (s.withFc x).verdict = s.verdict := rfl
@[simp] theorem withFc_cin (x) : (s.withFc x).cin = s.cin := rfl
@[simp] theorem withFc_slots (x) : (s.withFc x).slots = s.slots := rfl
@[simp] theorem withFc_tx (x) : (s.withFc x).tx = s.tx := rfl
@[simp] theorem withFc_plibBad (x) : (s.withFc x).plibBad = s.plibBad := rfl
@[simp] theorem withFc_evOpen (x) : (s.withFc x).evOpen = s.evOpen := rfl
@[simp] theorem withFc_evSlots (x) : (s.withFc x).evSlots = s.evSlots := rfl
@[simp] theorem withFc_evTimer (x) : (s.withFc x).evTimer = s.evTimer := rfl
@[simp] theorem withFc_evTimerOn (x) : (s.withFc x).evTimerOn = s.evTimerOn := rfl
@[simp] theorem withFc_harts (x) : (s.withFc x).harts = s.harts := rfl
@[simp] theorem withFc_instret (x) : (s.withFc x).instret = s.instret := rfl
@[simp] theorem withFc_vp2 (x) : (s.withFc x).vp2 = s.vp2 := rfl
@[simp] theorem withFc_agParams (x) : (s.withFc x).agParams = s.agParams := rfl
@[simp] theorem withFc_gs (x) : (s.withFc x).gs = s.gs := rfl
@[simp] theorem withFc_since (x) : (s.withFc x).since = s.since := rfl
@[simp] theorem withFc_ct (x) : (s.withFc x).ct = s.ct := rfl
@[simp] theorem withFc_pairs (x) : (s.withFc x).pairs = s.pairs := rfl
@[simp] theorem withFc_roleMoves (x) : (s.withFc x).roleMoves = s.roleMoves := rfl
@[simp] theorem withFc_mbx (x) : (s.withFc x).mbx = s.mbx := rfl
@[simp] theorem withFc_retFlag (x) : (s.withFc x).retFlag = s.retFlag := rfl
@[simp] theorem withFc_wd (x) : (s.withFc x).wd = s.wd := rfl
@[simp] theorem withFc_dma (x) : (s.withFc x).dma = s.dma := rfl
@[simp] theorem withFc_tm (x) : (s.withFc x).tm = s.tm := rfl
@[simp] theorem withFc_eth (x) : (s.withFc x).eth = s.eth := rfl
@[simp] theorem withFc_ibi (x) : (s.withFc x).ibi = s.ibi := rfl
@[simp] theorem withFc_i3c (x) : (s.withFc x).i3c = s.i3c := rfl
@[simp] theorem withFc_xsp (x) : (s.withFc x).xsp = s.xsp := rfl
@[simp] theorem withFc_hostIrq (x) : (s.withFc x).hostIrq = s.hostIrq := rfl
@[simp] theorem withFc_ml (x) : (s.withFc x).ml = s.ml := rfl
@[simp] theorem withFc_sec (x) : (s.withFc x).sec = s.sec := rfl
@[simp] theorem withFc_boot (x) : (s.withFc x).boot = s.boot := rfl
@[simp] theorem withFc_flash (x) : (s.withFc x).flash = s.flash := rfl
@[simp] theorem withFc_dieReset (x) : (s.withFc x).dieReset = s.dieReset := rfl
@[simp] theorem withFc_holds (x) : (s.withFc x).holds = s.holds := rfl
@[simp] theorem withFc_railsLow (x) : (s.withFc x).railsLow = s.railsLow := rfl
@[simp] theorem withFc_committed (x) : (s.withFc x).committed = s.committed := rfl
@[simp] theorem withFc_spsTick (x) : (s.withFc x).spsTick = s.spsTick := rfl
@[simp] theorem withFc_protect (x) : (s.withFc x).protect = s.protect := rfl
@[simp] theorem withFc_sioIn (x) : (s.withFc x).sioIn = s.sioIn := rfl
@[simp] theorem withFc_sioOut (x) : (s.withFc x).sioOut = s.sioOut := rfl
@[simp] theorem withFc_accCmd (x) : (s.withFc x).accCmd = s.accCmd := rfl
@[simp] theorem withFc_lb (x) : (s.withFc x).lb = s.lb := rfl
@[simp] theorem withFc_jtag (x) : (s.withFc x).jtag = s.jtag := rfl
@[simp] theorem withFc_boundary (x) : (s.withFc x).boundary = s.boundary := rfl

/-! ### What `withWd` leaves -/

@[simp] theorem withWd_pending (x) : (s.withWd x).pending = s.pending := rfl
@[simp] theorem withWd_tick (x) : (s.withWd x).tick = s.tick := rfl
@[simp] theorem withWd_free (x) : (s.withWd x).free = s.free := rfl
@[simp] theorem withWd_regs (x) : (s.withWd x).regs = s.regs := rfl
@[simp] theorem withWd_latch (x) : (s.withWd x).latch = s.latch := rfl
@[simp] theorem withWd_held (x) : (s.withWd x).held = s.held := rfl
@[simp] theorem withWd_mem (x) : (s.withWd x).mem = s.mem := rfl
@[simp] theorem withWd_lost (x) : (s.withWd x).lost = s.lost := rfl
@[simp] theorem withWd_g6Hot (x) : (s.withWd x).g6Hot = s.g6Hot := rfl
@[simp] theorem withWd_resp (x) : (s.withWd x).resp = s.resp := rfl
@[simp] theorem withWd_rdata (x) : (s.withWd x).rdata = s.rdata := rfl
@[simp] theorem withWd_evt (x) : (s.withWd x).evt = s.evt := rfl
@[simp] theorem withWd_vdBusy (x) : (s.withWd x).vdBusy = s.vdBusy := rfl
@[simp] theorem withWd_soutReq (x) : (s.withWd x).soutReq = s.soutReq := rfl
@[simp] theorem withWd_enabled (x) : (s.withWd x).enabled = s.enabled := rfl
@[simp] theorem withWd_ctxs (x) : (s.withWd x).ctxs = s.ctxs := rfl
@[simp] theorem withWd_accSeq (x) : (s.withWd x).accSeq = s.accSeq := rfl
@[simp] theorem withWd_verdict (x) : (s.withWd x).verdict = s.verdict := rfl
@[simp] theorem withWd_cin (x) : (s.withWd x).cin = s.cin := rfl
@[simp] theorem withWd_slots (x) : (s.withWd x).slots = s.slots := rfl
@[simp] theorem withWd_tx (x) : (s.withWd x).tx = s.tx := rfl
@[simp] theorem withWd_plibBad (x) : (s.withWd x).plibBad = s.plibBad := rfl
@[simp] theorem withWd_evOpen (x) : (s.withWd x).evOpen = s.evOpen := rfl
@[simp] theorem withWd_evSlots (x) : (s.withWd x).evSlots = s.evSlots := rfl
@[simp] theorem withWd_evTimer (x) : (s.withWd x).evTimer = s.evTimer := rfl
@[simp] theorem withWd_evTimerOn (x) : (s.withWd x).evTimerOn = s.evTimerOn := rfl
@[simp] theorem withWd_harts (x) : (s.withWd x).harts = s.harts := rfl
@[simp] theorem withWd_instret (x) : (s.withWd x).instret = s.instret := rfl
@[simp] theorem withWd_vp2 (x) : (s.withWd x).vp2 = s.vp2 := rfl
@[simp] theorem withWd_agParams (x) : (s.withWd x).agParams = s.agParams := rfl
@[simp] theorem withWd_gs (x) : (s.withWd x).gs = s.gs := rfl
@[simp] theorem withWd_since (x) : (s.withWd x).since = s.since := rfl
@[simp] theorem withWd_ct (x) : (s.withWd x).ct = s.ct := rfl
@[simp] theorem withWd_pairs (x) : (s.withWd x).pairs = s.pairs := rfl
@[simp] theorem withWd_roleMoves (x) : (s.withWd x).roleMoves = s.roleMoves := rfl
@[simp] theorem withWd_mbx (x) : (s.withWd x).mbx = s.mbx := rfl
@[simp] theorem withWd_retFlag (x) : (s.withWd x).retFlag = s.retFlag := rfl
@[simp] theorem withWd_fc (x) : (s.withWd x).fc = s.fc := rfl
@[simp] theorem withWd_dma (x) : (s.withWd x).dma = s.dma := rfl
@[simp] theorem withWd_tm (x) : (s.withWd x).tm = s.tm := rfl
@[simp] theorem withWd_eth (x) : (s.withWd x).eth = s.eth := rfl
@[simp] theorem withWd_ibi (x) : (s.withWd x).ibi = s.ibi := rfl
@[simp] theorem withWd_i3c (x) : (s.withWd x).i3c = s.i3c := rfl
@[simp] theorem withWd_xsp (x) : (s.withWd x).xsp = s.xsp := rfl
@[simp] theorem withWd_hostIrq (x) : (s.withWd x).hostIrq = s.hostIrq := rfl
@[simp] theorem withWd_ml (x) : (s.withWd x).ml = s.ml := rfl
@[simp] theorem withWd_sec (x) : (s.withWd x).sec = s.sec := rfl
@[simp] theorem withWd_boot (x) : (s.withWd x).boot = s.boot := rfl
@[simp] theorem withWd_flash (x) : (s.withWd x).flash = s.flash := rfl
@[simp] theorem withWd_dieReset (x) : (s.withWd x).dieReset = s.dieReset := rfl
@[simp] theorem withWd_holds (x) : (s.withWd x).holds = s.holds := rfl
@[simp] theorem withWd_railsLow (x) : (s.withWd x).railsLow = s.railsLow := rfl
@[simp] theorem withWd_committed (x) : (s.withWd x).committed = s.committed := rfl
@[simp] theorem withWd_spsTick (x) : (s.withWd x).spsTick = s.spsTick := rfl
@[simp] theorem withWd_protect (x) : (s.withWd x).protect = s.protect := rfl
@[simp] theorem withWd_sioIn (x) : (s.withWd x).sioIn = s.sioIn := rfl
@[simp] theorem withWd_sioOut (x) : (s.withWd x).sioOut = s.sioOut := rfl
@[simp] theorem withWd_accCmd (x) : (s.withWd x).accCmd = s.accCmd := rfl
@[simp] theorem withWd_lb (x) : (s.withWd x).lb = s.lb := rfl
@[simp] theorem withWd_jtag (x) : (s.withWd x).jtag = s.jtag := rfl
@[simp] theorem withWd_boundary (x) : (s.withWd x).boundary = s.boundary := rfl

/-! ### What `withDma` leaves -/

@[simp] theorem withDma_pending (x) : (s.withDma x).pending = s.pending := rfl
@[simp] theorem withDma_tick (x) : (s.withDma x).tick = s.tick := rfl
@[simp] theorem withDma_free (x) : (s.withDma x).free = s.free := rfl
@[simp] theorem withDma_regs (x) : (s.withDma x).regs = s.regs := rfl
@[simp] theorem withDma_latch (x) : (s.withDma x).latch = s.latch := rfl
@[simp] theorem withDma_held (x) : (s.withDma x).held = s.held := rfl
@[simp] theorem withDma_mem (x) : (s.withDma x).mem = s.mem := rfl
@[simp] theorem withDma_lost (x) : (s.withDma x).lost = s.lost := rfl
@[simp] theorem withDma_g6Hot (x) : (s.withDma x).g6Hot = s.g6Hot := rfl
@[simp] theorem withDma_resp (x) : (s.withDma x).resp = s.resp := rfl
@[simp] theorem withDma_rdata (x) : (s.withDma x).rdata = s.rdata := rfl
@[simp] theorem withDma_evt (x) : (s.withDma x).evt = s.evt := rfl
@[simp] theorem withDma_vdBusy (x) : (s.withDma x).vdBusy = s.vdBusy := rfl
@[simp] theorem withDma_soutReq (x) : (s.withDma x).soutReq = s.soutReq := rfl
@[simp] theorem withDma_enabled (x) : (s.withDma x).enabled = s.enabled := rfl
@[simp] theorem withDma_ctxs (x) : (s.withDma x).ctxs = s.ctxs := rfl
@[simp] theorem withDma_accSeq (x) : (s.withDma x).accSeq = s.accSeq := rfl
@[simp] theorem withDma_verdict (x) : (s.withDma x).verdict = s.verdict := rfl
@[simp] theorem withDma_cin (x) : (s.withDma x).cin = s.cin := rfl
@[simp] theorem withDma_slots (x) : (s.withDma x).slots = s.slots := rfl
@[simp] theorem withDma_tx (x) : (s.withDma x).tx = s.tx := rfl
@[simp] theorem withDma_plibBad (x) : (s.withDma x).plibBad = s.plibBad := rfl
@[simp] theorem withDma_evOpen (x) : (s.withDma x).evOpen = s.evOpen := rfl
@[simp] theorem withDma_evSlots (x) : (s.withDma x).evSlots = s.evSlots := rfl
@[simp] theorem withDma_evTimer (x) : (s.withDma x).evTimer = s.evTimer := rfl
@[simp] theorem withDma_evTimerOn (x) : (s.withDma x).evTimerOn = s.evTimerOn := rfl
@[simp] theorem withDma_harts (x) : (s.withDma x).harts = s.harts := rfl
@[simp] theorem withDma_instret (x) : (s.withDma x).instret = s.instret := rfl
@[simp] theorem withDma_vp2 (x) : (s.withDma x).vp2 = s.vp2 := rfl
@[simp] theorem withDma_agParams (x) : (s.withDma x).agParams = s.agParams := rfl
@[simp] theorem withDma_gs (x) : (s.withDma x).gs = s.gs := rfl
@[simp] theorem withDma_since (x) : (s.withDma x).since = s.since := rfl
@[simp] theorem withDma_ct (x) : (s.withDma x).ct = s.ct := rfl
@[simp] theorem withDma_pairs (x) : (s.withDma x).pairs = s.pairs := rfl
@[simp] theorem withDma_roleMoves (x) : (s.withDma x).roleMoves = s.roleMoves := rfl
@[simp] theorem withDma_mbx (x) : (s.withDma x).mbx = s.mbx := rfl
@[simp] theorem withDma_retFlag (x) : (s.withDma x).retFlag = s.retFlag := rfl
@[simp] theorem withDma_fc (x) : (s.withDma x).fc = s.fc := rfl
@[simp] theorem withDma_wd (x) : (s.withDma x).wd = s.wd := rfl
@[simp] theorem withDma_tm (x) : (s.withDma x).tm = s.tm := rfl
@[simp] theorem withDma_eth (x) : (s.withDma x).eth = s.eth := rfl
@[simp] theorem withDma_ibi (x) : (s.withDma x).ibi = s.ibi := rfl
@[simp] theorem withDma_i3c (x) : (s.withDma x).i3c = s.i3c := rfl
@[simp] theorem withDma_xsp (x) : (s.withDma x).xsp = s.xsp := rfl
@[simp] theorem withDma_hostIrq (x) : (s.withDma x).hostIrq = s.hostIrq := rfl
@[simp] theorem withDma_ml (x) : (s.withDma x).ml = s.ml := rfl
@[simp] theorem withDma_sec (x) : (s.withDma x).sec = s.sec := rfl
@[simp] theorem withDma_boot (x) : (s.withDma x).boot = s.boot := rfl
@[simp] theorem withDma_flash (x) : (s.withDma x).flash = s.flash := rfl
@[simp] theorem withDma_dieReset (x) : (s.withDma x).dieReset = s.dieReset := rfl
@[simp] theorem withDma_holds (x) : (s.withDma x).holds = s.holds := rfl
@[simp] theorem withDma_railsLow (x) : (s.withDma x).railsLow = s.railsLow := rfl
@[simp] theorem withDma_committed (x) : (s.withDma x).committed = s.committed := rfl
@[simp] theorem withDma_spsTick (x) : (s.withDma x).spsTick = s.spsTick := rfl
@[simp] theorem withDma_protect (x) : (s.withDma x).protect = s.protect := rfl
@[simp] theorem withDma_sioIn (x) : (s.withDma x).sioIn = s.sioIn := rfl
@[simp] theorem withDma_sioOut (x) : (s.withDma x).sioOut = s.sioOut := rfl
@[simp] theorem withDma_accCmd (x) : (s.withDma x).accCmd = s.accCmd := rfl
@[simp] theorem withDma_lb (x) : (s.withDma x).lb = s.lb := rfl
@[simp] theorem withDma_jtag (x) : (s.withDma x).jtag = s.jtag := rfl
@[simp] theorem withDma_boundary (x) : (s.withDma x).boundary = s.boundary := rfl

/-! ### What `withTm` leaves -/

@[simp] theorem withTm_pending (x) : (s.withTm x).pending = s.pending := rfl
@[simp] theorem withTm_tick (x) : (s.withTm x).tick = s.tick := rfl
@[simp] theorem withTm_free (x) : (s.withTm x).free = s.free := rfl
@[simp] theorem withTm_regs (x) : (s.withTm x).regs = s.regs := rfl
@[simp] theorem withTm_latch (x) : (s.withTm x).latch = s.latch := rfl
@[simp] theorem withTm_held (x) : (s.withTm x).held = s.held := rfl
@[simp] theorem withTm_mem (x) : (s.withTm x).mem = s.mem := rfl
@[simp] theorem withTm_lost (x) : (s.withTm x).lost = s.lost := rfl
@[simp] theorem withTm_g6Hot (x) : (s.withTm x).g6Hot = s.g6Hot := rfl
@[simp] theorem withTm_resp (x) : (s.withTm x).resp = s.resp := rfl
@[simp] theorem withTm_rdata (x) : (s.withTm x).rdata = s.rdata := rfl
@[simp] theorem withTm_evt (x) : (s.withTm x).evt = s.evt := rfl
@[simp] theorem withTm_vdBusy (x) : (s.withTm x).vdBusy = s.vdBusy := rfl
@[simp] theorem withTm_soutReq (x) : (s.withTm x).soutReq = s.soutReq := rfl
@[simp] theorem withTm_enabled (x) : (s.withTm x).enabled = s.enabled := rfl
@[simp] theorem withTm_ctxs (x) : (s.withTm x).ctxs = s.ctxs := rfl
@[simp] theorem withTm_accSeq (x) : (s.withTm x).accSeq = s.accSeq := rfl
@[simp] theorem withTm_verdict (x) : (s.withTm x).verdict = s.verdict := rfl
@[simp] theorem withTm_cin (x) : (s.withTm x).cin = s.cin := rfl
@[simp] theorem withTm_slots (x) : (s.withTm x).slots = s.slots := rfl
@[simp] theorem withTm_tx (x) : (s.withTm x).tx = s.tx := rfl
@[simp] theorem withTm_plibBad (x) : (s.withTm x).plibBad = s.plibBad := rfl
@[simp] theorem withTm_evOpen (x) : (s.withTm x).evOpen = s.evOpen := rfl
@[simp] theorem withTm_evSlots (x) : (s.withTm x).evSlots = s.evSlots := rfl
@[simp] theorem withTm_evTimer (x) : (s.withTm x).evTimer = s.evTimer := rfl
@[simp] theorem withTm_evTimerOn (x) : (s.withTm x).evTimerOn = s.evTimerOn := rfl
@[simp] theorem withTm_harts (x) : (s.withTm x).harts = s.harts := rfl
@[simp] theorem withTm_instret (x) : (s.withTm x).instret = s.instret := rfl
@[simp] theorem withTm_vp2 (x) : (s.withTm x).vp2 = s.vp2 := rfl
@[simp] theorem withTm_agParams (x) : (s.withTm x).agParams = s.agParams := rfl
@[simp] theorem withTm_gs (x) : (s.withTm x).gs = s.gs := rfl
@[simp] theorem withTm_since (x) : (s.withTm x).since = s.since := rfl
@[simp] theorem withTm_ct (x) : (s.withTm x).ct = s.ct := rfl
@[simp] theorem withTm_pairs (x) : (s.withTm x).pairs = s.pairs := rfl
@[simp] theorem withTm_roleMoves (x) : (s.withTm x).roleMoves = s.roleMoves := rfl
@[simp] theorem withTm_mbx (x) : (s.withTm x).mbx = s.mbx := rfl
@[simp] theorem withTm_retFlag (x) : (s.withTm x).retFlag = s.retFlag := rfl
@[simp] theorem withTm_fc (x) : (s.withTm x).fc = s.fc := rfl
@[simp] theorem withTm_wd (x) : (s.withTm x).wd = s.wd := rfl
@[simp] theorem withTm_dma (x) : (s.withTm x).dma = s.dma := rfl
@[simp] theorem withTm_eth (x) : (s.withTm x).eth = s.eth := rfl
@[simp] theorem withTm_ibi (x) : (s.withTm x).ibi = s.ibi := rfl
@[simp] theorem withTm_i3c (x) : (s.withTm x).i3c = s.i3c := rfl
@[simp] theorem withTm_xsp (x) : (s.withTm x).xsp = s.xsp := rfl
@[simp] theorem withTm_hostIrq (x) : (s.withTm x).hostIrq = s.hostIrq := rfl
@[simp] theorem withTm_ml (x) : (s.withTm x).ml = s.ml := rfl
@[simp] theorem withTm_sec (x) : (s.withTm x).sec = s.sec := rfl
@[simp] theorem withTm_boot (x) : (s.withTm x).boot = s.boot := rfl
@[simp] theorem withTm_flash (x) : (s.withTm x).flash = s.flash := rfl
@[simp] theorem withTm_dieReset (x) : (s.withTm x).dieReset = s.dieReset := rfl
@[simp] theorem withTm_holds (x) : (s.withTm x).holds = s.holds := rfl
@[simp] theorem withTm_railsLow (x) : (s.withTm x).railsLow = s.railsLow := rfl
@[simp] theorem withTm_committed (x) : (s.withTm x).committed = s.committed := rfl
@[simp] theorem withTm_spsTick (x) : (s.withTm x).spsTick = s.spsTick := rfl
@[simp] theorem withTm_protect (x) : (s.withTm x).protect = s.protect := rfl
@[simp] theorem withTm_sioIn (x) : (s.withTm x).sioIn = s.sioIn := rfl
@[simp] theorem withTm_sioOut (x) : (s.withTm x).sioOut = s.sioOut := rfl
@[simp] theorem withTm_accCmd (x) : (s.withTm x).accCmd = s.accCmd := rfl
@[simp] theorem withTm_lb (x) : (s.withTm x).lb = s.lb := rfl
@[simp] theorem withTm_jtag (x) : (s.withTm x).jtag = s.jtag := rfl
@[simp] theorem withTm_boundary (x) : (s.withTm x).boundary = s.boundary := rfl

/-! ### What `withEth` leaves -/

@[simp] theorem withEth_pending (x) : (s.withEth x).pending = s.pending := rfl
@[simp] theorem withEth_tick (x) : (s.withEth x).tick = s.tick := rfl
@[simp] theorem withEth_free (x) : (s.withEth x).free = s.free := rfl
@[simp] theorem withEth_regs (x) : (s.withEth x).regs = s.regs := rfl
@[simp] theorem withEth_latch (x) : (s.withEth x).latch = s.latch := rfl
@[simp] theorem withEth_held (x) : (s.withEth x).held = s.held := rfl
@[simp] theorem withEth_mem (x) : (s.withEth x).mem = s.mem := rfl
@[simp] theorem withEth_lost (x) : (s.withEth x).lost = s.lost := rfl
@[simp] theorem withEth_g6Hot (x) : (s.withEth x).g6Hot = s.g6Hot := rfl
@[simp] theorem withEth_resp (x) : (s.withEth x).resp = s.resp := rfl
@[simp] theorem withEth_rdata (x) : (s.withEth x).rdata = s.rdata := rfl
@[simp] theorem withEth_evt (x) : (s.withEth x).evt = s.evt := rfl
@[simp] theorem withEth_vdBusy (x) : (s.withEth x).vdBusy = s.vdBusy := rfl
@[simp] theorem withEth_soutReq (x) : (s.withEth x).soutReq = s.soutReq := rfl
@[simp] theorem withEth_enabled (x) : (s.withEth x).enabled = s.enabled := rfl
@[simp] theorem withEth_ctxs (x) : (s.withEth x).ctxs = s.ctxs := rfl
@[simp] theorem withEth_accSeq (x) : (s.withEth x).accSeq = s.accSeq := rfl
@[simp] theorem withEth_verdict (x) : (s.withEth x).verdict = s.verdict := rfl
@[simp] theorem withEth_cin (x) : (s.withEth x).cin = s.cin := rfl
@[simp] theorem withEth_slots (x) : (s.withEth x).slots = s.slots := rfl
@[simp] theorem withEth_tx (x) : (s.withEth x).tx = s.tx := rfl
@[simp] theorem withEth_plibBad (x) : (s.withEth x).plibBad = s.plibBad := rfl
@[simp] theorem withEth_evOpen (x) : (s.withEth x).evOpen = s.evOpen := rfl
@[simp] theorem withEth_evSlots (x) : (s.withEth x).evSlots = s.evSlots := rfl
@[simp] theorem withEth_evTimer (x) : (s.withEth x).evTimer = s.evTimer := rfl
@[simp] theorem withEth_evTimerOn (x) : (s.withEth x).evTimerOn = s.evTimerOn := rfl
@[simp] theorem withEth_harts (x) : (s.withEth x).harts = s.harts := rfl
@[simp] theorem withEth_instret (x) : (s.withEth x).instret = s.instret := rfl
@[simp] theorem withEth_vp2 (x) : (s.withEth x).vp2 = s.vp2 := rfl
@[simp] theorem withEth_agParams (x) : (s.withEth x).agParams = s.agParams := rfl
@[simp] theorem withEth_gs (x) : (s.withEth x).gs = s.gs := rfl
@[simp] theorem withEth_since (x) : (s.withEth x).since = s.since := rfl
@[simp] theorem withEth_ct (x) : (s.withEth x).ct = s.ct := rfl
@[simp] theorem withEth_pairs (x) : (s.withEth x).pairs = s.pairs := rfl
@[simp] theorem withEth_roleMoves (x) : (s.withEth x).roleMoves = s.roleMoves := rfl
@[simp] theorem withEth_mbx (x) : (s.withEth x).mbx = s.mbx := rfl
@[simp] theorem withEth_retFlag (x) : (s.withEth x).retFlag = s.retFlag := rfl
@[simp] theorem withEth_fc (x) : (s.withEth x).fc = s.fc := rfl
@[simp] theorem withEth_wd (x) : (s.withEth x).wd = s.wd := rfl
@[simp] theorem withEth_dma (x) : (s.withEth x).dma = s.dma := rfl
@[simp] theorem withEth_tm (x) : (s.withEth x).tm = s.tm := rfl
@[simp] theorem withEth_ibi (x) : (s.withEth x).ibi = s.ibi := rfl
@[simp] theorem withEth_i3c (x) : (s.withEth x).i3c = s.i3c := rfl
@[simp] theorem withEth_xsp (x) : (s.withEth x).xsp = s.xsp := rfl
@[simp] theorem withEth_hostIrq (x) : (s.withEth x).hostIrq = s.hostIrq := rfl
@[simp] theorem withEth_ml (x) : (s.withEth x).ml = s.ml := rfl
@[simp] theorem withEth_sec (x) : (s.withEth x).sec = s.sec := rfl
@[simp] theorem withEth_boot (x) : (s.withEth x).boot = s.boot := rfl
@[simp] theorem withEth_flash (x) : (s.withEth x).flash = s.flash := rfl
@[simp] theorem withEth_dieReset (x) : (s.withEth x).dieReset = s.dieReset := rfl
@[simp] theorem withEth_holds (x) : (s.withEth x).holds = s.holds := rfl
@[simp] theorem withEth_railsLow (x) : (s.withEth x).railsLow = s.railsLow := rfl
@[simp] theorem withEth_committed (x) : (s.withEth x).committed = s.committed := rfl
@[simp] theorem withEth_spsTick (x) : (s.withEth x).spsTick = s.spsTick := rfl
@[simp] theorem withEth_protect (x) : (s.withEth x).protect = s.protect := rfl
@[simp] theorem withEth_sioIn (x) : (s.withEth x).sioIn = s.sioIn := rfl
@[simp] theorem withEth_sioOut (x) : (s.withEth x).sioOut = s.sioOut := rfl
@[simp] theorem withEth_accCmd (x) : (s.withEth x).accCmd = s.accCmd := rfl
@[simp] theorem withEth_lb (x) : (s.withEth x).lb = s.lb := rfl
@[simp] theorem withEth_jtag (x) : (s.withEth x).jtag = s.jtag := rfl
@[simp] theorem withEth_boundary (x) : (s.withEth x).boundary = s.boundary := rfl

/-! ### What `withIbi` leaves -/

@[simp] theorem withIbi_pending (x) : (s.withIbi x).pending = s.pending := rfl
@[simp] theorem withIbi_tick (x) : (s.withIbi x).tick = s.tick := rfl
@[simp] theorem withIbi_free (x) : (s.withIbi x).free = s.free := rfl
@[simp] theorem withIbi_regs (x) : (s.withIbi x).regs = s.regs := rfl
@[simp] theorem withIbi_latch (x) : (s.withIbi x).latch = s.latch := rfl
@[simp] theorem withIbi_held (x) : (s.withIbi x).held = s.held := rfl
@[simp] theorem withIbi_mem (x) : (s.withIbi x).mem = s.mem := rfl
@[simp] theorem withIbi_lost (x) : (s.withIbi x).lost = s.lost := rfl
@[simp] theorem withIbi_g6Hot (x) : (s.withIbi x).g6Hot = s.g6Hot := rfl
@[simp] theorem withIbi_resp (x) : (s.withIbi x).resp = s.resp := rfl
@[simp] theorem withIbi_rdata (x) : (s.withIbi x).rdata = s.rdata := rfl
@[simp] theorem withIbi_evt (x) : (s.withIbi x).evt = s.evt := rfl
@[simp] theorem withIbi_vdBusy (x) : (s.withIbi x).vdBusy = s.vdBusy := rfl
@[simp] theorem withIbi_soutReq (x) : (s.withIbi x).soutReq = s.soutReq := rfl
@[simp] theorem withIbi_enabled (x) : (s.withIbi x).enabled = s.enabled := rfl
@[simp] theorem withIbi_ctxs (x) : (s.withIbi x).ctxs = s.ctxs := rfl
@[simp] theorem withIbi_accSeq (x) : (s.withIbi x).accSeq = s.accSeq := rfl
@[simp] theorem withIbi_verdict (x) : (s.withIbi x).verdict = s.verdict := rfl
@[simp] theorem withIbi_cin (x) : (s.withIbi x).cin = s.cin := rfl
@[simp] theorem withIbi_slots (x) : (s.withIbi x).slots = s.slots := rfl
@[simp] theorem withIbi_tx (x) : (s.withIbi x).tx = s.tx := rfl
@[simp] theorem withIbi_plibBad (x) : (s.withIbi x).plibBad = s.plibBad := rfl
@[simp] theorem withIbi_evOpen (x) : (s.withIbi x).evOpen = s.evOpen := rfl
@[simp] theorem withIbi_evSlots (x) : (s.withIbi x).evSlots = s.evSlots := rfl
@[simp] theorem withIbi_evTimer (x) : (s.withIbi x).evTimer = s.evTimer := rfl
@[simp] theorem withIbi_evTimerOn (x) : (s.withIbi x).evTimerOn = s.evTimerOn := rfl
@[simp] theorem withIbi_harts (x) : (s.withIbi x).harts = s.harts := rfl
@[simp] theorem withIbi_instret (x) : (s.withIbi x).instret = s.instret := rfl
@[simp] theorem withIbi_vp2 (x) : (s.withIbi x).vp2 = s.vp2 := rfl
@[simp] theorem withIbi_agParams (x) : (s.withIbi x).agParams = s.agParams := rfl
@[simp] theorem withIbi_gs (x) : (s.withIbi x).gs = s.gs := rfl
@[simp] theorem withIbi_since (x) : (s.withIbi x).since = s.since := rfl
@[simp] theorem withIbi_ct (x) : (s.withIbi x).ct = s.ct := rfl
@[simp] theorem withIbi_pairs (x) : (s.withIbi x).pairs = s.pairs := rfl
@[simp] theorem withIbi_roleMoves (x) : (s.withIbi x).roleMoves = s.roleMoves := rfl
@[simp] theorem withIbi_mbx (x) : (s.withIbi x).mbx = s.mbx := rfl
@[simp] theorem withIbi_retFlag (x) : (s.withIbi x).retFlag = s.retFlag := rfl
@[simp] theorem withIbi_fc (x) : (s.withIbi x).fc = s.fc := rfl
@[simp] theorem withIbi_wd (x) : (s.withIbi x).wd = s.wd := rfl
@[simp] theorem withIbi_dma (x) : (s.withIbi x).dma = s.dma := rfl
@[simp] theorem withIbi_tm (x) : (s.withIbi x).tm = s.tm := rfl
@[simp] theorem withIbi_eth (x) : (s.withIbi x).eth = s.eth := rfl
@[simp] theorem withIbi_i3c (x) : (s.withIbi x).i3c = s.i3c := rfl
@[simp] theorem withIbi_xsp (x) : (s.withIbi x).xsp = s.xsp := rfl
@[simp] theorem withIbi_hostIrq (x) : (s.withIbi x).hostIrq = s.hostIrq := rfl
@[simp] theorem withIbi_ml (x) : (s.withIbi x).ml = s.ml := rfl
@[simp] theorem withIbi_sec (x) : (s.withIbi x).sec = s.sec := rfl
@[simp] theorem withIbi_boot (x) : (s.withIbi x).boot = s.boot := rfl
@[simp] theorem withIbi_flash (x) : (s.withIbi x).flash = s.flash := rfl
@[simp] theorem withIbi_dieReset (x) : (s.withIbi x).dieReset = s.dieReset := rfl
@[simp] theorem withIbi_holds (x) : (s.withIbi x).holds = s.holds := rfl
@[simp] theorem withIbi_railsLow (x) : (s.withIbi x).railsLow = s.railsLow := rfl
@[simp] theorem withIbi_committed (x) : (s.withIbi x).committed = s.committed := rfl
@[simp] theorem withIbi_spsTick (x) : (s.withIbi x).spsTick = s.spsTick := rfl
@[simp] theorem withIbi_protect (x) : (s.withIbi x).protect = s.protect := rfl
@[simp] theorem withIbi_sioIn (x) : (s.withIbi x).sioIn = s.sioIn := rfl
@[simp] theorem withIbi_sioOut (x) : (s.withIbi x).sioOut = s.sioOut := rfl
@[simp] theorem withIbi_accCmd (x) : (s.withIbi x).accCmd = s.accCmd := rfl
@[simp] theorem withIbi_lb (x) : (s.withIbi x).lb = s.lb := rfl
@[simp] theorem withIbi_jtag (x) : (s.withIbi x).jtag = s.jtag := rfl
@[simp] theorem withIbi_boundary (x) : (s.withIbi x).boundary = s.boundary := rfl

/-! ### What `withI3c` leaves -/

@[simp] theorem withI3c_pending (x) : (s.withI3c x).pending = s.pending := rfl
@[simp] theorem withI3c_tick (x) : (s.withI3c x).tick = s.tick := rfl
@[simp] theorem withI3c_free (x) : (s.withI3c x).free = s.free := rfl
@[simp] theorem withI3c_regs (x) : (s.withI3c x).regs = s.regs := rfl
@[simp] theorem withI3c_latch (x) : (s.withI3c x).latch = s.latch := rfl
@[simp] theorem withI3c_held (x) : (s.withI3c x).held = s.held := rfl
@[simp] theorem withI3c_mem (x) : (s.withI3c x).mem = s.mem := rfl
@[simp] theorem withI3c_lost (x) : (s.withI3c x).lost = s.lost := rfl
@[simp] theorem withI3c_g6Hot (x) : (s.withI3c x).g6Hot = s.g6Hot := rfl
@[simp] theorem withI3c_resp (x) : (s.withI3c x).resp = s.resp := rfl
@[simp] theorem withI3c_rdata (x) : (s.withI3c x).rdata = s.rdata := rfl
@[simp] theorem withI3c_evt (x) : (s.withI3c x).evt = s.evt := rfl
@[simp] theorem withI3c_vdBusy (x) : (s.withI3c x).vdBusy = s.vdBusy := rfl
@[simp] theorem withI3c_soutReq (x) : (s.withI3c x).soutReq = s.soutReq := rfl
@[simp] theorem withI3c_enabled (x) : (s.withI3c x).enabled = s.enabled := rfl
@[simp] theorem withI3c_ctxs (x) : (s.withI3c x).ctxs = s.ctxs := rfl
@[simp] theorem withI3c_accSeq (x) : (s.withI3c x).accSeq = s.accSeq := rfl
@[simp] theorem withI3c_verdict (x) : (s.withI3c x).verdict = s.verdict := rfl
@[simp] theorem withI3c_cin (x) : (s.withI3c x).cin = s.cin := rfl
@[simp] theorem withI3c_slots (x) : (s.withI3c x).slots = s.slots := rfl
@[simp] theorem withI3c_tx (x) : (s.withI3c x).tx = s.tx := rfl
@[simp] theorem withI3c_plibBad (x) : (s.withI3c x).plibBad = s.plibBad := rfl
@[simp] theorem withI3c_evOpen (x) : (s.withI3c x).evOpen = s.evOpen := rfl
@[simp] theorem withI3c_evSlots (x) : (s.withI3c x).evSlots = s.evSlots := rfl
@[simp] theorem withI3c_evTimer (x) : (s.withI3c x).evTimer = s.evTimer := rfl
@[simp] theorem withI3c_evTimerOn (x) : (s.withI3c x).evTimerOn = s.evTimerOn := rfl
@[simp] theorem withI3c_harts (x) : (s.withI3c x).harts = s.harts := rfl
@[simp] theorem withI3c_instret (x) : (s.withI3c x).instret = s.instret := rfl
@[simp] theorem withI3c_vp2 (x) : (s.withI3c x).vp2 = s.vp2 := rfl
@[simp] theorem withI3c_agParams (x) : (s.withI3c x).agParams = s.agParams := rfl
@[simp] theorem withI3c_gs (x) : (s.withI3c x).gs = s.gs := rfl
@[simp] theorem withI3c_since (x) : (s.withI3c x).since = s.since := rfl
@[simp] theorem withI3c_ct (x) : (s.withI3c x).ct = s.ct := rfl
@[simp] theorem withI3c_pairs (x) : (s.withI3c x).pairs = s.pairs := rfl
@[simp] theorem withI3c_roleMoves (x) : (s.withI3c x).roleMoves = s.roleMoves := rfl
@[simp] theorem withI3c_mbx (x) : (s.withI3c x).mbx = s.mbx := rfl
@[simp] theorem withI3c_retFlag (x) : (s.withI3c x).retFlag = s.retFlag := rfl
@[simp] theorem withI3c_fc (x) : (s.withI3c x).fc = s.fc := rfl
@[simp] theorem withI3c_wd (x) : (s.withI3c x).wd = s.wd := rfl
@[simp] theorem withI3c_dma (x) : (s.withI3c x).dma = s.dma := rfl
@[simp] theorem withI3c_tm (x) : (s.withI3c x).tm = s.tm := rfl
@[simp] theorem withI3c_eth (x) : (s.withI3c x).eth = s.eth := rfl
@[simp] theorem withI3c_ibi (x) : (s.withI3c x).ibi = s.ibi := rfl
@[simp] theorem withI3c_xsp (x) : (s.withI3c x).xsp = s.xsp := rfl
@[simp] theorem withI3c_hostIrq (x) : (s.withI3c x).hostIrq = s.hostIrq := rfl
@[simp] theorem withI3c_ml (x) : (s.withI3c x).ml = s.ml := rfl
@[simp] theorem withI3c_sec (x) : (s.withI3c x).sec = s.sec := rfl
@[simp] theorem withI3c_boot (x) : (s.withI3c x).boot = s.boot := rfl
@[simp] theorem withI3c_flash (x) : (s.withI3c x).flash = s.flash := rfl
@[simp] theorem withI3c_dieReset (x) : (s.withI3c x).dieReset = s.dieReset := rfl
@[simp] theorem withI3c_holds (x) : (s.withI3c x).holds = s.holds := rfl
@[simp] theorem withI3c_railsLow (x) : (s.withI3c x).railsLow = s.railsLow := rfl
@[simp] theorem withI3c_committed (x) : (s.withI3c x).committed = s.committed := rfl
@[simp] theorem withI3c_spsTick (x) : (s.withI3c x).spsTick = s.spsTick := rfl
@[simp] theorem withI3c_protect (x) : (s.withI3c x).protect = s.protect := rfl
@[simp] theorem withI3c_sioIn (x) : (s.withI3c x).sioIn = s.sioIn := rfl
@[simp] theorem withI3c_sioOut (x) : (s.withI3c x).sioOut = s.sioOut := rfl
@[simp] theorem withI3c_accCmd (x) : (s.withI3c x).accCmd = s.accCmd := rfl
@[simp] theorem withI3c_lb (x) : (s.withI3c x).lb = s.lb := rfl
@[simp] theorem withI3c_jtag (x) : (s.withI3c x).jtag = s.jtag := rfl
@[simp] theorem withI3c_boundary (x) : (s.withI3c x).boundary = s.boundary := rfl

/-! ### What `withXsp` leaves -/

@[simp] theorem withXsp_pending (x) : (s.withXsp x).pending = s.pending := rfl
@[simp] theorem withXsp_tick (x) : (s.withXsp x).tick = s.tick := rfl
@[simp] theorem withXsp_free (x) : (s.withXsp x).free = s.free := rfl
@[simp] theorem withXsp_regs (x) : (s.withXsp x).regs = s.regs := rfl
@[simp] theorem withXsp_latch (x) : (s.withXsp x).latch = s.latch := rfl
@[simp] theorem withXsp_held (x) : (s.withXsp x).held = s.held := rfl
@[simp] theorem withXsp_mem (x) : (s.withXsp x).mem = s.mem := rfl
@[simp] theorem withXsp_lost (x) : (s.withXsp x).lost = s.lost := rfl
@[simp] theorem withXsp_g6Hot (x) : (s.withXsp x).g6Hot = s.g6Hot := rfl
@[simp] theorem withXsp_resp (x) : (s.withXsp x).resp = s.resp := rfl
@[simp] theorem withXsp_rdata (x) : (s.withXsp x).rdata = s.rdata := rfl
@[simp] theorem withXsp_evt (x) : (s.withXsp x).evt = s.evt := rfl
@[simp] theorem withXsp_vdBusy (x) : (s.withXsp x).vdBusy = s.vdBusy := rfl
@[simp] theorem withXsp_soutReq (x) : (s.withXsp x).soutReq = s.soutReq := rfl
@[simp] theorem withXsp_enabled (x) : (s.withXsp x).enabled = s.enabled := rfl
@[simp] theorem withXsp_ctxs (x) : (s.withXsp x).ctxs = s.ctxs := rfl
@[simp] theorem withXsp_accSeq (x) : (s.withXsp x).accSeq = s.accSeq := rfl
@[simp] theorem withXsp_verdict (x) : (s.withXsp x).verdict = s.verdict := rfl
@[simp] theorem withXsp_cin (x) : (s.withXsp x).cin = s.cin := rfl
@[simp] theorem withXsp_slots (x) : (s.withXsp x).slots = s.slots := rfl
@[simp] theorem withXsp_tx (x) : (s.withXsp x).tx = s.tx := rfl
@[simp] theorem withXsp_plibBad (x) : (s.withXsp x).plibBad = s.plibBad := rfl
@[simp] theorem withXsp_evOpen (x) : (s.withXsp x).evOpen = s.evOpen := rfl
@[simp] theorem withXsp_evSlots (x) : (s.withXsp x).evSlots = s.evSlots := rfl
@[simp] theorem withXsp_evTimer (x) : (s.withXsp x).evTimer = s.evTimer := rfl
@[simp] theorem withXsp_evTimerOn (x) : (s.withXsp x).evTimerOn = s.evTimerOn := rfl
@[simp] theorem withXsp_harts (x) : (s.withXsp x).harts = s.harts := rfl
@[simp] theorem withXsp_instret (x) : (s.withXsp x).instret = s.instret := rfl
@[simp] theorem withXsp_vp2 (x) : (s.withXsp x).vp2 = s.vp2 := rfl
@[simp] theorem withXsp_agParams (x) : (s.withXsp x).agParams = s.agParams := rfl
@[simp] theorem withXsp_gs (x) : (s.withXsp x).gs = s.gs := rfl
@[simp] theorem withXsp_since (x) : (s.withXsp x).since = s.since := rfl
@[simp] theorem withXsp_ct (x) : (s.withXsp x).ct = s.ct := rfl
@[simp] theorem withXsp_pairs (x) : (s.withXsp x).pairs = s.pairs := rfl
@[simp] theorem withXsp_roleMoves (x) : (s.withXsp x).roleMoves = s.roleMoves := rfl
@[simp] theorem withXsp_mbx (x) : (s.withXsp x).mbx = s.mbx := rfl
@[simp] theorem withXsp_retFlag (x) : (s.withXsp x).retFlag = s.retFlag := rfl
@[simp] theorem withXsp_fc (x) : (s.withXsp x).fc = s.fc := rfl
@[simp] theorem withXsp_wd (x) : (s.withXsp x).wd = s.wd := rfl
@[simp] theorem withXsp_dma (x) : (s.withXsp x).dma = s.dma := rfl
@[simp] theorem withXsp_tm (x) : (s.withXsp x).tm = s.tm := rfl
@[simp] theorem withXsp_eth (x) : (s.withXsp x).eth = s.eth := rfl
@[simp] theorem withXsp_ibi (x) : (s.withXsp x).ibi = s.ibi := rfl
@[simp] theorem withXsp_i3c (x) : (s.withXsp x).i3c = s.i3c := rfl
@[simp] theorem withXsp_hostIrq (x) : (s.withXsp x).hostIrq = s.hostIrq := rfl
@[simp] theorem withXsp_ml (x) : (s.withXsp x).ml = s.ml := rfl
@[simp] theorem withXsp_sec (x) : (s.withXsp x).sec = s.sec := rfl
@[simp] theorem withXsp_boot (x) : (s.withXsp x).boot = s.boot := rfl
@[simp] theorem withXsp_flash (x) : (s.withXsp x).flash = s.flash := rfl
@[simp] theorem withXsp_dieReset (x) : (s.withXsp x).dieReset = s.dieReset := rfl
@[simp] theorem withXsp_holds (x) : (s.withXsp x).holds = s.holds := rfl
@[simp] theorem withXsp_railsLow (x) : (s.withXsp x).railsLow = s.railsLow := rfl
@[simp] theorem withXsp_committed (x) : (s.withXsp x).committed = s.committed := rfl
@[simp] theorem withXsp_spsTick (x) : (s.withXsp x).spsTick = s.spsTick := rfl
@[simp] theorem withXsp_protect (x) : (s.withXsp x).protect = s.protect := rfl
@[simp] theorem withXsp_sioIn (x) : (s.withXsp x).sioIn = s.sioIn := rfl
@[simp] theorem withXsp_sioOut (x) : (s.withXsp x).sioOut = s.sioOut := rfl
@[simp] theorem withXsp_accCmd (x) : (s.withXsp x).accCmd = s.accCmd := rfl
@[simp] theorem withXsp_lb (x) : (s.withXsp x).lb = s.lb := rfl
@[simp] theorem withXsp_jtag (x) : (s.withXsp x).jtag = s.jtag := rfl
@[simp] theorem withXsp_boundary (x) : (s.withXsp x).boundary = s.boundary := rfl

/-! ### What `withHostIrq` leaves -/

@[simp] theorem withHostIrq_pending (x) : (s.withHostIrq x).pending = s.pending := rfl
@[simp] theorem withHostIrq_tick (x) : (s.withHostIrq x).tick = s.tick := rfl
@[simp] theorem withHostIrq_free (x) : (s.withHostIrq x).free = s.free := rfl
@[simp] theorem withHostIrq_regs (x) : (s.withHostIrq x).regs = s.regs := rfl
@[simp] theorem withHostIrq_latch (x) : (s.withHostIrq x).latch = s.latch := rfl
@[simp] theorem withHostIrq_held (x) : (s.withHostIrq x).held = s.held := rfl
@[simp] theorem withHostIrq_mem (x) : (s.withHostIrq x).mem = s.mem := rfl
@[simp] theorem withHostIrq_lost (x) : (s.withHostIrq x).lost = s.lost := rfl
@[simp] theorem withHostIrq_g6Hot (x) : (s.withHostIrq x).g6Hot = s.g6Hot := rfl
@[simp] theorem withHostIrq_resp (x) : (s.withHostIrq x).resp = s.resp := rfl
@[simp] theorem withHostIrq_rdata (x) : (s.withHostIrq x).rdata = s.rdata := rfl
@[simp] theorem withHostIrq_evt (x) : (s.withHostIrq x).evt = s.evt := rfl
@[simp] theorem withHostIrq_vdBusy (x) : (s.withHostIrq x).vdBusy = s.vdBusy := rfl
@[simp] theorem withHostIrq_soutReq (x) : (s.withHostIrq x).soutReq = s.soutReq := rfl
@[simp] theorem withHostIrq_enabled (x) : (s.withHostIrq x).enabled = s.enabled := rfl
@[simp] theorem withHostIrq_ctxs (x) : (s.withHostIrq x).ctxs = s.ctxs := rfl
@[simp] theorem withHostIrq_accSeq (x) : (s.withHostIrq x).accSeq = s.accSeq := rfl
@[simp] theorem withHostIrq_verdict (x) : (s.withHostIrq x).verdict = s.verdict := rfl
@[simp] theorem withHostIrq_cin (x) : (s.withHostIrq x).cin = s.cin := rfl
@[simp] theorem withHostIrq_slots (x) : (s.withHostIrq x).slots = s.slots := rfl
@[simp] theorem withHostIrq_tx (x) : (s.withHostIrq x).tx = s.tx := rfl
@[simp] theorem withHostIrq_plibBad (x) : (s.withHostIrq x).plibBad = s.plibBad := rfl
@[simp] theorem withHostIrq_evOpen (x) : (s.withHostIrq x).evOpen = s.evOpen := rfl
@[simp] theorem withHostIrq_evSlots (x) : (s.withHostIrq x).evSlots = s.evSlots := rfl
@[simp] theorem withHostIrq_evTimer (x) : (s.withHostIrq x).evTimer = s.evTimer := rfl
@[simp] theorem withHostIrq_evTimerOn (x) : (s.withHostIrq x).evTimerOn = s.evTimerOn := rfl
@[simp] theorem withHostIrq_harts (x) : (s.withHostIrq x).harts = s.harts := rfl
@[simp] theorem withHostIrq_instret (x) : (s.withHostIrq x).instret = s.instret := rfl
@[simp] theorem withHostIrq_vp2 (x) : (s.withHostIrq x).vp2 = s.vp2 := rfl
@[simp] theorem withHostIrq_agParams (x) : (s.withHostIrq x).agParams = s.agParams := rfl
@[simp] theorem withHostIrq_gs (x) : (s.withHostIrq x).gs = s.gs := rfl
@[simp] theorem withHostIrq_since (x) : (s.withHostIrq x).since = s.since := rfl
@[simp] theorem withHostIrq_ct (x) : (s.withHostIrq x).ct = s.ct := rfl
@[simp] theorem withHostIrq_pairs (x) : (s.withHostIrq x).pairs = s.pairs := rfl
@[simp] theorem withHostIrq_roleMoves (x) : (s.withHostIrq x).roleMoves = s.roleMoves := rfl
@[simp] theorem withHostIrq_mbx (x) : (s.withHostIrq x).mbx = s.mbx := rfl
@[simp] theorem withHostIrq_retFlag (x) : (s.withHostIrq x).retFlag = s.retFlag := rfl
@[simp] theorem withHostIrq_fc (x) : (s.withHostIrq x).fc = s.fc := rfl
@[simp] theorem withHostIrq_wd (x) : (s.withHostIrq x).wd = s.wd := rfl
@[simp] theorem withHostIrq_dma (x) : (s.withHostIrq x).dma = s.dma := rfl
@[simp] theorem withHostIrq_tm (x) : (s.withHostIrq x).tm = s.tm := rfl
@[simp] theorem withHostIrq_eth (x) : (s.withHostIrq x).eth = s.eth := rfl
@[simp] theorem withHostIrq_ibi (x) : (s.withHostIrq x).ibi = s.ibi := rfl
@[simp] theorem withHostIrq_i3c (x) : (s.withHostIrq x).i3c = s.i3c := rfl
@[simp] theorem withHostIrq_xsp (x) : (s.withHostIrq x).xsp = s.xsp := rfl
@[simp] theorem withHostIrq_ml (x) : (s.withHostIrq x).ml = s.ml := rfl
@[simp] theorem withHostIrq_sec (x) : (s.withHostIrq x).sec = s.sec := rfl
@[simp] theorem withHostIrq_boot (x) : (s.withHostIrq x).boot = s.boot := rfl
@[simp] theorem withHostIrq_flash (x) : (s.withHostIrq x).flash = s.flash := rfl
@[simp] theorem withHostIrq_dieReset (x) : (s.withHostIrq x).dieReset = s.dieReset := rfl
@[simp] theorem withHostIrq_holds (x) : (s.withHostIrq x).holds = s.holds := rfl
@[simp] theorem withHostIrq_railsLow (x) : (s.withHostIrq x).railsLow = s.railsLow := rfl
@[simp] theorem withHostIrq_committed (x) : (s.withHostIrq x).committed = s.committed := rfl
@[simp] theorem withHostIrq_spsTick (x) : (s.withHostIrq x).spsTick = s.spsTick := rfl
@[simp] theorem withHostIrq_protect (x) : (s.withHostIrq x).protect = s.protect := rfl
@[simp] theorem withHostIrq_sioIn (x) : (s.withHostIrq x).sioIn = s.sioIn := rfl
@[simp] theorem withHostIrq_sioOut (x) : (s.withHostIrq x).sioOut = s.sioOut := rfl
@[simp] theorem withHostIrq_accCmd (x) : (s.withHostIrq x).accCmd = s.accCmd := rfl
@[simp] theorem withHostIrq_lb (x) : (s.withHostIrq x).lb = s.lb := rfl
@[simp] theorem withHostIrq_jtag (x) : (s.withHostIrq x).jtag = s.jtag := rfl
@[simp] theorem withHostIrq_boundary (x) : (s.withHostIrq x).boundary = s.boundary := rfl

/-! ### What `withMl` leaves -/

@[simp] theorem withMl_pending (x) : (s.withMl x).pending = s.pending := rfl
@[simp] theorem withMl_tick (x) : (s.withMl x).tick = s.tick := rfl
@[simp] theorem withMl_free (x) : (s.withMl x).free = s.free := rfl
@[simp] theorem withMl_regs (x) : (s.withMl x).regs = s.regs := rfl
@[simp] theorem withMl_latch (x) : (s.withMl x).latch = s.latch := rfl
@[simp] theorem withMl_held (x) : (s.withMl x).held = s.held := rfl
@[simp] theorem withMl_mem (x) : (s.withMl x).mem = s.mem := rfl
@[simp] theorem withMl_lost (x) : (s.withMl x).lost = s.lost := rfl
@[simp] theorem withMl_g6Hot (x) : (s.withMl x).g6Hot = s.g6Hot := rfl
@[simp] theorem withMl_resp (x) : (s.withMl x).resp = s.resp := rfl
@[simp] theorem withMl_rdata (x) : (s.withMl x).rdata = s.rdata := rfl
@[simp] theorem withMl_evt (x) : (s.withMl x).evt = s.evt := rfl
@[simp] theorem withMl_vdBusy (x) : (s.withMl x).vdBusy = s.vdBusy := rfl
@[simp] theorem withMl_soutReq (x) : (s.withMl x).soutReq = s.soutReq := rfl
@[simp] theorem withMl_enabled (x) : (s.withMl x).enabled = s.enabled := rfl
@[simp] theorem withMl_ctxs (x) : (s.withMl x).ctxs = s.ctxs := rfl
@[simp] theorem withMl_accSeq (x) : (s.withMl x).accSeq = s.accSeq := rfl
@[simp] theorem withMl_verdict (x) : (s.withMl x).verdict = s.verdict := rfl
@[simp] theorem withMl_cin (x) : (s.withMl x).cin = s.cin := rfl
@[simp] theorem withMl_slots (x) : (s.withMl x).slots = s.slots := rfl
@[simp] theorem withMl_tx (x) : (s.withMl x).tx = s.tx := rfl
@[simp] theorem withMl_plibBad (x) : (s.withMl x).plibBad = s.plibBad := rfl
@[simp] theorem withMl_evOpen (x) : (s.withMl x).evOpen = s.evOpen := rfl
@[simp] theorem withMl_evSlots (x) : (s.withMl x).evSlots = s.evSlots := rfl
@[simp] theorem withMl_evTimer (x) : (s.withMl x).evTimer = s.evTimer := rfl
@[simp] theorem withMl_evTimerOn (x) : (s.withMl x).evTimerOn = s.evTimerOn := rfl
@[simp] theorem withMl_harts (x) : (s.withMl x).harts = s.harts := rfl
@[simp] theorem withMl_instret (x) : (s.withMl x).instret = s.instret := rfl
@[simp] theorem withMl_vp2 (x) : (s.withMl x).vp2 = s.vp2 := rfl
@[simp] theorem withMl_agParams (x) : (s.withMl x).agParams = s.agParams := rfl
@[simp] theorem withMl_gs (x) : (s.withMl x).gs = s.gs := rfl
@[simp] theorem withMl_since (x) : (s.withMl x).since = s.since := rfl
@[simp] theorem withMl_ct (x) : (s.withMl x).ct = s.ct := rfl
@[simp] theorem withMl_pairs (x) : (s.withMl x).pairs = s.pairs := rfl
@[simp] theorem withMl_roleMoves (x) : (s.withMl x).roleMoves = s.roleMoves := rfl
@[simp] theorem withMl_mbx (x) : (s.withMl x).mbx = s.mbx := rfl
@[simp] theorem withMl_retFlag (x) : (s.withMl x).retFlag = s.retFlag := rfl
@[simp] theorem withMl_fc (x) : (s.withMl x).fc = s.fc := rfl
@[simp] theorem withMl_wd (x) : (s.withMl x).wd = s.wd := rfl
@[simp] theorem withMl_dma (x) : (s.withMl x).dma = s.dma := rfl
@[simp] theorem withMl_tm (x) : (s.withMl x).tm = s.tm := rfl
@[simp] theorem withMl_eth (x) : (s.withMl x).eth = s.eth := rfl
@[simp] theorem withMl_ibi (x) : (s.withMl x).ibi = s.ibi := rfl
@[simp] theorem withMl_i3c (x) : (s.withMl x).i3c = s.i3c := rfl
@[simp] theorem withMl_xsp (x) : (s.withMl x).xsp = s.xsp := rfl
@[simp] theorem withMl_hostIrq (x) : (s.withMl x).hostIrq = s.hostIrq := rfl
@[simp] theorem withMl_sec (x) : (s.withMl x).sec = s.sec := rfl
@[simp] theorem withMl_boot (x) : (s.withMl x).boot = s.boot := rfl
@[simp] theorem withMl_flash (x) : (s.withMl x).flash = s.flash := rfl
@[simp] theorem withMl_dieReset (x) : (s.withMl x).dieReset = s.dieReset := rfl
@[simp] theorem withMl_holds (x) : (s.withMl x).holds = s.holds := rfl
@[simp] theorem withMl_railsLow (x) : (s.withMl x).railsLow = s.railsLow := rfl
@[simp] theorem withMl_committed (x) : (s.withMl x).committed = s.committed := rfl
@[simp] theorem withMl_spsTick (x) : (s.withMl x).spsTick = s.spsTick := rfl
@[simp] theorem withMl_protect (x) : (s.withMl x).protect = s.protect := rfl
@[simp] theorem withMl_sioIn (x) : (s.withMl x).sioIn = s.sioIn := rfl
@[simp] theorem withMl_sioOut (x) : (s.withMl x).sioOut = s.sioOut := rfl
@[simp] theorem withMl_accCmd (x) : (s.withMl x).accCmd = s.accCmd := rfl
@[simp] theorem withMl_lb (x) : (s.withMl x).lb = s.lb := rfl
@[simp] theorem withMl_jtag (x) : (s.withMl x).jtag = s.jtag := rfl
@[simp] theorem withMl_boundary (x) : (s.withMl x).boundary = s.boundary := rfl

/-! ### What `withSec` leaves -/

@[simp] theorem withSec_pending (x) : (s.withSec x).pending = s.pending := rfl
@[simp] theorem withSec_tick (x) : (s.withSec x).tick = s.tick := rfl
@[simp] theorem withSec_free (x) : (s.withSec x).free = s.free := rfl
@[simp] theorem withSec_regs (x) : (s.withSec x).regs = s.regs := rfl
@[simp] theorem withSec_latch (x) : (s.withSec x).latch = s.latch := rfl
@[simp] theorem withSec_held (x) : (s.withSec x).held = s.held := rfl
@[simp] theorem withSec_mem (x) : (s.withSec x).mem = s.mem := rfl
@[simp] theorem withSec_lost (x) : (s.withSec x).lost = s.lost := rfl
@[simp] theorem withSec_g6Hot (x) : (s.withSec x).g6Hot = s.g6Hot := rfl
@[simp] theorem withSec_resp (x) : (s.withSec x).resp = s.resp := rfl
@[simp] theorem withSec_rdata (x) : (s.withSec x).rdata = s.rdata := rfl
@[simp] theorem withSec_evt (x) : (s.withSec x).evt = s.evt := rfl
@[simp] theorem withSec_vdBusy (x) : (s.withSec x).vdBusy = s.vdBusy := rfl
@[simp] theorem withSec_soutReq (x) : (s.withSec x).soutReq = s.soutReq := rfl
@[simp] theorem withSec_enabled (x) : (s.withSec x).enabled = s.enabled := rfl
@[simp] theorem withSec_ctxs (x) : (s.withSec x).ctxs = s.ctxs := rfl
@[simp] theorem withSec_accSeq (x) : (s.withSec x).accSeq = s.accSeq := rfl
@[simp] theorem withSec_verdict (x) : (s.withSec x).verdict = s.verdict := rfl
@[simp] theorem withSec_cin (x) : (s.withSec x).cin = s.cin := rfl
@[simp] theorem withSec_slots (x) : (s.withSec x).slots = s.slots := rfl
@[simp] theorem withSec_tx (x) : (s.withSec x).tx = s.tx := rfl
@[simp] theorem withSec_plibBad (x) : (s.withSec x).plibBad = s.plibBad := rfl
@[simp] theorem withSec_evOpen (x) : (s.withSec x).evOpen = s.evOpen := rfl
@[simp] theorem withSec_evSlots (x) : (s.withSec x).evSlots = s.evSlots := rfl
@[simp] theorem withSec_evTimer (x) : (s.withSec x).evTimer = s.evTimer := rfl
@[simp] theorem withSec_evTimerOn (x) : (s.withSec x).evTimerOn = s.evTimerOn := rfl
@[simp] theorem withSec_harts (x) : (s.withSec x).harts = s.harts := rfl
@[simp] theorem withSec_instret (x) : (s.withSec x).instret = s.instret := rfl
@[simp] theorem withSec_vp2 (x) : (s.withSec x).vp2 = s.vp2 := rfl
@[simp] theorem withSec_agParams (x) : (s.withSec x).agParams = s.agParams := rfl
@[simp] theorem withSec_gs (x) : (s.withSec x).gs = s.gs := rfl
@[simp] theorem withSec_since (x) : (s.withSec x).since = s.since := rfl
@[simp] theorem withSec_ct (x) : (s.withSec x).ct = s.ct := rfl
@[simp] theorem withSec_pairs (x) : (s.withSec x).pairs = s.pairs := rfl
@[simp] theorem withSec_roleMoves (x) : (s.withSec x).roleMoves = s.roleMoves := rfl
@[simp] theorem withSec_mbx (x) : (s.withSec x).mbx = s.mbx := rfl
@[simp] theorem withSec_retFlag (x) : (s.withSec x).retFlag = s.retFlag := rfl
@[simp] theorem withSec_fc (x) : (s.withSec x).fc = s.fc := rfl
@[simp] theorem withSec_wd (x) : (s.withSec x).wd = s.wd := rfl
@[simp] theorem withSec_dma (x) : (s.withSec x).dma = s.dma := rfl
@[simp] theorem withSec_tm (x) : (s.withSec x).tm = s.tm := rfl
@[simp] theorem withSec_eth (x) : (s.withSec x).eth = s.eth := rfl
@[simp] theorem withSec_ibi (x) : (s.withSec x).ibi = s.ibi := rfl
@[simp] theorem withSec_i3c (x) : (s.withSec x).i3c = s.i3c := rfl
@[simp] theorem withSec_xsp (x) : (s.withSec x).xsp = s.xsp := rfl
@[simp] theorem withSec_hostIrq (x) : (s.withSec x).hostIrq = s.hostIrq := rfl
@[simp] theorem withSec_ml (x) : (s.withSec x).ml = s.ml := rfl
@[simp] theorem withSec_boot (x) : (s.withSec x).boot = s.boot := rfl
@[simp] theorem withSec_flash (x) : (s.withSec x).flash = s.flash := rfl
@[simp] theorem withSec_dieReset (x) : (s.withSec x).dieReset = s.dieReset := rfl
@[simp] theorem withSec_holds (x) : (s.withSec x).holds = s.holds := rfl
@[simp] theorem withSec_railsLow (x) : (s.withSec x).railsLow = s.railsLow := rfl
@[simp] theorem withSec_committed (x) : (s.withSec x).committed = s.committed := rfl
@[simp] theorem withSec_spsTick (x) : (s.withSec x).spsTick = s.spsTick := rfl
@[simp] theorem withSec_protect (x) : (s.withSec x).protect = s.protect := rfl
@[simp] theorem withSec_sioIn (x) : (s.withSec x).sioIn = s.sioIn := rfl
@[simp] theorem withSec_sioOut (x) : (s.withSec x).sioOut = s.sioOut := rfl
@[simp] theorem withSec_accCmd (x) : (s.withSec x).accCmd = s.accCmd := rfl
@[simp] theorem withSec_lb (x) : (s.withSec x).lb = s.lb := rfl
@[simp] theorem withSec_jtag (x) : (s.withSec x).jtag = s.jtag := rfl
@[simp] theorem withSec_boundary (x) : (s.withSec x).boundary = s.boundary := rfl

/-! ### What `withBoot` leaves -/

@[simp] theorem withBoot_pending (x) : (s.withBoot x).pending = s.pending := rfl
@[simp] theorem withBoot_tick (x) : (s.withBoot x).tick = s.tick := rfl
@[simp] theorem withBoot_free (x) : (s.withBoot x).free = s.free := rfl
@[simp] theorem withBoot_regs (x) : (s.withBoot x).regs = s.regs := rfl
@[simp] theorem withBoot_latch (x) : (s.withBoot x).latch = s.latch := rfl
@[simp] theorem withBoot_held (x) : (s.withBoot x).held = s.held := rfl
@[simp] theorem withBoot_mem (x) : (s.withBoot x).mem = s.mem := rfl
@[simp] theorem withBoot_lost (x) : (s.withBoot x).lost = s.lost := rfl
@[simp] theorem withBoot_g6Hot (x) : (s.withBoot x).g6Hot = s.g6Hot := rfl
@[simp] theorem withBoot_resp (x) : (s.withBoot x).resp = s.resp := rfl
@[simp] theorem withBoot_rdata (x) : (s.withBoot x).rdata = s.rdata := rfl
@[simp] theorem withBoot_evt (x) : (s.withBoot x).evt = s.evt := rfl
@[simp] theorem withBoot_vdBusy (x) : (s.withBoot x).vdBusy = s.vdBusy := rfl
@[simp] theorem withBoot_soutReq (x) : (s.withBoot x).soutReq = s.soutReq := rfl
@[simp] theorem withBoot_enabled (x) : (s.withBoot x).enabled = s.enabled := rfl
@[simp] theorem withBoot_ctxs (x) : (s.withBoot x).ctxs = s.ctxs := rfl
@[simp] theorem withBoot_accSeq (x) : (s.withBoot x).accSeq = s.accSeq := rfl
@[simp] theorem withBoot_verdict (x) : (s.withBoot x).verdict = s.verdict := rfl
@[simp] theorem withBoot_cin (x) : (s.withBoot x).cin = s.cin := rfl
@[simp] theorem withBoot_slots (x) : (s.withBoot x).slots = s.slots := rfl
@[simp] theorem withBoot_tx (x) : (s.withBoot x).tx = s.tx := rfl
@[simp] theorem withBoot_plibBad (x) : (s.withBoot x).plibBad = s.plibBad := rfl
@[simp] theorem withBoot_evOpen (x) : (s.withBoot x).evOpen = s.evOpen := rfl
@[simp] theorem withBoot_evSlots (x) : (s.withBoot x).evSlots = s.evSlots := rfl
@[simp] theorem withBoot_evTimer (x) : (s.withBoot x).evTimer = s.evTimer := rfl
@[simp] theorem withBoot_evTimerOn (x) : (s.withBoot x).evTimerOn = s.evTimerOn := rfl
@[simp] theorem withBoot_harts (x) : (s.withBoot x).harts = s.harts := rfl
@[simp] theorem withBoot_instret (x) : (s.withBoot x).instret = s.instret := rfl
@[simp] theorem withBoot_vp2 (x) : (s.withBoot x).vp2 = s.vp2 := rfl
@[simp] theorem withBoot_agParams (x) : (s.withBoot x).agParams = s.agParams := rfl
@[simp] theorem withBoot_gs (x) : (s.withBoot x).gs = s.gs := rfl
@[simp] theorem withBoot_since (x) : (s.withBoot x).since = s.since := rfl
@[simp] theorem withBoot_ct (x) : (s.withBoot x).ct = s.ct := rfl
@[simp] theorem withBoot_pairs (x) : (s.withBoot x).pairs = s.pairs := rfl
@[simp] theorem withBoot_roleMoves (x) : (s.withBoot x).roleMoves = s.roleMoves := rfl
@[simp] theorem withBoot_mbx (x) : (s.withBoot x).mbx = s.mbx := rfl
@[simp] theorem withBoot_retFlag (x) : (s.withBoot x).retFlag = s.retFlag := rfl
@[simp] theorem withBoot_fc (x) : (s.withBoot x).fc = s.fc := rfl
@[simp] theorem withBoot_wd (x) : (s.withBoot x).wd = s.wd := rfl
@[simp] theorem withBoot_dma (x) : (s.withBoot x).dma = s.dma := rfl
@[simp] theorem withBoot_tm (x) : (s.withBoot x).tm = s.tm := rfl
@[simp] theorem withBoot_eth (x) : (s.withBoot x).eth = s.eth := rfl
@[simp] theorem withBoot_ibi (x) : (s.withBoot x).ibi = s.ibi := rfl
@[simp] theorem withBoot_i3c (x) : (s.withBoot x).i3c = s.i3c := rfl
@[simp] theorem withBoot_xsp (x) : (s.withBoot x).xsp = s.xsp := rfl
@[simp] theorem withBoot_hostIrq (x) : (s.withBoot x).hostIrq = s.hostIrq := rfl
@[simp] theorem withBoot_ml (x) : (s.withBoot x).ml = s.ml := rfl
@[simp] theorem withBoot_sec (x) : (s.withBoot x).sec = s.sec := rfl
@[simp] theorem withBoot_flash (x) : (s.withBoot x).flash = s.flash := rfl
@[simp] theorem withBoot_dieReset (x) : (s.withBoot x).dieReset = s.dieReset := rfl
@[simp] theorem withBoot_holds (x) : (s.withBoot x).holds = s.holds := rfl
@[simp] theorem withBoot_railsLow (x) : (s.withBoot x).railsLow = s.railsLow := rfl
@[simp] theorem withBoot_committed (x) : (s.withBoot x).committed = s.committed := rfl
@[simp] theorem withBoot_spsTick (x) : (s.withBoot x).spsTick = s.spsTick := rfl
@[simp] theorem withBoot_protect (x) : (s.withBoot x).protect = s.protect := rfl
@[simp] theorem withBoot_sioIn (x) : (s.withBoot x).sioIn = s.sioIn := rfl
@[simp] theorem withBoot_sioOut (x) : (s.withBoot x).sioOut = s.sioOut := rfl
@[simp] theorem withBoot_accCmd (x) : (s.withBoot x).accCmd = s.accCmd := rfl
@[simp] theorem withBoot_lb (x) : (s.withBoot x).lb = s.lb := rfl
@[simp] theorem withBoot_jtag (x) : (s.withBoot x).jtag = s.jtag := rfl
@[simp] theorem withBoot_boundary (x) : (s.withBoot x).boundary = s.boundary := rfl

/-! ### What `withFlash` leaves -/

@[simp] theorem withFlash_pending (x) : (s.withFlash x).pending = s.pending := rfl
@[simp] theorem withFlash_tick (x) : (s.withFlash x).tick = s.tick := rfl
@[simp] theorem withFlash_free (x) : (s.withFlash x).free = s.free := rfl
@[simp] theorem withFlash_regs (x) : (s.withFlash x).regs = s.regs := rfl
@[simp] theorem withFlash_latch (x) : (s.withFlash x).latch = s.latch := rfl
@[simp] theorem withFlash_held (x) : (s.withFlash x).held = s.held := rfl
@[simp] theorem withFlash_mem (x) : (s.withFlash x).mem = s.mem := rfl
@[simp] theorem withFlash_lost (x) : (s.withFlash x).lost = s.lost := rfl
@[simp] theorem withFlash_g6Hot (x) : (s.withFlash x).g6Hot = s.g6Hot := rfl
@[simp] theorem withFlash_resp (x) : (s.withFlash x).resp = s.resp := rfl
@[simp] theorem withFlash_rdata (x) : (s.withFlash x).rdata = s.rdata := rfl
@[simp] theorem withFlash_evt (x) : (s.withFlash x).evt = s.evt := rfl
@[simp] theorem withFlash_vdBusy (x) : (s.withFlash x).vdBusy = s.vdBusy := rfl
@[simp] theorem withFlash_soutReq (x) : (s.withFlash x).soutReq = s.soutReq := rfl
@[simp] theorem withFlash_enabled (x) : (s.withFlash x).enabled = s.enabled := rfl
@[simp] theorem withFlash_ctxs (x) : (s.withFlash x).ctxs = s.ctxs := rfl
@[simp] theorem withFlash_accSeq (x) : (s.withFlash x).accSeq = s.accSeq := rfl
@[simp] theorem withFlash_verdict (x) : (s.withFlash x).verdict = s.verdict := rfl
@[simp] theorem withFlash_cin (x) : (s.withFlash x).cin = s.cin := rfl
@[simp] theorem withFlash_slots (x) : (s.withFlash x).slots = s.slots := rfl
@[simp] theorem withFlash_tx (x) : (s.withFlash x).tx = s.tx := rfl
@[simp] theorem withFlash_plibBad (x) : (s.withFlash x).plibBad = s.plibBad := rfl
@[simp] theorem withFlash_evOpen (x) : (s.withFlash x).evOpen = s.evOpen := rfl
@[simp] theorem withFlash_evSlots (x) : (s.withFlash x).evSlots = s.evSlots := rfl
@[simp] theorem withFlash_evTimer (x) : (s.withFlash x).evTimer = s.evTimer := rfl
@[simp] theorem withFlash_evTimerOn (x) : (s.withFlash x).evTimerOn = s.evTimerOn := rfl
@[simp] theorem withFlash_harts (x) : (s.withFlash x).harts = s.harts := rfl
@[simp] theorem withFlash_instret (x) : (s.withFlash x).instret = s.instret := rfl
@[simp] theorem withFlash_vp2 (x) : (s.withFlash x).vp2 = s.vp2 := rfl
@[simp] theorem withFlash_agParams (x) : (s.withFlash x).agParams = s.agParams := rfl
@[simp] theorem withFlash_gs (x) : (s.withFlash x).gs = s.gs := rfl
@[simp] theorem withFlash_since (x) : (s.withFlash x).since = s.since := rfl
@[simp] theorem withFlash_ct (x) : (s.withFlash x).ct = s.ct := rfl
@[simp] theorem withFlash_pairs (x) : (s.withFlash x).pairs = s.pairs := rfl
@[simp] theorem withFlash_roleMoves (x) : (s.withFlash x).roleMoves = s.roleMoves := rfl
@[simp] theorem withFlash_mbx (x) : (s.withFlash x).mbx = s.mbx := rfl
@[simp] theorem withFlash_retFlag (x) : (s.withFlash x).retFlag = s.retFlag := rfl
@[simp] theorem withFlash_fc (x) : (s.withFlash x).fc = s.fc := rfl
@[simp] theorem withFlash_wd (x) : (s.withFlash x).wd = s.wd := rfl
@[simp] theorem withFlash_dma (x) : (s.withFlash x).dma = s.dma := rfl
@[simp] theorem withFlash_tm (x) : (s.withFlash x).tm = s.tm := rfl
@[simp] theorem withFlash_eth (x) : (s.withFlash x).eth = s.eth := rfl
@[simp] theorem withFlash_ibi (x) : (s.withFlash x).ibi = s.ibi := rfl
@[simp] theorem withFlash_i3c (x) : (s.withFlash x).i3c = s.i3c := rfl
@[simp] theorem withFlash_xsp (x) : (s.withFlash x).xsp = s.xsp := rfl
@[simp] theorem withFlash_hostIrq (x) : (s.withFlash x).hostIrq = s.hostIrq := rfl
@[simp] theorem withFlash_ml (x) : (s.withFlash x).ml = s.ml := rfl
@[simp] theorem withFlash_sec (x) : (s.withFlash x).sec = s.sec := rfl
@[simp] theorem withFlash_boot (x) : (s.withFlash x).boot = s.boot := rfl
@[simp] theorem withFlash_dieReset (x) : (s.withFlash x).dieReset = s.dieReset := rfl
@[simp] theorem withFlash_holds (x) : (s.withFlash x).holds = s.holds := rfl
@[simp] theorem withFlash_railsLow (x) : (s.withFlash x).railsLow = s.railsLow := rfl
@[simp] theorem withFlash_committed (x) : (s.withFlash x).committed = s.committed := rfl
@[simp] theorem withFlash_spsTick (x) : (s.withFlash x).spsTick = s.spsTick := rfl
@[simp] theorem withFlash_protect (x) : (s.withFlash x).protect = s.protect := rfl
@[simp] theorem withFlash_sioIn (x) : (s.withFlash x).sioIn = s.sioIn := rfl
@[simp] theorem withFlash_sioOut (x) : (s.withFlash x).sioOut = s.sioOut := rfl
@[simp] theorem withFlash_accCmd (x) : (s.withFlash x).accCmd = s.accCmd := rfl
@[simp] theorem withFlash_lb (x) : (s.withFlash x).lb = s.lb := rfl
@[simp] theorem withFlash_jtag (x) : (s.withFlash x).jtag = s.jtag := rfl
@[simp] theorem withFlash_boundary (x) : (s.withFlash x).boundary = s.boundary := rfl

/-! ### What `withHolds` leaves -/

@[simp] theorem withHolds_pending (x) : (s.withHolds x).pending = s.pending := rfl
@[simp] theorem withHolds_tick (x) : (s.withHolds x).tick = s.tick := rfl
@[simp] theorem withHolds_free (x) : (s.withHolds x).free = s.free := rfl
@[simp] theorem withHolds_regs (x) : (s.withHolds x).regs = s.regs := rfl
@[simp] theorem withHolds_latch (x) : (s.withHolds x).latch = s.latch := rfl
@[simp] theorem withHolds_held (x) : (s.withHolds x).held = s.held := rfl
@[simp] theorem withHolds_mem (x) : (s.withHolds x).mem = s.mem := rfl
@[simp] theorem withHolds_lost (x) : (s.withHolds x).lost = s.lost := rfl
@[simp] theorem withHolds_g6Hot (x) : (s.withHolds x).g6Hot = s.g6Hot := rfl
@[simp] theorem withHolds_resp (x) : (s.withHolds x).resp = s.resp := rfl
@[simp] theorem withHolds_rdata (x) : (s.withHolds x).rdata = s.rdata := rfl
@[simp] theorem withHolds_evt (x) : (s.withHolds x).evt = s.evt := rfl
@[simp] theorem withHolds_vdBusy (x) : (s.withHolds x).vdBusy = s.vdBusy := rfl
@[simp] theorem withHolds_soutReq (x) : (s.withHolds x).soutReq = s.soutReq := rfl
@[simp] theorem withHolds_enabled (x) : (s.withHolds x).enabled = s.enabled := rfl
@[simp] theorem withHolds_ctxs (x) : (s.withHolds x).ctxs = s.ctxs := rfl
@[simp] theorem withHolds_accSeq (x) : (s.withHolds x).accSeq = s.accSeq := rfl
@[simp] theorem withHolds_verdict (x) : (s.withHolds x).verdict = s.verdict := rfl
@[simp] theorem withHolds_cin (x) : (s.withHolds x).cin = s.cin := rfl
@[simp] theorem withHolds_slots (x) : (s.withHolds x).slots = s.slots := rfl
@[simp] theorem withHolds_tx (x) : (s.withHolds x).tx = s.tx := rfl
@[simp] theorem withHolds_plibBad (x) : (s.withHolds x).plibBad = s.plibBad := rfl
@[simp] theorem withHolds_evOpen (x) : (s.withHolds x).evOpen = s.evOpen := rfl
@[simp] theorem withHolds_evSlots (x) : (s.withHolds x).evSlots = s.evSlots := rfl
@[simp] theorem withHolds_evTimer (x) : (s.withHolds x).evTimer = s.evTimer := rfl
@[simp] theorem withHolds_evTimerOn (x) : (s.withHolds x).evTimerOn = s.evTimerOn := rfl
@[simp] theorem withHolds_harts (x) : (s.withHolds x).harts = s.harts := rfl
@[simp] theorem withHolds_instret (x) : (s.withHolds x).instret = s.instret := rfl
@[simp] theorem withHolds_vp2 (x) : (s.withHolds x).vp2 = s.vp2 := rfl
@[simp] theorem withHolds_agParams (x) : (s.withHolds x).agParams = s.agParams := rfl
@[simp] theorem withHolds_gs (x) : (s.withHolds x).gs = s.gs := rfl
@[simp] theorem withHolds_since (x) : (s.withHolds x).since = s.since := rfl
@[simp] theorem withHolds_ct (x) : (s.withHolds x).ct = s.ct := rfl
@[simp] theorem withHolds_pairs (x) : (s.withHolds x).pairs = s.pairs := rfl
@[simp] theorem withHolds_roleMoves (x) : (s.withHolds x).roleMoves = s.roleMoves := rfl
@[simp] theorem withHolds_mbx (x) : (s.withHolds x).mbx = s.mbx := rfl
@[simp] theorem withHolds_retFlag (x) : (s.withHolds x).retFlag = s.retFlag := rfl
@[simp] theorem withHolds_fc (x) : (s.withHolds x).fc = s.fc := rfl
@[simp] theorem withHolds_wd (x) : (s.withHolds x).wd = s.wd := rfl
@[simp] theorem withHolds_dma (x) : (s.withHolds x).dma = s.dma := rfl
@[simp] theorem withHolds_tm (x) : (s.withHolds x).tm = s.tm := rfl
@[simp] theorem withHolds_eth (x) : (s.withHolds x).eth = s.eth := rfl
@[simp] theorem withHolds_ibi (x) : (s.withHolds x).ibi = s.ibi := rfl
@[simp] theorem withHolds_i3c (x) : (s.withHolds x).i3c = s.i3c := rfl
@[simp] theorem withHolds_xsp (x) : (s.withHolds x).xsp = s.xsp := rfl
@[simp] theorem withHolds_hostIrq (x) : (s.withHolds x).hostIrq = s.hostIrq := rfl
@[simp] theorem withHolds_ml (x) : (s.withHolds x).ml = s.ml := rfl
@[simp] theorem withHolds_sec (x) : (s.withHolds x).sec = s.sec := rfl
@[simp] theorem withHolds_boot (x) : (s.withHolds x).boot = s.boot := rfl
@[simp] theorem withHolds_flash (x) : (s.withHolds x).flash = s.flash := rfl
@[simp] theorem withHolds_dieReset (x) : (s.withHolds x).dieReset = s.dieReset := rfl
@[simp] theorem withHolds_railsLow (x) : (s.withHolds x).railsLow = s.railsLow := rfl
@[simp] theorem withHolds_committed (x) : (s.withHolds x).committed = s.committed := rfl
@[simp] theorem withHolds_spsTick (x) : (s.withHolds x).spsTick = s.spsTick := rfl
@[simp] theorem withHolds_protect (x) : (s.withHolds x).protect = s.protect := rfl
@[simp] theorem withHolds_sioIn (x) : (s.withHolds x).sioIn = s.sioIn := rfl
@[simp] theorem withHolds_sioOut (x) : (s.withHolds x).sioOut = s.sioOut := rfl
@[simp] theorem withHolds_accCmd (x) : (s.withHolds x).accCmd = s.accCmd := rfl
@[simp] theorem withHolds_lb (x) : (s.withHolds x).lb = s.lb := rfl
@[simp] theorem withHolds_jtag (x) : (s.withHolds x).jtag = s.jtag := rfl
@[simp] theorem withHolds_boundary (x) : (s.withHolds x).boundary = s.boundary := rfl

/-! ### What `withRailsLow` leaves -/

@[simp] theorem withRailsLow_pending (x) : (s.withRailsLow x).pending = s.pending := rfl
@[simp] theorem withRailsLow_tick (x) : (s.withRailsLow x).tick = s.tick := rfl
@[simp] theorem withRailsLow_free (x) : (s.withRailsLow x).free = s.free := rfl
@[simp] theorem withRailsLow_regs (x) : (s.withRailsLow x).regs = s.regs := rfl
@[simp] theorem withRailsLow_latch (x) : (s.withRailsLow x).latch = s.latch := rfl
@[simp] theorem withRailsLow_held (x) : (s.withRailsLow x).held = s.held := rfl
@[simp] theorem withRailsLow_mem (x) : (s.withRailsLow x).mem = s.mem := rfl
@[simp] theorem withRailsLow_lost (x) : (s.withRailsLow x).lost = s.lost := rfl
@[simp] theorem withRailsLow_g6Hot (x) : (s.withRailsLow x).g6Hot = s.g6Hot := rfl
@[simp] theorem withRailsLow_resp (x) : (s.withRailsLow x).resp = s.resp := rfl
@[simp] theorem withRailsLow_rdata (x) : (s.withRailsLow x).rdata = s.rdata := rfl
@[simp] theorem withRailsLow_evt (x) : (s.withRailsLow x).evt = s.evt := rfl
@[simp] theorem withRailsLow_vdBusy (x) : (s.withRailsLow x).vdBusy = s.vdBusy := rfl
@[simp] theorem withRailsLow_soutReq (x) : (s.withRailsLow x).soutReq = s.soutReq := rfl
@[simp] theorem withRailsLow_enabled (x) : (s.withRailsLow x).enabled = s.enabled := rfl
@[simp] theorem withRailsLow_ctxs (x) : (s.withRailsLow x).ctxs = s.ctxs := rfl
@[simp] theorem withRailsLow_accSeq (x) : (s.withRailsLow x).accSeq = s.accSeq := rfl
@[simp] theorem withRailsLow_verdict (x) : (s.withRailsLow x).verdict = s.verdict := rfl
@[simp] theorem withRailsLow_cin (x) : (s.withRailsLow x).cin = s.cin := rfl
@[simp] theorem withRailsLow_slots (x) : (s.withRailsLow x).slots = s.slots := rfl
@[simp] theorem withRailsLow_tx (x) : (s.withRailsLow x).tx = s.tx := rfl
@[simp] theorem withRailsLow_plibBad (x) : (s.withRailsLow x).plibBad = s.plibBad := rfl
@[simp] theorem withRailsLow_evOpen (x) : (s.withRailsLow x).evOpen = s.evOpen := rfl
@[simp] theorem withRailsLow_evSlots (x) : (s.withRailsLow x).evSlots = s.evSlots := rfl
@[simp] theorem withRailsLow_evTimer (x) : (s.withRailsLow x).evTimer = s.evTimer := rfl
@[simp] theorem withRailsLow_evTimerOn (x) : (s.withRailsLow x).evTimerOn = s.evTimerOn := rfl
@[simp] theorem withRailsLow_harts (x) : (s.withRailsLow x).harts = s.harts := rfl
@[simp] theorem withRailsLow_instret (x) : (s.withRailsLow x).instret = s.instret := rfl
@[simp] theorem withRailsLow_vp2 (x) : (s.withRailsLow x).vp2 = s.vp2 := rfl
@[simp] theorem withRailsLow_agParams (x) : (s.withRailsLow x).agParams = s.agParams := rfl
@[simp] theorem withRailsLow_gs (x) : (s.withRailsLow x).gs = s.gs := rfl
@[simp] theorem withRailsLow_since (x) : (s.withRailsLow x).since = s.since := rfl
@[simp] theorem withRailsLow_ct (x) : (s.withRailsLow x).ct = s.ct := rfl
@[simp] theorem withRailsLow_pairs (x) : (s.withRailsLow x).pairs = s.pairs := rfl
@[simp] theorem withRailsLow_roleMoves (x) : (s.withRailsLow x).roleMoves = s.roleMoves := rfl
@[simp] theorem withRailsLow_mbx (x) : (s.withRailsLow x).mbx = s.mbx := rfl
@[simp] theorem withRailsLow_retFlag (x) : (s.withRailsLow x).retFlag = s.retFlag := rfl
@[simp] theorem withRailsLow_fc (x) : (s.withRailsLow x).fc = s.fc := rfl
@[simp] theorem withRailsLow_wd (x) : (s.withRailsLow x).wd = s.wd := rfl
@[simp] theorem withRailsLow_dma (x) : (s.withRailsLow x).dma = s.dma := rfl
@[simp] theorem withRailsLow_tm (x) : (s.withRailsLow x).tm = s.tm := rfl
@[simp] theorem withRailsLow_eth (x) : (s.withRailsLow x).eth = s.eth := rfl
@[simp] theorem withRailsLow_ibi (x) : (s.withRailsLow x).ibi = s.ibi := rfl
@[simp] theorem withRailsLow_i3c (x) : (s.withRailsLow x).i3c = s.i3c := rfl
@[simp] theorem withRailsLow_xsp (x) : (s.withRailsLow x).xsp = s.xsp := rfl
@[simp] theorem withRailsLow_hostIrq (x) : (s.withRailsLow x).hostIrq = s.hostIrq := rfl
@[simp] theorem withRailsLow_ml (x) : (s.withRailsLow x).ml = s.ml := rfl
@[simp] theorem withRailsLow_sec (x) : (s.withRailsLow x).sec = s.sec := rfl
@[simp] theorem withRailsLow_boot (x) : (s.withRailsLow x).boot = s.boot := rfl
@[simp] theorem withRailsLow_flash (x) : (s.withRailsLow x).flash = s.flash := rfl
@[simp] theorem withRailsLow_dieReset (x) : (s.withRailsLow x).dieReset = s.dieReset := rfl
@[simp] theorem withRailsLow_holds (x) : (s.withRailsLow x).holds = s.holds := rfl
@[simp] theorem withRailsLow_committed (x) : (s.withRailsLow x).committed = s.committed := rfl
@[simp] theorem withRailsLow_spsTick (x) : (s.withRailsLow x).spsTick = s.spsTick := rfl
@[simp] theorem withRailsLow_protect (x) : (s.withRailsLow x).protect = s.protect := rfl
@[simp] theorem withRailsLow_sioIn (x) : (s.withRailsLow x).sioIn = s.sioIn := rfl
@[simp] theorem withRailsLow_sioOut (x) : (s.withRailsLow x).sioOut = s.sioOut := rfl
@[simp] theorem withRailsLow_accCmd (x) : (s.withRailsLow x).accCmd = s.accCmd := rfl
@[simp] theorem withRailsLow_lb (x) : (s.withRailsLow x).lb = s.lb := rfl
@[simp] theorem withRailsLow_jtag (x) : (s.withRailsLow x).jtag = s.jtag := rfl
@[simp] theorem withRailsLow_boundary (x) : (s.withRailsLow x).boundary = s.boundary := rfl

/-! ### What `withCommitted` leaves -/

@[simp] theorem withCommitted_pending (x) : (s.withCommitted x).pending = s.pending := rfl
@[simp] theorem withCommitted_tick (x) : (s.withCommitted x).tick = s.tick := rfl
@[simp] theorem withCommitted_free (x) : (s.withCommitted x).free = s.free := rfl
@[simp] theorem withCommitted_regs (x) : (s.withCommitted x).regs = s.regs := rfl
@[simp] theorem withCommitted_latch (x) : (s.withCommitted x).latch = s.latch := rfl
@[simp] theorem withCommitted_held (x) : (s.withCommitted x).held = s.held := rfl
@[simp] theorem withCommitted_mem (x) : (s.withCommitted x).mem = s.mem := rfl
@[simp] theorem withCommitted_lost (x) : (s.withCommitted x).lost = s.lost := rfl
@[simp] theorem withCommitted_g6Hot (x) : (s.withCommitted x).g6Hot = s.g6Hot := rfl
@[simp] theorem withCommitted_resp (x) : (s.withCommitted x).resp = s.resp := rfl
@[simp] theorem withCommitted_rdata (x) : (s.withCommitted x).rdata = s.rdata := rfl
@[simp] theorem withCommitted_evt (x) : (s.withCommitted x).evt = s.evt := rfl
@[simp] theorem withCommitted_vdBusy (x) : (s.withCommitted x).vdBusy = s.vdBusy := rfl
@[simp] theorem withCommitted_soutReq (x) : (s.withCommitted x).soutReq = s.soutReq := rfl
@[simp] theorem withCommitted_enabled (x) : (s.withCommitted x).enabled = s.enabled := rfl
@[simp] theorem withCommitted_ctxs (x) : (s.withCommitted x).ctxs = s.ctxs := rfl
@[simp] theorem withCommitted_accSeq (x) : (s.withCommitted x).accSeq = s.accSeq := rfl
@[simp] theorem withCommitted_verdict (x) : (s.withCommitted x).verdict = s.verdict := rfl
@[simp] theorem withCommitted_cin (x) : (s.withCommitted x).cin = s.cin := rfl
@[simp] theorem withCommitted_slots (x) : (s.withCommitted x).slots = s.slots := rfl
@[simp] theorem withCommitted_tx (x) : (s.withCommitted x).tx = s.tx := rfl
@[simp] theorem withCommitted_plibBad (x) : (s.withCommitted x).plibBad = s.plibBad := rfl
@[simp] theorem withCommitted_evOpen (x) : (s.withCommitted x).evOpen = s.evOpen := rfl
@[simp] theorem withCommitted_evSlots (x) : (s.withCommitted x).evSlots = s.evSlots := rfl
@[simp] theorem withCommitted_evTimer (x) : (s.withCommitted x).evTimer = s.evTimer := rfl
@[simp] theorem withCommitted_evTimerOn (x) : (s.withCommitted x).evTimerOn = s.evTimerOn := rfl
@[simp] theorem withCommitted_harts (x) : (s.withCommitted x).harts = s.harts := rfl
@[simp] theorem withCommitted_instret (x) : (s.withCommitted x).instret = s.instret := rfl
@[simp] theorem withCommitted_vp2 (x) : (s.withCommitted x).vp2 = s.vp2 := rfl
@[simp] theorem withCommitted_agParams (x) : (s.withCommitted x).agParams = s.agParams := rfl
@[simp] theorem withCommitted_gs (x) : (s.withCommitted x).gs = s.gs := rfl
@[simp] theorem withCommitted_since (x) : (s.withCommitted x).since = s.since := rfl
@[simp] theorem withCommitted_ct (x) : (s.withCommitted x).ct = s.ct := rfl
@[simp] theorem withCommitted_pairs (x) : (s.withCommitted x).pairs = s.pairs := rfl
@[simp] theorem withCommitted_roleMoves (x) : (s.withCommitted x).roleMoves = s.roleMoves := rfl
@[simp] theorem withCommitted_mbx (x) : (s.withCommitted x).mbx = s.mbx := rfl
@[simp] theorem withCommitted_retFlag (x) : (s.withCommitted x).retFlag = s.retFlag := rfl
@[simp] theorem withCommitted_fc (x) : (s.withCommitted x).fc = s.fc := rfl
@[simp] theorem withCommitted_wd (x) : (s.withCommitted x).wd = s.wd := rfl
@[simp] theorem withCommitted_dma (x) : (s.withCommitted x).dma = s.dma := rfl
@[simp] theorem withCommitted_tm (x) : (s.withCommitted x).tm = s.tm := rfl
@[simp] theorem withCommitted_eth (x) : (s.withCommitted x).eth = s.eth := rfl
@[simp] theorem withCommitted_ibi (x) : (s.withCommitted x).ibi = s.ibi := rfl
@[simp] theorem withCommitted_i3c (x) : (s.withCommitted x).i3c = s.i3c := rfl
@[simp] theorem withCommitted_xsp (x) : (s.withCommitted x).xsp = s.xsp := rfl
@[simp] theorem withCommitted_hostIrq (x) : (s.withCommitted x).hostIrq = s.hostIrq := rfl
@[simp] theorem withCommitted_ml (x) : (s.withCommitted x).ml = s.ml := rfl
@[simp] theorem withCommitted_sec (x) : (s.withCommitted x).sec = s.sec := rfl
@[simp] theorem withCommitted_boot (x) : (s.withCommitted x).boot = s.boot := rfl
@[simp] theorem withCommitted_flash (x) : (s.withCommitted x).flash = s.flash := rfl
@[simp] theorem withCommitted_dieReset (x) : (s.withCommitted x).dieReset = s.dieReset := rfl
@[simp] theorem withCommitted_holds (x) : (s.withCommitted x).holds = s.holds := rfl
@[simp] theorem withCommitted_railsLow (x) : (s.withCommitted x).railsLow = s.railsLow := rfl
@[simp] theorem withCommitted_spsTick (x) : (s.withCommitted x).spsTick = s.spsTick := rfl
@[simp] theorem withCommitted_protect (x) : (s.withCommitted x).protect = s.protect := rfl
@[simp] theorem withCommitted_sioIn (x) : (s.withCommitted x).sioIn = s.sioIn := rfl
@[simp] theorem withCommitted_sioOut (x) : (s.withCommitted x).sioOut = s.sioOut := rfl
@[simp] theorem withCommitted_accCmd (x) : (s.withCommitted x).accCmd = s.accCmd := rfl
@[simp] theorem withCommitted_lb (x) : (s.withCommitted x).lb = s.lb := rfl
@[simp] theorem withCommitted_jtag (x) : (s.withCommitted x).jtag = s.jtag := rfl
@[simp] theorem withCommitted_boundary (x) : (s.withCommitted x).boundary = s.boundary := rfl

/-! ### What `withSpsTick` leaves -/

@[simp] theorem withSpsTick_pending (x) : (s.withSpsTick x).pending = s.pending := rfl
@[simp] theorem withSpsTick_tick (x) : (s.withSpsTick x).tick = s.tick := rfl
@[simp] theorem withSpsTick_free (x) : (s.withSpsTick x).free = s.free := rfl
@[simp] theorem withSpsTick_regs (x) : (s.withSpsTick x).regs = s.regs := rfl
@[simp] theorem withSpsTick_latch (x) : (s.withSpsTick x).latch = s.latch := rfl
@[simp] theorem withSpsTick_held (x) : (s.withSpsTick x).held = s.held := rfl
@[simp] theorem withSpsTick_mem (x) : (s.withSpsTick x).mem = s.mem := rfl
@[simp] theorem withSpsTick_lost (x) : (s.withSpsTick x).lost = s.lost := rfl
@[simp] theorem withSpsTick_g6Hot (x) : (s.withSpsTick x).g6Hot = s.g6Hot := rfl
@[simp] theorem withSpsTick_resp (x) : (s.withSpsTick x).resp = s.resp := rfl
@[simp] theorem withSpsTick_rdata (x) : (s.withSpsTick x).rdata = s.rdata := rfl
@[simp] theorem withSpsTick_evt (x) : (s.withSpsTick x).evt = s.evt := rfl
@[simp] theorem withSpsTick_vdBusy (x) : (s.withSpsTick x).vdBusy = s.vdBusy := rfl
@[simp] theorem withSpsTick_soutReq (x) : (s.withSpsTick x).soutReq = s.soutReq := rfl
@[simp] theorem withSpsTick_enabled (x) : (s.withSpsTick x).enabled = s.enabled := rfl
@[simp] theorem withSpsTick_ctxs (x) : (s.withSpsTick x).ctxs = s.ctxs := rfl
@[simp] theorem withSpsTick_accSeq (x) : (s.withSpsTick x).accSeq = s.accSeq := rfl
@[simp] theorem withSpsTick_verdict (x) : (s.withSpsTick x).verdict = s.verdict := rfl
@[simp] theorem withSpsTick_cin (x) : (s.withSpsTick x).cin = s.cin := rfl
@[simp] theorem withSpsTick_slots (x) : (s.withSpsTick x).slots = s.slots := rfl
@[simp] theorem withSpsTick_tx (x) : (s.withSpsTick x).tx = s.tx := rfl
@[simp] theorem withSpsTick_plibBad (x) : (s.withSpsTick x).plibBad = s.plibBad := rfl
@[simp] theorem withSpsTick_evOpen (x) : (s.withSpsTick x).evOpen = s.evOpen := rfl
@[simp] theorem withSpsTick_evSlots (x) : (s.withSpsTick x).evSlots = s.evSlots := rfl
@[simp] theorem withSpsTick_evTimer (x) : (s.withSpsTick x).evTimer = s.evTimer := rfl
@[simp] theorem withSpsTick_evTimerOn (x) : (s.withSpsTick x).evTimerOn = s.evTimerOn := rfl
@[simp] theorem withSpsTick_harts (x) : (s.withSpsTick x).harts = s.harts := rfl
@[simp] theorem withSpsTick_instret (x) : (s.withSpsTick x).instret = s.instret := rfl
@[simp] theorem withSpsTick_vp2 (x) : (s.withSpsTick x).vp2 = s.vp2 := rfl
@[simp] theorem withSpsTick_agParams (x) : (s.withSpsTick x).agParams = s.agParams := rfl
@[simp] theorem withSpsTick_gs (x) : (s.withSpsTick x).gs = s.gs := rfl
@[simp] theorem withSpsTick_since (x) : (s.withSpsTick x).since = s.since := rfl
@[simp] theorem withSpsTick_ct (x) : (s.withSpsTick x).ct = s.ct := rfl
@[simp] theorem withSpsTick_pairs (x) : (s.withSpsTick x).pairs = s.pairs := rfl
@[simp] theorem withSpsTick_roleMoves (x) : (s.withSpsTick x).roleMoves = s.roleMoves := rfl
@[simp] theorem withSpsTick_mbx (x) : (s.withSpsTick x).mbx = s.mbx := rfl
@[simp] theorem withSpsTick_retFlag (x) : (s.withSpsTick x).retFlag = s.retFlag := rfl
@[simp] theorem withSpsTick_fc (x) : (s.withSpsTick x).fc = s.fc := rfl
@[simp] theorem withSpsTick_wd (x) : (s.withSpsTick x).wd = s.wd := rfl
@[simp] theorem withSpsTick_dma (x) : (s.withSpsTick x).dma = s.dma := rfl
@[simp] theorem withSpsTick_tm (x) : (s.withSpsTick x).tm = s.tm := rfl
@[simp] theorem withSpsTick_eth (x) : (s.withSpsTick x).eth = s.eth := rfl
@[simp] theorem withSpsTick_ibi (x) : (s.withSpsTick x).ibi = s.ibi := rfl
@[simp] theorem withSpsTick_i3c (x) : (s.withSpsTick x).i3c = s.i3c := rfl
@[simp] theorem withSpsTick_xsp (x) : (s.withSpsTick x).xsp = s.xsp := rfl
@[simp] theorem withSpsTick_hostIrq (x) : (s.withSpsTick x).hostIrq = s.hostIrq := rfl
@[simp] theorem withSpsTick_ml (x) : (s.withSpsTick x).ml = s.ml := rfl
@[simp] theorem withSpsTick_sec (x) : (s.withSpsTick x).sec = s.sec := rfl
@[simp] theorem withSpsTick_boot (x) : (s.withSpsTick x).boot = s.boot := rfl
@[simp] theorem withSpsTick_flash (x) : (s.withSpsTick x).flash = s.flash := rfl
@[simp] theorem withSpsTick_dieReset (x) : (s.withSpsTick x).dieReset = s.dieReset := rfl
@[simp] theorem withSpsTick_holds (x) : (s.withSpsTick x).holds = s.holds := rfl
@[simp] theorem withSpsTick_railsLow (x) : (s.withSpsTick x).railsLow = s.railsLow := rfl
@[simp] theorem withSpsTick_committed (x) : (s.withSpsTick x).committed = s.committed := rfl
@[simp] theorem withSpsTick_protect (x) : (s.withSpsTick x).protect = s.protect := rfl
@[simp] theorem withSpsTick_sioIn (x) : (s.withSpsTick x).sioIn = s.sioIn := rfl
@[simp] theorem withSpsTick_sioOut (x) : (s.withSpsTick x).sioOut = s.sioOut := rfl
@[simp] theorem withSpsTick_accCmd (x) : (s.withSpsTick x).accCmd = s.accCmd := rfl
@[simp] theorem withSpsTick_lb (x) : (s.withSpsTick x).lb = s.lb := rfl
@[simp] theorem withSpsTick_jtag (x) : (s.withSpsTick x).jtag = s.jtag := rfl
@[simp] theorem withSpsTick_boundary (x) : (s.withSpsTick x).boundary = s.boundary := rfl

/-! ### What `withProtect` leaves -/

@[simp] theorem withProtect_pending (x) : (s.withProtect x).pending = s.pending := rfl
@[simp] theorem withProtect_tick (x) : (s.withProtect x).tick = s.tick := rfl
@[simp] theorem withProtect_free (x) : (s.withProtect x).free = s.free := rfl
@[simp] theorem withProtect_regs (x) : (s.withProtect x).regs = s.regs := rfl
@[simp] theorem withProtect_latch (x) : (s.withProtect x).latch = s.latch := rfl
@[simp] theorem withProtect_held (x) : (s.withProtect x).held = s.held := rfl
@[simp] theorem withProtect_mem (x) : (s.withProtect x).mem = s.mem := rfl
@[simp] theorem withProtect_lost (x) : (s.withProtect x).lost = s.lost := rfl
@[simp] theorem withProtect_g6Hot (x) : (s.withProtect x).g6Hot = s.g6Hot := rfl
@[simp] theorem withProtect_resp (x) : (s.withProtect x).resp = s.resp := rfl
@[simp] theorem withProtect_rdata (x) : (s.withProtect x).rdata = s.rdata := rfl
@[simp] theorem withProtect_evt (x) : (s.withProtect x).evt = s.evt := rfl
@[simp] theorem withProtect_vdBusy (x) : (s.withProtect x).vdBusy = s.vdBusy := rfl
@[simp] theorem withProtect_soutReq (x) : (s.withProtect x).soutReq = s.soutReq := rfl
@[simp] theorem withProtect_enabled (x) : (s.withProtect x).enabled = s.enabled := rfl
@[simp] theorem withProtect_ctxs (x) : (s.withProtect x).ctxs = s.ctxs := rfl
@[simp] theorem withProtect_accSeq (x) : (s.withProtect x).accSeq = s.accSeq := rfl
@[simp] theorem withProtect_verdict (x) : (s.withProtect x).verdict = s.verdict := rfl
@[simp] theorem withProtect_cin (x) : (s.withProtect x).cin = s.cin := rfl
@[simp] theorem withProtect_slots (x) : (s.withProtect x).slots = s.slots := rfl
@[simp] theorem withProtect_tx (x) : (s.withProtect x).tx = s.tx := rfl
@[simp] theorem withProtect_plibBad (x) : (s.withProtect x).plibBad = s.plibBad := rfl
@[simp] theorem withProtect_evOpen (x) : (s.withProtect x).evOpen = s.evOpen := rfl
@[simp] theorem withProtect_evSlots (x) : (s.withProtect x).evSlots = s.evSlots := rfl
@[simp] theorem withProtect_evTimer (x) : (s.withProtect x).evTimer = s.evTimer := rfl
@[simp] theorem withProtect_evTimerOn (x) : (s.withProtect x).evTimerOn = s.evTimerOn := rfl
@[simp] theorem withProtect_harts (x) : (s.withProtect x).harts = s.harts := rfl
@[simp] theorem withProtect_instret (x) : (s.withProtect x).instret = s.instret := rfl
@[simp] theorem withProtect_vp2 (x) : (s.withProtect x).vp2 = s.vp2 := rfl
@[simp] theorem withProtect_agParams (x) : (s.withProtect x).agParams = s.agParams := rfl
@[simp] theorem withProtect_gs (x) : (s.withProtect x).gs = s.gs := rfl
@[simp] theorem withProtect_since (x) : (s.withProtect x).since = s.since := rfl
@[simp] theorem withProtect_ct (x) : (s.withProtect x).ct = s.ct := rfl
@[simp] theorem withProtect_pairs (x) : (s.withProtect x).pairs = s.pairs := rfl
@[simp] theorem withProtect_roleMoves (x) : (s.withProtect x).roleMoves = s.roleMoves := rfl
@[simp] theorem withProtect_mbx (x) : (s.withProtect x).mbx = s.mbx := rfl
@[simp] theorem withProtect_retFlag (x) : (s.withProtect x).retFlag = s.retFlag := rfl
@[simp] theorem withProtect_fc (x) : (s.withProtect x).fc = s.fc := rfl
@[simp] theorem withProtect_wd (x) : (s.withProtect x).wd = s.wd := rfl
@[simp] theorem withProtect_dma (x) : (s.withProtect x).dma = s.dma := rfl
@[simp] theorem withProtect_tm (x) : (s.withProtect x).tm = s.tm := rfl
@[simp] theorem withProtect_eth (x) : (s.withProtect x).eth = s.eth := rfl
@[simp] theorem withProtect_ibi (x) : (s.withProtect x).ibi = s.ibi := rfl
@[simp] theorem withProtect_i3c (x) : (s.withProtect x).i3c = s.i3c := rfl
@[simp] theorem withProtect_xsp (x) : (s.withProtect x).xsp = s.xsp := rfl
@[simp] theorem withProtect_hostIrq (x) : (s.withProtect x).hostIrq = s.hostIrq := rfl
@[simp] theorem withProtect_ml (x) : (s.withProtect x).ml = s.ml := rfl
@[simp] theorem withProtect_sec (x) : (s.withProtect x).sec = s.sec := rfl
@[simp] theorem withProtect_boot (x) : (s.withProtect x).boot = s.boot := rfl
@[simp] theorem withProtect_flash (x) : (s.withProtect x).flash = s.flash := rfl
@[simp] theorem withProtect_dieReset (x) : (s.withProtect x).dieReset = s.dieReset := rfl
@[simp] theorem withProtect_holds (x) : (s.withProtect x).holds = s.holds := rfl
@[simp] theorem withProtect_railsLow (x) : (s.withProtect x).railsLow = s.railsLow := rfl
@[simp] theorem withProtect_committed (x) : (s.withProtect x).committed = s.committed := rfl
@[simp] theorem withProtect_spsTick (x) : (s.withProtect x).spsTick = s.spsTick := rfl
@[simp] theorem withProtect_sioIn (x) : (s.withProtect x).sioIn = s.sioIn := rfl
@[simp] theorem withProtect_sioOut (x) : (s.withProtect x).sioOut = s.sioOut := rfl
@[simp] theorem withProtect_accCmd (x) : (s.withProtect x).accCmd = s.accCmd := rfl
@[simp] theorem withProtect_lb (x) : (s.withProtect x).lb = s.lb := rfl
@[simp] theorem withProtect_jtag (x) : (s.withProtect x).jtag = s.jtag := rfl
@[simp] theorem withProtect_boundary (x) : (s.withProtect x).boundary = s.boundary := rfl

/-! ### What `withSioIn` leaves -/

@[simp] theorem withSioIn_pending (x) : (s.withSioIn x).pending = s.pending := rfl
@[simp] theorem withSioIn_tick (x) : (s.withSioIn x).tick = s.tick := rfl
@[simp] theorem withSioIn_free (x) : (s.withSioIn x).free = s.free := rfl
@[simp] theorem withSioIn_regs (x) : (s.withSioIn x).regs = s.regs := rfl
@[simp] theorem withSioIn_latch (x) : (s.withSioIn x).latch = s.latch := rfl
@[simp] theorem withSioIn_held (x) : (s.withSioIn x).held = s.held := rfl
@[simp] theorem withSioIn_mem (x) : (s.withSioIn x).mem = s.mem := rfl
@[simp] theorem withSioIn_lost (x) : (s.withSioIn x).lost = s.lost := rfl
@[simp] theorem withSioIn_g6Hot (x) : (s.withSioIn x).g6Hot = s.g6Hot := rfl
@[simp] theorem withSioIn_resp (x) : (s.withSioIn x).resp = s.resp := rfl
@[simp] theorem withSioIn_rdata (x) : (s.withSioIn x).rdata = s.rdata := rfl
@[simp] theorem withSioIn_evt (x) : (s.withSioIn x).evt = s.evt := rfl
@[simp] theorem withSioIn_vdBusy (x) : (s.withSioIn x).vdBusy = s.vdBusy := rfl
@[simp] theorem withSioIn_soutReq (x) : (s.withSioIn x).soutReq = s.soutReq := rfl
@[simp] theorem withSioIn_enabled (x) : (s.withSioIn x).enabled = s.enabled := rfl
@[simp] theorem withSioIn_ctxs (x) : (s.withSioIn x).ctxs = s.ctxs := rfl
@[simp] theorem withSioIn_accSeq (x) : (s.withSioIn x).accSeq = s.accSeq := rfl
@[simp] theorem withSioIn_verdict (x) : (s.withSioIn x).verdict = s.verdict := rfl
@[simp] theorem withSioIn_cin (x) : (s.withSioIn x).cin = s.cin := rfl
@[simp] theorem withSioIn_slots (x) : (s.withSioIn x).slots = s.slots := rfl
@[simp] theorem withSioIn_tx (x) : (s.withSioIn x).tx = s.tx := rfl
@[simp] theorem withSioIn_plibBad (x) : (s.withSioIn x).plibBad = s.plibBad := rfl
@[simp] theorem withSioIn_evOpen (x) : (s.withSioIn x).evOpen = s.evOpen := rfl
@[simp] theorem withSioIn_evSlots (x) : (s.withSioIn x).evSlots = s.evSlots := rfl
@[simp] theorem withSioIn_evTimer (x) : (s.withSioIn x).evTimer = s.evTimer := rfl
@[simp] theorem withSioIn_evTimerOn (x) : (s.withSioIn x).evTimerOn = s.evTimerOn := rfl
@[simp] theorem withSioIn_harts (x) : (s.withSioIn x).harts = s.harts := rfl
@[simp] theorem withSioIn_instret (x) : (s.withSioIn x).instret = s.instret := rfl
@[simp] theorem withSioIn_vp2 (x) : (s.withSioIn x).vp2 = s.vp2 := rfl
@[simp] theorem withSioIn_agParams (x) : (s.withSioIn x).agParams = s.agParams := rfl
@[simp] theorem withSioIn_gs (x) : (s.withSioIn x).gs = s.gs := rfl
@[simp] theorem withSioIn_since (x) : (s.withSioIn x).since = s.since := rfl
@[simp] theorem withSioIn_ct (x) : (s.withSioIn x).ct = s.ct := rfl
@[simp] theorem withSioIn_pairs (x) : (s.withSioIn x).pairs = s.pairs := rfl
@[simp] theorem withSioIn_roleMoves (x) : (s.withSioIn x).roleMoves = s.roleMoves := rfl
@[simp] theorem withSioIn_mbx (x) : (s.withSioIn x).mbx = s.mbx := rfl
@[simp] theorem withSioIn_retFlag (x) : (s.withSioIn x).retFlag = s.retFlag := rfl
@[simp] theorem withSioIn_fc (x) : (s.withSioIn x).fc = s.fc := rfl
@[simp] theorem withSioIn_wd (x) : (s.withSioIn x).wd = s.wd := rfl
@[simp] theorem withSioIn_dma (x) : (s.withSioIn x).dma = s.dma := rfl
@[simp] theorem withSioIn_tm (x) : (s.withSioIn x).tm = s.tm := rfl
@[simp] theorem withSioIn_eth (x) : (s.withSioIn x).eth = s.eth := rfl
@[simp] theorem withSioIn_ibi (x) : (s.withSioIn x).ibi = s.ibi := rfl
@[simp] theorem withSioIn_i3c (x) : (s.withSioIn x).i3c = s.i3c := rfl
@[simp] theorem withSioIn_xsp (x) : (s.withSioIn x).xsp = s.xsp := rfl
@[simp] theorem withSioIn_hostIrq (x) : (s.withSioIn x).hostIrq = s.hostIrq := rfl
@[simp] theorem withSioIn_ml (x) : (s.withSioIn x).ml = s.ml := rfl
@[simp] theorem withSioIn_sec (x) : (s.withSioIn x).sec = s.sec := rfl
@[simp] theorem withSioIn_boot (x) : (s.withSioIn x).boot = s.boot := rfl
@[simp] theorem withSioIn_flash (x) : (s.withSioIn x).flash = s.flash := rfl
@[simp] theorem withSioIn_dieReset (x) : (s.withSioIn x).dieReset = s.dieReset := rfl
@[simp] theorem withSioIn_holds (x) : (s.withSioIn x).holds = s.holds := rfl
@[simp] theorem withSioIn_railsLow (x) : (s.withSioIn x).railsLow = s.railsLow := rfl
@[simp] theorem withSioIn_committed (x) : (s.withSioIn x).committed = s.committed := rfl
@[simp] theorem withSioIn_spsTick (x) : (s.withSioIn x).spsTick = s.spsTick := rfl
@[simp] theorem withSioIn_protect (x) : (s.withSioIn x).protect = s.protect := rfl
@[simp] theorem withSioIn_sioOut (x) : (s.withSioIn x).sioOut = s.sioOut := rfl
@[simp] theorem withSioIn_accCmd (x) : (s.withSioIn x).accCmd = s.accCmd := rfl
@[simp] theorem withSioIn_lb (x) : (s.withSioIn x).lb = s.lb := rfl
@[simp] theorem withSioIn_jtag (x) : (s.withSioIn x).jtag = s.jtag := rfl
@[simp] theorem withSioIn_boundary (x) : (s.withSioIn x).boundary = s.boundary := rfl

/-! ### What `withSioOut` leaves -/

@[simp] theorem withSioOut_pending (x) : (s.withSioOut x).pending = s.pending := rfl
@[simp] theorem withSioOut_tick (x) : (s.withSioOut x).tick = s.tick := rfl
@[simp] theorem withSioOut_free (x) : (s.withSioOut x).free = s.free := rfl
@[simp] theorem withSioOut_regs (x) : (s.withSioOut x).regs = s.regs := rfl
@[simp] theorem withSioOut_latch (x) : (s.withSioOut x).latch = s.latch := rfl
@[simp] theorem withSioOut_held (x) : (s.withSioOut x).held = s.held := rfl
@[simp] theorem withSioOut_mem (x) : (s.withSioOut x).mem = s.mem := rfl
@[simp] theorem withSioOut_lost (x) : (s.withSioOut x).lost = s.lost := rfl
@[simp] theorem withSioOut_g6Hot (x) : (s.withSioOut x).g6Hot = s.g6Hot := rfl
@[simp] theorem withSioOut_resp (x) : (s.withSioOut x).resp = s.resp := rfl
@[simp] theorem withSioOut_rdata (x) : (s.withSioOut x).rdata = s.rdata := rfl
@[simp] theorem withSioOut_evt (x) : (s.withSioOut x).evt = s.evt := rfl
@[simp] theorem withSioOut_vdBusy (x) : (s.withSioOut x).vdBusy = s.vdBusy := rfl
@[simp] theorem withSioOut_soutReq (x) : (s.withSioOut x).soutReq = s.soutReq := rfl
@[simp] theorem withSioOut_enabled (x) : (s.withSioOut x).enabled = s.enabled := rfl
@[simp] theorem withSioOut_ctxs (x) : (s.withSioOut x).ctxs = s.ctxs := rfl
@[simp] theorem withSioOut_accSeq (x) : (s.withSioOut x).accSeq = s.accSeq := rfl
@[simp] theorem withSioOut_verdict (x) : (s.withSioOut x).verdict = s.verdict := rfl
@[simp] theorem withSioOut_cin (x) : (s.withSioOut x).cin = s.cin := rfl
@[simp] theorem withSioOut_slots (x) : (s.withSioOut x).slots = s.slots := rfl
@[simp] theorem withSioOut_tx (x) : (s.withSioOut x).tx = s.tx := rfl
@[simp] theorem withSioOut_plibBad (x) : (s.withSioOut x).plibBad = s.plibBad := rfl
@[simp] theorem withSioOut_evOpen (x) : (s.withSioOut x).evOpen = s.evOpen := rfl
@[simp] theorem withSioOut_evSlots (x) : (s.withSioOut x).evSlots = s.evSlots := rfl
@[simp] theorem withSioOut_evTimer (x) : (s.withSioOut x).evTimer = s.evTimer := rfl
@[simp] theorem withSioOut_evTimerOn (x) : (s.withSioOut x).evTimerOn = s.evTimerOn := rfl
@[simp] theorem withSioOut_harts (x) : (s.withSioOut x).harts = s.harts := rfl
@[simp] theorem withSioOut_instret (x) : (s.withSioOut x).instret = s.instret := rfl
@[simp] theorem withSioOut_vp2 (x) : (s.withSioOut x).vp2 = s.vp2 := rfl
@[simp] theorem withSioOut_agParams (x) : (s.withSioOut x).agParams = s.agParams := rfl
@[simp] theorem withSioOut_gs (x) : (s.withSioOut x).gs = s.gs := rfl
@[simp] theorem withSioOut_since (x) : (s.withSioOut x).since = s.since := rfl
@[simp] theorem withSioOut_ct (x) : (s.withSioOut x).ct = s.ct := rfl
@[simp] theorem withSioOut_pairs (x) : (s.withSioOut x).pairs = s.pairs := rfl
@[simp] theorem withSioOut_roleMoves (x) : (s.withSioOut x).roleMoves = s.roleMoves := rfl
@[simp] theorem withSioOut_mbx (x) : (s.withSioOut x).mbx = s.mbx := rfl
@[simp] theorem withSioOut_retFlag (x) : (s.withSioOut x).retFlag = s.retFlag := rfl
@[simp] theorem withSioOut_fc (x) : (s.withSioOut x).fc = s.fc := rfl
@[simp] theorem withSioOut_wd (x) : (s.withSioOut x).wd = s.wd := rfl
@[simp] theorem withSioOut_dma (x) : (s.withSioOut x).dma = s.dma := rfl
@[simp] theorem withSioOut_tm (x) : (s.withSioOut x).tm = s.tm := rfl
@[simp] theorem withSioOut_eth (x) : (s.withSioOut x).eth = s.eth := rfl
@[simp] theorem withSioOut_ibi (x) : (s.withSioOut x).ibi = s.ibi := rfl
@[simp] theorem withSioOut_i3c (x) : (s.withSioOut x).i3c = s.i3c := rfl
@[simp] theorem withSioOut_xsp (x) : (s.withSioOut x).xsp = s.xsp := rfl
@[simp] theorem withSioOut_hostIrq (x) : (s.withSioOut x).hostIrq = s.hostIrq := rfl
@[simp] theorem withSioOut_ml (x) : (s.withSioOut x).ml = s.ml := rfl
@[simp] theorem withSioOut_sec (x) : (s.withSioOut x).sec = s.sec := rfl
@[simp] theorem withSioOut_boot (x) : (s.withSioOut x).boot = s.boot := rfl
@[simp] theorem withSioOut_flash (x) : (s.withSioOut x).flash = s.flash := rfl
@[simp] theorem withSioOut_dieReset (x) : (s.withSioOut x).dieReset = s.dieReset := rfl
@[simp] theorem withSioOut_holds (x) : (s.withSioOut x).holds = s.holds := rfl
@[simp] theorem withSioOut_railsLow (x) : (s.withSioOut x).railsLow = s.railsLow := rfl
@[simp] theorem withSioOut_committed (x) : (s.withSioOut x).committed = s.committed := rfl
@[simp] theorem withSioOut_spsTick (x) : (s.withSioOut x).spsTick = s.spsTick := rfl
@[simp] theorem withSioOut_protect (x) : (s.withSioOut x).protect = s.protect := rfl
@[simp] theorem withSioOut_sioIn (x) : (s.withSioOut x).sioIn = s.sioIn := rfl
@[simp] theorem withSioOut_accCmd (x) : (s.withSioOut x).accCmd = s.accCmd := rfl
@[simp] theorem withSioOut_lb (x) : (s.withSioOut x).lb = s.lb := rfl
@[simp] theorem withSioOut_jtag (x) : (s.withSioOut x).jtag = s.jtag := rfl
@[simp] theorem withSioOut_boundary (x) : (s.withSioOut x).boundary = s.boundary := rfl

/-! ### What `withAccCmd` leaves -/

@[simp] theorem withAccCmd_pending (x) : (s.withAccCmd x).pending = s.pending := rfl
@[simp] theorem withAccCmd_tick (x) : (s.withAccCmd x).tick = s.tick := rfl
@[simp] theorem withAccCmd_free (x) : (s.withAccCmd x).free = s.free := rfl
@[simp] theorem withAccCmd_regs (x) : (s.withAccCmd x).regs = s.regs := rfl
@[simp] theorem withAccCmd_latch (x) : (s.withAccCmd x).latch = s.latch := rfl
@[simp] theorem withAccCmd_held (x) : (s.withAccCmd x).held = s.held := rfl
@[simp] theorem withAccCmd_mem (x) : (s.withAccCmd x).mem = s.mem := rfl
@[simp] theorem withAccCmd_lost (x) : (s.withAccCmd x).lost = s.lost := rfl
@[simp] theorem withAccCmd_g6Hot (x) : (s.withAccCmd x).g6Hot = s.g6Hot := rfl
@[simp] theorem withAccCmd_resp (x) : (s.withAccCmd x).resp = s.resp := rfl
@[simp] theorem withAccCmd_rdata (x) : (s.withAccCmd x).rdata = s.rdata := rfl
@[simp] theorem withAccCmd_evt (x) : (s.withAccCmd x).evt = s.evt := rfl
@[simp] theorem withAccCmd_vdBusy (x) : (s.withAccCmd x).vdBusy = s.vdBusy := rfl
@[simp] theorem withAccCmd_soutReq (x) : (s.withAccCmd x).soutReq = s.soutReq := rfl
@[simp] theorem withAccCmd_enabled (x) : (s.withAccCmd x).enabled = s.enabled := rfl
@[simp] theorem withAccCmd_ctxs (x) : (s.withAccCmd x).ctxs = s.ctxs := rfl
@[simp] theorem withAccCmd_accSeq (x) : (s.withAccCmd x).accSeq = s.accSeq := rfl
@[simp] theorem withAccCmd_verdict (x) : (s.withAccCmd x).verdict = s.verdict := rfl
@[simp] theorem withAccCmd_cin (x) : (s.withAccCmd x).cin = s.cin := rfl
@[simp] theorem withAccCmd_slots (x) : (s.withAccCmd x).slots = s.slots := rfl
@[simp] theorem withAccCmd_tx (x) : (s.withAccCmd x).tx = s.tx := rfl
@[simp] theorem withAccCmd_plibBad (x) : (s.withAccCmd x).plibBad = s.plibBad := rfl
@[simp] theorem withAccCmd_evOpen (x) : (s.withAccCmd x).evOpen = s.evOpen := rfl
@[simp] theorem withAccCmd_evSlots (x) : (s.withAccCmd x).evSlots = s.evSlots := rfl
@[simp] theorem withAccCmd_evTimer (x) : (s.withAccCmd x).evTimer = s.evTimer := rfl
@[simp] theorem withAccCmd_evTimerOn (x) : (s.withAccCmd x).evTimerOn = s.evTimerOn := rfl
@[simp] theorem withAccCmd_harts (x) : (s.withAccCmd x).harts = s.harts := rfl
@[simp] theorem withAccCmd_instret (x) : (s.withAccCmd x).instret = s.instret := rfl
@[simp] theorem withAccCmd_vp2 (x) : (s.withAccCmd x).vp2 = s.vp2 := rfl
@[simp] theorem withAccCmd_agParams (x) : (s.withAccCmd x).agParams = s.agParams := rfl
@[simp] theorem withAccCmd_gs (x) : (s.withAccCmd x).gs = s.gs := rfl
@[simp] theorem withAccCmd_since (x) : (s.withAccCmd x).since = s.since := rfl
@[simp] theorem withAccCmd_ct (x) : (s.withAccCmd x).ct = s.ct := rfl
@[simp] theorem withAccCmd_pairs (x) : (s.withAccCmd x).pairs = s.pairs := rfl
@[simp] theorem withAccCmd_roleMoves (x) : (s.withAccCmd x).roleMoves = s.roleMoves := rfl
@[simp] theorem withAccCmd_mbx (x) : (s.withAccCmd x).mbx = s.mbx := rfl
@[simp] theorem withAccCmd_retFlag (x) : (s.withAccCmd x).retFlag = s.retFlag := rfl
@[simp] theorem withAccCmd_fc (x) : (s.withAccCmd x).fc = s.fc := rfl
@[simp] theorem withAccCmd_wd (x) : (s.withAccCmd x).wd = s.wd := rfl
@[simp] theorem withAccCmd_dma (x) : (s.withAccCmd x).dma = s.dma := rfl
@[simp] theorem withAccCmd_tm (x) : (s.withAccCmd x).tm = s.tm := rfl
@[simp] theorem withAccCmd_eth (x) : (s.withAccCmd x).eth = s.eth := rfl
@[simp] theorem withAccCmd_ibi (x) : (s.withAccCmd x).ibi = s.ibi := rfl
@[simp] theorem withAccCmd_i3c (x) : (s.withAccCmd x).i3c = s.i3c := rfl
@[simp] theorem withAccCmd_xsp (x) : (s.withAccCmd x).xsp = s.xsp := rfl
@[simp] theorem withAccCmd_hostIrq (x) : (s.withAccCmd x).hostIrq = s.hostIrq := rfl
@[simp] theorem withAccCmd_ml (x) : (s.withAccCmd x).ml = s.ml := rfl
@[simp] theorem withAccCmd_sec (x) : (s.withAccCmd x).sec = s.sec := rfl
@[simp] theorem withAccCmd_boot (x) : (s.withAccCmd x).boot = s.boot := rfl
@[simp] theorem withAccCmd_flash (x) : (s.withAccCmd x).flash = s.flash := rfl
@[simp] theorem withAccCmd_dieReset (x) : (s.withAccCmd x).dieReset = s.dieReset := rfl
@[simp] theorem withAccCmd_holds (x) : (s.withAccCmd x).holds = s.holds := rfl
@[simp] theorem withAccCmd_railsLow (x) : (s.withAccCmd x).railsLow = s.railsLow := rfl
@[simp] theorem withAccCmd_committed (x) : (s.withAccCmd x).committed = s.committed := rfl
@[simp] theorem withAccCmd_spsTick (x) : (s.withAccCmd x).spsTick = s.spsTick := rfl
@[simp] theorem withAccCmd_protect (x) : (s.withAccCmd x).protect = s.protect := rfl
@[simp] theorem withAccCmd_sioIn (x) : (s.withAccCmd x).sioIn = s.sioIn := rfl
@[simp] theorem withAccCmd_sioOut (x) : (s.withAccCmd x).sioOut = s.sioOut := rfl
@[simp] theorem withAccCmd_lb (x) : (s.withAccCmd x).lb = s.lb := rfl
@[simp] theorem withAccCmd_jtag (x) : (s.withAccCmd x).jtag = s.jtag := rfl
@[simp] theorem withAccCmd_boundary (x) : (s.withAccCmd x).boundary = s.boundary := rfl

/-! ### What `withLb` leaves -/

@[simp] theorem withLb_pending (x) : (s.withLb x).pending = s.pending := rfl
@[simp] theorem withLb_tick (x) : (s.withLb x).tick = s.tick := rfl
@[simp] theorem withLb_free (x) : (s.withLb x).free = s.free := rfl
@[simp] theorem withLb_regs (x) : (s.withLb x).regs = s.regs := rfl
@[simp] theorem withLb_latch (x) : (s.withLb x).latch = s.latch := rfl
@[simp] theorem withLb_held (x) : (s.withLb x).held = s.held := rfl
@[simp] theorem withLb_mem (x) : (s.withLb x).mem = s.mem := rfl
@[simp] theorem withLb_lost (x) : (s.withLb x).lost = s.lost := rfl
@[simp] theorem withLb_g6Hot (x) : (s.withLb x).g6Hot = s.g6Hot := rfl
@[simp] theorem withLb_resp (x) : (s.withLb x).resp = s.resp := rfl
@[simp] theorem withLb_rdata (x) : (s.withLb x).rdata = s.rdata := rfl
@[simp] theorem withLb_evt (x) : (s.withLb x).evt = s.evt := rfl
@[simp] theorem withLb_vdBusy (x) : (s.withLb x).vdBusy = s.vdBusy := rfl
@[simp] theorem withLb_soutReq (x) : (s.withLb x).soutReq = s.soutReq := rfl
@[simp] theorem withLb_enabled (x) : (s.withLb x).enabled = s.enabled := rfl
@[simp] theorem withLb_ctxs (x) : (s.withLb x).ctxs = s.ctxs := rfl
@[simp] theorem withLb_accSeq (x) : (s.withLb x).accSeq = s.accSeq := rfl
@[simp] theorem withLb_verdict (x) : (s.withLb x).verdict = s.verdict := rfl
@[simp] theorem withLb_cin (x) : (s.withLb x).cin = s.cin := rfl
@[simp] theorem withLb_slots (x) : (s.withLb x).slots = s.slots := rfl
@[simp] theorem withLb_tx (x) : (s.withLb x).tx = s.tx := rfl
@[simp] theorem withLb_plibBad (x) : (s.withLb x).plibBad = s.plibBad := rfl
@[simp] theorem withLb_evOpen (x) : (s.withLb x).evOpen = s.evOpen := rfl
@[simp] theorem withLb_evSlots (x) : (s.withLb x).evSlots = s.evSlots := rfl
@[simp] theorem withLb_evTimer (x) : (s.withLb x).evTimer = s.evTimer := rfl
@[simp] theorem withLb_evTimerOn (x) : (s.withLb x).evTimerOn = s.evTimerOn := rfl
@[simp] theorem withLb_harts (x) : (s.withLb x).harts = s.harts := rfl
@[simp] theorem withLb_instret (x) : (s.withLb x).instret = s.instret := rfl
@[simp] theorem withLb_vp2 (x) : (s.withLb x).vp2 = s.vp2 := rfl
@[simp] theorem withLb_agParams (x) : (s.withLb x).agParams = s.agParams := rfl
@[simp] theorem withLb_gs (x) : (s.withLb x).gs = s.gs := rfl
@[simp] theorem withLb_since (x) : (s.withLb x).since = s.since := rfl
@[simp] theorem withLb_ct (x) : (s.withLb x).ct = s.ct := rfl
@[simp] theorem withLb_pairs (x) : (s.withLb x).pairs = s.pairs := rfl
@[simp] theorem withLb_roleMoves (x) : (s.withLb x).roleMoves = s.roleMoves := rfl
@[simp] theorem withLb_mbx (x) : (s.withLb x).mbx = s.mbx := rfl
@[simp] theorem withLb_retFlag (x) : (s.withLb x).retFlag = s.retFlag := rfl
@[simp] theorem withLb_fc (x) : (s.withLb x).fc = s.fc := rfl
@[simp] theorem withLb_wd (x) : (s.withLb x).wd = s.wd := rfl
@[simp] theorem withLb_dma (x) : (s.withLb x).dma = s.dma := rfl
@[simp] theorem withLb_tm (x) : (s.withLb x).tm = s.tm := rfl
@[simp] theorem withLb_eth (x) : (s.withLb x).eth = s.eth := rfl
@[simp] theorem withLb_ibi (x) : (s.withLb x).ibi = s.ibi := rfl
@[simp] theorem withLb_i3c (x) : (s.withLb x).i3c = s.i3c := rfl
@[simp] theorem withLb_xsp (x) : (s.withLb x).xsp = s.xsp := rfl
@[simp] theorem withLb_hostIrq (x) : (s.withLb x).hostIrq = s.hostIrq := rfl
@[simp] theorem withLb_ml (x) : (s.withLb x).ml = s.ml := rfl
@[simp] theorem withLb_sec (x) : (s.withLb x).sec = s.sec := rfl
@[simp] theorem withLb_boot (x) : (s.withLb x).boot = s.boot := rfl
@[simp] theorem withLb_flash (x) : (s.withLb x).flash = s.flash := rfl
@[simp] theorem withLb_dieReset (x) : (s.withLb x).dieReset = s.dieReset := rfl
@[simp] theorem withLb_holds (x) : (s.withLb x).holds = s.holds := rfl
@[simp] theorem withLb_railsLow (x) : (s.withLb x).railsLow = s.railsLow := rfl
@[simp] theorem withLb_committed (x) : (s.withLb x).committed = s.committed := rfl
@[simp] theorem withLb_spsTick (x) : (s.withLb x).spsTick = s.spsTick := rfl
@[simp] theorem withLb_protect (x) : (s.withLb x).protect = s.protect := rfl
@[simp] theorem withLb_sioIn (x) : (s.withLb x).sioIn = s.sioIn := rfl
@[simp] theorem withLb_sioOut (x) : (s.withLb x).sioOut = s.sioOut := rfl
@[simp] theorem withLb_accCmd (x) : (s.withLb x).accCmd = s.accCmd := rfl
@[simp] theorem withLb_jtag (x) : (s.withLb x).jtag = s.jtag := rfl
@[simp] theorem withLb_boundary (x) : (s.withLb x).boundary = s.boundary := rfl

/-! ### What `withJtag` leaves -/

@[simp] theorem withJtag_pending (x) : (s.withJtag x).pending = s.pending := rfl
@[simp] theorem withJtag_tick (x) : (s.withJtag x).tick = s.tick := rfl
@[simp] theorem withJtag_free (x) : (s.withJtag x).free = s.free := rfl
@[simp] theorem withJtag_regs (x) : (s.withJtag x).regs = s.regs := rfl
@[simp] theorem withJtag_latch (x) : (s.withJtag x).latch = s.latch := rfl
@[simp] theorem withJtag_held (x) : (s.withJtag x).held = s.held := rfl
@[simp] theorem withJtag_mem (x) : (s.withJtag x).mem = s.mem := rfl
@[simp] theorem withJtag_lost (x) : (s.withJtag x).lost = s.lost := rfl
@[simp] theorem withJtag_g6Hot (x) : (s.withJtag x).g6Hot = s.g6Hot := rfl
@[simp] theorem withJtag_resp (x) : (s.withJtag x).resp = s.resp := rfl
@[simp] theorem withJtag_rdata (x) : (s.withJtag x).rdata = s.rdata := rfl
@[simp] theorem withJtag_evt (x) : (s.withJtag x).evt = s.evt := rfl
@[simp] theorem withJtag_vdBusy (x) : (s.withJtag x).vdBusy = s.vdBusy := rfl
@[simp] theorem withJtag_soutReq (x) : (s.withJtag x).soutReq = s.soutReq := rfl
@[simp] theorem withJtag_enabled (x) : (s.withJtag x).enabled = s.enabled := rfl
@[simp] theorem withJtag_ctxs (x) : (s.withJtag x).ctxs = s.ctxs := rfl
@[simp] theorem withJtag_accSeq (x) : (s.withJtag x).accSeq = s.accSeq := rfl
@[simp] theorem withJtag_verdict (x) : (s.withJtag x).verdict = s.verdict := rfl
@[simp] theorem withJtag_cin (x) : (s.withJtag x).cin = s.cin := rfl
@[simp] theorem withJtag_slots (x) : (s.withJtag x).slots = s.slots := rfl
@[simp] theorem withJtag_tx (x) : (s.withJtag x).tx = s.tx := rfl
@[simp] theorem withJtag_plibBad (x) : (s.withJtag x).plibBad = s.plibBad := rfl
@[simp] theorem withJtag_evOpen (x) : (s.withJtag x).evOpen = s.evOpen := rfl
@[simp] theorem withJtag_evSlots (x) : (s.withJtag x).evSlots = s.evSlots := rfl
@[simp] theorem withJtag_evTimer (x) : (s.withJtag x).evTimer = s.evTimer := rfl
@[simp] theorem withJtag_evTimerOn (x) : (s.withJtag x).evTimerOn = s.evTimerOn := rfl
@[simp] theorem withJtag_harts (x) : (s.withJtag x).harts = s.harts := rfl
@[simp] theorem withJtag_instret (x) : (s.withJtag x).instret = s.instret := rfl
@[simp] theorem withJtag_vp2 (x) : (s.withJtag x).vp2 = s.vp2 := rfl
@[simp] theorem withJtag_agParams (x) : (s.withJtag x).agParams = s.agParams := rfl
@[simp] theorem withJtag_gs (x) : (s.withJtag x).gs = s.gs := rfl
@[simp] theorem withJtag_since (x) : (s.withJtag x).since = s.since := rfl
@[simp] theorem withJtag_ct (x) : (s.withJtag x).ct = s.ct := rfl
@[simp] theorem withJtag_pairs (x) : (s.withJtag x).pairs = s.pairs := rfl
@[simp] theorem withJtag_roleMoves (x) : (s.withJtag x).roleMoves = s.roleMoves := rfl
@[simp] theorem withJtag_mbx (x) : (s.withJtag x).mbx = s.mbx := rfl
@[simp] theorem withJtag_retFlag (x) : (s.withJtag x).retFlag = s.retFlag := rfl
@[simp] theorem withJtag_fc (x) : (s.withJtag x).fc = s.fc := rfl
@[simp] theorem withJtag_wd (x) : (s.withJtag x).wd = s.wd := rfl
@[simp] theorem withJtag_dma (x) : (s.withJtag x).dma = s.dma := rfl
@[simp] theorem withJtag_tm (x) : (s.withJtag x).tm = s.tm := rfl
@[simp] theorem withJtag_eth (x) : (s.withJtag x).eth = s.eth := rfl
@[simp] theorem withJtag_ibi (x) : (s.withJtag x).ibi = s.ibi := rfl
@[simp] theorem withJtag_i3c (x) : (s.withJtag x).i3c = s.i3c := rfl
@[simp] theorem withJtag_xsp (x) : (s.withJtag x).xsp = s.xsp := rfl
@[simp] theorem withJtag_hostIrq (x) : (s.withJtag x).hostIrq = s.hostIrq := rfl
@[simp] theorem withJtag_ml (x) : (s.withJtag x).ml = s.ml := rfl
@[simp] theorem withJtag_sec (x) : (s.withJtag x).sec = s.sec := rfl
@[simp] theorem withJtag_boot (x) : (s.withJtag x).boot = s.boot := rfl
@[simp] theorem withJtag_flash (x) : (s.withJtag x).flash = s.flash := rfl
@[simp] theorem withJtag_dieReset (x) : (s.withJtag x).dieReset = s.dieReset := rfl
@[simp] theorem withJtag_holds (x) : (s.withJtag x).holds = s.holds := rfl
@[simp] theorem withJtag_railsLow (x) : (s.withJtag x).railsLow = s.railsLow := rfl
@[simp] theorem withJtag_committed (x) : (s.withJtag x).committed = s.committed := rfl
@[simp] theorem withJtag_spsTick (x) : (s.withJtag x).spsTick = s.spsTick := rfl
@[simp] theorem withJtag_protect (x) : (s.withJtag x).protect = s.protect := rfl
@[simp] theorem withJtag_sioIn (x) : (s.withJtag x).sioIn = s.sioIn := rfl
@[simp] theorem withJtag_sioOut (x) : (s.withJtag x).sioOut = s.sioOut := rfl
@[simp] theorem withJtag_accCmd (x) : (s.withJtag x).accCmd = s.accCmd := rfl
@[simp] theorem withJtag_lb (x) : (s.withJtag x).lb = s.lb := rfl
@[simp] theorem withJtag_boundary (x) : (s.withJtag x).boundary = s.boundary := rfl

/-! ### What `withBoundary` leaves -/

@[simp] theorem withBoundary_pending (x) : (s.withBoundary x).pending = s.pending := rfl
@[simp] theorem withBoundary_tick (x) : (s.withBoundary x).tick = s.tick := rfl
@[simp] theorem withBoundary_free (x) : (s.withBoundary x).free = s.free := rfl
@[simp] theorem withBoundary_regs (x) : (s.withBoundary x).regs = s.regs := rfl
@[simp] theorem withBoundary_latch (x) : (s.withBoundary x).latch = s.latch := rfl
@[simp] theorem withBoundary_held (x) : (s.withBoundary x).held = s.held := rfl
@[simp] theorem withBoundary_mem (x) : (s.withBoundary x).mem = s.mem := rfl
@[simp] theorem withBoundary_lost (x) : (s.withBoundary x).lost = s.lost := rfl
@[simp] theorem withBoundary_g6Hot (x) : (s.withBoundary x).g6Hot = s.g6Hot := rfl
@[simp] theorem withBoundary_resp (x) : (s.withBoundary x).resp = s.resp := rfl
@[simp] theorem withBoundary_rdata (x) : (s.withBoundary x).rdata = s.rdata := rfl
@[simp] theorem withBoundary_evt (x) : (s.withBoundary x).evt = s.evt := rfl
@[simp] theorem withBoundary_vdBusy (x) : (s.withBoundary x).vdBusy = s.vdBusy := rfl
@[simp] theorem withBoundary_soutReq (x) : (s.withBoundary x).soutReq = s.soutReq := rfl
@[simp] theorem withBoundary_enabled (x) : (s.withBoundary x).enabled = s.enabled := rfl
@[simp] theorem withBoundary_ctxs (x) : (s.withBoundary x).ctxs = s.ctxs := rfl
@[simp] theorem withBoundary_accSeq (x) : (s.withBoundary x).accSeq = s.accSeq := rfl
@[simp] theorem withBoundary_verdict (x) : (s.withBoundary x).verdict = s.verdict := rfl
@[simp] theorem withBoundary_cin (x) : (s.withBoundary x).cin = s.cin := rfl
@[simp] theorem withBoundary_slots (x) : (s.withBoundary x).slots = s.slots := rfl
@[simp] theorem withBoundary_tx (x) : (s.withBoundary x).tx = s.tx := rfl
@[simp] theorem withBoundary_plibBad (x) : (s.withBoundary x).plibBad = s.plibBad := rfl
@[simp] theorem withBoundary_evOpen (x) : (s.withBoundary x).evOpen = s.evOpen := rfl
@[simp] theorem withBoundary_evSlots (x) : (s.withBoundary x).evSlots = s.evSlots := rfl
@[simp] theorem withBoundary_evTimer (x) : (s.withBoundary x).evTimer = s.evTimer := rfl
@[simp] theorem withBoundary_evTimerOn (x) : (s.withBoundary x).evTimerOn = s.evTimerOn := rfl
@[simp] theorem withBoundary_harts (x) : (s.withBoundary x).harts = s.harts := rfl
@[simp] theorem withBoundary_instret (x) : (s.withBoundary x).instret = s.instret := rfl
@[simp] theorem withBoundary_vp2 (x) : (s.withBoundary x).vp2 = s.vp2 := rfl
@[simp] theorem withBoundary_agParams (x) : (s.withBoundary x).agParams = s.agParams := rfl
@[simp] theorem withBoundary_gs (x) : (s.withBoundary x).gs = s.gs := rfl
@[simp] theorem withBoundary_since (x) : (s.withBoundary x).since = s.since := rfl
@[simp] theorem withBoundary_ct (x) : (s.withBoundary x).ct = s.ct := rfl
@[simp] theorem withBoundary_pairs (x) : (s.withBoundary x).pairs = s.pairs := rfl
@[simp] theorem withBoundary_roleMoves (x) : (s.withBoundary x).roleMoves = s.roleMoves := rfl
@[simp] theorem withBoundary_mbx (x) : (s.withBoundary x).mbx = s.mbx := rfl
@[simp] theorem withBoundary_retFlag (x) : (s.withBoundary x).retFlag = s.retFlag := rfl
@[simp] theorem withBoundary_fc (x) : (s.withBoundary x).fc = s.fc := rfl
@[simp] theorem withBoundary_wd (x) : (s.withBoundary x).wd = s.wd := rfl
@[simp] theorem withBoundary_dma (x) : (s.withBoundary x).dma = s.dma := rfl
@[simp] theorem withBoundary_tm (x) : (s.withBoundary x).tm = s.tm := rfl
@[simp] theorem withBoundary_eth (x) : (s.withBoundary x).eth = s.eth := rfl
@[simp] theorem withBoundary_ibi (x) : (s.withBoundary x).ibi = s.ibi := rfl
@[simp] theorem withBoundary_i3c (x) : (s.withBoundary x).i3c = s.i3c := rfl
@[simp] theorem withBoundary_xsp (x) : (s.withBoundary x).xsp = s.xsp := rfl
@[simp] theorem withBoundary_hostIrq (x) : (s.withBoundary x).hostIrq = s.hostIrq := rfl
@[simp] theorem withBoundary_ml (x) : (s.withBoundary x).ml = s.ml := rfl
@[simp] theorem withBoundary_sec (x) : (s.withBoundary x).sec = s.sec := rfl
@[simp] theorem withBoundary_boot (x) : (s.withBoundary x).boot = s.boot := rfl
@[simp] theorem withBoundary_flash (x) : (s.withBoundary x).flash = s.flash := rfl
@[simp] theorem withBoundary_dieReset (x) : (s.withBoundary x).dieReset = s.dieReset := rfl
@[simp] theorem withBoundary_holds (x) : (s.withBoundary x).holds = s.holds := rfl
@[simp] theorem withBoundary_railsLow (x) : (s.withBoundary x).railsLow = s.railsLow := rfl
@[simp] theorem withBoundary_committed (x) : (s.withBoundary x).committed = s.committed := rfl
@[simp] theorem withBoundary_spsTick (x) : (s.withBoundary x).spsTick = s.spsTick := rfl
@[simp] theorem withBoundary_protect (x) : (s.withBoundary x).protect = s.protect := rfl
@[simp] theorem withBoundary_sioIn (x) : (s.withBoundary x).sioIn = s.sioIn := rfl
@[simp] theorem withBoundary_sioOut (x) : (s.withBoundary x).sioOut = s.sioOut := rfl
@[simp] theorem withBoundary_accCmd (x) : (s.withBoundary x).accCmd = s.accCmd := rfl
@[simp] theorem withBoundary_lb (x) : (s.withBoundary x).lb = s.lb := rfl
@[simp] theorem withBoundary_jtag (x) : (s.withBoundary x).jtag = s.jtag := rfl

/-! ### What `withVdBusy` leaves -/

@[simp] theorem withVdBusy_pending (x : Option (Nat × Nat)) : (s.withVdBusy x).pending = s.pending := rfl
@[simp] theorem withVdBusy_tick (x : Option (Nat × Nat)) : (s.withVdBusy x).tick = s.tick := rfl
@[simp] theorem withVdBusy_free (x : Option (Nat × Nat)) : (s.withVdBusy x).free = s.free := rfl
@[simp] theorem withVdBusy_regs (x : Option (Nat × Nat)) : (s.withVdBusy x).regs = s.regs := rfl
@[simp] theorem withVdBusy_latch (x : Option (Nat × Nat)) : (s.withVdBusy x).latch = s.latch := rfl
@[simp] theorem withVdBusy_held (x : Option (Nat × Nat)) : (s.withVdBusy x).held = s.held := rfl
@[simp] theorem withVdBusy_mem (x : Option (Nat × Nat)) : (s.withVdBusy x).mem = s.mem := rfl
@[simp] theorem withVdBusy_lost (x : Option (Nat × Nat)) : (s.withVdBusy x).lost = s.lost := rfl
@[simp] theorem withVdBusy_g6Hot (x : Option (Nat × Nat)) : (s.withVdBusy x).g6Hot = s.g6Hot := rfl
@[simp] theorem withVdBusy_resp (x : Option (Nat × Nat)) : (s.withVdBusy x).resp = s.resp := rfl
@[simp] theorem withVdBusy_rdata (x : Option (Nat × Nat)) : (s.withVdBusy x).rdata = s.rdata := rfl
@[simp] theorem withVdBusy_evt (x : Option (Nat × Nat)) : (s.withVdBusy x).evt = s.evt := rfl
@[simp] theorem withVdBusy_soutReq (x : Option (Nat × Nat)) : (s.withVdBusy x).soutReq = s.soutReq := rfl
@[simp] theorem withVdBusy_enabled (x : Option (Nat × Nat)) : (s.withVdBusy x).enabled = s.enabled := rfl
@[simp] theorem withVdBusy_ctxs (x : Option (Nat × Nat)) : (s.withVdBusy x).ctxs = s.ctxs := rfl
@[simp] theorem withVdBusy_accSeq (x : Option (Nat × Nat)) : (s.withVdBusy x).accSeq = s.accSeq := rfl
@[simp] theorem withVdBusy_verdict (x : Option (Nat × Nat)) : (s.withVdBusy x).verdict = s.verdict := rfl
@[simp] theorem withVdBusy_cin (x : Option (Nat × Nat)) : (s.withVdBusy x).cin = s.cin := rfl
@[simp] theorem withVdBusy_slots (x : Option (Nat × Nat)) : (s.withVdBusy x).slots = s.slots := rfl
@[simp] theorem withVdBusy_tx (x : Option (Nat × Nat)) : (s.withVdBusy x).tx = s.tx := rfl
@[simp] theorem withVdBusy_plibBad (x : Option (Nat × Nat)) : (s.withVdBusy x).plibBad = s.plibBad := rfl
@[simp] theorem withVdBusy_evOpen (x : Option (Nat × Nat)) : (s.withVdBusy x).evOpen = s.evOpen := rfl
@[simp] theorem withVdBusy_evSlots (x : Option (Nat × Nat)) : (s.withVdBusy x).evSlots = s.evSlots := rfl
@[simp] theorem withVdBusy_evTimer (x : Option (Nat × Nat)) : (s.withVdBusy x).evTimer = s.evTimer := rfl
@[simp] theorem withVdBusy_evTimerOn (x : Option (Nat × Nat)) : (s.withVdBusy x).evTimerOn = s.evTimerOn := rfl
@[simp] theorem withVdBusy_harts (x : Option (Nat × Nat)) : (s.withVdBusy x).harts = s.harts := rfl
@[simp] theorem withVdBusy_instret (x : Option (Nat × Nat)) : (s.withVdBusy x).instret = s.instret := rfl
@[simp] theorem withVdBusy_vp2 (x : Option (Nat × Nat)) : (s.withVdBusy x).vp2 = s.vp2 := rfl
@[simp] theorem withVdBusy_agParams (x : Option (Nat × Nat)) : (s.withVdBusy x).agParams = s.agParams := rfl
@[simp] theorem withVdBusy_gs (x : Option (Nat × Nat)) : (s.withVdBusy x).gs = s.gs := rfl
@[simp] theorem withVdBusy_since (x : Option (Nat × Nat)) : (s.withVdBusy x).since = s.since := rfl
@[simp] theorem withVdBusy_ct (x : Option (Nat × Nat)) : (s.withVdBusy x).ct = s.ct := rfl
@[simp] theorem withVdBusy_pairs (x : Option (Nat × Nat)) : (s.withVdBusy x).pairs = s.pairs := rfl
@[simp] theorem withVdBusy_roleMoves (x : Option (Nat × Nat)) : (s.withVdBusy x).roleMoves = s.roleMoves := rfl
@[simp] theorem withVdBusy_mbx (x : Option (Nat × Nat)) : (s.withVdBusy x).mbx = s.mbx := rfl
@[simp] theorem withVdBusy_retFlag (x : Option (Nat × Nat)) : (s.withVdBusy x).retFlag = s.retFlag := rfl
@[simp] theorem withVdBusy_fc (x : Option (Nat × Nat)) : (s.withVdBusy x).fc = s.fc := rfl
@[simp] theorem withVdBusy_wd (x : Option (Nat × Nat)) : (s.withVdBusy x).wd = s.wd := rfl
@[simp] theorem withVdBusy_dma (x : Option (Nat × Nat)) : (s.withVdBusy x).dma = s.dma := rfl
@[simp] theorem withVdBusy_tm (x : Option (Nat × Nat)) : (s.withVdBusy x).tm = s.tm := rfl
@[simp] theorem withVdBusy_eth (x : Option (Nat × Nat)) : (s.withVdBusy x).eth = s.eth := rfl
@[simp] theorem withVdBusy_ibi (x : Option (Nat × Nat)) : (s.withVdBusy x).ibi = s.ibi := rfl
@[simp] theorem withVdBusy_i3c (x : Option (Nat × Nat)) : (s.withVdBusy x).i3c = s.i3c := rfl
@[simp] theorem withVdBusy_xsp (x : Option (Nat × Nat)) : (s.withVdBusy x).xsp = s.xsp := rfl
@[simp] theorem withVdBusy_hostIrq (x : Option (Nat × Nat)) : (s.withVdBusy x).hostIrq = s.hostIrq := rfl
@[simp] theorem withVdBusy_ml (x : Option (Nat × Nat)) : (s.withVdBusy x).ml = s.ml := rfl
@[simp] theorem withVdBusy_sec (x : Option (Nat × Nat)) : (s.withVdBusy x).sec = s.sec := rfl
@[simp] theorem withVdBusy_boot (x : Option (Nat × Nat)) : (s.withVdBusy x).boot = s.boot := rfl
@[simp] theorem withVdBusy_flash (x : Option (Nat × Nat)) : (s.withVdBusy x).flash = s.flash := rfl
@[simp] theorem withVdBusy_dieReset (x : Option (Nat × Nat)) : (s.withVdBusy x).dieReset = s.dieReset := rfl
@[simp] theorem withVdBusy_holds (x : Option (Nat × Nat)) : (s.withVdBusy x).holds = s.holds := rfl
@[simp] theorem withVdBusy_railsLow (x : Option (Nat × Nat)) : (s.withVdBusy x).railsLow = s.railsLow := rfl
@[simp] theorem withVdBusy_committed (x : Option (Nat × Nat)) : (s.withVdBusy x).committed = s.committed := rfl
@[simp] theorem withVdBusy_spsTick (x : Option (Nat × Nat)) : (s.withVdBusy x).spsTick = s.spsTick := rfl
@[simp] theorem withVdBusy_protect (x : Option (Nat × Nat)) : (s.withVdBusy x).protect = s.protect := rfl
@[simp] theorem withVdBusy_sioIn (x : Option (Nat × Nat)) : (s.withVdBusy x).sioIn = s.sioIn := rfl
@[simp] theorem withVdBusy_sioOut (x : Option (Nat × Nat)) : (s.withVdBusy x).sioOut = s.sioOut := rfl
@[simp] theorem withVdBusy_accCmd (x : Option (Nat × Nat)) : (s.withVdBusy x).accCmd = s.accCmd := rfl
@[simp] theorem withVdBusy_lb (x : Option (Nat × Nat)) : (s.withVdBusy x).lb = s.lb := rfl
@[simp] theorem withVdBusy_jtag (x : Option (Nat × Nat)) : (s.withVdBusy x).jtag = s.jtag := rfl
@[simp] theorem withVdBusy_boundary (x : Option (Nat × Nat)) : (s.withVdBusy x).boundary = s.boundary := rfl

/-! ### What `withTx` leaves -/

@[simp] theorem withTx_pending (x : List TxPkt) : (s.withTx x).pending = s.pending := rfl
@[simp] theorem withTx_tick (x : List TxPkt) : (s.withTx x).tick = s.tick := rfl
@[simp] theorem withTx_free (x : List TxPkt) : (s.withTx x).free = s.free := rfl
@[simp] theorem withTx_regs (x : List TxPkt) : (s.withTx x).regs = s.regs := rfl
@[simp] theorem withTx_latch (x : List TxPkt) : (s.withTx x).latch = s.latch := rfl
@[simp] theorem withTx_held (x : List TxPkt) : (s.withTx x).held = s.held := rfl
@[simp] theorem withTx_mem (x : List TxPkt) : (s.withTx x).mem = s.mem := rfl
@[simp] theorem withTx_lost (x : List TxPkt) : (s.withTx x).lost = s.lost := rfl
@[simp] theorem withTx_g6Hot (x : List TxPkt) : (s.withTx x).g6Hot = s.g6Hot := rfl
@[simp] theorem withTx_resp (x : List TxPkt) : (s.withTx x).resp = s.resp := rfl
@[simp] theorem withTx_rdata (x : List TxPkt) : (s.withTx x).rdata = s.rdata := rfl
@[simp] theorem withTx_evt (x : List TxPkt) : (s.withTx x).evt = s.evt := rfl
@[simp] theorem withTx_vdBusy (x : List TxPkt) : (s.withTx x).vdBusy = s.vdBusy := rfl
@[simp] theorem withTx_soutReq (x : List TxPkt) : (s.withTx x).soutReq = s.soutReq := rfl
@[simp] theorem withTx_enabled (x : List TxPkt) : (s.withTx x).enabled = s.enabled := rfl
@[simp] theorem withTx_ctxs (x : List TxPkt) : (s.withTx x).ctxs = s.ctxs := rfl
@[simp] theorem withTx_accSeq (x : List TxPkt) : (s.withTx x).accSeq = s.accSeq := rfl
@[simp] theorem withTx_verdict (x : List TxPkt) : (s.withTx x).verdict = s.verdict := rfl
@[simp] theorem withTx_cin (x : List TxPkt) : (s.withTx x).cin = s.cin := rfl
@[simp] theorem withTx_slots (x : List TxPkt) : (s.withTx x).slots = s.slots := rfl
@[simp] theorem withTx_plibBad (x : List TxPkt) : (s.withTx x).plibBad = s.plibBad := rfl
@[simp] theorem withTx_evOpen (x : List TxPkt) : (s.withTx x).evOpen = s.evOpen := rfl
@[simp] theorem withTx_evSlots (x : List TxPkt) : (s.withTx x).evSlots = s.evSlots := rfl
@[simp] theorem withTx_evTimer (x : List TxPkt) : (s.withTx x).evTimer = s.evTimer := rfl
@[simp] theorem withTx_evTimerOn (x : List TxPkt) : (s.withTx x).evTimerOn = s.evTimerOn := rfl
@[simp] theorem withTx_harts (x : List TxPkt) : (s.withTx x).harts = s.harts := rfl
@[simp] theorem withTx_instret (x : List TxPkt) : (s.withTx x).instret = s.instret := rfl
@[simp] theorem withTx_vp2 (x : List TxPkt) : (s.withTx x).vp2 = s.vp2 := rfl
@[simp] theorem withTx_agParams (x : List TxPkt) : (s.withTx x).agParams = s.agParams := rfl
@[simp] theorem withTx_gs (x : List TxPkt) : (s.withTx x).gs = s.gs := rfl
@[simp] theorem withTx_since (x : List TxPkt) : (s.withTx x).since = s.since := rfl
@[simp] theorem withTx_ct (x : List TxPkt) : (s.withTx x).ct = s.ct := rfl
@[simp] theorem withTx_pairs (x : List TxPkt) : (s.withTx x).pairs = s.pairs := rfl
@[simp] theorem withTx_roleMoves (x : List TxPkt) : (s.withTx x).roleMoves = s.roleMoves := rfl
@[simp] theorem withTx_mbx (x : List TxPkt) : (s.withTx x).mbx = s.mbx := rfl
@[simp] theorem withTx_retFlag (x : List TxPkt) : (s.withTx x).retFlag = s.retFlag := rfl
@[simp] theorem withTx_fc (x : List TxPkt) : (s.withTx x).fc = s.fc := rfl
@[simp] theorem withTx_wd (x : List TxPkt) : (s.withTx x).wd = s.wd := rfl
@[simp] theorem withTx_dma (x : List TxPkt) : (s.withTx x).dma = s.dma := rfl
@[simp] theorem withTx_tm (x : List TxPkt) : (s.withTx x).tm = s.tm := rfl
@[simp] theorem withTx_eth (x : List TxPkt) : (s.withTx x).eth = s.eth := rfl
@[simp] theorem withTx_ibi (x : List TxPkt) : (s.withTx x).ibi = s.ibi := rfl
@[simp] theorem withTx_i3c (x : List TxPkt) : (s.withTx x).i3c = s.i3c := rfl
@[simp] theorem withTx_xsp (x : List TxPkt) : (s.withTx x).xsp = s.xsp := rfl
@[simp] theorem withTx_hostIrq (x : List TxPkt) : (s.withTx x).hostIrq = s.hostIrq := rfl
@[simp] theorem withTx_ml (x : List TxPkt) : (s.withTx x).ml = s.ml := rfl
@[simp] theorem withTx_sec (x : List TxPkt) : (s.withTx x).sec = s.sec := rfl
@[simp] theorem withTx_boot (x : List TxPkt) : (s.withTx x).boot = s.boot := rfl
@[simp] theorem withTx_flash (x : List TxPkt) : (s.withTx x).flash = s.flash := rfl
@[simp] theorem withTx_dieReset (x : List TxPkt) : (s.withTx x).dieReset = s.dieReset := rfl
@[simp] theorem withTx_holds (x : List TxPkt) : (s.withTx x).holds = s.holds := rfl
@[simp] theorem withTx_railsLow (x : List TxPkt) : (s.withTx x).railsLow = s.railsLow := rfl
@[simp] theorem withTx_committed (x : List TxPkt) : (s.withTx x).committed = s.committed := rfl
@[simp] theorem withTx_spsTick (x : List TxPkt) : (s.withTx x).spsTick = s.spsTick := rfl
@[simp] theorem withTx_protect (x : List TxPkt) : (s.withTx x).protect = s.protect := rfl
@[simp] theorem withTx_sioIn (x : List TxPkt) : (s.withTx x).sioIn = s.sioIn := rfl
@[simp] theorem withTx_sioOut (x : List TxPkt) : (s.withTx x).sioOut = s.sioOut := rfl
@[simp] theorem withTx_accCmd (x : List TxPkt) : (s.withTx x).accCmd = s.accCmd := rfl
@[simp] theorem withTx_lb (x : List TxPkt) : (s.withTx x).lb = s.lb := rfl
@[simp] theorem withTx_jtag (x : List TxPkt) : (s.withTx x).jtag = s.jtag := rfl
@[simp] theorem withTx_boundary (x : List TxPkt) : (s.withTx x).boundary = s.boundary := rfl

/-! ### What `freshRet` leaves -/

@[simp] theorem freshRet_pending (o : Nat) : (s.freshRet o).pending = s.pending := rfl
@[simp] theorem freshRet_tick (o : Nat) : (s.freshRet o).tick = s.tick := rfl
@[simp] theorem freshRet_free (o : Nat) : (s.freshRet o).free = s.free := rfl
@[simp] theorem freshRet_regs (o : Nat) : (s.freshRet o).regs = s.regs := rfl
@[simp] theorem freshRet_latch (o : Nat) : (s.freshRet o).latch = s.latch := rfl
@[simp] theorem freshRet_held (o : Nat) : (s.freshRet o).held = s.held := rfl
@[simp] theorem freshRet_mem (o : Nat) : (s.freshRet o).mem = s.mem := rfl
@[simp] theorem freshRet_lost (o : Nat) : (s.freshRet o).lost = s.lost := rfl
@[simp] theorem freshRet_g6Hot (o : Nat) : (s.freshRet o).g6Hot = s.g6Hot := rfl
@[simp] theorem freshRet_resp (o : Nat) : (s.freshRet o).resp = s.resp := rfl
@[simp] theorem freshRet_rdata (o : Nat) : (s.freshRet o).rdata = s.rdata := rfl
@[simp] theorem freshRet_evt (o : Nat) : (s.freshRet o).evt = s.evt := rfl
@[simp] theorem freshRet_vdBusy (o : Nat) : (s.freshRet o).vdBusy = s.vdBusy := rfl
@[simp] theorem freshRet_soutReq (o : Nat) : (s.freshRet o).soutReq = s.soutReq := rfl
@[simp] theorem freshRet_enabled (o : Nat) : (s.freshRet o).enabled = s.enabled := rfl
@[simp] theorem freshRet_ctxs (o : Nat) : (s.freshRet o).ctxs = s.ctxs := rfl
@[simp] theorem freshRet_accSeq (o : Nat) : (s.freshRet o).accSeq = s.accSeq := rfl
@[simp] theorem freshRet_verdict (o : Nat) : (s.freshRet o).verdict = s.verdict := rfl
@[simp] theorem freshRet_cin (o : Nat) : (s.freshRet o).cin = s.cin := rfl
@[simp] theorem freshRet_slots (o : Nat) : (s.freshRet o).slots = s.slots := rfl
@[simp] theorem freshRet_tx (o : Nat) : (s.freshRet o).tx = s.tx := rfl
@[simp] theorem freshRet_plibBad (o : Nat) : (s.freshRet o).plibBad = s.plibBad := rfl
@[simp] theorem freshRet_evOpen (o : Nat) : (s.freshRet o).evOpen = s.evOpen := rfl
@[simp] theorem freshRet_evSlots (o : Nat) : (s.freshRet o).evSlots = s.evSlots := rfl
@[simp] theorem freshRet_evTimer (o : Nat) : (s.freshRet o).evTimer = s.evTimer := rfl
@[simp] theorem freshRet_evTimerOn (o : Nat) : (s.freshRet o).evTimerOn = s.evTimerOn := rfl
@[simp] theorem freshRet_harts (o : Nat) : (s.freshRet o).harts = s.harts := rfl
@[simp] theorem freshRet_instret (o : Nat) : (s.freshRet o).instret = s.instret := rfl
@[simp] theorem freshRet_vp2 (o : Nat) : (s.freshRet o).vp2 = s.vp2 := rfl
@[simp] theorem freshRet_agParams (o : Nat) : (s.freshRet o).agParams = s.agParams := rfl
@[simp] theorem freshRet_gs (o : Nat) : (s.freshRet o).gs = s.gs := rfl
@[simp] theorem freshRet_since (o : Nat) : (s.freshRet o).since = s.since := rfl
@[simp] theorem freshRet_ct (o : Nat) : (s.freshRet o).ct = s.ct := rfl
@[simp] theorem freshRet_pairs (o : Nat) : (s.freshRet o).pairs = s.pairs := rfl
@[simp] theorem freshRet_roleMoves (o : Nat) : (s.freshRet o).roleMoves = s.roleMoves := rfl
@[simp] theorem freshRet_mbx (o : Nat) : (s.freshRet o).mbx = s.mbx := rfl
@[simp] theorem freshRet_fc (o : Nat) : (s.freshRet o).fc = s.fc := rfl
@[simp] theorem freshRet_wd (o : Nat) : (s.freshRet o).wd = s.wd := rfl
@[simp] theorem freshRet_dma (o : Nat) : (s.freshRet o).dma = s.dma := rfl
@[simp] theorem freshRet_tm (o : Nat) : (s.freshRet o).tm = s.tm := rfl
@[simp] theorem freshRet_eth (o : Nat) : (s.freshRet o).eth = s.eth := rfl
@[simp] theorem freshRet_ibi (o : Nat) : (s.freshRet o).ibi = s.ibi := rfl
@[simp] theorem freshRet_i3c (o : Nat) : (s.freshRet o).i3c = s.i3c := rfl
@[simp] theorem freshRet_xsp (o : Nat) : (s.freshRet o).xsp = s.xsp := rfl
@[simp] theorem freshRet_hostIrq (o : Nat) : (s.freshRet o).hostIrq = s.hostIrq := rfl
@[simp] theorem freshRet_ml (o : Nat) : (s.freshRet o).ml = s.ml := rfl
@[simp] theorem freshRet_sec (o : Nat) : (s.freshRet o).sec = s.sec := rfl
@[simp] theorem freshRet_boot (o : Nat) : (s.freshRet o).boot = s.boot := rfl
@[simp] theorem freshRet_flash (o : Nat) : (s.freshRet o).flash = s.flash := rfl
@[simp] theorem freshRet_dieReset (o : Nat) : (s.freshRet o).dieReset = s.dieReset := rfl
@[simp] theorem freshRet_holds (o : Nat) : (s.freshRet o).holds = s.holds := rfl
@[simp] theorem freshRet_railsLow (o : Nat) : (s.freshRet o).railsLow = s.railsLow := rfl
@[simp] theorem freshRet_committed (o : Nat) : (s.freshRet o).committed = s.committed := rfl
@[simp] theorem freshRet_spsTick (o : Nat) : (s.freshRet o).spsTick = s.spsTick := rfl
@[simp] theorem freshRet_protect (o : Nat) : (s.freshRet o).protect = s.protect := rfl
@[simp] theorem freshRet_sioIn (o : Nat) : (s.freshRet o).sioIn = s.sioIn := rfl
@[simp] theorem freshRet_sioOut (o : Nat) : (s.freshRet o).sioOut = s.sioOut := rfl
@[simp] theorem freshRet_accCmd (o : Nat) : (s.freshRet o).accCmd = s.accCmd := rfl
@[simp] theorem freshRet_lb (o : Nat) : (s.freshRet o).lb = s.lb := rfl
@[simp] theorem freshRet_jtag (o : Nat) : (s.freshRet o).jtag = s.jtag := rfl
@[simp] theorem freshRet_boundary (o : Nat) : (s.freshRet o).boundary = s.boundary := rfl

/-! ### What a plain update writes -/

@[simp] theorem withPending_pending (x) : (s.withPending x).pending = x := rfl
@[simp] theorem withTick_tick (x) : (s.withTick x).tick = x := rfl
@[simp] theorem withFree_free (x) : (s.withFree x).free = x := rfl
@[simp] theorem withRegs_regs (x) : (s.withRegs x).regs = x := rfl
@[simp] theorem withLatch_latch (x) : (s.withLatch x).latch = x := rfl
@[simp] theorem withHeld_held (x) : (s.withHeld x).held = x := rfl
@[simp] theorem withMem_mem (x) : (s.withMem x).mem = x := rfl
@[simp] theorem withLost_lost (x) : (s.withLost x).lost = x := rfl
@[simp] theorem withG6Hot_g6Hot (x) : (s.withG6Hot x).g6Hot = x := rfl
@[simp] theorem withResp_resp (x) : (s.withResp x).resp = x := rfl
@[simp] theorem withRdata_rdata (x) : (s.withRdata x).rdata = x := rfl
@[simp] theorem withEvt_evt (x) : (s.withEvt x).evt = x := rfl
@[simp] theorem withSoutReq_soutReq (x) : (s.withSoutReq x).soutReq = x := rfl
@[simp] theorem withEnabled_enabled (x) : (s.withEnabled x).enabled = x := rfl
@[simp] theorem withCtxs_ctxs (x) : (s.withCtxs x).ctxs = x := rfl
@[simp] theorem withAccSeq_accSeq (x) : (s.withAccSeq x).accSeq = x := rfl
@[simp] theorem withVerdict_verdict (x) : (s.withVerdict x).verdict = x := rfl
@[simp] theorem withCin_cin (x) : (s.withCin x).cin = x := rfl
@[simp] theorem withSlots_slots (x) : (s.withSlots x).slots = x := rfl
@[simp] theorem withPlibBad_plibBad (x) : (s.withPlibBad x).plibBad = x := rfl
@[simp] theorem withEvOpen_evOpen (x) : (s.withEvOpen x).evOpen = x := rfl
@[simp] theorem withEvSlots_evSlots (x) : (s.withEvSlots x).evSlots = x := rfl
@[simp] theorem withEvTimer_evTimer (x) : (s.withEvTimer x).evTimer = x := rfl
@[simp] theorem withEvTimerOn_evTimerOn (x) : (s.withEvTimerOn x).evTimerOn = x := rfl
@[simp] theorem withHarts_harts (x) : (s.withHarts x).harts = x := rfl
@[simp] theorem withInstret_instret (x) : (s.withInstret x).instret = x := rfl
@[simp] theorem withVp2_vp2 (x) : (s.withVp2 x).vp2 = x := rfl
@[simp] theorem withAgParams_agParams (x) : (s.withAgParams x).agParams = x := rfl
@[simp] theorem withGs_gs (x) : (s.withGs x).gs = x := rfl
@[simp] theorem withSince_since (x) : (s.withSince x).since = x := rfl
@[simp] theorem withCt_ct (x) : (s.withCt x).ct = x := rfl
@[simp] theorem withPairs_pairs (x) : (s.withPairs x).pairs = x := rfl
@[simp] theorem withRoleMoves_roleMoves (x) : (s.withRoleMoves x).roleMoves = x := rfl
@[simp] theorem withMbx_mbx (x) : (s.withMbx x).mbx = x := rfl
@[simp] theorem withRetFlag_retFlag (x) : (s.withRetFlag x).retFlag = x := rfl
@[simp] theorem withFc_fc (x) : (s.withFc x).fc = x := rfl
@[simp] theorem withWd_wd (x) : (s.withWd x).wd = x := rfl
@[simp] theorem withDma_dma (x) : (s.withDma x).dma = x := rfl
@[simp] theorem withTm_tm (x) : (s.withTm x).tm = x := rfl
@[simp] theorem withEth_eth (x) : (s.withEth x).eth = x := rfl
@[simp] theorem withIbi_ibi (x) : (s.withIbi x).ibi = x := rfl
@[simp] theorem withI3c_i3c (x) : (s.withI3c x).i3c = x := rfl
@[simp] theorem withXsp_xsp (x) : (s.withXsp x).xsp = x := rfl
@[simp] theorem withHostIrq_hostIrq (x) : (s.withHostIrq x).hostIrq = x := rfl
@[simp] theorem withMl_ml (x) : (s.withMl x).ml = x := rfl
@[simp] theorem withSec_sec (x) : (s.withSec x).sec = x := rfl
@[simp] theorem withBoot_boot (x) : (s.withBoot x).boot = x := rfl
@[simp] theorem withFlash_flash (x) : (s.withFlash x).flash = x := rfl
@[simp] theorem withHolds_holds (x) : (s.withHolds x).holds = x := rfl
@[simp] theorem withRailsLow_railsLow (x) : (s.withRailsLow x).railsLow = x := rfl
@[simp] theorem withCommitted_committed (x) : (s.withCommitted x).committed = x := rfl
@[simp] theorem withSpsTick_spsTick (x) : (s.withSpsTick x).spsTick = x := rfl
@[simp] theorem withProtect_protect (x) : (s.withProtect x).protect = x := rfl
@[simp] theorem withSioIn_sioIn (x) : (s.withSioIn x).sioIn = x := rfl
@[simp] theorem withSioOut_sioOut (x) : (s.withSioOut x).sioOut = x := rfl
@[simp] theorem withAccCmd_accCmd (x) : (s.withAccCmd x).accCmd = x := rfl
@[simp] theorem withLb_lb (x) : (s.withLb x).lb = x := rfl
@[simp] theorem withJtag_jtag (x) : (s.withJtag x).jtag = x := rfl
@[simp] theorem withBoundary_boundary (x) : (s.withBoundary x).boundary = x := rfl
@[simp] theorem withVdBusy_vdBusy (x) : (s.withVdBusy x).vdBusy = x := rfl
@[simp] theorem withTx_tx (x) : (s.withTx x).tx = x := rfl

/-! ### What an update writes -/

@[simp] theorem respond_resp (r : Resp) : (s.respond r).resp = r := rfl
@[simp] theorem returned_rdata (l : List Nat) : (s.returned l).rdata = l := rfl

end Sys2Proof.Machine.State
end

