-- ==== Sys2Proof/Laws/Tables.lean ====
section
/-! SUPPORT. Sparse tables: a read after a write, that every table operation keeps the canonical form, and that a
canonical table is determined by what it reads as. -/

namespace Sys2Proof.Machine

open Sys2Proof

variable {α : Type}

theorem Table.get_nil (d : Nat → α) (k : Nat) : Table.get d [] k = d k := rfl

theorem Table.get_del_ne (d : Nat → α) (t : Table α) (k j : Nat) (h : j ≠ k) :
    Table.get d (Table.del t k) j = Table.get d t j := by
  induction t with
  | nil => rfl
  | cons x r ih =>
    obtain ⟨i, v⟩ := x
    by_cases hi : i = k
    · subst hi; simp [Table.del, Table.get, ih, Ne.symm h]
    · simp [Table.del, Table.get, hi, ih]

theorem Table.get_del_self (d : Nat → α) (t : Table α) (k : Nat) : Table.get d (Table.del t k) k = d k := by
  induction t with
  | nil => rfl
  | cons x r ih =>
    obtain ⟨i, v⟩ := x
    by_cases hi : i = k
    · simp [Table.del, hi, ih]
    · simp [Table.del, Table.get, hi, ih]

variable [DecidableEq α]

/-- A key reads as the value last put there. -/
@[simp] theorem Table.get_put_self (d : Nat → α) (t : Table α) (k : Nat) (v : α) :
    Table.get d (Table.put d t k v) k = v := by
  induction t with
  | nil => by_cases h : v = d k <;> simp [Table.put, Table.get, h]
  | cons x r ih =>
    obtain ⟨j, w⟩ := x
    by_cases h1 : k < j
    · by_cases h : v = d k
      · simp only [Table.put, h1, h, if_true]; exact Table.get_del_self d _ k
      · simp [Table.put, h1, h, Table.get]
    · by_cases h2 : k = j
      · subst h2
        by_cases h : v = d k
        · simp only [Table.put, h, Nat.lt_irrefl, if_true, if_false]; exact Table.get_del_self d r k
        · simp [Table.put, h, Table.get]
      · simp [Table.put, h1, h2, Table.get, Ne.symm h2, ih]

/-- A write leaves every other key alone. -/
theorem Table.get_put_ne (d : Nat → α) (t : Table α) (k j : Nat) (v : α) (hj : j ≠ k) :
    Table.get d (Table.put d t k v) j = Table.get d t j := by
  induction t with
  | nil => by_cases h : v = d k <;> simp [Table.put, Table.get, h, Ne.symm hj]
  | cons x r ih =>
    obtain ⟨i, w⟩ := x
    by_cases h1 : k < i
    · by_cases h : v = d k
      · simp only [Table.put, h1, h, if_true]; exact Table.get_del_ne d _ k j hj
      · simp [Table.put, h1, h, Table.get, Ne.symm hj]
    · by_cases h2 : k = i
      · subst h2
        by_cases h : v = d k
        · simp only [Table.put, h, Nat.lt_irrefl, if_true, if_false]
          rw [Table.get_del_ne d r k j hj]; simp [Table.get, Ne.symm hj]
        · simp [Table.put, h, Table.get, Ne.symm hj]
      · simp [Table.put, h1, h2, Table.get, ih]

theorem Table.get_put (d : Nat → α) (t : Table α) (k j : Nat) (v : α) :
    Table.get d (Table.put d t k v) j = if j = k then v else Table.get d t j := by
  by_cases h : j = k
  · subst h; simp
  · simp [h, Table.get_put_ne]

/-- The condition a lower bound puts on a key. -/
def Table.above : Option Nat → Nat → Prop
  | none, _ => True
  | some l, k => l < k

theorem Table.wfFrom_cons (d : Nat → α) (lo : Option Nat) (k : Nat) (v : α) (r : Table α) :
    Table.wfFrom d lo ((k, v) :: r) = true ↔ Table.above lo k ∧ v ≠ d k ∧ Table.wfFrom d (some k) r = true := by
  cases lo <;> simp [Table.wfFrom, Table.above, and_assoc]

theorem Table.wfFrom_mono (d : Nat → α) (lo : Option Nat) (k : Nat) (t : Table α) (ha : Table.above lo k)
    (h : Table.wfFrom d (some k) t = true) : Table.wfFrom d lo t = true := by
  cases t with
  | nil => rfl
  | cons x r =>
    obtain ⟨j, v⟩ := x
    rw [Table.wfFrom_cons] at h ⊢
    refine ⟨?_, h.2⟩
    cases lo with
    | none => trivial
    | some l => exact Nat.lt_trans ha h.1

theorem Table.wfFrom_filter (d : Nat → α) (p : Nat × α → Bool) (lo : Option Nat) (t : Table α)
    (h : Table.wfFrom d lo t = true) : Table.wfFrom d lo (t.filter p) = true := by
  induction t generalizing lo with
  | nil => rfl
  | cons x r ih =>
    obtain ⟨k, v⟩ := x
    rw [Table.wfFrom_cons] at h
    by_cases hp : p (k, v) = true
    · rw [List.filter_cons_of_pos hp, Table.wfFrom_cons]
      exact ⟨h.1, h.2.1, ih _ h.2.2⟩
    · rw [List.filter_cons_of_neg hp]
      exact ih _ (Table.wfFrom_mono d lo k r h.1 h.2.2)

theorem Table.wfFrom_del (d : Nat → α) (k : Nat) (lo : Option Nat) (t : Table α)
    (h : Table.wfFrom d lo t = true) : Table.wfFrom d lo (Table.del t k) = true := by
  induction t generalizing lo with
  | nil => rfl
  | cons x r ih =>
    obtain ⟨j, v⟩ := x
    rw [Table.wfFrom_cons] at h
    by_cases hj : j = k
    · simp only [Table.del, hj, if_true]
      exact ih _ (Table.wfFrom_mono d lo j r h.1 h.2.2)
    · simp only [Table.del, hj, if_false, Table.wfFrom_cons]
      exact ⟨h.1, h.2.1, ih _ h.2.2⟩

theorem Table.wfFrom_put (d : Nat → α) (k : Nat) (v : α) (lo : Option Nat) (t : Table α) (ha : Table.above lo k)
    (h : Table.wfFrom d lo t = true) : Table.wfFrom d lo (Table.put d t k v) = true := by
  induction t generalizing lo with
  | nil =>
    by_cases hv : v = d k
    · simp [Table.put, hv, Table.wfFrom]
    · rw [Table.put, if_neg hv, Table.wfFrom_cons]; exact ⟨ha, hv, rfl⟩
  | cons x r ih =>
    obtain ⟨j, w⟩ := x
    have h' := h
    rw [Table.wfFrom_cons] at h
    by_cases h1 : k < j
    · by_cases hv : v = d k
      · simp only [Table.put, h1, hv, if_true]; exact Table.wfFrom_del d k lo _ h'
      · simp only [Table.put, h1, hv, if_true, if_false]
        rw [Table.wfFrom_cons, Table.wfFrom_cons]
        exact ⟨ha, hv, h1, h.2⟩
    · by_cases h2 : k = j
      · subst h2
        by_cases hv : v = d k
        · simp only [Table.put, hv, Nat.lt_irrefl, if_true, if_false]
          exact Table.wfFrom_del d k lo r (Table.wfFrom_mono d lo k r h.1 h.2.2)
        · simp only [Table.put, hv, Nat.lt_irrefl, if_true, if_false]
          rw [Table.wfFrom_cons]; exact ⟨h.1, hv, h.2.2⟩
      · simp only [Table.put, h1, h2, if_false]
        rw [Table.wfFrom_cons]
        exact ⟨h.1, h.2.1, ih _ (show j < k by omega) h.2.2⟩

/-- Every write keeps the canonical form. -/
theorem Table.wf_put (d : Nat → α) (t : Table α) (k : Nat) (v : α) (h : Table.wf d t = true) :
    Table.wf d (Table.put d t k v) = true := Table.wfFrom_put d k v none t trivial h

/-- Leaving entries out keeps the canonical form. -/
theorem Table.wf_filter (d : Nat → α) (p : Nat × α → Bool) (t : Table α) (h : Table.wf d t = true) :
    Table.wf d (t.filter p) = true := Table.wfFrom_filter d p none t h

theorem Table.get_below (d : Nat → α) (t : Table α) (k j : Nat) (h : Table.wfFrom d (some k) t = true) (hj : j ≤ k) :
    Table.get d t j = d j := by
  induction t generalizing k with
  | nil => rfl
  | cons x r ih =>
    obtain ⟨i, v⟩ := x
    rw [Table.wfFrom_cons] at h
    have hi : k < i := h.1
    simp only [Table.get, show i ≠ j by omega, if_false]
    exact ih i h.2.2 (by omega)

theorem Table.ext_from (d : Nat → α) (lo : Option Nat) (t u : Table α) (ht : Table.wfFrom d lo t = true)
    (hu : Table.wfFrom d lo u = true) (h : ∀ k, Table.get d t k = Table.get d u k) : t = u := by
  induction t generalizing u lo with
  | nil =>
    cases u with
    | nil => rfl
    | cons y q =>
      obtain ⟨j, w⟩ := y
      rw [Table.wfFrom_cons] at hu
      have := h j
      simp only [Table.get, if_true] at this
      exact absurd this.symm hu.2.1
  | cons x r ih =>
    obtain ⟨i, v⟩ := x
    rw [Table.wfFrom_cons] at ht
    cases u with
    | nil =>
      have := h i
      simp only [Table.get, if_true] at this
      exact absurd this ht.2.1
    | cons y q =>
      obtain ⟨j, w⟩ := y
      rw [Table.wfFrom_cons] at hu
      have hij : i = j := by
        rcases Nat.lt_trichotomy i j with hlt | heq | hgt
        · have := h i
          simp only [Table.get, if_true, show j ≠ i by omega, if_false] at this
          rw [Table.get_below d q j i hu.2.2 (by omega)] at this
          exact absurd this ht.2.1
        · exact heq
        · have := h j
          simp only [Table.get, if_true, show i ≠ j by omega, if_false] at this
          rw [Table.get_below d r i j ht.2.2 (by omega)] at this
          exact absurd this.symm hu.2.1
      subst hij
      have hv := h i
      simp only [Table.get, if_true] at hv
      subst hv
      have : r = q := ih _ q ht.2.2 hu.2.2 (by
        intro k
        by_cases hk : i = k
        · subst hk
          rw [Table.get_below d r i i ht.2.2 (by omega), Table.get_below d q i i hu.2.2 (by omega)]
        · have := h k
          simpa only [Table.get, hk, if_false] using this)
      rw [this]

/-- Canonical tables that read alike are equal data. -/
theorem Table.ext_of_wf (d : Nat → α) (t u : Table α) (ht : Table.wf d t = true) (hu : Table.wf d u = true)
    (h : ∀ k, Table.get d t k = Table.get d u k) : t = u := Table.ext_from d none t u ht hu h

end Sys2Proof.Machine
end

