-- ==== Sys2Proof/Laws/Regs.lean ====
section
/-! SUPPORT. Register words and fields, memory bytes and processors: a read after a write. -/

namespace Sys2Proof.Machine

open Sys2Proof

/-! ### Bits -/

theorem setBits_div (v lo w x : Nat) : setBits v lo w x / 2 ^ (lo + w) = v / 2 ^ (lo + w) := by
  have h1 : x % 2 ^ w * 2 ^ lo + v % 2 ^ lo < 2 ^ (lo + w) := by
    have a := Nat.mod_lt x (Nat.two_pow_pos w)
    have b := Nat.mod_lt v (Nat.two_pow_pos lo)
    rw [Nat.pow_add]
    have c : (x % 2 ^ w + 1) * 2 ^ lo ≤ 2 ^ w * 2 ^ lo := Nat.mul_le_mul_right _ a
    rw [Nat.add_mul] at c
    have e := Nat.mul_comm (2 ^ lo) (2 ^ w)
    omega
  unfold setBits
  rw [Nat.add_assoc, Nat.add_comm, Nat.add_mul_div_right _ _ (Nat.two_pow_pos _), Nat.div_eq_of_lt h1]
  simp

theorem setBits_mod (v lo w x : Nat) : setBits v lo w x % 2 ^ lo = v % 2 ^ lo := by
  unfold setBits
  rw [Nat.pow_add, Nat.mul_comm (2 ^ lo) (2 ^ w), ← Nat.mul_assoc, ← Nat.add_mul, Nat.add_comm,
    Nat.add_mul_mod_self_right, Nat.mod_mod]

/-- The bits written are the bits read. -/
theorem bits_setBits (v lo w x : Nat) : bits (setBits v lo w x) lo w = x % 2 ^ w := by
  unfold bits setBits
  rw [Nat.pow_add, Nat.mul_comm (2 ^ lo) (2 ^ w), ← Nat.mul_assoc, ← Nat.add_mul, Nat.add_comm,
    Nat.add_mul_div_right _ _ (Nat.two_pow_pos _), Nat.div_eq_of_lt (Nat.mod_lt _ (Nat.two_pow_pos lo)), Nat.zero_add,
    Nat.add_comm, Nat.add_mul_mod_self_right, Nat.mod_mod]

/-- A write of some bits leaves bits that do not overlap them. -/
theorem bits_setBits_ne (v lo w x lo' w' : Nat) (h : lo' + w' ≤ lo ∨ lo + w ≤ lo') :
    bits (setBits v lo w x) lo' w' = bits v lo' w' := by
  unfold bits
  rcases h with h | h
  · rw [← Nat.mod_mul_right_div_self, ← Nat.mod_mul_right_div_self, ← Nat.pow_add]
    have e : ∀ n, n % 2 ^ (lo' + w') = n % 2 ^ lo % 2 ^ (lo' + w') := fun n =>
      (Nat.mod_mod_of_dvd n (Nat.pow_dvd_pow 2 h)).symm
    rw [e, setBits_mod, ← e]
  · have e : ∀ n, n / 2 ^ lo' = n / 2 ^ (lo + w) / 2 ^ (lo' - (lo + w)) := fun n => by
      rw [Nat.div_div_eq_div_mul, ← Nat.pow_add, Nat.add_sub_cancel' h]
    rw [e, setBits_div, ← e]

theorem bits_mod32 (v lo w : Nat) (h : lo + w ≤ 32) : bits (v % 2 ^ 32) lo w = bits v lo w := by
  unfold bits
  rw [← Nat.mod_mul_right_div_self, ← Nat.mod_mul_right_div_self, ← Nat.pow_add,
    Nat.mod_mod_of_dvd _ (Nat.pow_dvd_pow 2 h)]

theorem bit_lt (b : Bool) : bit b < 2 := by cases b <;> decide

@[simp] theorem bit_mod (b : Bool) : bit b % 2 = bit b := by cases b <;> rfl

namespace State

variable (s : State)

/-! ### Register words -/

@[simp] theorem word_setWord_self (a v : Nat) : (s.setWord a v).word a = v % 2 ^ 32 := by
  simp [word, setWord]

theorem word_setWord_ne (a b v : Nat) (h : b ≠ a) : (s.setWord a v).word b = s.word b := by
  simp [word, setWord, Table.get_put_ne _ _ _ _ _ h]

theorem word_setWord (a b v : Nat) : (s.setWord a v).word b = if b = a then v % 2 ^ 32 else s.word b := by
  by_cases h : b = a
  · subst h; simp
  · simp [h, word_setWord_ne]

theorem word_lt (a : Nat) : s.word a < 2 ^ 32 := (Table.get regReset s.regs a).isLt

/-- Words depend on the registers alone. -/
theorem word_congr {s u : State} (h : s.regs = u.regs) (a : Nat) : s.word a = u.word a := by simp [word, h]

theorem f_congr {s u : State} (h : s.regs = u.regs) (x : Field) : s.f x = u.f x := by simp [f, word_congr h]

theorem on_congr {s u : State} (h : s.regs = u.regs) (x : Field) : s.on x = u.on x := by simp [on, f_congr h]

@[simp] theorem word_respond (r : Resp) (a : Nat) : (s.respond r).word a = s.word a := rfl
@[simp] theorem word_returned (l : List Nat) (a : Nat) : (s.returned l).word a = s.word a := rfl
@[simp] theorem word_setHart (h : Nat) (x : Hart) (a : Nat) : (s.setHart h x).word a = s.word a := rfl
@[simp] theorem word_setByte (b : Nat) (x : Byte) (a : Nat) : (s.setByte b x).word a = s.word a := rfl
@[simp] theorem f_respond (r : Resp) (x : Field) : (s.respond r).f x = s.f x := rfl
@[simp] theorem f_returned (l : List Nat) (x : Field) : (s.returned l).f x = s.f x := rfl
@[simp] theorem f_setHart (h : Nat) (y : Hart) (x : Field) : (s.setHart h y).f x = s.f x := rfl
@[simp] theorem f_setByte (b : Nat) (y : Byte) (x : Field) : (s.setByte b y).f x = s.f x := rfl
@[simp] theorem on_respond (r : Resp) (x : Field) : (s.respond r).on x = s.on x := rfl
@[simp] theorem on_returned (l : List Nat) (x : Field) : (s.returned l).on x = s.on x := rfl

/-! ### Fields -/

/-- A field reads as the low bits of what was written. -/
theorem f_setF_self (x : Field) (v : Nat) (h : x.lo + x.width ≤ 32) : (s.setF x v).f x = v % 2 ^ x.width := by
  simp only [f, setF, word_setWord_self, bits_mod32 _ _ _ h, bits_setBits]

/-- A write of a field leaves the fields of other words. -/
theorem f_setF_addr (x y : Field) (v : Nat) (h : y.addr ≠ x.addr) : (s.setF x v).f y = s.f y := by
  simp only [f, setF, word_setWord_ne _ _ _ _ h]

/-- A write of a field leaves the fields of its word that do not overlap it. -/
theorem f_setF_apart (x y : Field) (v : Nat) (ha : y.addr = x.addr) (hy : y.lo + y.width ≤ 32)
    (h : y.lo + y.width ≤ x.lo ∨ x.lo + x.width ≤ y.lo) : (s.setF x v).f y = s.f y := by
  simp only [f, setF, ha, word_setWord_self, bits_mod32 _ _ _ hy, bits_setBits_ne _ _ _ _ _ _ h]

theorem word_setF_ne (x : Field) (v b : Nat) (h : b ≠ x.addr) : (s.setF x v).word b = s.word b :=
  word_setWord_ne _ _ _ _ h

theorem f_setWord_ne (x : Field) (a v : Nat) (h : x.addr ≠ a) : (s.setWord a v).f x = s.f x := by
  simp only [f, word_setWord_ne _ _ _ _ h]

theorem f_setWord_self (x : Field) (v : Nat) (h : x.lo + x.width ≤ 32) : (s.setWord x.addr v).f x = bits v x.lo x.width := by
  simp only [f, word_setWord_self, bits_mod32 _ _ _ h]

theorem f_flag_self (x : Field) (b : Bool) (h : x.lo + x.width ≤ 32) (hw : 0 < x.width) : (s.flag x b).f x = bit b := by
  rw [flag, f_setF_self _ _ _ h, Nat.mod_eq_of_lt]
  exact Nat.lt_of_lt_of_le (bit_lt b) (Nat.pow_le_pow_right (by decide) hw : 2 ^ 1 ≤ 2 ^ x.width)

/-! ### Other tables -/

@[simp] theorem byte_setByte_self (a : Nat) (b : Byte) : (s.setByte a b).byte a = b := by simp [byte, setByte]

theorem byte_setByte_ne (a c : Nat) (b : Byte) (h : phys c ≠ phys a) : (s.setByte a b).byte c = s.byte c := by
  simp [byte, setByte, Table.get_put_ne _ _ _ _ _ h]

/-- A byte outside a run of bytes written reads as it did. -/
theorem byte_putBytes_ne (l : List Byte) : ∀ (s : State) (a c : Nat), (∀ i, i < l.length → phys c ≠ phys (a + i)) →
    (s.putBytes a l).byte c = s.byte c := by
  induction l with
  | nil => intro s a c _; rfl
  | cons b l ih =>
    intro s a c h
    rw [putBytes, ih _ (a + 1) c (fun i hi => by have := h (i + 1) (by simpa using hi); rwa [Nat.add_assoc, Nat.add_comm 1])]
    exact byte_setByte_ne s a c b (by simpa using h 0 (by simp))

/-- A run of bytes written at distinct places reads as written. -/
theorem bytes_putBytes (l : List Byte) : ∀ (s : State) (a : Nat),
    (∀ i j, i < j → j < l.length → phys (a + i) ≠ phys (a + j)) → (s.putBytes a l).bytes a l.length = l := by
  induction l with
  | nil => intro s a _; rfl
  | cons b l ih =>
    intro s a h
    have k := ih (s.setByte a b) (a + 1) (fun i j hi hj => by
      have := h (i + 1) (j + 1) (by omega) (by simpa using hj)
      rwa [Nat.add_comm i 1, Nat.add_comm j 1, ← Nat.add_assoc, ← Nat.add_assoc] at this)
    have z : (s.putBytes a (b :: l)).byte a = b := by
      rw [putBytes, byte_putBytes_ne l _ _ _ (fun i hi => by
        have := h 0 (i + 1) (by omega) (by simpa using hi)
        rwa [Nat.add_zero, Nat.add_comm i 1, ← Nat.add_assoc] at this)]
      exact byte_setByte_self s a b
    simp only [bytes, List.length_cons, List.range_succ_eq_map, List.map_cons, Nat.add_zero, List.map_map, z] at k ⊢
    rw [putBytes]
    refine congrArg (List.cons b) (Eq.trans ?_ k)
    refine List.map_congr_left (fun i _ => ?_)
    simp only [Function.comp_apply, Nat.succ_eq_add_one]
    exact congrArg _ (by omega)
theorem byte_congr {s u : State} (h : s.mem = u.mem) (a : Nat) : s.byte a = u.byte a := by simp [byte, h]

@[simp] theorem hart_setHart_self (h : Nat) (x : Hart) : (s.setHart h x).hart h = x := by simp [hart, setHart]

theorem hart_setHart_ne (h k : Nat) (x : Hart) (hk : k ≠ h) : (s.setHart h x).hart k = s.hart k := by
  simp [hart, setHart, Table.get_put_ne _ _ _ _ _ hk]

end State

end Sys2Proof.Machine
end

