-- ==== Sys2Proof/Laws/Aside.lean ====
section
/-! SUPPORT. What the shared operations of the fault collector, the activity counters and the Melhan link can change:
register words of a named set, and the block state that no other command reads as its own.  A command that uses them
cites these lemmas and unfolds none of them. -/

namespace Sys2Proof.Machine

open Sys2Proof

/-- `u` differs from `s` at most in register words of `W` and in what raising a source touches beside them: hardware
event marks, flags of retained words, the fault collector, the activity counters, the Melhan link, requests to processors, the I3C interrupt and
the stamps of the safe outputs. -/
structure Aside (W : Nat → Prop) (s u : State) : Prop where
  words : ∀ a, ¬ W a → u.word a = s.word a
  rest : u = { s with regs := u.regs, evt := u.evt, fc := u.fc, ct := u.ct, ml := u.ml, harts := u.harts, ibi := u.ibi,
                      sioOut := u.sioOut, retFlag := u.retFlag }

namespace Aside

variable {W V : Nat → Prop} {s u v : State}

theorem refl (W : Nat → Prop) (s : State) : Aside W s s := ⟨fun _ _ => rfl, rfl⟩

theorem trans (h : Aside W s u) (k : Aside W u v) : Aside W s v := by
  refine ⟨fun a ha => (k.words a ha).trans (h.words a ha), ?_⟩
  let g (x : State) : State :=
    { x with regs := v.regs, evt := v.evt, fc := v.fc, ct := v.ct, ml := v.ml, harts := v.harts, ibi := v.ibi,
             sioOut := v.sioOut, retFlag := v.retFlag }
  have e := congrArg g h.rest
  exact k.rest.trans e

theorem mono (h : Aside W s u) (hw : ∀ a, W a → V a) : Aside V s u := ⟨fun a ha => h.words a (fun x => ha (hw a x)), h.rest⟩

/-- A fold of such steps is such a step. -/
theorem foldl {β : Type} (g : State → β → State) (l : List β) (hg : ∀ s x, Aside W s (g s x)) (s : State) :
    Aside W s (l.foldl g s) := by
  induction l generalizing s with
  | nil => exact refl W s
  | cons x r ih => exact (hg s x).trans (ih _)

theorem ite {c : Prop} [Decidable c] (h : Aside W s u) (k : Aside W s v) : Aside W s (if c then u else v) := by
  split
  · exact h
  · exact k

theorem field (h : Aside W s u) (x : Field) (hx : ¬ W x.addr) : u.f x = s.f x := by
  simp only [State.f, h.words _ hx]

theorem mem (h : Aside W s u) : u.mem = s.mem := by
  have e := congrArg State.mem h.rest
  exact e
theorem byte (h : Aside W s u) (a : Nat) : u.byte a = s.byte a := State.byte_congr h.mem a
theorem tick (h : Aside W s u) : u.tick = s.tick := by
  have e := congrArg State.tick h.rest
  exact e
theorem resp (h : Aside W s u) : u.resp = s.resp := by
  have e := congrArg State.resp h.rest
  exact e
theorem ctxs (h : Aside W s u) : u.ctxs = s.ctxs := by
  have e := congrArg State.ctxs h.rest
  exact e
theorem enabled (h : Aside W s u) : u.enabled = s.enabled := by
  have e := congrArg State.enabled h.rest
  exact e
theorem pending (h : Aside W s u) : u.pending = s.pending := by
  have e := congrArg State.pending h.rest
  exact e

end Aside

/-- The words that raising a source can change: the fault collector's, the retained block's, the gleaner's trigger and
flags, and the status of the four safe outputs. -/
def FaultWord (a : Nat) : Prop :=
  (0x20000000 ≤ a ∧ a < 0x20002600) ∨ (retBase ≤ a ∧ a < retBase + 0x1000) ∨ a = A.CT_STATUS ∨ a = A.CT_TRIG_POS
    ∨ (0x200A0208 ≤ a ∧ a ≤ 0x200A0238)

theorem aside_setWord {W : Nat → Prop} (s : State) (a v : Nat) (h : W a) : Aside W s (s.setWord a v) :=
  ⟨fun _ hb => State.word_setWord_ne _ _ _ _ (fun e => hb (e ▸ h)), rfl⟩

theorem aside_setF {W : Nat → Prop} (s : State) (x : Field) (v : Nat) (h : W x.addr) : Aside W s (s.setF x v) :=
  aside_setWord s _ _ h

theorem aside_flag {W : Nat → Prop} (s : State) (x : Field) (b : Bool) (h : W x.addr) : Aside W s (s.flag x b) :=
  aside_setWord s _ _ h

theorem aside_countBy {W : Nat → Prop} (s : State) (x y : Field) (n : Nat) (h : W x.addr) (k : W y.addr) :
    Aside W s (s.countBy x y n) := by
  unfold State.countBy
  dsimp only
  split
  · exact (aside_setF s x _ h).trans (aside_setF _ y _ k)
  · exact aside_setF s x _ h

theorem aside_count {W : Nat → Prop} (s : State) (x y : Field) (h : W x.addr) (k : W y.addr) : Aside W s (s.count x y) :=
  aside_countBy s x y 1 h k

theorem aside_countUp {W : Nat → Prop} (s : State) (x : Field) (h : W x.addr) : Aside W s (s.countUp x) := aside_setF s x _ h

theorem aside_setHart {W : Nat → Prop} (s : State) (h : Nat) (x : Hart) : Aside W s (s.setHart h x) := ⟨fun _ _ => rfl, rfl⟩

theorem aside_modHart {W : Nat → Prop} (s : State) (h : Nat) (g : Hart → Hart) : Aside W s (s.modHart h g) :=
  aside_setHart s h _

theorem aside_withFc {W : Nat → Prop} (s : State) (x : Fc) : Aside W s (s.withFc x) := ⟨fun _ _ => rfl, rfl⟩
theorem aside_withCt {W : Nat → Prop} (s : State) (x : Ct) : Aside W s (s.withCt x) := ⟨fun _ _ => rfl, rfl⟩
theorem aside_withMl {W : Nat → Prop} (s : State) (x : Ml) : Aside W s (s.withMl x) := ⟨fun _ _ => rfl, rfl⟩
theorem aside_withIbi {W : Nat → Prop} (s : State) (x : Nat) : Aside W s (s.withIbi x) := ⟨fun _ _ => rfl, rfl⟩
theorem aside_withEvt {W : Nat → Prop} (s : State) (x : Table (Nat × Nat)) : Aside W s (s.withEvt x) := ⟨fun _ _ => rfl, rfl⟩
theorem aside_withSioOut {W : Nat → Prop} (s : State) (x : Table SioOut) : Aside W s (s.withSioOut x) := ⟨fun _ _ => rfl, rfl⟩

theorem aside_hwSet {W : Nat → Prop} (s : State) (a m : Nat) (h : W a) : Aside W s (s.hwSet a m) := by
  unfold State.hwSet
  split
  extract_lets
  split
  · exact Aside.refl W s
  · exact (aside_setWord s a _ h).trans (aside_withEvt _ _)

/-- An activity counter changes no word but CT_STATUS. -/
theorem aside_ctAdd {W : Nat → Prop} (s : State) (code n : Nat) (h : W A.CT_STATUS) : Aside W s (s.ctAdd code n) := by
  unfold State.ctAdd
  extract_lets v sum src u
  have k : Aside W s u := aside_withCt _ _
  split
  · exact k.trans (aside_setF _ _ _ h)
  · exact k

/-- A Melhan frame sent changes no word but CT_STATUS. -/
theorem aside_mlSend {W : Nat → Prop} (s : State) (m : MlMsg) (h : W A.CT_STATUS) : Aside W s (s.mlSend m) := by
  unfold State.mlSend
  extract_lets x u src v src2
  have k : Aside W s v := (aside_ctAdd s 0x5A 260 h).trans (aside_withMl _ _)
  split
  · split
    · exact k
    · exact k
    · exact k.trans (aside_withMl _ _)
  · exact Aside.refl W s

theorem sioStat_fault (o : Nat) (h : o < 4) : FaultWord (A.SIO_OUT_STAT o) := by
  unfold FaultWord A.SIO_OUT_STAT; omega

theorem aside_driveOut {W : Nat → Prop} (s : State) (o : Nat) (h : W (A.SIO_OUT_STAT o)) : Aside W s (s.driveOut o) := by
  unfold State.driveOut
  extract_lets base pulse high hold was s1 x
  have k : Aside W s s1 := ((aside_setF s _ _ h).trans (aside_flag _ _ _ h)).trans (aside_flag _ _ _ h)
  split
  · exact k
  · exact k.trans (aside_withSioOut _ _)

/-- The safe outputs recomputed change no word but their four SIO_OUT_STAT. -/
theorem aside_driveOuts {W : Nat → Prop} (s : State) (h : ∀ o, o < 4 → W (A.SIO_OUT_STAT o)) : Aside W s s.driveOuts :=
  (((aside_driveOut s 0 (h 0 (by decide))).trans (aside_driveOut _ 1 (h 1 (by decide)))).trans
    (aside_driveOut _ 2 (h 2 (by decide)))).trans (aside_driveOut _ 3 (h 3 (by decide)))

theorem aside_ctTrigger {W : Nat → Prop} (s : State) (n : Nat) (h : W A.CT_STATUS) (k : W A.CT_TRIG_POS) :
    Aside W s (s.ctTrigger n) := by
  unfold State.ctTrigger
  split
  · exact Aside.refl W s
  · split
    · exact aside_count s _ _ k h
    · exact aside_withCt _ _

theorem fault_ct : FaultWord A.CT_STATUS := Or.inr (Or.inr (Or.inl rfl))
theorem fault_trig : FaultWord A.CT_TRIG_POS := Or.inr (Or.inr (Or.inr (Or.inl rfl)))
theorem fault_fc (a : Nat) (h : 0x20000000 ≤ a ∧ a < 0x20002600) : FaultWord a := Or.inl h

theorem aside_setWordBytes {W : Nat → Prop} (n : Nat) (s : State) (a : Nat) (l : List Byte)
    (h : ∀ i, i < n → W (a + 4 * i)) : Aside W s (s.setWordBytes a n l) := by
  induction n generalizing s a l with
  | zero => exact Aside.refl W s
  | succ n ih =>
    refine (aside_setWord s a _ (h 0 (by omega))).trans (ih _ _ _ (fun i hi => ?_))
    have := h (i + 1) (by omega)
    rwa [show a + 4 * (i + 1) = a + 4 + 4 * i by omega] at this

theorem aside_freshRet {W : Nat → Prop} (s : State) (o : Nat) : Aside W s (s.freshRet o) := ⟨fun _ _ => rfl, rfl⟩

theorem aside_setRet {W : Nat → Prop} (s : State) (o v : Nat) (h : W (retBase + o)) : Aside W s (s.setRet o v) :=
  (aside_setWord s _ _ h).trans (aside_freshRet _ _)

theorem aside_setRetBytes {W : Nat → Prop} (n : Nat) (s : State) (o : Nat) (l : List Byte)
    (h : ∀ i, i < n → W (retBase + o + 4 * i)) : Aside W s (s.setRetBytes o n l) := by
  induction n generalizing s o l with
  | zero => exact Aside.refl W s
  | succ n ih =>
    refine (aside_setRet s o _ (h 0 (by omega))).trans (ih _ _ _ (fun i hi => ?_))
    have := h (i + 1) (by omega)
    rwa [show retBase + o + 4 * (i + 1) = retBase + (o + 4) + 4 * i by omega] at this

theorem fault_rec (k i : Nat) (h : i < 16) : FaultWord (State.retRec k + 4 * i) := by
  unfold FaultWord State.retRec State.recOffset
  have := Nat.mod_lt k (show 0 < 32 by decide)
  right; left; omega

theorem fault_cap (i : Nat) (h : i < 16) : FaultWord (A.FC_CAP0 + 4 * i) := by
  unfold FaultWord A.FC_CAP0; omega

theorem aside_logRecord (s : State) (k : Nat) : Aside FaultWord s (s.logRecord k) := aside_mlSend s _ fault_ct

theorem aside_setMerges (s : State) (m x : Nat) : Aside FaultWord s (s.setMerges m x) := by
  unfold State.setMerges
  extract_lets upd o
  have hu (u : State) (b : Nat) (h5 : FaultWord (b + 4 * 5)) (h6 : FaultWord (b + 4 * 6)) : Aside FaultWord u (upd u b) :=
    (aside_setWord u _ _ h5).trans (aside_setWord _ _ _ h6)
  exact (((hu s _ (fault_cap 5 (by decide)) (fault_cap 6 (by decide))).trans
    (hu _ _ (fault_rec _ 5 (by decide)) (fault_rec _ 6 (by decide)))).trans (aside_freshRet _ _)).trans
    (aside_freshRet _ _)

theorem aside_mergeCap (s : State) (sv : Nat) : Aside FaultWord s (s.mergeCap sv) := by
  unfold State.mergeCap
  exact ((aside_setMerges s _ _).trans (Aside.ite (aside_setF _ F.FC_STATUS_sat 1 (fault_fc _ (by decide))) (Aside.refl _ _))).trans
    (aside_logRecord _ _)

theorem aside_noteMerge {W : Nat → Prop} (s : State) (r : Raise) : Aside W s (s.noteMerge r) := by
  unfold State.noteMerge
  extract_lets
  split <;> exact aside_withFc _ _

theorem aside_noteDouble {W : Nat → Prop} (s : State) (r : Raise) : Aside W s (s.noteDouble r) :=
  Aside.ite (aside_withFc _ _) (Aside.refl _ _)

theorem aside_putCap (s : State) (l : List Byte) : Aside FaultWord s (s.putCap l) := by
  unfold State.putCap
  extract_lets slot held a b src c
  have ha : Aside FaultWord s a := (aside_setWordBytes 16 s _ _ fault_cap).trans (aside_setRetBytes 16 _ _ _ (fault_rec _))
  have hb : Aside FaultWord a b := aside_setRet _ _ _ (by unfold FaultWord; omega)
  have hc : Aside FaultWord b c := (aside_setF b F.FC_STATUS_cap 1 (fault_fc _ (by decide))).trans (aside_withFc _ _)
  exact ((ha.trans hb).trans hc).trans (aside_logRecord _ _)

theorem aside_newCap (s : State) (r : Raise) (m x : Nat) : Aside FaultWord s (s.newCap r m x) := aside_putCap s _

theorem aside_detailCap (s : State) (r : Raise) : Aside FaultWord s (s.detailCap r) := by
  unfold State.detailCap
  split
  · exact ((aside_setWord s _ _ (fault_cap 7 (by decide))).trans (aside_setWord _ _ _ (fault_rec _ 7 (by decide)))).trans
      (aside_logRecord _ _)
  · split
    · exact aside_withFc _ _
    · exact Aside.refl _ s

theorem aside_capture (s : State) (r : Raise) : Aside FaultWord s (s.capture r) := by
  unfold State.capture
  extract_lets sv src sev merge mx rec64
  split
  · exact aside_newCap s r _ _
  · split
    · exact (aside_noteMerge s r).trans (aside_mergeCap _ _)
    · split
      · exact ((aside_setWordBytes 16 s _ _ fault_cap).trans (aside_setRetBytes 16 _ _ _ (fault_rec _))).trans
          (aside_logRecord _ _)
      · exact aside_mergeCap s _

theorem aside_enterFault (s : State) (fn : Bool) (sv : Nat) : Aside FaultWord s (s.enterFault fn sv) := by
  unfold State.enterFault
  extract_lets restart
  have r (u : State) : Aside FaultWord u (restart u) := by
    show Aside FaultWord u (match u.fc.quietStart with | none => u | some _ => u.withFc { u.fc with quietStart := some u.tick })
    split
    · exact Aside.refl _ u
    · exact aside_withFc _ _
  split
  · exact Aside.ite (r s) (Aside.refl _ s)
  · exact Aside.ite ((aside_setF s F.FC_STATUS_fstate 1 (fault_fc _ (by decide))).trans (r _)) (Aside.refl _ s)

theorem aside_nmiTo {W : Nat → Prop} (s : State) (v : Nat) : Aside W s (s.nmiTo v) := by
  unfold State.nmiTo
  extract_lets send
  have hs (u : Nat) : Aside W s (send u) := aside_modHart s _ _
  repeat' split
  all_goals first | exact hs _ | exact Aside.refl W s

theorem aside_pendRole3 {W : Nat → Prop} (s : State) : Aside W s s.pendRole3 := by
  unfold State.pendRole3
  split
  · exact aside_modHart s _ _
  · exact Aside.refl W s

theorem aside_requestChipReset {W : Nat → Prop} (s : State) : Aside W s s.requestChipReset := by
  unfold State.requestChipReset
  split <;> exact aside_withFc _ _

theorem aside_react (s : State) (r : Raise) : Aside FaultWord s (s.react r) := by
  unfold State.react
  extract_lets all n sv a b c src d
  have ha : Aside FaultWord s a := aside_enterFault _ _ _
  have hb : Aside FaultWord a b := Aside.ite (((aside_setF _ F.FC_STATUS_irq 1 (fault_fc _ (by decide))).trans
    (aside_pendRole3 _)).trans (aside_withIbi _ _)) (Aside.refl _ _)
  have hc : Aside FaultWord b c := Aside.ite (aside_nmiTo _ _) (Aside.refl _ _)
  have hd : Aside FaultWord c d := Aside.ite (aside_withFc _ _) (Aside.refl _ _)
  exact (((ha.trans hb).trans hc).trans hd).trans (Aside.ite (aside_requestChipReset _) (Aside.refl _ _))

theorem sourceRow_lt (n : Nat) (h : (sourceRow n).isNone = false) : n < 384 := by
  by_contra hn
  have : ∀ r ∈ sourceRows, ¬ ((decide (r.first ≤ n) && decide (n ≤ r.last)) = true) := by
    intro r hr
    have : r.last < 384 := by
      revert r
      decide
    simp; omega
  rw [sourceRow, List.find?_eq_none.mpr this] at h
  cases h

/-- All that raising a source can do beside the fault collector: the words of FaultWord, the gleaner's trigger, the link,
requests to processors, the I3C interrupt and the drive of the safe outputs (R337, R340, R341). -/
theorem aside_raise (s : State) (r : Raise) : Aside FaultWord s (s.raise r) := by
  unfold State.raise
  split
  · exact Aside.refl _ s
  · rename_i h
    have hn : r.src < 384 := sourceRow_lt r.src (by simp only [Bool.not_eq_true] at h; exact h)
    have wc : FaultWord (A.FC_CNT r.src) := fault_fc _ (by unfold A.FC_CNT; omega)
    have wp : FaultWord (A.FC_PEND (r.src / 32)) := fault_fc _ (by unfold A.FC_PEND; omega)
    split
    · split
      · exact (((aside_withFc s _).trans (aside_setF _ (F.FC_CNT_last r.src) r.detail wc)).trans (aside_detailCap _ r)).trans
          (aside_noteDouble _ r)
      · exact aside_noteDouble s r
    · extract_lets src a b c d e
      have ha : Aside FaultWord s a := aside_withFc _ _
      have hb : Aside FaultWord a b := (aside_count _ (F.FC_CNT_count r.src) F.FC_STATUS_sat wc
        (fault_fc _ (by decide))).trans (aside_setF _ (F.FC_CNT_last r.src) r.detail wc)
      have hc : Aside FaultWord b c := aside_hwSet _ _ _ wp
      have hd : Aside FaultWord c d := ((aside_capture _ r).trans (aside_react _ r)).trans (aside_noteDouble _ r)
      have he : Aside FaultWord d e := Aside.ite (aside_ctTrigger _ _ fault_ct fault_trig) (Aside.refl _ _)
      exact ((((ha.trans hb).trans hc).trans hd).trans he).trans (aside_driveOuts _ sioStat_fault)

theorem aside_raiseStanding (s : State) (r : Raise) : Aside FaultWord s (s.raiseStanding r) := by
  unfold State.raiseStanding
  split
  · exact Aside.refl _ s
  · exact Aside.trans (aside_withFc _ _) (aside_raise _ _)

theorem aside_endStanding {W : Nat → Prop} (s : State) (n : Nat) : Aside W s (s.endStanding n) := by
  unfold State.endStanding
  split
  · exact aside_withFc _ _
  · exact Aside.refl W s

end Sys2Proof.Machine
end

