-- ==== Sys2Proof/Laws/Moves.lean ====
section
/-! SUPPORT. What every operation of the machine keeps: the queue of commands, the order of time, the canonical form of
memory and of the register table, the range of the enabled contexts, and each part of the state that the operation does not name. -/

namespace Sys2Proof.Machine

open Sys2Proof

/-- The parts of the state whose changes are followed. -/
inductive Part where
  | memory | flash | fuses | committed | contexts | camera
  deriving DecidableEq, Repr

/-- A part stands as it was. -/
def Part.same : Part → State → State → Prop
  | .memory, s, u => u.mem = s.mem
  | .flash, s, u => u.flash = s.flash
  | .fuses, s, u => u.sec.fuses = s.sec.fuses ∧ u.sec.fuses2 = s.sec.fuses2
  | .committed, s, u => u.committed = s.committed
  | .contexts, s, u => u.ctxs = s.ctxs
  | .camera, s, u => u.cin = s.cin

/-- `u` can follow `s` by an operation that changes at most the parts `l` of those followed. -/
structure Moves (l : List Part) (s u : State) : Prop where
  queue : u.pending = s.pending
  time : s.tick ≤ u.tick
  memory : Memory.wf s → Memory.wf u
  registers : Registers.wf s → Registers.wf u
  ranged : Contexts.inRange s → Contexts.inRange u
  kept : ∀ x : Part, x ∉ l → x.same s u

theorem Part.same_refl (x : Part) (s : State) : x.same s s := by cases x <;> simp [Part.same]

theorem Part.same_trans {x : Part} {s u v : State} (h : x.same s u) (k : x.same u v) : x.same s v := by
  cases x <;> simp only [Part.same] at h k ⊢ <;> first | exact k.trans h | exact ⟨k.1.trans h.1, k.2.trans h.2⟩

namespace Moves

variable {l m : List Part} {s u v : State}

theorem refl (l : List Part) (s : State) : Moves l s s := ⟨rfl, Nat.le_refl _, id, id, id, fun x _ => x.same_refl s⟩

theorem trans (h : Moves l s u) (k : Moves l u v) : Moves l s v :=
  ⟨k.queue.trans h.queue, Nat.le_trans h.time k.time, fun x => k.memory (h.memory x), fun x => k.registers (h.registers x), fun x => k.ranged (h.ranged x),
    fun x hx => Part.same_trans (h.kept x hx) (k.kept x hx)⟩

theorem mono (h : Moves l s u) (hm : l.all (fun x => m.contains x) = true) : Moves m s u :=
  ⟨h.queue, h.time, h.memory, h.registers, h.ranged, fun x hx => h.kept x (fun hl => hx (by
    have := List.all_eq_true.mp hm x hl
    simpa using this))⟩

/-- An operation that starts where another ended. -/
theorem after (h : Moves m s u) (k : Moves l u v) (hm : l.all (fun x => m.contains x) = true) : Moves m s v :=
  h.trans (k.mono hm)

theorem foldl {β : Type} {g : State → β → State} {t : List β} (hg : ∀ u x, Moves l s u → Moves l s (g u x))
    (h : Moves l s v) : Moves l s (t.foldl g v) := by
  induction t generalizing v with
  | nil => exact h
  | cons x r ih => exact ih (hg v x h)

end Moves

theorem moves_withFree (s : State) (x : Nat) : Moves [] s (s.withFree x) :=
  ⟨rfl, Nat.le_refl _, id, id, id, fun p _ => by cases p <;> simp [Part.same]⟩

theorem moves_withLatch (s : State) (x : Table (Option Word)) : Moves [] s (s.withLatch x) :=
  ⟨rfl, Nat.le_refl _, id, id, id, fun p _ => by cases p <;> simp [Part.same]⟩

theorem moves_withHeld (s : State) (x : Table Word) : Moves [] s (s.withHeld x) :=
  ⟨rfl, Nat.le_refl _, id, id, id, fun p _ => by cases p <;> simp [Part.same]⟩

theorem moves_withLost (s : State) (x : Table Bool) : Moves [] s (s.withLost x) :=
  ⟨rfl, Nat.le_refl _, id, id, id, fun p _ => by cases p <;> simp [Part.same]⟩

theorem moves_withG6Hot (s : State) (x : Table Bool) : Moves [] s (s.withG6Hot x) :=
  ⟨rfl, Nat.le_refl _, id, id, id, fun p _ => by cases p <;> simp [Part.same]⟩

theorem moves_withResp (s : State) (x : Resp) : Moves [] s (s.withResp x) :=
  ⟨rfl, Nat.le_refl _, id, id, id, fun p _ => by cases p <;> simp [Part.same]⟩

theorem moves_withRdata (s : State) (x : List Nat) : Moves [] s (s.withRdata x) :=
  ⟨rfl, Nat.le_refl _, id, id, id, fun p _ => by cases p <;> simp [Part.same]⟩

theorem moves_withEvt (s : State) (x : Table (Nat × Nat)) : Moves [] s (s.withEvt x) :=
  ⟨rfl, Nat.le_refl _, id, id, id, fun p _ => by cases p <;> simp [Part.same]⟩

theorem moves_withSoutReq (s : State) (x : Table Nat) : Moves [] s (s.withSoutReq x) :=
  ⟨rfl, Nat.le_refl _, id, id, id, fun p _ => by cases p <;> simp [Part.same]⟩

theorem moves_withEnabled (s : State) (x : List Nat) (h : ∀ n ∈ x, n < 1024) : Moves [] s (s.withEnabled x) :=
  ⟨rfl, Nat.le_refl _, id, id, fun _ => h, fun p _ => by cases p <;> simp [Part.same]⟩

theorem moves_withCtxs (s : State) (x : Table Ctx) : Moves [.contexts] s (s.withCtxs x) :=
  ⟨rfl, Nat.le_refl _, id, id, id, fun p hp => by cases p <;> first | exact absurd (by decide) hp | simp [Part.same]⟩

theorem moves_withAccSeq (s : State) (x : Table AccSeq) : Moves [] s (s.withAccSeq x) :=
  ⟨rfl, Nat.le_refl _, id, id, id, fun p _ => by cases p <;> simp [Part.same]⟩

theorem moves_withVerdict (s : State) (x : Option Verdict) : Moves [] s (s.withVerdict x) :=
  ⟨rfl, Nat.le_refl _, id, id, id, fun p _ => by cases p <;> simp [Part.same]⟩

theorem moves_withCin (s : State) (x : Table CinPort) : Moves [.camera] s (s.withCin x) :=
  ⟨rfl, Nat.le_refl _, id, id, id, fun p hp => by cases p <;> first | exact absurd (by decide) hp | simp [Part.same]⟩

theorem moves_withSlots (s : State) (x : Table (List Slot)) : Moves [] s (s.withSlots x) :=
  ⟨rfl, Nat.le_refl _, id, id, id, fun p _ => by cases p <;> simp [Part.same]⟩

theorem moves_withTx (s : State) (x : List TxPkt) : Moves [] s (s.withTx x) :=
  ⟨rfl, Nat.le_refl _, id, id, id, fun p _ => by cases p <;> simp [Part.same]⟩

theorem moves_withVdBusy (s : State) (x : Option (Nat × Nat)) : Moves [] s (s.withVdBusy x) :=
  ⟨rfl, Nat.le_refl _, id, id, id, fun p _ => by cases p <;> simp [Part.same]⟩

theorem moves_withPlibBad (s : State) (x : Table (List (Nat × Nat))) : Moves [] s (s.withPlibBad x) :=
  ⟨rfl, Nat.le_refl _, id, id, id, fun p _ => by cases p <;> simp [Part.same]⟩

theorem moves_withEvOpen (s : State) (x : Table (Option EvFrame)) : Moves [] s (s.withEvOpen x) :=
  ⟨rfl, Nat.le_refl _, id, id, id, fun p _ => by cases p <;> simp [Part.same]⟩

theorem moves_withEvSlots (s : State) (x : Table (Option (Nat × Nat))) : Moves [] s (s.withEvSlots x) :=
  ⟨rfl, Nat.le_refl _, id, id, id, fun p _ => by cases p <;> simp [Part.same]⟩

theorem moves_withEvTimer (s : State) (x : Table Nat) : Moves [] s (s.withEvTimer x) :=
  ⟨rfl, Nat.le_refl _, id, id, id, fun p _ => by cases p <;> simp [Part.same]⟩

theorem moves_withEvTimerOn (s : State) (x : Table Bool) : Moves [] s (s.withEvTimerOn x) :=
  ⟨rfl, Nat.le_refl _, id, id, id, fun p _ => by cases p <;> simp [Part.same]⟩

theorem moves_withHarts (s : State) (x : Table Hart) : Moves [] s (s.withHarts x) :=
  ⟨rfl, Nat.le_refl _, id, id, id, fun p _ => by cases p <;> simp [Part.same]⟩

theorem moves_withInstret (s : State) (x : Table DWord) : Moves [] s (s.withInstret x) :=
  ⟨rfl, Nat.le_refl _, id, id, id, fun p _ => by cases p <;> simp [Part.same]⟩

theorem moves_withVp2 (s : State) (x : Vp2) : Moves [] s (s.withVp2 x) :=
  ⟨rfl, Nat.le_refl _, id, id, id, fun p _ => by cases p <;> simp [Part.same]⟩

theorem moves_withAgParams (s : State) (x : Table (List Byte)) : Moves [] s (s.withAgParams x) :=
  ⟨rfl, Nat.le_refl _, id, id, id, fun p _ => by cases p <;> simp [Part.same]⟩

theorem moves_withGs (s : State) (x : Gs) : Moves [] s (s.withGs x) :=
  ⟨rfl, Nat.le_refl _, id, id, id, fun p _ => by cases p <;> simp [Part.same]⟩

theorem moves_withSince (s : State) (x : Table Nat) : Moves [] s (s.withSince x) :=
  ⟨rfl, Nat.le_refl _, id, id, id, fun p _ => by cases p <;> simp [Part.same]⟩

theorem moves_withCt (s : State) (x : Ct) : Moves [] s (s.withCt x) :=
  ⟨rfl, Nat.le_refl _, id, id, id, fun p _ => by cases p <;> simp [Part.same]⟩

theorem moves_withPairs (s : State) (x : Table Pair) : Moves [] s (s.withPairs x) :=
  ⟨rfl, Nat.le_refl _, id, id, id, fun p _ => by cases p <;> simp [Part.same]⟩

theorem moves_withRoleMoves (s : State) (x : List RoleMove) : Moves [] s (s.withRoleMoves x) :=
  ⟨rfl, Nat.le_refl _, id, id, id, fun p _ => by cases p <;> simp [Part.same]⟩

theorem moves_withMbx (s : State) (x : Mailbox) : Moves [] s (s.withMbx x) :=
  ⟨rfl, Nat.le_refl _, id, id, id, fun p _ => by cases p <;> simp [Part.same]⟩

theorem moves_withRetFlag (s : State) (x : Table Bool) : Moves [] s (s.withRetFlag x) :=
  ⟨rfl, Nat.le_refl _, id, id, id, fun p _ => by cases p <;> simp [Part.same]⟩

theorem moves_withFc (s : State) (x : Fc) : Moves [] s (s.withFc x) :=
  ⟨rfl, Nat.le_refl _, id, id, id, fun p _ => by cases p <;> simp [Part.same]⟩

theorem moves_withWd (s : State) (x : Wd) : Moves [] s (s.withWd x) :=
  ⟨rfl, Nat.le_refl _, id, id, id, fun p _ => by cases p <;> simp [Part.same]⟩

theorem moves_withDma (s : State) (x : Dma) : Moves [] s (s.withDma x) :=
  ⟨rfl, Nat.le_refl _, id, id, id, fun p _ => by cases p <;> simp [Part.same]⟩

theorem moves_withTm (s : State) (x : Tm) : Moves [] s (s.withTm x) :=
  ⟨rfl, Nat.le_refl _, id, id, id, fun p _ => by cases p <;> simp [Part.same]⟩

theorem moves_withEth (s : State) (x : Eth) : Moves [] s (s.withEth x) :=
  ⟨rfl, Nat.le_refl _, id, id, id, fun p _ => by cases p <;> simp [Part.same]⟩

theorem moves_withIbi (s : State) (x : Nat) : Moves [] s (s.withIbi x) :=
  ⟨rfl, Nat.le_refl _, id, id, id, fun p _ => by cases p <;> simp [Part.same]⟩

theorem moves_withI3c (s : State) (x : I3c) : Moves [] s (s.withI3c x) :=
  ⟨rfl, Nat.le_refl _, id, id, id, fun p _ => by cases p <;> simp [Part.same]⟩

theorem moves_withXsp (s : State) (x : Xsp) : Moves [] s (s.withXsp x) :=
  ⟨rfl, Nat.le_refl _, id, id, id, fun p _ => by cases p <;> simp [Part.same]⟩

theorem moves_withHostIrq (s : State) (x : Nat) : Moves [] s (s.withHostIrq x) :=
  ⟨rfl, Nat.le_refl _, id, id, id, fun p _ => by cases p <;> simp [Part.same]⟩

theorem moves_withMl (s : State) (x : Ml) : Moves [] s (s.withMl x) :=
  ⟨rfl, Nat.le_refl _, id, id, id, fun p _ => by cases p <;> simp [Part.same]⟩

theorem moves_withBoot (s : State) (x : Boot) : Moves [] s (s.withBoot x) :=
  ⟨rfl, Nat.le_refl _, id, id, id, fun p _ => by cases p <;> simp [Part.same]⟩

theorem moves_withFlash (s : State) (x : Table Byte) : Moves [.flash] s (s.withFlash x) :=
  ⟨rfl, Nat.le_refl _, id, id, id, fun p hp => by cases p <;> first | exact absurd (by decide) hp | simp [Part.same]⟩

theorem moves_withHolds (s : State) (x : Nat) : Moves [] s (s.withHolds x) :=
  ⟨rfl, Nat.le_refl _, id, id, id, fun p _ => by cases p <;> simp [Part.same]⟩

theorem moves_withRailsLow (s : State) (x : Nat) : Moves [] s (s.withRailsLow x) :=
  ⟨rfl, Nat.le_refl _, id, id, id, fun p _ => by cases p <;> simp [Part.same]⟩

theorem moves_withCommitted (s : State) (x : Bool) : Moves [.committed] s (s.withCommitted x) :=
  ⟨rfl, Nat.le_refl _, id, id, id, fun p hp => by cases p <;> first | exact absurd (by decide) hp | simp [Part.same]⟩

theorem moves_withSpsTick (s : State) (x : Nat) : Moves [] s (s.withSpsTick x) :=
  ⟨rfl, Nat.le_refl _, id, id, id, fun p _ => by cases p <;> simp [Part.same]⟩

theorem moves_withProtect (s : State) (x : List (Nat × Nat)) : Moves [] s (s.withProtect x) :=
  ⟨rfl, Nat.le_refl _, id, id, id, fun p _ => by cases p <;> simp [Part.same]⟩

theorem moves_withSioIn (s : State) (x : Table SioIn) : Moves [] s (s.withSioIn x) :=
  ⟨rfl, Nat.le_refl _, id, id, id, fun p _ => by cases p <;> simp [Part.same]⟩

theorem moves_withSioOut (s : State) (x : Table SioOut) : Moves [] s (s.withSioOut x) :=
  ⟨rfl, Nat.le_refl _, id, id, id, fun p _ => by cases p <;> simp [Part.same]⟩

theorem moves_withAccCmd (s : State) (x : Table AccCmd) : Moves [] s (s.withAccCmd x) :=
  ⟨rfl, Nat.le_refl _, id, id, id, fun p _ => by cases p <;> simp [Part.same]⟩

theorem moves_withLb (s : State) (x : Option LbRun) : Moves [] s (s.withLb x) :=
  ⟨rfl, Nat.le_refl _, id, id, id, fun p _ => by cases p <;> simp [Part.same]⟩

theorem moves_withJtag (s : State) (x : Nat) : Moves [] s (s.withJtag x) :=
  ⟨rfl, Nat.le_refl _, id, id, id, fun p _ => by cases p <;> simp [Part.same]⟩

theorem moves_withBoundary (s : State) (x : Nat) : Moves [] s (s.withBoundary x) :=
  ⟨rfl, Nat.le_refl _, id, id, id, fun p _ => by cases p <;> simp [Part.same]⟩

theorem moves_withSec (s : State) (x : Sec) : Moves [.fuses] s (s.withSec x) :=
  ⟨rfl, Nat.le_refl _, id, id, id, fun p hp => by cases p <;> first | exact absurd (by decide) hp | simp [Part.same]⟩

/-- A change of the security block that leaves the fuses. -/
theorem moves_withSec_fuses (s : State) (x : Sec) (h : x.fuses = s.sec.fuses) (k : x.fuses2 = s.sec.fuses2) :
    Moves [] s (s.withSec x) :=
  ⟨rfl, Nat.le_refl _, id, id, id, fun p _ => by cases p <;> first | exact ⟨h, k⟩ | simp [Part.same]⟩

theorem moves_setWord (s : State) (a v : Nat) : Moves [] s (s.setWord a v) :=
  ⟨rfl, Nat.le_refl _, id, fun h => Table.wf_put _ _ _ _ h, id, fun p _ => by cases p <;> simp [Part.same]⟩

theorem moves_setF (s : State) (x : Field) (v : Nat) : Moves [] s (s.setF x v) := moves_setWord s _ _

theorem moves_flag (s : State) (x : Field) (b : Bool) : Moves [] s (s.flag x b) := moves_setWord s _ _

theorem moves_setDword (s : State) (a v : Nat) : Moves [] s (s.setDword a v) :=
  (moves_setWord s _ _).trans (moves_setWord _ _ _)

theorem moves_setByte (s : State) (a : Nat) (b : Byte) : Moves [.memory] s (s.setByte a b) :=
  ⟨rfl, Nat.le_refl _, fun h => Table.wf_put _ _ _ _ h, id, id, fun p hp => by
    cases p <;> first | exact absurd (by decide) hp | simp [Part.same]⟩

theorem moves_putBytes (s : State) (a : Nat) (l : List Byte) : Moves [.memory] s (s.putBytes a l) := by
  induction l generalizing s a with
  | nil => exact Moves.refl _ s
  | cons b r ih => exact (moves_setByte s a b).trans (ih _ _)

theorem moves_withTick (s : State) (t : Nat) (h : s.tick ≤ t) : Moves [] s (s.withTick t) :=
  ⟨rfl, h, id, id, id, fun p _ => by cases p <;> simp [Part.same]⟩

/-- Some entries of memory leave (R379, R531). -/
theorem moves_withMem_filter (s : State) (p : Nat × Byte → Bool) : Moves [.memory] s (s.withMem (s.mem.filter p)) :=
  ⟨rfl, Nat.le_refl _, fun h => Table.wf_filter _ p _ h, id, id, fun p hp => by
    cases p <;> first | exact absurd (by decide) hp | simp [Part.same]⟩

theorem moves_setBytes (s : State) (a : Nat) (b : List Byte) : Moves [.memory] s (s.setBytes a b) :=
  ((moves_withLost s _).mono rfl).trans (moves_putBytes _ a b)

theorem moves_upto (s : State) (t : Nat) : Moves [] s (s.upto t) := by
  unfold State.upto
  extract_lets n r1 inc total reps src
  split
  · exact Moves.refl _ s
  rename_i h
  split
  · exact moves_withTick s t (by simpa using Nat.le_of_not_le h)
  · exact ((((moves_setDword s _ _).trans (moves_setWord _ _ _)).trans (moves_withTick _ t (by simpa using Nat.le_of_not_le h))).trans
      (moves_withTm _ _))

/-- A command ends in a next state that follows the one it began in. -/
def Leaves (l : List Part) (s : State) (o : Host.Outcome State Fault Refusal) : Prop := ∃ u, o = .next u ∧ Moves l s u

theorem Leaves.of {l : List Part} {s u : State} (h : Moves l s u) : Leaves l s (done u) := ⟨u, rfl, h⟩

end Sys2Proof.Machine
end

