-- ==== Sys2Proof/WellFormed.lean ====
section
/-! DEFINITION. Well-formed commands: operands that the spec's numbering and field widths allow. -/

namespace Sys2Proof

/-- The numbers HARTID takes (R240): the four verdict pairs, the 16 control processors, the 256 tile sequencers. -/
def hartOk (h : Nat) : Bool := (h % 2 == 0 && decide (h < 8)) || (decide (0x100 ≤ h) && decide (h < 0x110)) || (decide (0x200 ≤ h) && decide (h < 0x300))

/-- A mirrored state names a context, an accelerator and words of their registers' widths (R441, R444). -/
def MlState.wf : MlState → Bool
  | .ctx n st c h d l g r _ =>
    decide (n < 1024) && [st, c, d, l, g, r].all (fun w => decide (w < 2 ^ 32)) && decide (h < 2 ^ 64)
  | .acc a st _ _ ph => decide (a < 4) && decide (st < 2 ^ 32) && decide (ph < 3)
  | .sout n m => decide (n < 1024) && decide (m < 2 ^ 32)
  | .copyEnd => true

/-- A mirrored record has 64 bytes and one of 32 slots, a count names one of nine watchdogs, an item a kind and a number of the
fallow list's widths (R340, R358, R488). -/
def MlLog.wf : MlLog → Bool
  | .record k l => decide (k < 32) && l.length == 64
  | .watch w _ => decide (w < 9)
  | .fallow k n _ => decide (k < 256) && decide (n < 0x10000)

/-- The processor that a command names, if it names one. -/
def Instr.hart : Instr → Option Nat
  | .registerWrite _ _ _ _ _ => none
  | .lowWordRead _ _ _ _ => none
  | .enable _ _ => none
  | .disable _ _ => none
  | .readmit _ _ => none
  | .clearFallow _ _ => none
  | .forceDoubt _ _ => none
  | .clearCounts _ _ => none
  | .evidenceDeadline _ _ => none
  | .verdictDeadline _ _ => none
  | .decideFrame _ _ => none
  | .accResetPulseEnd _ _ => none
  | .accPowerOffEnd _ _ => none
  | .accSettleEnd _ _ => none
  | .readmitDelayExpire _ _ => none
  | .cinFrameStart _ _ _ _ => none
  | .frameStartTimeout _ _ => none
  | .cinImageLine _ _ _ _ _ _ _ => none
  | .cinEmbeddedLine _ _ _ _ _ => none
  | .cinFrameEnd _ _ _ _ => none
  | .lineStartPacket _ _ _ _ => none
  | .cinDroppedPacket _ _ _ => none
  | .slotReady _ _ => none
  | .groupComplete _ _ => none
  | .fallbackGraphLaunch _ _ => none
  | .forwardLine _ _ => none
  | .patchLines _ _ => none
  | .monLine _ _ _ _ => none
  | .einFrameStart _ _ _ _ _ => none
  | .evidencePacket _ _ _ _ _ _ _ => none
  | .einFrameEnd _ _ _ _ _ => none
  | .einDroppedPacket _ _ _ => none
  | .gcmTagVerify _ _ _ => none
  | .einSilence _ _ => none
  | .vp2EntryStart _ => none
  | .residueMismatch _ _ _ _ => none
  | .g6BurstRetry _ _ _ _ _ => none
  | .flitResend _ _ => none
  | .droopStretch _ _ _ => none
  | .droopHold _ _ => none
  | .droopHoldEnd _ _ => none
  | .pwrIntervalEnd _ _ _ => none
  | .cxPwrCap _ _ _ => none
  | .gsLaunch _ _ _ => none
  | .instanceStart _ _ _ => none
  | .nodeAdmit _ _ => none
  | .threadIssue _ _ _ => none
  | .threadSwitch _ _ _ _ _ => none
  | .nodeComplete _ _ => none
  | .completionMessage _ _ => none
  | .nodeReplay _ _ => none
  | .instanceEnd _ _ => none
  | .gsStop _ _ _ _ => none
  | .gsTrigFire _ _ _ => none
  | .triggerPeriod _ _ _ => none
  | .safetyWindowOpen _ _ _ => none
  | .safetyWindowClose _ _ _ => none
  | .op x _ _ _ _ => some x.h.val
  | .op32 x _ _ _ _ => some x.h.val
  | .addi x _ _ _ => some x.h.val
  | .addi32 x _ _ _ => some x.h.val
  | .andi x _ _ _ => some x.h.val
  | .ori x _ _ _ => some x.h.val
  | .xori x _ _ _ => some x.h.val
  | .shi x _ _ _ => some x.h.val
  | .lih x _ _ _ => some x.h.val
  | .addpch x _ _ _ => some x.h.val
  | .cmp x _ _ _ _ => some x.h.val
  | .cmpi x _ _ _ _ => some x.h.val
  | .pred x _ _ _ _ => some x.h.val
  | .br x _ _ _ => some x.h.val
  | .jal x _ _ => some x.h.val
  | .jalr x _ _ _ => some x.h.val
  | .lb x _ _ _ _ => some x.h.val
  | .lbu x _ _ _ _ => some x.h.val
  | .lh x _ _ _ _ => some x.h.val
  | .lhu x _ _ _ _ => some x.h.val
  | .lw x _ _ _ _ => some x.h.val
  | .lwu x _ _ _ _ => some x.h.val
  | .ld x _ _ _ _ => some x.h.val
  | .sb x _ _ _ => some x.h.val
  | .sh x _ _ _ => some x.h.val
  | .sw x _ _ _ => some x.h.val
  | .sd x _ _ _ => some x.h.val
  | .storeError _ h => some h.val
  | .amo x _ _ _ _ _ => some x.h.val
  | .barrier x _ _ _ => some x.h.val
  | .nop x _ _ _ => some x.h.val
  | .texit x _ _ _ => some x.h.val
  | .trap x _ _ _ => some x.h.val
  | .tret x _ _ _ => some x.h.val
  | .idle x _ _ _ => some x.h.val
  | .brk x _ _ _ => some x.h.val
  | .ntret x _ _ _ => some x.h.val
  | .ctlRd x _ _ _ => some x.h.val
  | .ctlWr x _ _ _ => some x.h.val
  | .ctlSet x _ _ _ => some x.h.val
  | .ctlClr x _ _ _ => some x.h.val
  | .ctlXwr x _ _ _ => some x.h.val
  | .ctlXset x _ _ _ => some x.h.val
  | .ctlXclr x _ _ _ => some x.h.val
  | .evsend x _ _ _ => some x.h.val
  | .evwait x _ _ _ => some x.h.val
  | .evwaitWake _ h => some h.val
  | .evwaitTimeout _ h => some h.val
  | .interruptEntry _ h => some h.val
  | .alarmDue _ h => some h.val
  | .nmiEntry _ h => some h.val
  | .vi x _ _ _ _ _ => some x.h.val
  | .vf x _ _ _ _ _ => some x.h.val
  | .vc x _ _ _ _ _ => some x.h.val
  | .vact x _ _ _ _ => some x.h.val
  | .vred x _ _ _ _ => some x.h.val
  | .vbcast x _ _ _ _ => some x.h.val
  | .vext x _ _ _ _ => some x.h.val
  | .vins x _ _ _ _ => some x.h.val
  | .vcmp x _ _ _ _ => some x.h.val
  | .vfcmp x _ _ _ _ => some x.h.val
  | .vselv x _ _ _ _ => some x.h.val
  | .vperm x _ _ _ _ => some x.h.val
  | .vidx x _ _ _ _ => some x.h.val
  | .vmov x _ _ _ _ => some x.h.val
  | .tldR x _ _ _ _ _ => some x.h.val
  | .tldW x _ _ _ _ _ => some x.h.val
  | .tlde x _ _ _ _ _ => some x.h.val
  | .tstR x _ _ _ _ => some x.h.val
  | .tstF x _ _ _ _ => some x.h.val
  | .tstI x _ _ _ _ => some x.h.val
  | .tstaI x _ _ _ _ _ => some x.h.val
  | .tstaF x _ _ _ _ _ => some x.h.val
  | .tget x _ _ _ _ => some x.h.val
  | .tset x _ _ _ _ => some x.h.val
  | .tadv x _ _ _ _ => some x.h.val
  | .tmov x _ _ _ _ => some x.h.val
  | .taclr x _ _ _ _ => some x.h.val
  | .tard x _ _ _ _ => some x.h.val
  | .tawr x _ _ _ _ => some x.h.val
  | .tmma x _ _ _ _ _ _ _ _ _ _ _ _ => some x.h.val
  | .gleanerWrite _ => none
  | .triggerMarker _ => none
  | .ctArm _ => none
  | .ctClrCnt _ => none
  | .ctTrigFire _ _ => none
  | .vpMismatch _ _ _ => none
  | .pairRestartDone _ _ _ => none
  | .roleResume _ _ => none
  | .mailboxRequest _ _ _ => none
  | .ping _ _ _ => none
  | .status _ _ _ => none
  | .readReg _ _ _ _ _ => none
  | .writeReg _ _ _ _ _ => none
  | .vdCommand _ _ _ _ => none
  | .readRetained _ _ _ _ _ => none
  | .clearRetained _ _ _ _ => none
  | .attest _ _ _ _ _ => none
  | .attestReportReady _ => none
  | .confirmSps _ _ _ _ => none
  | .fallowList _ _ _ _ => none
  | .returnToService _ _ _ _ _ => none
  | .reset _ _ _ _ => none
  | .resetDelayExpire _ => none
  | .sessionChallenge _ _ _ => none
  | .sessionOpen _ _ _ _ => none
  | .sessionClose _ _ _ => none
  | .sessionIdleTimeout _ => none
  | .sentinelEntry _ _ => none
  | .chipResetStart _ => none
  | .fcAck _ _ => none
  | .fcClrRec _ => none
  | .fcClrIrq _ => none
  | .fcClrCnt _ => none
  | .fcRaise _ _ => none
  | .fcInj _ _ => none
  | .quietPeriodEnd _ => none
  | .flashRecordWrite _ => none
  | .keyA _ _ _ => none
  | .keyB _ _ _ => none
  | .badKey _ _ _ _ => none
  | .keyLapse _ _ => none
  | .watchdogExpire _ _ => none
  | .watchdogResetStart _ => none
  | .wdClr _ _ => none
  | .sliceSlotStart _ _ => none
  | .logicTestStart _ _ => none
  | .sliceAbandon _ _ => none
  | .sliceEnd _ _ _ => none
  | .katStart _ _ => none
  | .katEnd _ _ _ => none
  | .stLapse _ _ _ _ => none
  | .scrubberLostWord _ _ => none
  | .dmaRegenReq _ _ => none
  | .regenUnitStart _ => none
  | .regenUnitDone _ _ _ => none
  | .dmaChNext _ _ _ => none
  | .dmaRequest _ _ => none
  | .dmaChCtrlReq _ _ => none
  | .descriptorFetch _ _ _ => none
  | .dmaBurst _ _ => none
  | .dmaWriteResponse _ _ _ _ => none
  | .dmaEndOfCount _ _ => none
  | .dmaAbort _ _ => none
  | .dmaModeChange _ => none
  | .dmaClr _ _ => none
  | .crcScanGo _ _ _ => none
  | .crcScanEnd _ _ _ => none
  | .crcClr _ _ => none
  | .tmStep _ _ => none
  | .tmOfs _ _ => none
  | .tmRate _ _ => none
  | .servoLoss _ => none
  | .replicaSync _ => none
  | .etsRead _ _ => none
  | .tmClr _ _ => none
  | .ethLinkDown _ _ => none
  | .ethLinkUp _ _ _ => none
  | .ethRateChange _ _ _ => none
  | .ethFrameReceive _ _ _ _ => none
  | .compareTimeout _ _ _ => none
  | .ethTxlate _ _ _ => none
  | .bulkData _ _ _ _ _ => none
  | .ethClr _ _ => none
  | .i3cPrivateRead _ _ _ => none
  | .ibiRetry _ _ => none
  | .enec _ _ => none
  | .disec _ _ => none
  | .entas _ _ => none
  | .rstdaa _ => none
  | .entdaa _ _ => none
  | .setdasa _ _ _ => none
  | .setnewda _ _ => none
  | .setmwl _ _ => none
  | .setmrl _ _ => none
  | .getmwl _ => none
  | .getmrl _ => none
  | .getpid _ => none
  | .getbcr _ => none
  | .getdcr _ => none
  | .getstatus _ => none
  | .getmxds _ => none
  | .getcaps _ => none
  | .enthdr0 _ => none
  | .rstact _ _ => none
  | .i3cCCmd _ _ => none
  | .i3cCTransferEnd _ _ _ => none
  | .i3cCIbiReceive _ _ _ => none
  | .i3cCIbi _ => none
  | .xspRead _ _ _ _ => none
  | .xspProgram _ _ _ _ => none
  | .xspErase _ _ _ _ => none
  | .xspRegisterAccess _ _ _ _ => none
  | .xspCmdDone _ _ _ _ => none
  | .xspBusyTimeout _ _ => none
  | .xspClr _ _ => none
  | .partnerFault _ => none
  | .heartbeat _ _ _ _ => none
  | .decision _ _ _ _ _ _ _ _ _ _ => none
  | .state _ _ _ => none
  | .keys _ _ _ _ _ => none
  | .time _ _ _ => none
  | .frame _ _ _ _ _ => none
  | .log _ _ _ => none
  | .handOver _ _ _ => none
  | .ack _ _ _ => none
  | .bulk _ _ _ _ => none
  | .mlResend _ _ => none
  | .mlLinkUp _ _ => none
  | .heartbeatSend _ => none
  | .heartbeatMiss _ => none
  | .timeSend _ => none
  | .arbitrationWaitExpire _ => none
  | .mlCmdHandOver _ => none
  | .handOverTimeout _ => none
  | .resync _ => none
  | .mlClr _ _ => none
  | .program _ _ => none
  | .provId _ => none
  | .lock _ => none
  | .challenge _ => none
  | .returnToken _ _ => none
  | .keyEpoch _ _ _ => none
  | .verdictEpoch _ => none
  | .rotate _ => none
  | .sweepDone _ => none
  | .pageJobStart _ _ => none
  | .pageJobEnd _ _ => none
  | .rngHealthFail _ => none
  | .drbgReseed _ => none
  | .drbgStop _ => none
  | .secClr _ _ => none
  | .porstNRelease _ _ _ => none
  | .bootStageEnd _ _ _ _ _ => none
  | .commit _ _ => none
  | .spsFlashWriteDone _ => none
  | .updBegin _ => none
  | .sectorEraseDone _ => none
  | .updVerify _ _ => none
  | .updActivate _ => none
  | .updConfirm _ => none
  | .updAbort _ => none
  | .sysRstCmd _ _ => none
  | .partialResetDone _ _ => none
  | .sinLevelChange _ _ _ _ => none
  | .discrepancyExpire _ _ => none
  | .testPulseStart _ _ => none
  | .testPulseEnd _ _ => none
  | .readbackMismatch _ _ _ => none
  | .readbackRelease _ _ => none
  | .powerUp _ _ => none
  | .powerDown _ _ => none
  | .releaseAcc _ _ => none
  | .accPadMismatch _ _ _ _ => none
  | .sioClr _ _ => none
  | .lbGo _ => none
  | .lbAbort _ => none
  | .loopbackLock _ => none
  | .loopbackLockTimeout _ => none
  | .loopbackEnd _ _ _ _ _ => none
  | .bypass _ => none
  | .idcode _ => none
  | .samplePreload _ _ => none
  | .extest _ _ => none
  | .clamp _ => none
  | .highz _ => none
  | .dbgAccess _ _ _ _ => none
  | .porstNAssert _ _ => none
  | .wrstN _ _ => none
  | .railOutOfWindow _ _ => none
  | .railBelowThreshold _ _ => none
  | .resetHoldEnd _ => none
  | .pllLockLoss _ _ => none
  | .tempSample _ _ _ _ _ _ => none
  | .avsStep _ _ => none
  | .sysAvs _ _ _ => none
  | .fpClr _ _ => none
  | .evClrCtx _ _ => none
  | .evClrEin _ _ => none
  | .ckClr _ _ => none
  | .cxClr _ _ _ => none
  | .gsClr _ _ _ => none
  | .peerTimeout _ _ => none
  | .railInWindow _ _ => none
  | .partnerFaultRelease _ => none
  | .i3cProtocolError _ _ => none
  | .ethFrameTransmit _ _ _ _ => none
  | .linkTrainingDone _ _ => none
  | .blockResetDone _ _ => none
  | .updateCommandDone _ => none
  | .fcSelfDifference _ => none
  | .g6TemperatureReport _ _ _ => none
  | .lifecycleReturnReset _ => none

/-- The command's operands are ones the spec gives it. -/
def Instr.wf : Instr → Bool
  | .registerWrite _ _ _ _ _ => true
  | .lowWordRead _ _ _ _ => true
  | .enable _ _ => true
  | .disable _ _ => true
  | .readmit _ _ => true
  | .clearFallow _ _ => true
  | .forceDoubt _ _ => true
  | .clearCounts _ _ => true
  | .evidenceDeadline _ _ => true
  | .verdictDeadline _ _ => true
  | .decideFrame _ _ => true
  | .accResetPulseEnd _ _ => true
  | .accPowerOffEnd _ _ => true
  | .accSettleEnd _ _ => true
  | .readmitDelayExpire _ _ => true
  | .cinFrameStart _ _ _ _ => true
  | .frameStartTimeout _ _ => true
  | .cinImageLine _ _ _ data _ _ _ => decide (data.length ≤ 0xFFFF)
  | .cinEmbeddedLine _ _ len _ _ => decide (len < 0x10000)
  | .cinFrameEnd _ _ _ _ => true
  | .lineStartPacket _ _ _ _ => true
  | .cinDroppedPacket _ _ _ => true
  | .slotReady _ _ => true
  | .groupComplete _ _ => true
  | .fallbackGraphLaunch _ _ => true
  | .forwardLine _ _ => true
  | .patchLines _ _ => true
  | .monLine _ _ _ _ => true
  | .einFrameStart _ _ _ _ _ => true
  | .evidencePacket _ _ _ _ data _ _ => decide (data.length ≤ 0xFFFF)
  | .einFrameEnd _ _ _ _ _ => true
  | .einDroppedPacket _ _ _ => true
  | .gcmTagVerify _ _ _ => true
  | .einSilence _ _ => true
  | .vp2EntryStart _ => true
  | .residueMismatch _ _ _ _ => true
  | .g6BurstRetry _ _ retries _ fate => fate = .passed || retries.val == 3
  | .flitResend _ _ => true
  | .droopStretch _ _ _ => true
  | .droopHold _ _ => true
  | .droopHoldEnd _ _ => true
  | .pwrIntervalEnd _ _ _ => true
  | .cxPwrCap _ _ _ => true
  | .gsLaunch _ _ _ => true
  | .instanceStart _ _ _ => true
  | .nodeAdmit _ _ => true
  | .threadIssue _ _ _ => true
  | .threadSwitch _ _ _ _ stalled => stalled != 0
  | .nodeComplete _ _ => true
  | .completionMessage _ _ => true
  | .nodeReplay _ _ => true
  | .instanceEnd _ _ => true
  | .gsStop _ _ _ _ => true
  | .gsTrigFire _ _ _ => true
  | .triggerPeriod _ _ _ => true
  | .safetyWindowOpen _ _ _ => true
  | .safetyWindowClose _ _ _ => true
  | .op x _ _ _ _ => hartOk x.h
  | .op32 x _ _ _ _ => hartOk x.h
  | .addi x _ _ _ => hartOk x.h
  | .addi32 x _ _ _ => hartOk x.h
  | .andi x _ _ _ => hartOk x.h
  | .ori x _ _ _ => hartOk x.h
  | .xori x _ _ _ => hartOk x.h
  | .shi x _ _ _ => hartOk x.h
  | .lih x _ _ _ => hartOk x.h
  | .addpch x _ _ _ => hartOk x.h
  | .cmp x _ _ _ _ => hartOk x.h
  | .cmpi x _ _ _ _ => hartOk x.h
  | .pred x _ _ _ _ => hartOk x.h
  | .br x _ _ _ => hartOk x.h
  | .jal x _ _ => hartOk x.h
  | .jalr x _ _ _ => hartOk x.h
  | .lb x _ _ _ _ => hartOk x.h
  | .lbu x _ _ _ _ => hartOk x.h
  | .lh x _ _ _ _ => hartOk x.h
  | .lhu x _ _ _ _ => hartOk x.h
  | .lw x _ _ _ _ => hartOk x.h
  | .lwu x _ _ _ _ => hartOk x.h
  | .ld x _ _ _ _ => hartOk x.h
  | .sb x _ _ _ => hartOk x.h
  | .sh x _ _ _ => hartOk x.h
  | .sw x _ _ _ => hartOk x.h
  | .sd x _ _ _ => hartOk x.h
  | .storeError _ h => hartOk h
  | .amo x _ _ _ _ _ => hartOk x.h
  | .barrier x _ _ _ => hartOk x.h
  | .nop x _ _ _ => hartOk x.h
  | .texit x _ _ _ => hartOk x.h
  | .trap x _ _ _ => hartOk x.h
  | .tret x _ _ _ => hartOk x.h
  | .idle x _ _ _ => hartOk x.h
  | .brk x _ _ _ => hartOk x.h
  | .ntret x _ _ _ => hartOk x.h
  | .ctlRd x _ _ _ => hartOk x.h
  | .ctlWr x _ _ _ => hartOk x.h
  | .ctlSet x _ _ _ => hartOk x.h
  | .ctlClr x _ _ _ => hartOk x.h
  | .ctlXwr x _ _ _ => hartOk x.h
  | .ctlXset x _ _ _ => hartOk x.h
  | .ctlXclr x _ _ _ => hartOk x.h
  | .evsend x _ _ _ => hartOk x.h
  | .evwait x _ _ _ => hartOk x.h
  | .evwaitWake _ h => hartOk h
  | .evwaitTimeout _ h => hartOk h
  | .interruptEntry _ h => hartOk h
  | .alarmDue _ h => hartOk h
  | .nmiEntry _ h => hartOk h
  | .vi x _ _ _ _ _ => hartOk x.h
  | .vf x _ _ _ _ _ => hartOk x.h
  | .vc x _ _ _ _ _ => hartOk x.h
  | .vact x _ _ _ _ => hartOk x.h
  | .vred x _ _ _ _ => hartOk x.h
  | .vbcast x _ _ _ _ => hartOk x.h
  | .vext x _ _ _ _ => hartOk x.h
  | .vins x _ _ _ _ => hartOk x.h
  | .vcmp x _ _ _ _ => hartOk x.h
  | .vfcmp x _ _ _ _ => hartOk x.h
  | .vselv x _ _ _ _ => hartOk x.h
  | .vperm x _ _ _ _ => hartOk x.h
  | .vidx x _ _ _ _ => hartOk x.h
  | .vmov x _ _ _ _ => hartOk x.h
  | .tldR x _ _ _ _ _ => hartOk x.h
  | .tldW x _ _ _ _ _ => hartOk x.h
  | .tlde x _ _ _ _ _ => hartOk x.h
  | .tstR x _ _ _ _ => hartOk x.h
  | .tstF x _ _ _ _ => hartOk x.h
  | .tstI x _ _ _ _ => hartOk x.h
  | .tstaI x _ _ _ _ _ => hartOk x.h
  | .tstaF x _ _ _ _ _ => hartOk x.h
  | .tget x _ _ _ _ => hartOk x.h
  | .tset x _ _ _ _ => hartOk x.h
  | .tadv x _ _ _ _ => hartOk x.h
  | .tmov x _ _ _ _ => hartOk x.h
  | .taclr x _ _ _ _ => hartOk x.h
  | .tard x _ _ _ _ => hartOk x.h
  | .tawr x _ _ _ _ => hartOk x.h
  | .tmma x _ _ _ _ _ _ _ _ _ _ _ _ => hartOk x.h
  | .gleanerWrite _ => true
  | .triggerMarker _ => true
  | .ctArm _ => true
  | .ctClrCnt _ => true
  | .ctTrigFire _ _ => true
  | .vpMismatch _ _ _ => true
  | .pairRestartDone _ _ _ => true
  | .roleResume _ _ => true
  | .mailboxRequest _ _ bytes => decide (bytes.length ≤ 1500)
  | .ping _ _ _ => true
  | .status _ _ _ => true
  | .readReg _ _ _ _ count => count != 0
  | .writeReg _ _ _ _ words => !words.isEmpty && decide (words.length ≤ 255)
  | .vdCommand _ _ _ _ => true
  | .readRetained _ _ _ _ _ => true
  | .clearRetained _ _ _ _ => true
  | .attest _ _ _ _ _ => true
  | .attestReportReady _ => true
  | .confirmSps _ _ _ _ => true
  | .fallowList _ _ _ _ => true
  | .returnToService _ _ _ _ _ => true
  | .reset _ _ _ _ => true
  | .resetDelayExpire _ => true
  | .sessionChallenge _ _ _ => true
  | .sessionOpen _ _ _ _ => true
  | .sessionClose _ _ _ => true
  | .sessionIdleTimeout _ => true
  | .sentinelEntry _ _ => true
  | .chipResetStart _ => true
  | .fcAck _ _ => true
  | .fcClrRec _ => true
  | .fcClrIrq _ => true
  | .fcClrCnt _ => true
  | .fcRaise _ _ => true
  | .fcInj _ _ => true
  | .quietPeriodEnd _ => true
  | .flashRecordWrite _ => true
  | .keyA _ _ master => decide (master < 0x1000)
  | .keyB _ _ master => decide (master < 0x1000)
  | .badKey _ _ master key => decide (master < 0x1000) && key != 0x6B2F && key != 0xD4A1
  | .keyLapse _ _ => true
  | .watchdogExpire _ _ => true
  | .watchdogResetStart _ => true
  | .wdClr _ _ => true
  | .sliceSlotStart _ _ => true
  | .logicTestStart _ _ => true
  | .sliceAbandon _ _ => true
  | .sliceEnd _ _ _ => true
  | .katStart _ _ => true
  | .katEnd _ _ _ => true
  | .stLapse _ _ _ _ => true
  | .scrubberLostWord _ _ => true
  | .dmaRegenReq _ _ => true
  | .regenUnitStart _ => true
  | .regenUnitDone _ _ _ => true
  | .dmaChNext _ _ _ => true
  | .dmaRequest _ _ => true
  | .dmaChCtrlReq _ _ => true
  | .descriptorFetch _ _ _ => true
  | .dmaBurst _ _ => true
  | .dmaWriteResponse _ _ _ _ => true
  | .dmaEndOfCount _ _ => true
  | .dmaAbort _ _ => true
  | .dmaModeChange _ => true
  | .dmaClr _ _ => true
  | .crcScanGo _ _ _ => true
  | .crcScanEnd _ _ _ => true
  | .crcClr _ _ => true
  | .tmStep _ _ => true
  | .tmOfs _ _ => true
  | .tmRate _ _ => true
  | .servoLoss _ => true
  | .replicaSync _ => true
  | .etsRead _ _ => true
  | .tmClr _ _ => true
  | .ethLinkDown _ _ => true
  | .ethLinkUp _ _ _ => true
  | .ethRateChange _ _ _ => true
  | .ethFrameReceive _ _ _ bytes => decide (14 ≤ bytes.length) && decide (bytes.length ≤ 1518)
  | .compareTimeout _ _ _ => true
  | .ethTxlate _ _ _ => true
  | .bulkData _ _ _ _ data => decide (data.length ≤ 1500)
  | .ethClr _ _ => true
  | .i3cPrivateRead _ _ len => len != 0
  | .ibiRetry _ _ => true
  | .enec _ _ => true
  | .disec _ _ => true
  | .entas _ _ => true
  | .rstdaa _ => true
  | .entdaa _ _ => true
  | .setdasa _ _ _ => true
  | .setnewda _ _ => true
  | .setmwl _ _ => true
  | .setmrl _ _ => true
  | .getmwl _ => true
  | .getmrl _ => true
  | .getpid _ => true
  | .getbcr _ => true
  | .getdcr _ => true
  | .getstatus _ => true
  | .getmxds _ => true
  | .getcaps _ => true
  | .enthdr0 _ => true
  | .rstact _ _ => true
  | .i3cCCmd _ _ => true
  | .i3cCTransferEnd _ _ data => decide (data.length ≤ 64)
  | .i3cCIbiReceive _ _ _ => true
  | .i3cCIbi _ => true
  | .xspRead _ _ _ _ => true
  | .xspProgram _ _ _ _ => true
  | .xspErase _ _ _ _ => true
  | .xspRegisterAccess _ _ _ _ => true
  | .xspCmdDone _ _ _ _ => true
  | .xspBusyTimeout _ _ => true
  | .xspClr _ _ => true
  | .partnerFault _ => true
  | .heartbeat _ _ _ _ => true
  | .decision _ _ _ _ _ _ _ _ _ _ => true
  | .state _ _ x => x.wf
  | .keys _ _ _ _ _ => true
  | .time _ _ _ => true
  | .frame _ _ _ _ _ => true
  | .log _ _ x => x.wf
  | .handOver _ _ last => last.all (fun p => decide (p.1 < 1024) && decide (p.2 < 2 ^ 32))
  | .ack _ _ seqs => !seqs.isEmpty && seqs.all (fun q => decide (q < 2 ^ 32))
  | .bulk _ _ _ data => decide (data.length ≤ 0x10000)
  | .mlResend _ _ => true
  | .mlLinkUp _ _ => true
  | .heartbeatSend _ => true
  | .heartbeatMiss _ => true
  | .timeSend _ => true
  | .arbitrationWaitExpire _ => true
  | .mlCmdHandOver _ => true
  | .handOverTimeout _ => true
  | .resync _ => true
  | .mlClr _ _ => true
  | .program _ _ => true
  | .provId _ => true
  | .lock _ => true
  | .challenge _ => true
  | .returnToken _ _ => true
  | .keyEpoch _ _ _ => true
  | .verdictEpoch _ => true
  | .rotate _ => true
  | .sweepDone _ => true
  | .pageJobStart _ _ => true
  | .pageJobEnd _ _ => true
  | .rngHealthFail _ => true
  | .drbgReseed _ => true
  | .drbgStop _ => true
  | .secClr _ _ => true
  | .porstNRelease _ _ _ => true
  | .bootStageEnd _ _ _ _ _ => true
  | .commit _ _ => true
  | .spsFlashWriteDone _ => true
  | .updBegin _ => true
  | .sectorEraseDone _ => true
  | .updVerify _ _ => true
  | .updActivate _ => true
  | .updConfirm _ => true
  | .updAbort _ => true
  | .sysRstCmd _ _ => true
  | .partialResetDone _ _ => true
  | .sinLevelChange _ _ _ _ => true
  | .discrepancyExpire _ _ => true
  | .testPulseStart _ _ => true
  | .testPulseEnd _ _ => true
  | .readbackMismatch _ _ _ => true
  | .readbackRelease _ _ => true
  | .powerUp _ _ => true
  | .powerDown _ _ => true
  | .releaseAcc _ _ => true
  | .accPadMismatch _ _ _ _ => true
  | .sioClr _ _ => true
  | .lbGo _ => true
  | .lbAbort _ => true
  | .loopbackLock _ => true
  | .loopbackLockTimeout _ => true
  | .loopbackEnd _ _ errs _ moved => decide (errs < 2 ^ 32) && (moved.map (·.1)).eraseDups.length == moved.length
  | .bypass _ => true
  | .idcode _ => true
  | .samplePreload _ _ => true
  | .extest _ _ => true
  | .clamp _ => true
  | .highz _ => true
  | .dbgAccess _ _ _ _ => true
  | .porstNAssert _ _ => true
  | .wrstN _ _ => true
  | .railOutOfWindow _ _ => true
  | .railBelowThreshold _ _ => true
  | .resetHoldEnd _ => true
  | .pllLockLoss _ _ => true
  | .tempSample _ _ _ _ _ _ => true
  | .avsStep _ _ => true
  | .sysAvs _ _ _ => true
  | .fpClr _ _ => true
  | .evClrCtx _ _ => true
  | .evClrEin _ _ => true
  | .ckClr _ _ => true
  | .cxClr _ _ _ => true
  | .gsClr _ _ _ => true
  | .peerTimeout _ _ => true
  | .railInWindow _ _ => true
  | .partnerFaultRelease _ => true
  | .i3cProtocolError _ _ => true
  | .ethFrameTransmit _ _ ptp _ => ptp.all (fun l => decide (l.length ≤ 1500))
  | .linkTrainingDone _ _ => true
  | .blockResetDone _ _ => true
  | .updateCommandDone _ => true
  | .fcSelfDifference _ => true
  | .g6TemperatureReport _ _ _ => true
  | .lifecycleReturnReset _ => true

end Sys2Proof
end

