-- ==== Sys2Proof/Laws/PerInstr.lean ====
section
/-! SUPPORT. Every well-formed command that names a processor names one of R240, command by command. -/

namespace Sys2Proof.Laws.Hart

/-- A well-formed command names only processors of R240. -/
def Statement (i : Instr) : Prop := i.wf = true → ∀ h, i.hart = some h → hartOk h = true

theorem registerWrite (t : Nat) (master : BitVec 11) (addr : BitVec 48) (size : Form) (value : DWord) : Statement (.registerWrite t master addr size value) :=
  fun _ _ hh => nomatch hh
theorem lowWordRead (t : Nat) (master : BitVec 11) (addr : BitVec 48) (size : Form) : Statement (.lowWordRead t master addr size) :=
  fun _ _ hh => nomatch hh
theorem enable (t : Nat) (n : Fin 1024) : Statement (.enable t n) :=
  fun _ _ hh => nomatch hh
theorem disable (t : Nat) (n : Fin 1024) : Statement (.disable t n) :=
  fun _ _ hh => nomatch hh
theorem readmit (t : Nat) (n : Fin 1024) : Statement (.readmit t n) :=
  fun _ _ hh => nomatch hh
theorem clearFallow (t : Nat) (n : Fin 1024) : Statement (.clearFallow t n) :=
  fun _ _ hh => nomatch hh
theorem forceDoubt (t : Nat) (n : Fin 1024) : Statement (.forceDoubt t n) :=
  fun _ _ hh => nomatch hh
theorem clearCounts (t : Nat) (n : Fin 1024) : Statement (.clearCounts t n) :=
  fun _ _ hh => nomatch hh
theorem evidenceDeadline (t : Nat) (n : Fin 1024) : Statement (.evidenceDeadline t n) :=
  fun _ _ hh => nomatch hh
theorem verdictDeadline (t : Nat) (n : Fin 1024) : Statement (.verdictDeadline t n) :=
  fun _ _ hh => nomatch hh
theorem decideFrame (t : Nat) (n : Fin 1024) : Statement (.decideFrame t n) :=
  fun _ _ hh => nomatch hh
theorem accResetPulseEnd (t : Nat) (a : Fin 4) : Statement (.accResetPulseEnd t a) :=
  fun _ _ hh => nomatch hh
theorem accPowerOffEnd (t : Nat) (a : Fin 4) : Statement (.accPowerOffEnd t a) :=
  fun _ _ hh => nomatch hh
theorem accSettleEnd (t : Nat) (a : Fin 4) : Statement (.accSettleEnd t a) :=
  fun _ _ hh => nomatch hh
theorem readmitDelayExpire (t : Nat) (n : Fin 1024) : Statement (.readmitDelayExpire t n) :=
  fun _ _ hh => nomatch hh
theorem cinFrameStart (t : Nat) (p : Fin 16) (fn : BitVec 16) (hd : PktHead) : Statement (.cinFrameStart t p fn hd) :=
  fun _ _ hh => nomatch hh
theorem frameStartTimeout (t : Nat) (p : Fin 16) : Statement (.frameStartTimeout t p) :=
  fun _ _ hh => nomatch hh
theorem cinImageLine (t : Nat) (p : Fin 16) (start : Nat) (data : List Byte) (hd : LineHead) (crcOk full : Bool) : Statement (.cinImageLine t p start data hd crcOk full) :=
  fun _ _ hh => nomatch hh
theorem cinEmbeddedLine (t : Nat) (p : Fin 16) (len : Nat) (hd : PktHead) (crcOk : Bool) : Statement (.cinEmbeddedLine t p len hd crcOk) :=
  fun _ _ hh => nomatch hh
theorem cinFrameEnd (t : Nat) (p : Fin 16) (fn : BitVec 16) (hd : PktHead) : Statement (.cinFrameEnd t p fn hd) :=
  fun _ _ hh => nomatch hh
theorem lineStartPacket (t : Nat) (eport : Bool) (p : Fin 16) (hd : PktHead) : Statement (.lineStartPacket t eport p hd) :=
  fun _ _ hh => nomatch hh
theorem cinDroppedPacket (t : Nat) (p : Fin 16) (ecc : Ecc) : Statement (.cinDroppedPacket t p ecc) :=
  fun _ _ hh => nomatch hh
theorem slotReady (t : Nat) (p : Fin 16) : Statement (.slotReady t p) :=
  fun _ _ hh => nomatch hh
theorem groupComplete (t : Nat) (n : Fin 1024) : Statement (.groupComplete t n) :=
  fun _ _ hh => nomatch hh
theorem fallbackGraphLaunch (t : Nat) (n : Fin 1024) : Statement (.fallbackGraphLaunch t n) :=
  fun _ _ hh => nomatch hh
theorem forwardLine (t : Nat) (p : Fin 16) : Statement (.forwardLine t p) :=
  fun _ _ hh => nomatch hh
theorem patchLines (t : Nat) (p : Fin 16) : Statement (.patchLines t p) :=
  fun _ _ hh => nomatch hh
theorem monLine (t : Nat) (m : Fin 2) (p : Fin 16) (taken : Bool) : Statement (.monLine t m p taken) :=
  fun _ _ hh => nomatch hh
theorem einFrameStart (t : Nat) (e : Fin 4) (vc : Fin 16) (fn : BitVec 16) (ecc : Ecc) : Statement (.einFrameStart t e vc fn ecc) :=
  fun _ _ hh => nomatch hh
theorem evidencePacket (t : Nat) (e : Fin 4) (vc : Fin 16) (result : Bool) (data : List Byte) (ecc : Ecc) (crcOk : Bool) : Statement (.evidencePacket t e vc result data ecc crcOk) :=
  fun _ _ hh => nomatch hh
theorem einFrameEnd (t : Nat) (e : Fin 4) (vc : Fin 16) (fn : BitVec 16) (ecc : Ecc) : Statement (.einFrameEnd t e vc fn ecc) :=
  fun _ _ hh => nomatch hh
theorem einDroppedPacket (t : Nat) (e : Fin 4) (ecc : Ecc) : Statement (.einDroppedPacket t e ecc) :=
  fun _ _ hh => nomatch hh
theorem gcmTagVerify (t : Nat) (n : Fin 1024) (key : Fin 3) : Statement (.gcmTagVerify t n key) :=
  fun _ _ hh => nomatch hh
theorem einSilence (t : Nat) (e : Fin 4) : Statement (.einSilence t e) :=
  fun _ _ hh => nomatch hh
theorem vp2EntryStart (t : Nat) : Statement (.vp2EntryStart t) :=
  fun _ _ hh => nomatch hh
theorem residueMismatch (t : Nat) (core : Fin 16) (engine : Fin 16) (dpus : BitVec 64) : Statement (.residueMismatch t core engine dpus) :=
  fun _ _ hh => nomatch hh
theorem g6BurstRetry (t : Nat) (c : Fin 16) (retries : Fin 4) (addr : BitVec 48) (fate : BurstEnd) : Statement (.g6BurstRetry t c retries addr fate) :=
  fun _ _ hh => nomatch hh
theorem flitResend (t : Nat) (group : Fin 48) : Statement (.flitResend t group) :=
  fun _ _ hh => nomatch hh
theorem droopStretch (t : Nat) (core : Fin 16) (cycles : Nat) : Statement (.droopStretch t core cycles) :=
  fun _ _ hh => nomatch hh
theorem droopHold (t : Nat) (core : Fin 16) : Statement (.droopHold t core) :=
  fun _ _ hh => nomatch hh
theorem droopHoldEnd (t : Nat) (core : Fin 16) : Statement (.droopHoldEnd t core) :=
  fun _ _ hh => nomatch hh
theorem pwrIntervalEnd (t : Nat) (die : Fin 4) (p : BitVec 16) : Statement (.pwrIntervalEnd t die p) :=
  fun _ _ hh => nomatch hh
theorem cxPwrCap (t : Nat) (die : Fin 4) (value : Word) : Statement (.cxPwrCap t die value) :=
  fun _ _ hh => nomatch hh
theorem gsLaunch (t : Nat) (die : Fin 4) (addr : BitVec 48) : Statement (.gsLaunch t die addr) :=
  fun _ _ hh => nomatch hh
theorem instanceStart (t : Nat) (die : Fin 4) (cls : Fin 4) : Statement (.instanceStart t die cls) :=
  fun _ _ hh => nomatch hh
theorem nodeAdmit (t : Nat) (die : Fin 4) : Statement (.nodeAdmit t die) :=
  fun _ _ hh => nomatch hh
theorem threadIssue (t : Nat) (core : Fin 16) (n : Fin 65) : Statement (.threadIssue t core n) :=
  fun _ _ hh => nomatch hh
theorem threadSwitch (t : Nat) (core : Fin 16) (engine : Fin 16) (park : Fin 16) (stalled : Nat) : Statement (.threadSwitch t core engine park stalled) :=
  fun _ _ hh => nomatch hh
theorem nodeComplete (t : Nat) (die : Fin 4) : Statement (.nodeComplete t die) :=
  fun _ _ hh => nomatch hh
theorem completionMessage (t : Nat) (die : Fin 4) : Statement (.completionMessage t die) :=
  fun _ _ hh => nomatch hh
theorem nodeReplay (t : Nat) (die : Fin 4) : Statement (.nodeReplay t die) :=
  fun _ _ hh => nomatch hh
theorem instanceEnd (t : Nat) (die : Fin 4) : Statement (.instanceEnd t die) :=
  fun _ _ hh => nomatch hh
theorem gsStop (t : Nat) (die : Fin 4) (ctx : Fin 1024) (fid : Word) : Statement (.gsStop t die ctx fid) :=
  fun _ _ hh => nomatch hh
theorem gsTrigFire (t : Nat) (die : Fin 4) (mask : BitVec 16) : Statement (.gsTrigFire t die mask) :=
  fun _ _ hh => nomatch hh
theorem triggerPeriod (t : Nat) (die : Fin 4) (trig : Fin 16) : Statement (.triggerPeriod t die trig) :=
  fun _ _ hh => nomatch hh
theorem safetyWindowOpen (t : Nat) (die : Fin 4) (w : Fin 4) : Statement (.safetyWindowOpen t die w) :=
  fun _ _ hh => nomatch hh
theorem safetyWindowClose (t : Nat) (die : Fin 4) (w : Fin 4) : Statement (.safetyWindowClose t die w) :=
  fun _ _ hh => nomatch hh
theorem op (x : Issue) (fn : BitVec 11) (rd ra rb : Fin 32) : Statement (.op x fn rd ra rb) :=
  fun hw _ hh => Option.some.inj hh ▸ hw
theorem op32 (x : Issue) (fn : BitVec 11) (rd ra rb : Fin 32) : Statement (.op32 x fn rd ra rb) :=
  fun hw _ hh => Option.some.inj hh ▸ hw
theorem addi (x : Issue) (rd ra : Fin 32) (imm : BitVec 16) : Statement (.addi x rd ra imm) :=
  fun hw _ hh => Option.some.inj hh ▸ hw
theorem addi32 (x : Issue) (rd ra : Fin 32) (imm : BitVec 16) : Statement (.addi32 x rd ra imm) :=
  fun hw _ hh => Option.some.inj hh ▸ hw
theorem andi (x : Issue) (rd ra : Fin 32) (imm : BitVec 16) : Statement (.andi x rd ra imm) :=
  fun hw _ hh => Option.some.inj hh ▸ hw
theorem ori (x : Issue) (rd ra : Fin 32) (imm : BitVec 16) : Statement (.ori x rd ra imm) :=
  fun hw _ hh => Option.some.inj hh ▸ hw
theorem xori (x : Issue) (rd ra : Fin 32) (imm : BitVec 16) : Statement (.xori x rd ra imm) :=
  fun hw _ hh => Option.some.inj hh ▸ hw
theorem shi (x : Issue) (rd ra : Fin 32) (imm : BitVec 16) : Statement (.shi x rd ra imm) :=
  fun hw _ hh => Option.some.inj hh ▸ hw
theorem lih (x : Issue) (rd ra : Fin 32) (imm : BitVec 16) : Statement (.lih x rd ra imm) :=
  fun hw _ hh => Option.some.inj hh ▸ hw
theorem addpch (x : Issue) (rd ra : Fin 32) (imm : BitVec 16) : Statement (.addpch x rd ra imm) :=
  fun hw _ hh => Option.some.inj hh ▸ hw
theorem cmp (x : Issue) (fn : BitVec 11) (pd ra rb : Fin 32) : Statement (.cmp x fn pd ra rb) :=
  fun hw _ hh => Option.some.inj hh ▸ hw
theorem cmpi (x : Issue) (cc : Fin 16) (pd ra : Fin 32) (imm : BitVec 12) : Statement (.cmpi x cc pd ra imm) :=
  fun hw _ hh => Option.some.inj hh ▸ hw
theorem pred (x : Issue) (fn : BitVec 11) (rd ra rb : Fin 32) : Statement (.pred x fn rd ra rb) :=
  fun hw _ hh => Option.some.inj hh ▸ hw
theorem br (x : Issue) (p : Fin 8) (n : Bool) (off : BitVec 22) : Statement (.br x p n off) :=
  fun hw _ hh => Option.some.inj hh ▸ hw
theorem jal (x : Issue) (rd : Fin 32) (off : BitVec 21) : Statement (.jal x rd off) :=
  fun hw _ hh => Option.some.inj hh ▸ hw
theorem jalr (x : Issue) (rd ra : Fin 32) (imm : BitVec 16) : Statement (.jalr x rd ra imm) :=
  fun hw _ hh => Option.some.inj hh ▸ hw
theorem lb (x : Issue) (rd ra : Fin 32) (imm : BitVec 16) (det : Fin 3) : Statement (.lb x rd ra imm det) :=
  fun hw _ hh => Option.some.inj hh ▸ hw
theorem lbu (x : Issue) (rd ra : Fin 32) (imm : BitVec 16) (det : Fin 3) : Statement (.lbu x rd ra imm det) :=
  fun hw _ hh => Option.some.inj hh ▸ hw
theorem lh (x : Issue) (rd ra : Fin 32) (imm : BitVec 16) (det : Fin 3) : Statement (.lh x rd ra imm det) :=
  fun hw _ hh => Option.some.inj hh ▸ hw
theorem lhu (x : Issue) (rd ra : Fin 32) (imm : BitVec 16) (det : Fin 3) : Statement (.lhu x rd ra imm det) :=
  fun hw _ hh => Option.some.inj hh ▸ hw
theorem lw (x : Issue) (rd ra : Fin 32) (imm : BitVec 16) (det : Fin 3) : Statement (.lw x rd ra imm det) :=
  fun hw _ hh => Option.some.inj hh ▸ hw
theorem lwu (x : Issue) (rd ra : Fin 32) (imm : BitVec 16) (det : Fin 3) : Statement (.lwu x rd ra imm det) :=
  fun hw _ hh => Option.some.inj hh ▸ hw
theorem ld (x : Issue) (rd ra : Fin 32) (imm : BitVec 16) (det : Fin 3) : Statement (.ld x rd ra imm det) :=
  fun hw _ hh => Option.some.inj hh ▸ hw
theorem sb (x : Issue) (rs ra : Fin 32) (imm : BitVec 16) : Statement (.sb x rs ra imm) :=
  fun hw _ hh => Option.some.inj hh ▸ hw
theorem sh (x : Issue) (rs ra : Fin 32) (imm : BitVec 16) : Statement (.sh x rs ra imm) :=
  fun hw _ hh => Option.some.inj hh ▸ hw
theorem sw (x : Issue) (rs ra : Fin 32) (imm : BitVec 16) : Statement (.sw x rs ra imm) :=
  fun hw _ hh => Option.some.inj hh ▸ hw
theorem sd (x : Issue) (rs ra : Fin 32) (imm : BitVec 16) : Statement (.sd x rs ra imm) :=
  fun hw _ hh => Option.some.inj hh ▸ hw
theorem storeError (t : Nat) (h : Fin 0x300) : Statement (.storeError t h) :=
  fun hw _ hh => Option.some.inj hh ▸ hw
theorem amo (x : Issue) (fn : BitVec 11) (rd ra rb : Fin 32) (det : Fin 3) : Statement (.amo x fn rd ra rb det) :=
  fun hw _ hh => Option.some.inj hh ▸ hw
theorem barrier (x : Issue) (rd ra : Fin 32) (imm : BitVec 16) : Statement (.barrier x rd ra imm) :=
  fun hw _ hh => Option.some.inj hh ▸ hw
theorem nop (x : Issue) (rd ra rb : Fin 32) : Statement (.nop x rd ra rb) :=
  fun hw _ hh => Option.some.inj hh ▸ hw
theorem texit (x : Issue) (rd ra rb : Fin 32) : Statement (.texit x rd ra rb) :=
  fun hw _ hh => Option.some.inj hh ▸ hw
theorem trap (x : Issue) (rd ra rb : Fin 32) : Statement (.trap x rd ra rb) :=
  fun hw _ hh => Option.some.inj hh ▸ hw
theorem tret (x : Issue) (rd ra rb : Fin 32) : Statement (.tret x rd ra rb) :=
  fun hw _ hh => Option.some.inj hh ▸ hw
theorem idle (x : Issue) (rd ra rb : Fin 32) : Statement (.idle x rd ra rb) :=
  fun hw _ hh => Option.some.inj hh ▸ hw
theorem brk (x : Issue) (rd ra rb : Fin 32) : Statement (.brk x rd ra rb) :=
  fun hw _ hh => Option.some.inj hh ▸ hw
theorem ntret (x : Issue) (rd ra rb : Fin 32) : Statement (.ntret x rd ra rb) :=
  fun hw _ hh => Option.some.inj hh ▸ hw
theorem ctlRd (x : Issue) (rd ra : Fin 32) (csr : BitVec 12) : Statement (.ctlRd x rd ra csr) :=
  fun hw _ hh => Option.some.inj hh ▸ hw
theorem ctlWr (x : Issue) (rd ra : Fin 32) (csr : BitVec 12) : Statement (.ctlWr x rd ra csr) :=
  fun hw _ hh => Option.some.inj hh ▸ hw
theorem ctlSet (x : Issue) (rd ra : Fin 32) (csr : BitVec 12) : Statement (.ctlSet x rd ra csr) :=
  fun hw _ hh => Option.some.inj hh ▸ hw
theorem ctlClr (x : Issue) (rd ra : Fin 32) (csr : BitVec 12) : Statement (.ctlClr x rd ra csr) :=
  fun hw _ hh => Option.some.inj hh ▸ hw
theorem ctlXwr (x : Issue) (rd ra : Fin 32) (csr : BitVec 12) : Statement (.ctlXwr x rd ra csr) :=
  fun hw _ hh => Option.some.inj hh ▸ hw
theorem ctlXset (x : Issue) (rd ra : Fin 32) (csr : BitVec 12) : Statement (.ctlXset x rd ra csr) :=
  fun hw _ hh => Option.some.inj hh ▸ hw
theorem ctlXclr (x : Issue) (rd ra : Fin 32) (csr : BitVec 12) : Statement (.ctlXclr x rd ra csr) :=
  fun hw _ hh => Option.some.inj hh ▸ hw
theorem evsend (x : Issue) (rd ra rb : Fin 32) : Statement (.evsend x rd ra rb) :=
  fun hw _ hh => Option.some.inj hh ▸ hw
theorem evwait (x : Issue) (rd ra rb : Fin 32) : Statement (.evwait x rd ra rb) :=
  fun hw _ hh => Option.some.inj hh ▸ hw
theorem evwaitWake (t : Nat) (h : Fin 0x300) : Statement (.evwaitWake t h) :=
  fun hw _ hh => Option.some.inj hh ▸ hw
theorem evwaitTimeout (t : Nat) (h : Fin 0x300) : Statement (.evwaitTimeout t h) :=
  fun hw _ hh => Option.some.inj hh ▸ hw
theorem interruptEntry (t : Nat) (h : Fin 0x300) : Statement (.interruptEntry t h) :=
  fun hw _ hh => Option.some.inj hh ▸ hw
theorem alarmDue (t : Nat) (h : Fin 0x300) : Statement (.alarmDue t h) :=
  fun hw _ hh => Option.some.inj hh ▸ hw
theorem nmiEntry (t : Nat) (h : Fin 0x300) : Statement (.nmiEntry t h) :=
  fun hw _ hh => Option.some.inj hh ▸ hw
theorem vi (x : Issue) (fn : Fin 32) (vd va vb : Fin 64) (p : Fin 8) : Statement (.vi x fn vd va vb p) :=
  fun hw _ hh => Option.some.inj hh ▸ hw
theorem vf (x : Issue) (fn : Fin 32) (vd va vb : Fin 64) (p : Fin 8) : Statement (.vf x fn vd va vb p) :=
  fun hw _ hh => Option.some.inj hh ▸ hw
theorem vc (x : Issue) (fn : Fin 32) (vd va vb : Fin 64) (p : Fin 8) : Statement (.vc x fn vd va vb p) :=
  fun hw _ hh => Option.some.inj hh ▸ hw
theorem vact (x : Issue) (vd va vb : Fin 64) (p : Fin 8) : Statement (.vact x vd va vb p) :=
  fun hw _ hh => Option.some.inj hh ▸ hw
theorem vred (x : Issue) (vd va vb : Fin 64) (p : Fin 8) : Statement (.vred x vd va vb p) :=
  fun hw _ hh => Option.some.inj hh ▸ hw
theorem vbcast (x : Issue) (vd va vb : Fin 64) (p : Fin 8) : Statement (.vbcast x vd va vb p) :=
  fun hw _ hh => Option.some.inj hh ▸ hw
theorem vext (x : Issue) (vd va vb : Fin 64) (p : Fin 8) : Statement (.vext x vd va vb p) :=
  fun hw _ hh => Option.some.inj hh ▸ hw
theorem vins (x : Issue) (vd va vb : Fin 64) (p : Fin 8) : Statement (.vins x vd va vb p) :=
  fun hw _ hh => Option.some.inj hh ▸ hw
theorem vcmp (x : Issue) (vd va vb : Fin 64) (p : Fin 8) : Statement (.vcmp x vd va vb p) :=
  fun hw _ hh => Option.some.inj hh ▸ hw
theorem vfcmp (x : Issue) (vd va vb : Fin 64) (p : Fin 8) : Statement (.vfcmp x vd va vb p) :=
  fun hw _ hh => Option.some.inj hh ▸ hw
theorem vselv (x : Issue) (vd va vb : Fin 64) (p : Fin 8) : Statement (.vselv x vd va vb p) :=
  fun hw _ hh => Option.some.inj hh ▸ hw
theorem vperm (x : Issue) (vd va vb : Fin 64) (p : Fin 8) : Statement (.vperm x vd va vb p) :=
  fun hw _ hh => Option.some.inj hh ▸ hw
theorem vidx (x : Issue) (vd va vb : Fin 64) (p : Fin 8) : Statement (.vidx x vd va vb p) :=
  fun hw _ hh => Option.some.inj hh ▸ hw
theorem vmov (x : Issue) (vd va vb : Fin 64) (p : Fin 8) : Statement (.vmov x vd va vb p) :=
  fun hw _ hh => Option.some.inj hh ▸ hw
theorem tldR (x : Issue) (v : Fin 64) (t : Fin 16) (ga gb : Fin 32) (det : Fin 3) : Statement (.tldR x v t ga gb det) :=
  fun hw _ hh => Option.some.inj hh ▸ hw
theorem tldW (x : Issue) (v : Fin 64) (t : Fin 16) (ga gb : Fin 32) (det : Fin 3) : Statement (.tldW x v t ga gb det) :=
  fun hw _ hh => Option.some.inj hh ▸ hw
theorem tlde (x : Issue) (v : Fin 64) (t : Fin 16) (ga gb : Fin 32) (det : Fin 3) : Statement (.tlde x v t ga gb det) :=
  fun hw _ hh => Option.some.inj hh ▸ hw
theorem tstR (x : Issue) (v : Fin 64) (t : Fin 16) (ga gb : Fin 32) : Statement (.tstR x v t ga gb) :=
  fun hw _ hh => Option.some.inj hh ▸ hw
theorem tstF (x : Issue) (v : Fin 64) (t : Fin 16) (ga gb : Fin 32) : Statement (.tstF x v t ga gb) :=
  fun hw _ hh => Option.some.inj hh ▸ hw
theorem tstI (x : Issue) (v : Fin 64) (t : Fin 16) (ga gb : Fin 32) : Statement (.tstI x v t ga gb) :=
  fun hw _ hh => Option.some.inj hh ▸ hw
theorem tstaI (x : Issue) (v : Fin 64) (t : Fin 16) (ga gb : Fin 32) (det : Fin 3) : Statement (.tstaI x v t ga gb det) :=
  fun hw _ hh => Option.some.inj hh ▸ hw
theorem tstaF (x : Issue) (v : Fin 64) (t : Fin 16) (ga gb : Fin 32) (det : Fin 3) : Statement (.tstaF x v t ga gb det) :=
  fun hw _ hh => Option.some.inj hh ▸ hw
theorem tget (x : Issue) (r : Fin 64) (t t2 : Fin 16) (field : Fin 64) : Statement (.tget x r t t2 field) :=
  fun hw _ hh => Option.some.inj hh ▸ hw
theorem tset (x : Issue) (r : Fin 64) (t t2 : Fin 16) (field : Fin 64) : Statement (.tset x r t t2 field) :=
  fun hw _ hh => Option.some.inj hh ▸ hw
theorem tadv (x : Issue) (r : Fin 64) (t t2 : Fin 16) (field : Fin 64) : Statement (.tadv x r t t2 field) :=
  fun hw _ hh => Option.some.inj hh ▸ hw
theorem tmov (x : Issue) (r : Fin 64) (t t2 : Fin 16) (field : Fin 64) : Statement (.tmov x r t t2 field) :=
  fun hw _ hh => Option.some.inj hh ▸ hw
theorem taclr (x : Issue) (r : Fin 64) (t t2 : Fin 16) (field : Fin 64) : Statement (.taclr x r t t2 field) :=
  fun hw _ hh => Option.some.inj hh ▸ hw
theorem tard (x : Issue) (r : Fin 64) (t t2 : Fin 16) (field : Fin 64) : Statement (.tard x r t t2 field) :=
  fun hw _ hh => Option.some.inj hh ▸ hw
theorem tawr (x : Issue) (r : Fin 64) (t t2 : Fin 16) (field : Fin 64) : Statement (.tawr x r t t2 field) :=
  fun hw _ hh => Option.some.inj hh ▸ hw
theorem tmma (x : Issue) (fn : BitVec 8) (vB : Fin 64) (tA bank0 n1 : Fin 16) (vE : Fin 64) (ga : Fin 32) (fb : Fin 16) (au ub : Bool) (low : BitVec 9) (det : Fin 3) : Statement (.tmma x fn vB tA bank0 n1 vE ga fb au ub low det) :=
  fun hw _ hh => Option.some.inj hh ▸ hw
theorem gleanerWrite (t : Nat) : Statement (.gleanerWrite t) :=
  fun _ _ hh => nomatch hh
theorem triggerMarker (t : Nat) : Statement (.triggerMarker t) :=
  fun _ _ hh => nomatch hh
theorem ctArm (t : Nat) : Statement (.ctArm t) :=
  fun _ _ hh => nomatch hh
theorem ctClrCnt (t : Nat) : Statement (.ctClrCnt t) :=
  fun _ _ hh => nomatch hh
theorem ctTrigFire (t : Nat) (value : Word) : Statement (.ctTrigFire t value) :=
  fun _ _ hh => nomatch hh
theorem vpMismatch (t : Nat) (pair : Fin 4) (group : Fin 5) : Statement (.vpMismatch t pair group) :=
  fun _ _ hh => nomatch hh
theorem pairRestartDone (t : Nat) (pair : Fin 4) (failed : BitVec 5) : Statement (.pairRestartDone t pair failed) :=
  fun _ _ hh => nomatch hh
theorem roleResume (t : Nat) (role : Fin 4) : Statement (.roleResume t role) :=
  fun _ _ hh => nomatch hh
theorem mailboxRequest (t : Nat) (via : Fin 3) (frame : List Byte) : Statement (.mailboxRequest t via frame) :=
  fun _ _ hh => nomatch hh
theorem ping (t : Nat) (via : Fin 3) (tag : Byte) : Statement (.ping t via tag) :=
  fun _ _ hh => nomatch hh
theorem status (t : Nat) (via : Fin 3) (tag : Byte) : Statement (.status t via tag) :=
  fun _ _ hh => nomatch hh
theorem readReg (t : Nat) (via : Fin 3) (tag : Byte) (addr : DWord) (count : Byte) : Statement (.readReg t via tag addr count) :=
  fun _ _ hh => nomatch hh
theorem writeReg (t : Nat) (via : Fin 3) (tag : Byte) (addr : DWord) (words : List Word) : Statement (.writeReg t via tag addr words) :=
  fun _ _ hh => nomatch hh
theorem vdCommand (t : Nat) (via : Fin 3) (tag : Byte) (value : Word) : Statement (.vdCommand t via tag value) :=
  fun _ _ hh => nomatch hh
theorem readRetained (t : Nat) (via : Fin 3) (tag : Byte) (offset : BitVec 16) (len : Byte) : Statement (.readRetained t via tag offset len) :=
  fun _ _ hh => nomatch hh
theorem clearRetained (t : Nat) (via : Fin 3) (tag : Byte) (mask : Byte) : Statement (.clearRetained t via tag mask) :=
  fun _ _ hh => nomatch hh
theorem attest (t : Nat) (via : Fin 3) (tag : Byte) (nonce : BitVec 256) (offset : Word) : Statement (.attest t via tag nonce offset) :=
  fun _ _ hh => nomatch hh
theorem attestReportReady (t : Nat) : Statement (.attestReportReady t) :=
  fun _ _ hh => nomatch hh
theorem confirmSps (t : Nat) (via : Fin 3) (tag : Byte) (value : Word) : Statement (.confirmSps t via tag value) :=
  fun _ _ hh => nomatch hh
theorem fallowList (t : Nat) (via : Fin 3) (tag : Byte) (start : BitVec 16) : Statement (.fallowList t via tag start) :=
  fun _ _ hh => nomatch hh
theorem returnToService (t : Nat) (via : Fin 3) (tag : Byte) (kind : Byte) (num : BitVec 16) : Statement (.returnToService t via tag kind num) :=
  fun _ _ hh => nomatch hh
theorem reset (t : Nat) (via : Fin 3) (tag : Byte) (target : Byte) : Statement (.reset t via tag target) :=
  fun _ _ hh => nomatch hh
theorem resetDelayExpire (t : Nat) : Statement (.resetDelayExpire t) :=
  fun _ _ hh => nomatch hh
theorem sessionChallenge (t : Nat) (via : Fin 3) (tag : Byte) : Statement (.sessionChallenge t via tag) :=
  fun _ _ hh => nomatch hh
theorem sessionOpen (t : Nat) (via : Fin 3) (tag : Byte) (answer : BitVec 256) : Statement (.sessionOpen t via tag answer) :=
  fun _ _ hh => nomatch hh
theorem sessionClose (t : Nat) (via : Fin 3) (tag : Byte) : Statement (.sessionClose t via tag) :=
  fun _ _ hh => nomatch hh
theorem sessionIdleTimeout (t : Nat) : Statement (.sessionIdleTimeout t) :=
  fun _ _ hh => nomatch hh
theorem sentinelEntry (t : Nat) (cause : Fin 8) : Statement (.sentinelEntry t cause) :=
  fun _ _ hh => nomatch hh
theorem chipResetStart (t : Nat) : Statement (.chipResetStart t) :=
  fun _ _ hh => nomatch hh
theorem fcAck (t : Nat) (value : Word) : Statement (.fcAck t value) :=
  fun _ _ hh => nomatch hh
theorem fcClrRec (t : Nat) : Statement (.fcClrRec t) :=
  fun _ _ hh => nomatch hh
theorem fcClrIrq (t : Nat) : Statement (.fcClrIrq t) :=
  fun _ _ hh => nomatch hh
theorem fcClrCnt (t : Nat) : Statement (.fcClrCnt t) :=
  fun _ _ hh => nomatch hh
theorem fcRaise (t : Nat) (value : Word) : Statement (.fcRaise t value) :=
  fun _ _ hh => nomatch hh
theorem fcInj (t : Nat) (value : Word) : Statement (.fcInj t value) :=
  fun _ _ hh => nomatch hh
theorem quietPeriodEnd (t : Nat) : Statement (.quietPeriodEnd t) :=
  fun _ _ hh => nomatch hh
theorem flashRecordWrite (t : Nat) : Statement (.flashRecordWrite t) :=
  fun _ _ hh => nomatch hh
theorem keyA (t : Nat) (w : Fin 9) (master : Nat) : Statement (.keyA t w master) :=
  fun _ _ hh => nomatch hh
theorem keyB (t : Nat) (w : Fin 9) (master : Nat) : Statement (.keyB t w master) :=
  fun _ _ hh => nomatch hh
theorem badKey (t : Nat) (w : Fin 9) (master : Nat) (key : BitVec 16) : Statement (.badKey t w master key) :=
  fun _ _ hh => nomatch hh
theorem keyLapse (t : Nat) (w : Fin 9) : Statement (.keyLapse t w) :=
  fun _ _ hh => nomatch hh
theorem watchdogExpire (t : Nat) (w : Fin 9) : Statement (.watchdogExpire t w) :=
  fun _ _ hh => nomatch hh
theorem watchdogResetStart (t : Nat) : Statement (.watchdogResetStart t) :=
  fun _ _ hh => nomatch hh
theorem wdClr (t : Nat) (value : Word) : Statement (.wdClr t value) :=
  fun _ _ hh => nomatch hh
theorem sliceSlotStart (t : Nat) (core : Fin 16) : Statement (.sliceSlotStart t core) :=
  fun _ _ hh => nomatch hh
theorem logicTestStart (t : Nat) (core : Fin 16) : Statement (.logicTestStart t core) :=
  fun _ _ hh => nomatch hh
theorem sliceAbandon (t : Nat) (core : Fin 16) : Statement (.sliceAbandon t core) :=
  fun _ _ hh => nomatch hh
theorem sliceEnd (t : Nat) (core : Fin 16) (fails : Bool) : Statement (.sliceEnd t core fails) :=
  fun _ _ hh => nomatch hh
theorem katStart (t : Nat) (core : Fin 16) : Statement (.katStart t core) :=
  fun _ _ hh => nomatch hh
theorem katEnd (t : Nat) (core : Fin 16) (failed : Option (Fin 16)) : Statement (.katEnd t core failed) :=
  fun _ _ hh => nomatch hh
theorem stLapse (t : Nat) (core : Fin 16) (kat : Bool) (engine : Fin 16) : Statement (.stLapse t core kat engine) :=
  fun _ _ hh => nomatch hh
theorem scrubberLostWord (t : Nat) (at_ : ScrubbedWord) : Statement (.scrubberLostWord t at_) :=
  fun _ _ hh => nomatch hh
theorem dmaRegenReq (t : Nat) (addr : BitVec 48) : Statement (.dmaRegenReq t addr) :=
  fun _ _ hh => nomatch hh
theorem regenUnitStart (t : Nat) : Statement (.regenUnitStart t) :=
  fun _ _ hh => nomatch hh
theorem regenUnitDone (t : Nat) (bad1 bad2 : Bool) : Statement (.regenUnitDone t bad1 bad2) :=
  fun _ _ hh => nomatch hh
theorem dmaChNext (t : Nat) (k : Fin 64) (high : Word) : Statement (.dmaChNext t k high) :=
  fun _ _ hh => nomatch hh
theorem dmaRequest (t : Nat) (req : BitVec 7) : Statement (.dmaRequest t req) :=
  fun _ _ hh => nomatch hh
theorem dmaChCtrlReq (t : Nat) (k : Fin 64) : Statement (.dmaChCtrlReq t k) :=
  fun _ _ hh => nomatch hh
theorem descriptorFetch (t : Nat) (k : Fin 55) (det : Fin 3) : Statement (.descriptorFetch t k det) :=
  fun _ _ hh => nomatch hh
theorem dmaBurst (t : Nat) (det : BurstDet) : Statement (.dmaBurst t det) :=
  fun _ _ hh => nomatch hh
theorem dmaWriteResponse (t : Nat) (k : Fin 64) (n : Nat) (status : Fin 6) : Statement (.dmaWriteResponse t k n status) :=
  fun _ _ hh => nomatch hh
theorem dmaEndOfCount (t : Nat) (k : Fin 55) : Statement (.dmaEndOfCount t k) :=
  fun _ _ hh => nomatch hh
theorem dmaAbort (t : Nat) (k : Fin 64) : Statement (.dmaAbort t k) :=
  fun _ _ hh => nomatch hh
theorem dmaModeChange (t : Nat) : Statement (.dmaModeChange t) :=
  fun _ _ hh => nomatch hh
theorem dmaClr (t : Nat) (value : Word) : Statement (.dmaClr t value) :=
  fun _ _ hh => nomatch hh
theorem crcScanGo (t : Nat) (u : Fin 12) (value : Word) : Statement (.crcScanGo t u value) :=
  fun _ _ hh => nomatch hh
theorem crcScanEnd (t : Nat) (u : Fin 12) (det : Fin 3) : Statement (.crcScanEnd t u det) :=
  fun _ _ hh => nomatch hh
theorem crcClr (t : Nat) (value : Word) : Statement (.crcClr t value) :=
  fun _ _ hh => nomatch hh
theorem tmStep (t : Nat) (high : Word) : Statement (.tmStep t high) :=
  fun _ _ hh => nomatch hh
theorem tmOfs (t : Nat) (high : Word) : Statement (.tmOfs t high) :=
  fun _ _ hh => nomatch hh
theorem tmRate (t : Nat) (rate : Word) : Statement (.tmRate t rate) :=
  fun _ _ hh => nomatch hh
theorem servoLoss (t : Nat) : Statement (.servoLoss t) :=
  fun _ _ hh => nomatch hh
theorem replicaSync (t : Nat) : Statement (.replicaSync t) :=
  fun _ _ hh => nomatch hh
theorem etsRead (t : Nat) (x : Fin 4) : Statement (.etsRead t x) :=
  fun _ _ hh => nomatch hh
theorem tmClr (t : Nat) (value : Word) : Statement (.tmClr t value) :=
  fun _ _ hh => nomatch hh
theorem ethLinkDown (t : Nat) (x : Fin 2) : Statement (.ethLinkDown t x) :=
  fun _ _ hh => nomatch hh
theorem ethLinkUp (t : Nat) (x : Fin 2) (rate : Fin 4) : Statement (.ethLinkUp t x rate) :=
  fun _ _ hh => nomatch hh
theorem ethRateChange (t : Nat) (x : Fin 2) (rate : Fin 4) : Statement (.ethRateChange t x rate) :=
  fun _ _ hh => nomatch hh
theorem ethFrameReceive (t : Nat) (x : Fin 2) (fcsOk : Bool) (frame : List Byte) : Statement (.ethFrameReceive t x fcsOk frame) :=
  fun _ _ hh => nomatch hh
theorem compareTimeout (t : Nat) (peer : Fin 8) (seq : Word) : Statement (.compareTimeout t peer seq) :=
  fun _ _ hh => nomatch hh
theorem ethTxlate (t : Nat) (x : Fin 2) (n : Nat) : Statement (.ethTxlate t x n) :=
  fun _ _ hh => nomatch hh
theorem bulkData (t : Nat) (x : Fin 2) (tag : BitVec 16) (offset : Word) (data : List Byte) : Statement (.bulkData t x tag offset data) :=
  fun _ _ hh => nomatch hh
theorem ethClr (t : Nat) (value : Word) : Statement (.ethClr t value) :=
  fun _ _ hh => nomatch hh
theorem i3cPrivateRead (t : Nat) (hdr : Bool) (len : Nat) : Statement (.i3cPrivateRead t hdr len) :=
  fun _ _ hh => nomatch hh
theorem ibiRetry (t : Nat) (acked : Bool) : Statement (.ibiRetry t acked) :=
  fun _ _ hh => nomatch hh
theorem enec (t : Nat) (events : BitVec 8) : Statement (.enec t events) :=
  fun _ _ hh => nomatch hh
theorem disec (t : Nat) (events : BitVec 8) : Statement (.disec t events) :=
  fun _ _ hh => nomatch hh
theorem entas (t : Nat) (n : Fin 4) : Statement (.entas t n) :=
  fun _ _ hh => nomatch hh
theorem rstdaa (t : Nat) : Statement (.rstdaa t) :=
  fun _ _ hh => nomatch hh
theorem entdaa (t : Nat) (addr : BitVec 7) : Statement (.entdaa t addr) :=
  fun _ _ hh => nomatch hh
theorem setdasa (t : Nat) (sa addr : BitVec 7) : Statement (.setdasa t sa addr) :=
  fun _ _ hh => nomatch hh
theorem setnewda (t : Nat) (addr : BitVec 7) : Statement (.setnewda t addr) :=
  fun _ _ hh => nomatch hh
theorem setmwl (t : Nat) (len : BitVec 16) : Statement (.setmwl t len) :=
  fun _ _ hh => nomatch hh
theorem setmrl (t : Nat) (len : BitVec 16) : Statement (.setmrl t len) :=
  fun _ _ hh => nomatch hh
theorem getmwl (t : Nat) : Statement (.getmwl t) :=
  fun _ _ hh => nomatch hh
theorem getmrl (t : Nat) : Statement (.getmrl t) :=
  fun _ _ hh => nomatch hh
theorem getpid (t : Nat) : Statement (.getpid t) :=
  fun _ _ hh => nomatch hh
theorem getbcr (t : Nat) : Statement (.getbcr t) :=
  fun _ _ hh => nomatch hh
theorem getdcr (t : Nat) : Statement (.getdcr t) :=
  fun _ _ hh => nomatch hh
theorem getstatus (t : Nat) : Statement (.getstatus t) :=
  fun _ _ hh => nomatch hh
theorem getmxds (t : Nat) : Statement (.getmxds t) :=
  fun _ _ hh => nomatch hh
theorem getcaps (t : Nat) : Statement (.getcaps t) :=
  fun _ _ hh => nomatch hh
theorem enthdr0 (t : Nat) : Statement (.enthdr0 t) :=
  fun _ _ hh => nomatch hh
theorem rstact (t : Nat) (action : BitVec 8) : Statement (.rstact t action) :=
  fun _ _ hh => nomatch hh
theorem i3cCCmd (t : Nat) (value : Word) : Statement (.i3cCCmd t value) :=
  fun _ _ hh => nomatch hh
theorem i3cCTransferEnd (t : Nat) (st : Fin 3) (data : List Byte) : Statement (.i3cCTransferEnd t st data) :=
  fun _ _ hh => nomatch hh
theorem i3cCIbiReceive (t : Nat) (addr : BitVec 7) (payload : List Byte) : Statement (.i3cCIbiReceive t addr payload) :=
  fun _ _ hh => nomatch hh
theorem i3cCIbi (t : Nat) : Statement (.i3cCIbi t) :=
  fun _ _ hh => nomatch hh
theorem xspRead (t : Nat) (x : Fin 2) (op : BitVec 8) (cs : Fin 2) : Statement (.xspRead t x op cs) :=
  fun _ _ hh => nomatch hh
theorem xspProgram (t : Nat) (x : Fin 2) (op : BitVec 8) (cs : Fin 2) : Statement (.xspProgram t x op cs) :=
  fun _ _ hh => nomatch hh
theorem xspErase (t : Nat) (x : Fin 2) (op : BitVec 8) (cs : Fin 2) : Statement (.xspErase t x op cs) :=
  fun _ _ hh => nomatch hh
theorem xspRegisterAccess (t : Nat) (x : Fin 2) (op : BitVec 8) (cs : Fin 2) : Statement (.xspRegisterAccess t x op cs) :=
  fun _ _ hh => nomatch hh
theorem xspCmdDone (t : Nat) (x : Fin 2) (fails : Bool) (data : List Byte) : Statement (.xspCmdDone t x fails data) :=
  fun _ _ hh => nomatch hh
theorem xspBusyTimeout (t : Nat) (x : Fin 2) : Statement (.xspBusyTimeout t x) :=
  fun _ _ hh => nomatch hh
theorem xspClr (t : Nat) (value : Word) : Statement (.xspClr t value) :=
  fun _ _ hh => nomatch hh
theorem partnerFault (t : Nat) : Statement (.partnerFault t) :=
  fun _ _ hh => nomatch hh
theorem heartbeat (t : Nat) (h : MlHdr) (echo : Word) (arrived : DWord) : Statement (.heartbeat t h echo arrived) :=
  fun _ _ hh => nomatch hh
theorem decision (t : Nat) (h : MlHdr) (n : Fin 1024) (fid state : Word) (causes : BitVec 16) (hist : DWord) (doubt : DecCounts) (nofb noinput : Bool) : Statement (.decision t h n fid state causes hist doubt nofb noinput) :=
  fun _ _ hh => nomatch hh
theorem state (t : Nat) (h : MlHdr) (x : MlState) : Statement (.state t h x) :=
  fun _ _ hh => nomatch hh
theorem keys (t : Nat) (h : MlHdr) (n : Fin 1024) (admitCtr : Word) (epoch : BitVec 16) : Statement (.keys t h n admitCtr epoch) :=
  fun _ _ hh => nomatch hh
theorem time (t : Nat) (h : MlHdr) (ns : DWord) : Statement (.time t h ns) :=
  fun _ _ hh => nomatch hh
theorem frame (t : Nat) (h : MlHdr) (p : Fin 16) (fid : Word) (stamp : DWord) : Statement (.frame t h p fid stamp) :=
  fun _ _ hh => nomatch hh
theorem log (t : Nat) (h : MlHdr) (x : MlLog) : Statement (.log t h x) :=
  fun _ _ hh => nomatch hh
theorem handOver (t : Nat) (h : MlHdr) (last : List (Nat × Nat)) : Statement (.handOver t h last) :=
  fun _ _ hh => nomatch hh
theorem ack (t : Nat) (h : MlHdr) (seqs : List Nat) : Statement (.ack t h seqs) :=
  fun _ _ hh => nomatch hh
theorem bulk (t : Nat) (h : MlHdr) (offset : BitVec 20) (data : List Byte) : Statement (.bulk t h offset data) :=
  fun _ _ hh => nomatch hh
theorem mlResend (t : Nat) (seq : Word) : Statement (.mlResend t seq) :=
  fun _ _ hh => nomatch hh
theorem mlLinkUp (t : Nat) (h : MlHdr) : Statement (.mlLinkUp t h) :=
  fun _ _ hh => nomatch hh
theorem heartbeatSend (t : Nat) : Statement (.heartbeatSend t) :=
  fun _ _ hh => nomatch hh
theorem heartbeatMiss (t : Nat) : Statement (.heartbeatMiss t) :=
  fun _ _ hh => nomatch hh
theorem timeSend (t : Nat) : Statement (.timeSend t) :=
  fun _ _ hh => nomatch hh
theorem arbitrationWaitExpire (t : Nat) : Statement (.arbitrationWaitExpire t) :=
  fun _ _ hh => nomatch hh
theorem mlCmdHandOver (t : Nat) : Statement (.mlCmdHandOver t) :=
  fun _ _ hh => nomatch hh
theorem handOverTimeout (t : Nat) : Statement (.handOverTimeout t) :=
  fun _ _ hh => nomatch hh
theorem resync (t : Nat) : Statement (.resync t) :=
  fun _ _ hh => nomatch hh
theorem mlClr (t : Nat) (value : Word) : Statement (.mlClr t value) :=
  fun _ _ hh => nomatch hh
theorem program (t : Nat) (field : BitVec 8) : Statement (.program t field) :=
  fun _ _ hh => nomatch hh
theorem provId (t : Nat) : Statement (.provId t) :=
  fun _ _ hh => nomatch hh
theorem lock (t : Nat) : Statement (.lock t) :=
  fun _ _ hh => nomatch hh
theorem challenge (t : Nat) : Statement (.challenge t) :=
  fun _ _ hh => nomatch hh
theorem returnToken (t : Nat) (sigOk : Bool) : Statement (.returnToken t sigOk) :=
  fun _ _ hh => nomatch hh
theorem keyEpoch (t : Nat) (all : Bool) (n : Fin 1024) : Statement (.keyEpoch t all n) :=
  fun _ _ hh => nomatch hh
theorem verdictEpoch (t : Nat) : Statement (.verdictEpoch t) :=
  fun _ _ hh => nomatch hh
theorem rotate (t : Nat) : Statement (.rotate t) :=
  fun _ _ hh => nomatch hh
theorem sweepDone (t : Nat) : Statement (.sweepDone t) :=
  fun _ _ hh => nomatch hh
theorem pageJobStart (t : Nat) (decrypt : Bool) : Statement (.pageJobStart t decrypt) :=
  fun _ _ hh => nomatch hh
theorem pageJobEnd (t : Nat) (det : Fin 3) : Statement (.pageJobEnd t det) :=
  fun _ _ hh => nomatch hh
theorem rngHealthFail (t : Nat) : Statement (.rngHealthFail t) :=
  fun _ _ hh => nomatch hh
theorem drbgReseed (t : Nat) : Statement (.drbgReseed t) :=
  fun _ _ hh => nomatch hh
theorem drbgStop (t : Nat) : Statement (.drbgStop t) :=
  fun _ _ hh => nomatch hh
theorem secClr (t : Nat) (value : Word) : Statement (.secClr t value) :=
  fun _ _ hh => nomatch hh
theorem porstNRelease (t : Nat) (pairRole tmode : Bool) : Statement (.porstNRelease t pairRole tmode) :=
  fun _ _ hh => nomatch hh
theorem bootStageEnd (t : Nat) (stop : Fin 8) (diff : BitVec 20) (auth : BitVec 4) (granFails : Bool) : Statement (.bootStageEnd t stop diff auth granFails) :=
  fun _ _ hh => nomatch hh
theorem commit (t : Nat) (sigOk : Bool) : Statement (.commit t sigOk) :=
  fun _ _ hh => nomatch hh
theorem spsFlashWriteDone (t : Nat) : Statement (.spsFlashWriteDone t) :=
  fun _ _ hh => nomatch hh
theorem updBegin (t : Nat) : Statement (.updBegin t) :=
  fun _ _ hh => nomatch hh
theorem sectorEraseDone (t : Nat) : Statement (.sectorEraseDone t) :=
  fun _ _ hh => nomatch hh
theorem updVerify (t : Nat) (sigOk : Bool) : Statement (.updVerify t sigOk) :=
  fun _ _ hh => nomatch hh
theorem updActivate (t : Nat) : Statement (.updActivate t) :=
  fun _ _ hh => nomatch hh
theorem updConfirm (t : Nat) : Statement (.updConfirm t) :=
  fun _ _ hh => nomatch hh
theorem updAbort (t : Nat) : Statement (.updAbort t) :=
  fun _ _ hh => nomatch hh
theorem sysRstCmd (t : Nat) (value : Word) : Statement (.sysRstCmd t value) :=
  fun _ _ hh => nomatch hh
theorem partialResetDone (t : Nat) (die : Fin 4) : Statement (.partialResetDone t die) :=
  fun _ _ hh => nomatch hh
theorem sinLevelChange (t : Nat) (k : Fin 8) (chanB : Bool) (level : Bool) : Statement (.sinLevelChange t k chanB level) :=
  fun _ _ hh => nomatch hh
theorem discrepancyExpire (t : Nat) (k : Fin 8) : Statement (.discrepancyExpire t k) :=
  fun _ _ hh => nomatch hh
theorem testPulseStart (t : Nat) (o : Fin 4) : Statement (.testPulseStart t o) :=
  fun _ _ hh => nomatch hh
theorem testPulseEnd (t : Nat) (o : Fin 4) : Statement (.testPulseEnd t o) :=
  fun _ _ hh => nomatch hh
theorem readbackMismatch (t : Nat) (o : Fin 4) (level : Bool) : Statement (.readbackMismatch t o level) :=
  fun _ _ hh => nomatch hh
theorem readbackRelease (t : Nat) (o : Fin 4) : Statement (.readbackRelease t o) :=
  fun _ _ hh => nomatch hh
theorem powerUp (t : Nat) (a : Fin 4) : Statement (.powerUp t a) :=
  fun _ _ hh => nomatch hh
theorem powerDown (t : Nat) (a : Fin 4) : Statement (.powerDown t a) :=
  fun _ _ hh => nomatch hh
theorem releaseAcc (t : Nat) (a : Fin 4) : Statement (.releaseAcc t a) :=
  fun _ _ hh => nomatch hh
theorem accPadMismatch (t : Nat) (a : Fin 4) (ball : Bool) (level : Bool) : Statement (.accPadMismatch t a ball level) :=
  fun _ _ hh => nomatch hh
theorem sioClr (t : Nat) (value : Word) : Statement (.sioClr t value) :=
  fun _ _ hh => nomatch hh
theorem lbGo (t : Nat) : Statement (.lbGo t) :=
  fun _ _ hh => nomatch hh
theorem lbAbort (t : Nat) : Statement (.lbAbort t) :=
  fun _ _ hh => nomatch hh
theorem loopbackLock (t : Nat) : Statement (.loopbackLock t) :=
  fun _ _ hh => nomatch hh
theorem loopbackLockTimeout (t : Nat) : Statement (.loopbackLockTimeout t) :=
  fun _ _ hh => nomatch hh
theorem loopbackEnd (t : Nat) (count : BitVec 48) (errs : Nat) (first : DWord) (moved : List (Fin 0x5C × Word)) : Statement (.loopbackEnd t count errs first moved) :=
  fun _ _ hh => nomatch hh
theorem bypass (t : Nat) : Statement (.bypass t) :=
  fun _ _ hh => nomatch hh
theorem idcode (t : Nat) : Statement (.idcode t) :=
  fun _ _ hh => nomatch hh
theorem samplePreload (t : Nat) (scan : Nat) : Statement (.samplePreload t scan) :=
  fun _ _ hh => nomatch hh
theorem extest (t : Nat) (scan : Nat) : Statement (.extest t scan) :=
  fun _ _ hh => nomatch hh
theorem clamp (t : Nat) : Statement (.clamp t) :=
  fun _ _ hh => nomatch hh
theorem highz (t : Nat) : Statement (.highz t) :=
  fun _ _ hh => nomatch hh
theorem dbgAccess (t : Nat) (write : Bool) (addr : BitVec 48) (value : Word) : Statement (.dbgAccess t write addr value) :=
  fun _ _ hh => nomatch hh
theorem porstNAssert (t : Nat) (ns : Nat) : Statement (.porstNAssert t ns) :=
  fun _ _ hh => nomatch hh
theorem wrstN (t : Nat) (ns : Nat) : Statement (.wrstN t ns) :=
  fun _ _ hh => nomatch hh
theorem railOutOfWindow (t : Nat) (k : Fin 10) : Statement (.railOutOfWindow t k) :=
  fun _ _ hh => nomatch hh
theorem railBelowThreshold (t : Nat) (k : Fin 10) : Statement (.railBelowThreshold t k) :=
  fun _ _ hh => nomatch hh
theorem resetHoldEnd (t : Nat) : Statement (.resetHoldEnd t) :=
  fun _ _ hh => nomatch hh
theorem pllLockLoss (t : Nat) (die : Fin 5) : Statement (.pllLockLoss t die) :=
  fun _ _ hh => nomatch hh
theorem tempSample (t : Nat) (w c0 c1 c2 c3 : BitVec 8) : Statement (.tempSample t w c0 c1 c2 c3) :=
  fun _ _ hh => nomatch hh
theorem avsStep (t : Nat) (die : Fin 4) : Statement (.avsStep t die) :=
  fun _ _ hh => nomatch hh
theorem sysAvs (t : Nat) (die : Fin 4) (value : Word) : Statement (.sysAvs t die value) :=
  fun _ _ hh => nomatch hh
theorem fpClr (t : Nat) (value : Word) : Statement (.fpClr t value) :=
  fun _ _ hh => nomatch hh
theorem evClrCtx (t : Nat) (value : Word) : Statement (.evClrCtx t value) :=
  fun _ _ hh => nomatch hh
theorem evClrEin (t : Nat) (value : Word) : Statement (.evClrEin t value) :=
  fun _ _ hh => nomatch hh
theorem ckClr (t : Nat) (value : Word) : Statement (.ckClr t value) :=
  fun _ _ hh => nomatch hh
theorem cxClr (t : Nat) (die : Fin 4) (value : Word) : Statement (.cxClr t die value) :=
  fun _ _ hh => nomatch hh
theorem gsClr (t : Nat) (die : Fin 4) (value : Word) : Statement (.gsClr t die value) :=
  fun _ _ hh => nomatch hh
theorem peerTimeout (t : Nat) (k : Fin 8) : Statement (.peerTimeout t k) :=
  fun _ _ hh => nomatch hh
theorem railInWindow (t : Nat) (k : Fin 10) : Statement (.railInWindow t k) :=
  fun _ _ hh => nomatch hh
theorem partnerFaultRelease (t : Nat) : Statement (.partnerFaultRelease t) :=
  fun _ _ hh => nomatch hh
theorem i3cProtocolError (t : Nat) (te : Fin 7) : Statement (.i3cProtocolError t te) :=
  fun _ _ hh => nomatch hh
theorem ethFrameTransmit (t : Nat) (x : Fin 2) (ptp : Option (List Byte)) (dst : BitVec 48) : Statement (.ethFrameTransmit t x ptp dst) :=
  fun _ _ hh => nomatch hh
theorem linkTrainingDone (t : Nat) (num : Fin 48) : Statement (.linkTrainingDone t num) :=
  fun _ _ hh => nomatch hh
theorem blockResetDone (t : Nat) (src : Fin 384) : Statement (.blockResetDone t src) :=
  fun _ _ hh => nomatch hh
theorem updateCommandDone (t : Nat) : Statement (.updateCommandDone t) :=
  fun _ _ hh => nomatch hh
theorem fcSelfDifference (t : Nat) : Statement (.fcSelfDifference t) :=
  fun _ _ hh => nomatch hh
theorem g6TemperatureReport (t : Nat) (ch : Fin 16) (hot : Bool) : Statement (.g6TemperatureReport t ch hot) :=
  fun _ _ hh => nomatch hh
theorem lifecycleReturnReset (t : Nat) : Statement (.lifecycleReturnReset t) :=
  fun _ _ hh => nomatch hh

end Sys2Proof.Laws.Hart
end

