-- ==== Sys2Proof/Laws/Time.lean ====
section
/-! SUPPORT. The passing of time and the start of a command: what each leaves, and which words it writes (R407, R410). -/

namespace Sys2Proof.Machine.State

open Sys2Proof

variable (s : State)

/-- The words that the passing of time writes: TM_TIME and TM_FRAC (R407). -/
def Clock (a : Nat) : Prop := a = A.TM_TIME ∨ a = A.TM_TIME + 4 ∨ a = A.TM_FRAC

theorem word_upto (t a : Nat) (h : ¬ Clock a) : (s.upto t).word a = s.word a := by
  have h1 : a ≠ A.TM_TIME := fun e => h (Or.inl e)
  have h2 : a ≠ A.TM_TIME + 4 := fun e => h (Or.inr (Or.inl e))
  have h3 : a ≠ A.TM_FRAC := fun e => h (Or.inr (Or.inr e))
  unfold upto
  split
  · rfl
  split
  · rfl
  · extract_lets
    show ((((s.setWord _ _).setWord _ _).setWord _ _)).word a = s.word a
    rw [word_setWord_ne _ _ _ _ h3, word_setWord_ne _ _ _ _ h2, word_setWord_ne _ _ _ _ h1]

@[simp] theorem upto_tick (t : Nat) : (s.upto t).tick = max s.tick t := by
  unfold upto
  split
  · rename_i h; exact (Nat.max_eq_left h).symm
  split
  · rename_i h _; exact (Nat.max_eq_right (Nat.le_of_lt (Nat.lt_of_not_le h))).symm
  · rename_i h _; exact (Nat.max_eq_right (Nat.le_of_lt (Nat.lt_of_not_le h))).symm

@[simp] theorem start_tick (t : Nat) : (s.start t).tick = max s.tick t := upto_tick s t

@[simp] theorem start_resp (t : Nat) : (s.start t).resp = .ok := rfl

/-- A command begins with every register word as it was but the clock's. -/
theorem word_start (t a : Nat) (h : ¬ Clock a) : (s.start t).word a = s.word a := word_upto s t a h

theorem f_start (t : Nat) (x : Field) (h : ¬ Clock x.addr) : (s.start t).f x = s.f x := by
  simp only [f, word_start s t x.addr h]

theorem on_start (t : Nat) (x : Field) (h : ¬ Clock x.addr) : (s.start t).on x = s.on x := by
  simp only [on, f_start s t x h]

@[simp] theorem upto_pending (t : Nat) : (s.upto t).pending = s.pending := by unfold upto; split <;> first | rfl | (split <;> rfl)
@[simp] theorem upto_free (t : Nat) : (s.upto t).free = s.free := by unfold upto; split <;> first | rfl | (split <;> rfl)
@[simp] theorem upto_latch (t : Nat) : (s.upto t).latch = s.latch := by unfold upto; split <;> first | rfl | (split <;> rfl)
@[simp] theorem upto_held (t : Nat) : (s.upto t).held = s.held := by unfold upto; split <;> first | rfl | (split <;> rfl)
@[simp] theorem upto_mem (t : Nat) : (s.upto t).mem = s.mem := by unfold upto; split <;> first | rfl | (split <;> rfl)
@[simp] theorem upto_lost (t : Nat) : (s.upto t).lost = s.lost := by unfold upto; split <;> first | rfl | (split <;> rfl)
@[simp] theorem upto_g6Hot (t : Nat) : (s.upto t).g6Hot = s.g6Hot := by unfold upto; split <;> first | rfl | (split <;> rfl)
@[simp] theorem upto_resp (t : Nat) : (s.upto t).resp = s.resp := by unfold upto; split <;> first | rfl | (split <;> rfl)
@[simp] theorem upto_rdata (t : Nat) : (s.upto t).rdata = s.rdata := by unfold upto; split <;> first | rfl | (split <;> rfl)
@[simp] theorem upto_evt (t : Nat) : (s.upto t).evt = s.evt := by unfold upto; split <;> first | rfl | (split <;> rfl)
@[simp] theorem upto_soutReq (t : Nat) : (s.upto t).soutReq = s.soutReq := by unfold upto; split <;> first | rfl | (split <;> rfl)
@[simp] theorem upto_enabled (t : Nat) : (s.upto t).enabled = s.enabled := by unfold upto; split <;> first | rfl | (split <;> rfl)
@[simp] theorem upto_ctxs (t : Nat) : (s.upto t).ctxs = s.ctxs := by unfold upto; split <;> first | rfl | (split <;> rfl)
@[simp] theorem upto_accSeq (t : Nat) : (s.upto t).accSeq = s.accSeq := by unfold upto; split <;> first | rfl | (split <;> rfl)
@[simp] theorem upto_verdict (t : Nat) : (s.upto t).verdict = s.verdict := by unfold upto; split <;> first | rfl | (split <;> rfl)
@[simp] theorem upto_cin (t : Nat) : (s.upto t).cin = s.cin := by unfold upto; split <;> first | rfl | (split <;> rfl)
@[simp] theorem upto_slots (t : Nat) : (s.upto t).slots = s.slots := by unfold upto; split <;> first | rfl | (split <;> rfl)
@[simp] theorem upto_plibBad (t : Nat) : (s.upto t).plibBad = s.plibBad := by unfold upto; split <;> first | rfl | (split <;> rfl)
@[simp] theorem upto_evOpen (t : Nat) : (s.upto t).evOpen = s.evOpen := by unfold upto; split <;> first | rfl | (split <;> rfl)
@[simp] theorem upto_evSlots (t : Nat) : (s.upto t).evSlots = s.evSlots := by unfold upto; split <;> first | rfl | (split <;> rfl)
@[simp] theorem upto_evTimer (t : Nat) : (s.upto t).evTimer = s.evTimer := by unfold upto; split <;> first | rfl | (split <;> rfl)
@[simp] theorem upto_evTimerOn (t : Nat) : (s.upto t).evTimerOn = s.evTimerOn := by unfold upto; split <;> first | rfl | (split <;> rfl)
@[simp] theorem upto_harts (t : Nat) : (s.upto t).harts = s.harts := by unfold upto; split <;> first | rfl | (split <;> rfl)
@[simp] theorem upto_instret (t : Nat) : (s.upto t).instret = s.instret := by unfold upto; split <;> first | rfl | (split <;> rfl)
@[simp] theorem upto_vp2 (t : Nat) : (s.upto t).vp2 = s.vp2 := by unfold upto; split <;> first | rfl | (split <;> rfl)
@[simp] theorem upto_agParams (t : Nat) : (s.upto t).agParams = s.agParams := by unfold upto; split <;> first | rfl | (split <;> rfl)
@[simp] theorem upto_gs (t : Nat) : (s.upto t).gs = s.gs := by unfold upto; split <;> first | rfl | (split <;> rfl)
@[simp] theorem upto_since (t : Nat) : (s.upto t).since = s.since := by unfold upto; split <;> first | rfl | (split <;> rfl)
@[simp] theorem upto_ct (t : Nat) : (s.upto t).ct = s.ct := by unfold upto; split <;> first | rfl | (split <;> rfl)
@[simp] theorem upto_pairs (t : Nat) : (s.upto t).pairs = s.pairs := by unfold upto; split <;> first | rfl | (split <;> rfl)
@[simp] theorem upto_roleMoves (t : Nat) : (s.upto t).roleMoves = s.roleMoves := by unfold upto; split <;> first | rfl | (split <;> rfl)
@[simp] theorem upto_mbx (t : Nat) : (s.upto t).mbx = s.mbx := by unfold upto; split <;> first | rfl | (split <;> rfl)
@[simp] theorem upto_retFlag (t : Nat) : (s.upto t).retFlag = s.retFlag := by unfold upto; split <;> first | rfl | (split <;> rfl)
@[simp] theorem upto_fc (t : Nat) : (s.upto t).fc = s.fc := by unfold upto; split <;> first | rfl | (split <;> rfl)
@[simp] theorem upto_wd (t : Nat) : (s.upto t).wd = s.wd := by unfold upto; split <;> first | rfl | (split <;> rfl)
@[simp] theorem upto_dma (t : Nat) : (s.upto t).dma = s.dma := by unfold upto; split <;> first | rfl | (split <;> rfl)
@[simp] theorem upto_eth (t : Nat) : (s.upto t).eth = s.eth := by unfold upto; split <;> first | rfl | (split <;> rfl)
@[simp] theorem upto_ibi (t : Nat) : (s.upto t).ibi = s.ibi := by unfold upto; split <;> first | rfl | (split <;> rfl)
@[simp] theorem upto_i3c (t : Nat) : (s.upto t).i3c = s.i3c := by unfold upto; split <;> first | rfl | (split <;> rfl)
@[simp] theorem upto_xsp (t : Nat) : (s.upto t).xsp = s.xsp := by unfold upto; split <;> first | rfl | (split <;> rfl)
@[simp] theorem upto_hostIrq (t : Nat) : (s.upto t).hostIrq = s.hostIrq := by unfold upto; split <;> first | rfl | (split <;> rfl)
@[simp] theorem upto_ml (t : Nat) : (s.upto t).ml = s.ml := by unfold upto; split <;> first | rfl | (split <;> rfl)
@[simp] theorem upto_sec (t : Nat) : (s.upto t).sec = s.sec := by unfold upto; split <;> first | rfl | (split <;> rfl)
@[simp] theorem upto_boot (t : Nat) : (s.upto t).boot = s.boot := by unfold upto; split <;> first | rfl | (split <;> rfl)
@[simp] theorem upto_flash (t : Nat) : (s.upto t).flash = s.flash := by unfold upto; split <;> first | rfl | (split <;> rfl)
@[simp] theorem upto_dieReset (t : Nat) : (s.upto t).dieReset = s.dieReset := by unfold upto; split <;> first | rfl | (split <;> rfl)
@[simp] theorem upto_holds (t : Nat) : (s.upto t).holds = s.holds := by unfold upto; split <;> first | rfl | (split <;> rfl)
@[simp] theorem upto_railsLow (t : Nat) : (s.upto t).railsLow = s.railsLow := by unfold upto; split <;> first | rfl | (split <;> rfl)
@[simp] theorem upto_committed (t : Nat) : (s.upto t).committed = s.committed := by unfold upto; split <;> first | rfl | (split <;> rfl)
@[simp] theorem upto_spsTick (t : Nat) : (s.upto t).spsTick = s.spsTick := by unfold upto; split <;> first | rfl | (split <;> rfl)
@[simp] theorem upto_protect (t : Nat) : (s.upto t).protect = s.protect := by unfold upto; split <;> first | rfl | (split <;> rfl)
@[simp] theorem upto_sioIn (t : Nat) : (s.upto t).sioIn = s.sioIn := by unfold upto; split <;> first | rfl | (split <;> rfl)
@[simp] theorem upto_sioOut (t : Nat) : (s.upto t).sioOut = s.sioOut := by unfold upto; split <;> first | rfl | (split <;> rfl)
@[simp] theorem upto_accCmd (t : Nat) : (s.upto t).accCmd = s.accCmd := by unfold upto; split <;> first | rfl | (split <;> rfl)
@[simp] theorem upto_lb (t : Nat) : (s.upto t).lb = s.lb := by unfold upto; split <;> first | rfl | (split <;> rfl)
@[simp] theorem upto_jtag (t : Nat) : (s.upto t).jtag = s.jtag := by unfold upto; split <;> first | rfl | (split <;> rfl)
@[simp] theorem upto_boundary (t : Nat) : (s.upto t).boundary = s.boundary := by unfold upto; split <;> first | rfl | (split <;> rfl)

@[simp] theorem start_pending (t : Nat) : (s.start t).pending = s.pending := upto_pending s t
@[simp] theorem start_free (t : Nat) : (s.start t).free = s.free := upto_free s t
@[simp] theorem start_latch (t : Nat) : (s.start t).latch = s.latch := upto_latch s t
@[simp] theorem start_held (t : Nat) : (s.start t).held = s.held := upto_held s t
@[simp] theorem start_mem (t : Nat) : (s.start t).mem = s.mem := upto_mem s t
@[simp] theorem start_lost (t : Nat) : (s.start t).lost = s.lost := upto_lost s t
@[simp] theorem start_g6Hot (t : Nat) : (s.start t).g6Hot = s.g6Hot := upto_g6Hot s t
@[simp] theorem start_rdata (t : Nat) : (s.start t).rdata = s.rdata := upto_rdata s t
@[simp] theorem start_evt (t : Nat) : (s.start t).evt = s.evt := upto_evt s t
@[simp] theorem start_soutReq (t : Nat) : (s.start t).soutReq = s.soutReq := upto_soutReq s t
@[simp] theorem start_enabled (t : Nat) : (s.start t).enabled = s.enabled := upto_enabled s t
@[simp] theorem start_ctxs (t : Nat) : (s.start t).ctxs = s.ctxs := upto_ctxs s t
@[simp] theorem start_accSeq (t : Nat) : (s.start t).accSeq = s.accSeq := upto_accSeq s t
@[simp] theorem start_verdict (t : Nat) : (s.start t).verdict = s.verdict := upto_verdict s t
@[simp] theorem start_cin (t : Nat) : (s.start t).cin = s.cin := upto_cin s t
@[simp] theorem start_slots (t : Nat) : (s.start t).slots = s.slots := upto_slots s t
@[simp] theorem start_plibBad (t : Nat) : (s.start t).plibBad = s.plibBad := upto_plibBad s t
@[simp] theorem start_evOpen (t : Nat) : (s.start t).evOpen = s.evOpen := upto_evOpen s t
@[simp] theorem start_evSlots (t : Nat) : (s.start t).evSlots = s.evSlots := upto_evSlots s t
@[simp] theorem start_evTimer (t : Nat) : (s.start t).evTimer = s.evTimer := upto_evTimer s t
@[simp] theorem start_evTimerOn (t : Nat) : (s.start t).evTimerOn = s.evTimerOn := upto_evTimerOn s t
@[simp] theorem start_harts (t : Nat) : (s.start t).harts = s.harts := upto_harts s t
@[simp] theorem start_instret (t : Nat) : (s.start t).instret = s.instret := upto_instret s t
@[simp] theorem start_vp2 (t : Nat) : (s.start t).vp2 = s.vp2 := upto_vp2 s t
@[simp] theorem start_agParams (t : Nat) : (s.start t).agParams = s.agParams := upto_agParams s t
@[simp] theorem start_gs (t : Nat) : (s.start t).gs = s.gs := upto_gs s t
@[simp] theorem start_since (t : Nat) : (s.start t).since = s.since := upto_since s t
@[simp] theorem start_ct (t : Nat) : (s.start t).ct = s.ct := upto_ct s t
@[simp] theorem start_pairs (t : Nat) : (s.start t).pairs = s.pairs := upto_pairs s t
@[simp] theorem start_roleMoves (t : Nat) : (s.start t).roleMoves = s.roleMoves := upto_roleMoves s t
@[simp] theorem start_mbx (t : Nat) : (s.start t).mbx = s.mbx := upto_mbx s t
@[simp] theorem start_retFlag (t : Nat) : (s.start t).retFlag = s.retFlag := upto_retFlag s t
@[simp] theorem start_fc (t : Nat) : (s.start t).fc = s.fc := upto_fc s t
@[simp] theorem start_wd (t : Nat) : (s.start t).wd = s.wd := upto_wd s t
@[simp] theorem start_dma (t : Nat) : (s.start t).dma = s.dma := upto_dma s t
@[simp] theorem start_eth (t : Nat) : (s.start t).eth = s.eth := upto_eth s t
@[simp] theorem start_ibi (t : Nat) : (s.start t).ibi = s.ibi := upto_ibi s t
@[simp] theorem start_i3c (t : Nat) : (s.start t).i3c = s.i3c := upto_i3c s t
@[simp] theorem start_xsp (t : Nat) : (s.start t).xsp = s.xsp := upto_xsp s t
@[simp] theorem start_hostIrq (t : Nat) : (s.start t).hostIrq = s.hostIrq := upto_hostIrq s t
@[simp] theorem start_ml (t : Nat) : (s.start t).ml = s.ml := upto_ml s t
@[simp] theorem start_sec (t : Nat) : (s.start t).sec = s.sec := upto_sec s t
@[simp] theorem start_boot (t : Nat) : (s.start t).boot = s.boot := upto_boot s t
@[simp] theorem start_flash (t : Nat) : (s.start t).flash = s.flash := upto_flash s t
@[simp] theorem start_dieReset (t : Nat) : (s.start t).dieReset = s.dieReset := upto_dieReset s t
@[simp] theorem start_holds (t : Nat) : (s.start t).holds = s.holds := upto_holds s t
@[simp] theorem start_railsLow (t : Nat) : (s.start t).railsLow = s.railsLow := upto_railsLow s t
@[simp] theorem start_committed (t : Nat) : (s.start t).committed = s.committed := upto_committed s t
@[simp] theorem start_spsTick (t : Nat) : (s.start t).spsTick = s.spsTick := upto_spsTick s t
@[simp] theorem start_protect (t : Nat) : (s.start t).protect = s.protect := upto_protect s t
@[simp] theorem start_sioIn (t : Nat) : (s.start t).sioIn = s.sioIn := upto_sioIn s t
@[simp] theorem start_sioOut (t : Nat) : (s.start t).sioOut = s.sioOut := upto_sioOut s t
@[simp] theorem start_accCmd (t : Nat) : (s.start t).accCmd = s.accCmd := upto_accCmd s t
@[simp] theorem start_lb (t : Nat) : (s.start t).lb = s.lb := upto_lb s t
@[simp] theorem start_jtag (t : Nat) : (s.start t).jtag = s.jtag := upto_jtag s t
@[simp] theorem start_boundary (t : Nat) : (s.start t).boundary = s.boundary := upto_boundary s t

@[simp] theorem byte_start (t a : Nat) : (s.start t).byte a = s.byte a := byte_congr (start_mem s t) a

@[simp] theorem hart_start (t h : Nat) : (s.start t).hart h = s.hart h := by simp [hart]

end Sys2Proof.Machine.State
end

