-- ==== Sys2Proof/Tests/Slice0.lean ====
section
/-! SUPPORT. Tests: terms that well-formedness refuses, the spec's worked examples, one step of some commands, and for each
statement with hypotheses states that meet them (`witness_<Name>`). -/

namespace Sys2Proof.Tests

open Sys2Proof Sys2Proof.Machine

-- one theorem at a time: each evaluation is long
set_option Elab.async false

/-! ### Small states -/

/-- State `s` with register fields set. -/
def sets (l : List (Field × Nat)) (s : State) : State := l.foldl (fun s p => s.setF p.1 p.2) s

/-- The state after one command. -/
def after (c : Instr) (s : State) : State :=
  match exec c s with
  | .next u => u
  | _ => s

/-- A device in service: boot stage 8, service level 1. -/
def serving (s : State) : State := sets [(F.SYS_BOOT_stage, 8), (F.SYS_SVC_level, 1)] s

/-- Context 3, committed with en = 1, in trust state `k`. -/
def context (k : Nat) (c : Ctx) : State :=
  (sets [(F.VD_CTX_STATE_state 3, k)] { State.reset with enabled := [3] }).setCtx 3 c

/-- An undecided frame: ordinal 0, frame ID 1, deadlines at ticks 100 and 200. -/
def frame : Machine.Frm :=
  { ord := 0, fid := 1, stampNs := 0, stampTick := 0, admitCtr := 0, evDl := 100, vDl := 200, causes := 0, ports := 1, skew := 0,
    members := [], groupDone := false, ev := .none, opened := false, hdr := [], evText := [], resText := [], evSlot := none, planId := 0,
    evTag := [], resTag := [], pepper := [], patches := [], plan := 0, planImg := [], ckEn := false, ckCfg := 0, fbRef := 0, agCfg := 0,
    agBudget := 0, agParam := [], images := [], programs := [], todo := [], running := [], outs := [], vp2Due := false,
    vp2Queued := false, fails := [], gone := false, fb := .waiting, fbBytes := [], decoded := [], ag := .waiting, detail := 0,
    margin := 0 }

/-- Verdict pair 0 runs, at an address of warden SRAM, in warden mode. -/
def pair0 : State := (sets [(F.SYS_VP_STAT_state 0, 2)] State.reset).modHart 0 (fun h => { h with pc := 0x10000000 })

/-- Control processor 0 of CD0 runs, at an address of its Core Memory, in warden mode. -/
def control0 : State :=
  (sets [(F.SYS_DIE_state 0, 4)] State.reset).modHart 0x100 (fun h => { h with pc := 0x1100000000 })

/-- A thread of no operation. -/
def thread : Thr := { die := 0, seq := 0, epoch := 0, num := 0, attempt := 0, tried := [], want := none, profile := 0, place := 0, redo := false }

/-- Tile sequencer 0 of CORE 0 runs that thread, with BUDGET 100. -/
def tile0 : State :=
  (State.reset.setEngine 0 0 ⟨some thread, []⟩).modHart 0x200 (fun h => { h with
    pc := 0x1100000000, csr := Table.put (fun _ => 0) h.csr 0x010 100 })

/-- An instruction at tick 0, undisturbed. -/
def at_ (h : Fin 0x300) : Issue := ⟨0, h, 0, false, 0⟩

/-- Instruction `c`, of `n` bytes, placed at the pc of processor `h`. -/
def placed (c : Instr) (h n : Nat) (s : State) : State := s.setMemVal (s.pc h) n (insnWord c)

/-- What a statement about instruction `c` asks of `h` in `s`: it is ready, and finds the instruction at its pc. -/
def CanRun (c : Instr) (h : Fin 0x300) (n w : Nat) (s : State) : Prop :=
  Ready (at_ h) n w (placed c h n s) ∧ (placed c h n s).finds h n (insnWord c) = true

/-- A primary in step with a partner in full service: it hands over before a warm reset. -/
def leading : State :=
  sets [(F.ML_CTRL_en, 1), (F.ML_STATUS_role, 1), (F.ML_STATUS_link, 1), (F.ML_STATUS_sync, 1), (F.ML_PARTNER_level, 1)] State.reset

/-! ### Well-formedness: every check refuses a term, and takes one -/

theorem test_wf_line (l : List Byte) (h : 0xFFFF < l.length) : Instr.wf (.cinImageLine 0 0 0 l ⟨0, 0, .good, false⟩ true false) = false := by
  show (decide (l.length ≤ 0xFFFF)) = false; simp; omega
theorem test_wf_embedded : Instr.wf (.cinEmbeddedLine 0 0 0x10000 ⟨0, .good⟩ true) = false := by decide +kernel
theorem test_wf_evidence (l : List Byte) (h : 0xFFFF < l.length) : Instr.wf (.evidencePacket 0 0 0 false l .good true) = false := by
  show (decide (l.length ≤ 0xFFFF)) = false; simp; omega
theorem test_wf_burst : Instr.wf (.g6BurstRetry 0 0 2 0 .lost) = false := by decide +kernel
theorem test_wf_burst_ok : Instr.wf (.g6BurstRetry 0 0 3 0 .lost) = true := by decide +kernel
theorem test_wf_switch : Instr.wf (.threadSwitch 0 0 0 0 0) = false := by decide +kernel
theorem test_wf_hart : Instr.wf (.nop (at_ 1) 0 0 0) = false := by decide +kernel
theorem test_wf_hart_ok : Instr.wf (.nop (at_ 0x2FF) 0 0 0) = true := by decide +kernel
theorem test_wf_hart_event : Instr.wf (.nmiEntry 0 0x110) = false := by decide +kernel
theorem test_wf_request (l : List Byte) (h : 1500 < l.length) : Instr.wf (.mailboxRequest 0 0 l) = false := by
  show (decide (l.length ≤ 1500)) = false; simp; omega
theorem test_wf_read : Instr.wf (.readReg 0 0 0 0 0) = false := by decide +kernel
theorem test_wf_write : Instr.wf (.writeReg 0 0 0 0 []) = false := by decide +kernel
theorem test_wf_master : Instr.wf (.keyA 0 0 0x1000) = false := by decide +kernel
theorem test_wf_bad_key : Instr.wf (.badKey 0 0 0 0x6B2F) = false := by decide +kernel
theorem test_wf_frame (l : List Byte) (h : l.length < 14) : Instr.wf (.ethFrameReceive 0 0 true l) = false := by
  show ((decide (14 ≤ l.length) && decide (l.length ≤ 1518))) = false; simp; omega
theorem test_wf_bulk_data (l : List Byte) (h : 1500 < l.length) : Instr.wf (.bulkData 0 0 0 0 l) = false := by
  show (decide (l.length ≤ 1500)) = false; simp; omega
theorem test_wf_private_read : Instr.wf (.i3cPrivateRead 0 false 0) = false := by decide +kernel
theorem test_wf_transfer (l : List Byte) (h : 64 < l.length) : Instr.wf (.i3cCTransferEnd 0 0 l) = false := by
  show (decide (l.length ≤ 64)) = false; simp; omega
theorem test_wf_mirrored : MlState.wf (.ctx 1024 0 0 0 0 0 0 0 false) = false ∧ MlState.wf (.acc 4 0 false false 0) = false ∧
    MlState.wf (.sout 0 (2 ^ 32)) = false ∧ MlState.wf .copyEnd = true := by decide +kernel
theorem test_wf_log : MlLog.wf (.record 0 []) = false ∧ MlLog.wf (.watch 9 0) = false ∧ MlLog.wf (.fallow 256 0 true) = false := by
  decide +kernel
theorem test_wf_hand_over (h : MlHdr) : Instr.wf (.handOver 0 h [(1024, 0)]) = false := rfl
theorem test_wf_ack (h : MlHdr) : Instr.wf (.ack 0 h []) = false := rfl
theorem test_wf_loopback : Instr.wf (.loopbackEnd 0 0 (2 ^ 32) 0 []) = false := by decide +kernel
theorem test_wf_gptp (l : List Byte) (h : 1500 < l.length) : Instr.wf (.ethFrameTransmit 0 0 (some l) 0) = false := by
  show (decide (l.length ≤ 1500)) = false; simp; omega

/-! ### The spec's worked examples -/

/-- R188's worked address. -/
theorem test_g6_worked : State.g6DataAddr 0x010123456780 = 0x12CAAC80 ∧ State.g6CheckAddr 0x010123456780 = 0x12CABF60 ∧
    State.g6Tag 0x010123456780 = 0x60123457 ∧ State.localView 0x010123456780 = 0x1448D16780 := by decide +kernel

/-! ### Hypotheses of the statements -/

/-- Context 3 in each trust state that a VD command needs, with room below its reservation. -/
theorem witness_VdCommandsActAsListed :
    let s (k : Nat) := context k { Ctx.reset with reserve := 100, reactDone := some 0 }
    (∀ k : Fin 6, (s k).enabled.contains 3 = true ∧ (s k).vdBusy = none ∧ (s k).trust 3 = k ∧ (s k).frms 3 = [] ∧
      (s k).nextAdmit 3 = some 1 ∧ 1 < ((s k).ctx 3).reserve ∧ (s k).isRetired 3 = false ∧ ((s k).ctx 3).reactDone.isSome = true) ∧
    (s 2).inJudged 3 = true ∧
    (let r := (s 0).withFc { (s 0).fc with fallow := [(10, 3)] }
     r.trust 3 = 0 ∧ r.vdBusy = none ∧ r.frms 3 = [] ∧ r.fc.fallow.contains (10, 3) = true) ∧
    (let r := { s 0 with vdBusy := some (1, 3) }
     r.enabled.contains 3 = true ∧ r.vdBusy.isSome = true ∧ r.frms 3 = []) ∧
    (let r := sets [(F.VD_CTX_REACT_auto 3, 1), (F.VD_CTX_REACT_readmit_ms 3, 0)] (s 4)
     r.on (F.VD_CTX_REACT_auto 3) = true ∧ r.frms 3 = [] ∧ 0 + max 1 (State.ms (r.f (F.VD_CTX_REACT_readmit_ms 3))) ≤ max r.tick 1 ∧
       r.nextAdmit 3 = some 1 ∧ 1 < (r.ctx 3).reserve) ∧
    (∀ k ∈ [0, 4, 5], Calm (s k)) := by unfold Calm; decide +kernel

theorem witness_AcceleratorStepsDriveTheBalls :
    let s (x : SeqPhase) := State.reset.setSeq 1 { (State.reset.seq 1) with phase := x }
    (Contexts.inRange (s (.pulse 0)) ∧ ((s (.pulse 0)).seq 1).phase = .pulse 0 ∧ (s (.pulse 0)).on (F.VD_ACC_STAT_pend 1) = false ∧
      (sets [(F.VD_ACC_STAT_pend 1, 1)] (s (.pulse 0))).on (F.VD_ACC_STAT_pend 1) = true) ∧
    ((s (.off 0)).seq 1).phase = .off 0 ∧ ((s (.settle 0)).seq 1).phase = .settle 0 ∧
    (let r := State.reset.withAccCmd [(1, .powerUp 0)]
     (r.seq 1).phase = .idle ∧ r.cmdOf 1 = .powerUp 0) ∧
    (State.reset.accFree 1 = true ∧ State.reset.on (F.SIO_ACC_STAT_pwr 1) = false ∧ State.reset.on (F.SIO_ACC_STAT_rst 1) = false ∧
      State.reset.boundTo 1 = []) ∧
    (let r := sets [(F.SIO_ACC_STAT_pwr 1, 1)] State.reset
     r.accFree 1 = true ∧ r.on (F.SIO_ACC_STAT_pwr 1) = true ∧ r.on (F.SIO_ACC_STAT_rst 1) = false) := by
  unfold Contexts.inRange; decide +kernel

theorem witness_DeadlinesAndDecisions :
    (let s := (context 1 Ctx.reset).setFrms 3 [frame]
     Contexts.inRange s ∧ s.frms 3 = [frame] ∧ s.isSecondary = false ∧ frame.evDl ≤ max s.tick 100 ∧ State.evPending frame = true ∧
       s.judged 3 = true ∧ State.noInput frame = false) ∧
    (let f := { frame with ev := .failed }
     let s := (context 1 Ctx.reset).setFrms 3 [f]
     s.frms 3 = [f] ∧ f.vDl ≤ max s.tick 200 ∧ State.noInput f = false ∧ State.evPending f = false) ∧
    (let f := { frame with ev := .failed, fb := .missing }
     let s := (context 1 Ctx.reset).setFrms 3 [f]
     s.frmComplete 3 f = true ∧ State.evPending f = false ∧ s.leads = true) ∧
    (let f := { frame with causes := 2 ^ Cause.noInput }
     let s := (context 1 Ctx.reset).setFrms 3 [f]
     s.frmComplete 3 f = true ∧ State.noInput f = true) := by
  unfold Contexts.inRange; decide +kernel

/-- Settings of RAW8 lines of 64 pixels, two to a frame, on virtual channel 0, forwarded on FWD0, in a ring of slots of 1 KiB
from the start of GDDR6. -/
def camSet : CinSet := ⟨0x2A * 2 ^ 20 + 0x8000, 64 * 2 ^ 16 + 2, 1 * 2 ^ 16, 0x100 + 2, 0x10000000000⟩

/-- Its first frame: ordinal 0, no line yet, in slot 0, being forwarded. -/
def camFrame : CinFrame :=
  { set := camSet, strip := 0, plib := 0, ord := 0, fid := 1, fn := 1, stampNs := 0, stampTick := 0, lines := 0, lineStarts := [], crc := 0xFFFFFFFF,
    damaged := false, postedBad := false, stuck := false, slot := some 0, pepper := List.replicate 16 0, fwd := .sending, sent := 0,
    buf := [], last := [], mons := 1, overrun := false, fwdFail := false, tagLine := [], patches := [], patchDone := false,
    ready := false }

/-- Camera port 2 enabled in service. -/
def camera (x : CinPort) : State := (sets [(F.FP_CTRL_en, 1), (F.FP_CIN_CFG_en 2, 1)] (serving State.reset)).setCin 2 x

theorem witness_CameraFramesComeIn :
    (let s := camera CinPort.reset
     s.cinLive 2 = true ∧ s.gs.ended = [] ∧ s.injHits 6 2 = false ∧ s.injHits 7 2 = false ∧ s.on F.FP_CTRL_en = true ∧
       s.on (F.FP_CIN_CFG_en 2) = true ∧ (0 : Fin 16).val = State.cinVc (s.cinRegs 2) ∧ (s.cinP 2).cur = none ∧
       (s.cinP 2).fresh = true ∧ s.sentinel = false ∧ s.ml.frames = [] ∧
       (s.start 5).slotHeld 2 (State.nextSlot { s.cinP 2 with set := s.cinRegs 2 }).2 (State.cinSlotBytes (s.cinRegs 2)) = false) ∧
    (let s := camera { CinPort.reset with set := camSet }
     s.cinLive 2 = true ∧ bits (s.portSet 2).time 16 16 ≠ 0 ∧
       (s.cinP 2).timer + 25000 * bits (s.portSet 2).time 16 16 ≤ max s.tick 12500000) ∧
    (let s := camera { CinPort.reset with set := camSet, cur := some camFrame }
     s.cinLive 2 = true ∧ (s.cinP 2).cur = some camFrame ∧ (0 : Fin 16).val = State.cinVc camFrame.set ∧
       (0x2A : Fin 64).val = State.cinDt camFrame.set ∧ 64 = State.cinB camFrame.set ∧ camFrame.lines < State.cinL camFrame.set ∧ s.bufFill 2 + 64 ≤ 0x40000 ∧
       (0 : Fin 16).val = s.streamVc 2 ∧ (1 : Fin 16).val ≠ s.streamVc 2 ∧ (s.cinP 2).discard = false) ∧
    (let f := { camFrame with lines := 2 }
     let s := camera { CinPort.reset with set := camSet, cur := some f }
     s.cinLive 2 = true ∧ (s.cinP 2).cur = some f ∧ f.lines = State.cinL f.set ∧ f.fn < 65536) ∧
    (let s := sets [(F.EV_CTRL_en, 1), (F.EV_EIN_CFG_en 3, 1)] (serving State.reset)
     s.on F.EV_CTRL_en = true ∧ s.on (F.EV_EIN_CFG_en 3) = true ∧ s.isFallow 5 3 = false ∧ s.injHits 6 (16 + 3) = false) := by
  decide +kernel

theorem witness_CameraFramesAndGroupsGoOn :
    (let s := camera { CinPort.reset with set := camSet, closing := [camFrame] }
     s.gs.ended = [] ∧ (s.cinP 2).closing.find? (fun g => !g.ready) = some camFrame ∧ camFrame.slot = some 0 ∧
       camFrame.pepper.length = 16 ∧ s.sentinel = false ∧ 0x10000000000 ≤ State.camAddr camFrame ∧
       s.spanFault (State.camAddr camFrame) 64 true (0x438 + 2 / 2) = none ∧ s.isFallow 6 (State.cinFwd camFrame.set) = false ∧
       (s.cinP 2).closing.find? (fun g => g.fwd == .sending) = some camFrame ∧ camFrame.buf = [] ∧ s.stopState = false ∧
       ((s.cinP 2).cur.toList ++ (s.cinP 2).closing.reverse).head? = some camFrame ∧ bitOf camFrame.mons 0 = true) ∧
    (let f := { camFrame with buf := [[1, 2]] }
     let s := camera { CinPort.reset with set := camSet, cur := some f }
     s.sending 2 = some f ∧ f.buf = [1, 2] :: [] ∧ s.stopState = false ∧ s.isFallow 6 (State.cinFwd f.set) = false) ∧
    (let s := (context 1 Ctx.reset).setFrms 3 [frame]
     s.frms 3 = [frame] ∧ s.gs.ended = [] ∧ frame.groupDone = false ∧ frame.stampTick + State.us frame.skew ≤ max s.tick 0 ∧
       bitOf frame.ports 0 = true ∧ (s.cinP 0).recent = [] ∧ s.gs.intake = []) ∧
    (let f := { frame with groupDone := true, ports := 0 }
     let s := (context 1 Ctx.reset).setFrms 3 [f]
     s.frms 3 = [f] ∧ s.memberSlots f = some [] ∧ f.fb = .waiting ∧ f.groupDone = true ∧ State.noInput f = false ∧ s.trust 3 ≠ 0 ∧
       s.on F.VD_CTRL_sentinel = false) := by decide +kernel

/-- An evidence frame on virtual channel 5 of EIN1, so far. -/
def evidence : EvFrame := ⟨7, [], [], false, false, false, none, false⟩

/-- EIN1 enabled in service, with that frame open. -/
def evPort (x : Option EvFrame) (s : State) : State :=
  (sets [(F.EV_CTRL_en, 1), (F.EV_EIN_CFG_en 1, 1), (F.EV_EIN_CFG_hb_ms 1, 1)] (serving s)).setEvF 1 5 x

theorem witness_EvidenceFramesComeIn :
    (let s := evPort none State.reset
     s.gs.ended = [] ∧ s.einLive 1 = true ∧ s.injHits 6 17 = false ∧ s.injHits 7 17 = false ∧ s.evF 1 5 = none) ∧
    (let s := evPort (some evidence) State.reset
     s.einLive 1 = true ∧ s.evF 1 5 = some evidence ∧ evidence.ev.length + 63 < 64 ∧ evidence.owner = none ∧ evidence.fn = (7 : BitVec 16).toNat) ∧
    (let x := { evidence with ev := List.replicate 64 0, owner := some (3, 0) }
     let f := { frame with hdr := List.replicate 64 0, ev := .receiving }
     let s := evPort (some x) ((context 1 Ctx.reset).setFrms 3 [f])
     s.einLive 1 = true ∧ s.evF 1 5 = some x ∧ s.frm 3 0 = some f ∧ s.keyValid 3 f = true ∧ 64 ≤ x.ev.length ∧
       (x.ev ++ List.replicate 16 0).length ≤ 80 + State.fld x.ev 28 4 ∧ (x.res ++ List.replicate 16 0).length ≤ 16 + State.fld x.ev 32 4) ∧
    (let x := { evidence with ev := List.replicate 80 0, res := List.replicate 16 0, owner := some (3, 0), seen := true }
     let f := { frame with hdr := List.replicate 64 0, ev := .receiving }
     let s := evPort (some x) ((context 1 Ctx.reset).setFrms 3 [f])
     s.evF 1 5 = some x ∧ s.frm 3 0 = some f ∧ max s.tick 100 ≤ f.evDl ∧ x.fn < 65536 ∧
       x.ev.length = 80 + State.fld (x.ev.take 64) 28 4 ∧ x.res.length = 16 + State.fld (x.ev.take 64) 32 4) ∧
    (let s := (evPort none State.reset).withEvTimerOn [(1, true)]
     s.einLive 1 = true ∧ Table.get (fun _ => false) s.evTimerOn 1 = true ∧ s.f (F.EV_EIN_CFG_hb_ms 1) ≠ 0 ∧
       Table.get (fun _ => 0) s.evTimer 1 + State.ms (s.f (F.EV_EIN_CFG_hb_ms 1)) ≤ max s.tick 250000) := by decide +kernel

theorem witness_TagsAreVerified :
    let f := { frame with ev := .onTime, hdr := List.replicate 64 1 }
    let s := (context 1 Ctx.reset).setFrms 3 [f]
    s.frms 3 = [f] ∧ s.gs.ended = [] ∧ f.ev = .onTime ∧ s.judged 3 = true ∧ s.isSecondary = false ∧ State.noInput f = false ∧
      s.evAuthentic 3 f = false := by decide +kernel

/-- Tags that verify: those that the key of a frame gives. -/
theorem witness_TagsAreVerified_good :
    let h : List Byte := List.replicate 64 0
    let s0 := (context 1 Ctx.reset).setFrms 3 [{ frame with ev := .onTime, hdr := h }]
    let k := s0.streamKey 3 { frame with hdr := h }
    let f := { frame with ev := .onTime, hdr := h
                          evTag := Config.gcmTag k (State.streamIv 3 { frame with hdr := h } false) h (gcmCrypt k (State.streamIv 3 { frame with hdr := h } false) [])
                          resTag := Config.gcmTag k (State.streamIv 3 { frame with hdr := h } true) h (gcmCrypt k (State.streamIv 3 { frame with hdr := h } true) []) }
    ((context 1 Ctx.reset).setFrms 3 [f]).evAuthentic 3 f = true := by
  intro h s0 k f
  have a : ((context 1 Ctx.reset).setFrms 3 [f]).keyValid 3 f = true := by decide +kernel
  have b : ((context 1 Ctx.reset).setFrms 3 [f]).streamKey 3 f = k := rfl
  have c : State.fld f.hdr 16 8 = f.stampNs := by decide +kernel
  simp only [State.evAuthentic, a, b, c, Bool.and_eq_true, decide_eq_true_eq, true_and]
  exact ⟨rfl, rfl⟩

/-- An entry of VP2's queue for that frame. -/
def entry : VpEntry := ⟨3, 0, false, 1⟩

theorem witness_AgreementEntriesRun :
    let s (f : Machine.Frm) := { (sets [(F.SYS_VP_STAT_state 2, 2), (State.roleField 2, 8 + 2)] ((context 1 Ctx.reset).setFrms 3 [f])) with
      vp2 := ⟨[entry], none⟩ }
    let f1 := { frame with agCfg := 2 ^ 29, agBudget := 2 ^ 31 }
    ((s f1).rolePair 2 = some 2 ∧ (s f1).pairWorks 2 = true ∧ (s f1).vp2.run = none ∧ (s f1).vp2.queue = [entry] ∧
      (s f1).frm 3 0 = some f1 ∧ entry.decoder = false ∧ bits f1.agCfg 29 3 ≠ 0 ∧
      formBound (bits f1.agCfg 29 3) f1.agParam (State.accSide f1) (State.fbSide f1) ≤ f1.agBudget) ∧
    ((s frame).frm 3 0 = some frame ∧ bits frame.agCfg 29 3 = 0) := by decide +kernel

/-- An image with one node, at the start of warden SRAM. -/
def image0 : Nat := 0x10000000

/-- A launch of it on CD0 in class 0, with completion record at 0x10001000. -/
def launch : Launch :=
  { num := 0, ref := 1, ctx := 0, cls := 0, base := 0, irq := false, fid := 5, stamp := 0, deadline := 0, compl := 0x10001000,
    args := [], job := none, trig := none, image := some (image0, 160), bad := false }

/-- Its live instance. -/
def inst0 : Inst :=
  { id := 0, die := 0, l := launch, image := image0, imageLen := 160, arena := 0, poolAt := 0, need := 0, dec := [], admitted := [],
    replayed := [], waiting := [], again := [], msgs := [], completed := 0, replays := 0, failAt := none, fin := none }

/-- An operation of it with four threads, none issued yet. -/
def op0 : Op :=
  { die := 0, seq := 0, epoch := 0, inst := 0, node := 0, cls := 0, ctx := 0, next := 0, total := 4, startTick := 0, startNs := 0,
    replay := false, trace := none }

/-- CD0 with its scheduler enabled, a pool of 1 MiB, and those instances and operations. -/
def sched (is : List Inst) (os : List Op) : State :=
  let s := (sets [(F.GS_CTRL_en 0, 1), (F.GS_POOL_SIZE_mib 0, 1)] State.reset).setMemVal (image0 + 8) 4 1
  s.withGs { s.gs with insts := is, ops := os }

theorem witness_ComputeDiesCountAndThrottle :
    (let s := (sched [] [op0]).setEngine 0 0 ⟨some thread, []⟩
     (s.engine 0 0).cur = some thread ∧ s.opOf thread = some op0 ∧ (List.range 64).find? (1 : BitVec 64).getLsbD = some 0 ∧
       Table.get (fun _ => 0) s.fc.lastRaise (Src.CX_RESIDUE 0) ≠ max s.tick 0 + 1 ∧ Healthy s ∧ thread.die = 0 ∧ thread.tried = [] ∧
       ((s.start 0).recentRetries 1 0).length + 1 < s.f (F.FC_RETRY_budget (State.budgetIdx 1)) ∧ op0.ctx < 1024 ∧ op0.seq < 2 ^ 32) ∧
    (Calm State.reset ∧ BurstEnd.lost ≠ .passed) ∧
    State.region (State.phys 0x10000000000) = .gddr 0 ∧
    (let s := State.reset.withFc { State.reset.fc with returning := [(8, 47)] }
     s.fc.returning.contains (8, 47) = true ∧ NoLapse 5 s) ∧
    Table.get (fun _ => 0) State.reset.gs.hold 3 = 0 ∧
    (let s := State.reset.withGs { State.reset.gs with hold := Table.put (fun _ => 0) [] 3 1 }
     Table.get (fun _ => 0) s.gs.hold 3 ≠ 0) ∧
    (Table.get (fun _ => 0) State.reset.gs.capTick 1 ≠ max State.reset.tick 5 + 1) ∧
    (let s := sets [(F.CX_PWR_CAP_cap_w 1, 0)] State.reset
     s.f (F.CX_PWR_CAP_cap_w 1) = 0) ∧
    (let s := sets [(F.CX_PWR_CAP_cap_w 1, 10), (State.dutyField 1 0, 7)] State.reset
     s.f (F.CX_PWR_CAP_cap_w 1) ≠ 0 ∧ 16 * s.f (F.CX_PWR_CAP_cap_w 1) < 161 ∧ 10 * 144 ≤ 144 * s.f (F.CX_PWR_CAP_cap_w 1) ∧
       s.f (State.dutyField 1 3) ≠ 0 ∧ s.f (State.dutyField 1 0) < 8) := by unfold Healthy Calm NoLapse; decide +kernel

theorem witness_LaunchesBecomeInstances :
    (let l := { launch with base := 1 }
     let s := (sets [(F.GS_CTRL_en 1, 1)] (sched [] [])).setIntake 0 [l]
     s.gs.ended = [] ∧ s.intakeOf 0 = [l] ∧ s.on (F.GS_CTRL_en 0) = true ∧ s.imageGone (s.launchImage l) = false ∧
       s.launchOk l = true ∧ l.base < 4 ∧ s.dieFallow l.base = false ∧ s.on (F.GS_CTRL_en l.base) = true ∧ l.base ≠ 0 ∧
       (s.classQ l.base l.cls).length < 1024 ∧ l.cls < 4 ∧ s.classQ 0 3 = []) ∧
    (let s := (sched [] []).setClassQ 0 0 [launch]
     s.gs.ended = [] ∧ s.intakeOf 0 = [] ∧ s.instsOn 0 < 1024 ∧ (s.classQ 0 0).head? = some launch ∧
       s.poolPlaces 0 (s.instNeed (s.launchImage launch).1) ≠ []) := by decide +kernel

theorem witness_OperationsRunToTheirEnds :
    ((sched [inst0] []).nextReady 0 = some (inst0, 0) ∧ (sched [inst0] []).nodeAtomic inst0.image 0 = false) ∧
    (let s := sched [inst0] [op0]
     0 ≤ s.tick ∧ s.coreOpen 0 = true ∧ s.nextIssue 0 = some op0 ∧ (s.instOf op0.inst).isSome = true ∧
       s.opOf ⟨op0.die, op0.seq, op0.epoch, 0, 1, [], none, 0, 0, false⟩ = some op0) ∧
    (let y : Parked := ⟨{ thread with num := 1 }, Hart.reset, Tile.reset⟩
     let s := (sched [inst0] [op0]).setEngine 0 0 ⟨some thread, [y]⟩
     (s.engine 0 0).cur = some thread ∧ (s.engine 0 0).parked[0]? = some y ∧ s.opOf thread = some op0 ∧
       s.opOf { thread with die := 1 } = none) ∧
    (let o := { op0 with next := 4 }
     let s := sched [inst0] [o]
     s.gs.ops.find? (fun x => x.die = 0 && s.opDone x) = some o ∧ s.instOf o.inst = some inst0 ∧ inst0.fin = none) ∧
    (let i := { inst0 with msgs := [(0, 3)] }
     let s := sched [i] []
     s.gs.insts.find? (fun i => i.msgs.any (fun m => m.1 = 0)) = some i ∧ s.instOf i.id = some i ∧
       i.msgs.find? (fun m => m.1 = 0) = some (0, 3)) ∧
    (let i := { inst0 with waiting := [(0, 6)] }
     (sched [i] []).replayOf 0 = some (i, 0) ∧ (sched [i] []).instOf i.id = some i) ∧
    (let i := { inst0 with fin := some (0, 0, 0xFFFFFFFF) }
     let s := sched [i] []
     s.gs.ended = [] ∧ s.gs.insts.find? (fun i => i.die = 0 && i.fin.isSome && s.gs.ops.all (fun o => o.inst ≠ i.id)) = some i ∧
       i.l.job = none ∧ State.inSram i.l.compl 32 = true ∧ s.spanFault i.l.compl 32 true 0x480 = none) := by decide +kernel

theorem witness_StopsTriggersAndWindows :
    (let s := sets [(F.GS_TRIG_en 0 15, 1), (F.GS_TRIG_src 0 15, 3)] State.reset
     (s.start 0).trigF 0 15 (F.GS_TRIG_en 0 15) = 1 ∧ (s.start 0).trigF 0 15 (F.GS_TRIG_src 0 15) = 3 ∧
       (s.intakeOf 0).any (fun l => l.trig = some 15) = false ∧
       ((s.setIntake 0 [{ launch with trig := some 15 }]).intakeOf 0).any (fun l => l.trig = some 15) = true) ∧
    (let s := sets [(F.GS_TRIG_en 0 0, 1), (F.GS_TRIG_src 0 0, 2), (F.GS_TRIG_period 0 0, 10)] State.reset
     (s.start 2500).trigF 0 0 (F.GS_TRIG_en 0 0) = 1 ∧ (s.start 2500).trigF 0 0 (F.GS_TRIG_src 0 0) = 2 ∧
       (s.intakeOf 0).any (fun l => l.trig = some 0) = false ∧
       (s.start 2500).trigLast 0 + State.us ((s.start 2500).trigF 0 0 (F.GS_TRIG_period 0 0)) ≤ max s.tick 2500) ∧
    (let s := sets [(F.GS_WCFG_en 0, 1), (F.GS_WCFG_mode 0, 1), (F.GS_WIN_off 0 3, 1), (F.GS_WIN_len 0 3, 1)]
       (State.reset.withGs { State.reset.gs with winRef := [(0, [0])] })
     s.on (F.GS_WCFG_en 0) = true ∧ 0 ∈ (s.start 2500).windowRefs 0 ∧ 0 + 2500 * s.f (F.GS_WIN_off 0 3) ≤ max s.tick 2500 ∧
       max s.tick 4999 < 0 + 2500 * s.f (F.GS_WIN_off 0 3) + 2500 * s.f (F.GS_WIN_len 0 3) ∧
       (∀ r ∈ (s.start 5000).windowRefs 0, max s.tick 5000 < r + 2500 * s.f (F.GS_WIN_off 0 3) ∨
         r + 2500 * s.f (F.GS_WIN_off 0 3) + 2500 * s.f (F.GS_WIN_len 0 3) ≤ max s.tick 5000)) ∧
    State.reset.on (F.GS_WCFG_en 0) = false := by decide +kernel

/-- That processor with CSR `n` holding `v`. -/
def withCsr (h n v : Nat) (s : State) : State := s.modHart h (fun x => { x with csr := Table.put (fun _ => 0) x.csr n (BitVec.ofNat 64 v) })

/-- Control processor 0 in task mode, with a window over its code. -/
def task0 : State := withCsr 0x100 0 1 (withCsr 0x100 0x020 (0x1100000000 + 7) (withCsr 0x100 0x021 0x1100001000 control0))

theorem ready_control0 : Ready (at_ 0x100) 4 1 control0 := by unfold Ready Calm; decide +kernel
theorem ready_pair0 : Ready (at_ 0) 4 1 pair0 := by unfold Ready Calm; decide +kernel
theorem ready_task0 : Ready (at_ 0x100) 4 1 task0 := by unfold Ready Calm; decide +kernel
theorem ready_tile0 : Ready (at_ 0x200) 4 1 tile0 := by unfold Ready Calm; decide +kernel

theorem witness_IntegerInstructionsCompute :
    Ready (at_ 0x100) 4 1 control0 ∧ Ready (at_ 0) 4 1 pair0 ∧ Ready (at_ 0x200) 4 1 tile0 ∧ Ready (at_ 0x100) 4 1 task0 ∧
    Ready (at_ 0) 4 (opWeight 0 0x000) pair0 ∧ (opResult 0x000 1 2 (fun _ => true)).isSome = true ∧ (op32Result 0x000 1 2).isSome = true ∧
    (shiftResult 63 1).isSome = true ∧
    CanRun (.op (at_ 0x100) 0 1 2 3) 0x100 4 1 control0 ∧ CanRun (.addi (at_ 0) 1 2 0xFFFF) 0 4 1 pair0 ∧ CanRun (.lih (at_ 0x200) 1 0 7) 0x200 4 1 tile0 :=
  ⟨ready_control0, ready_pair0, ready_tile0, ready_task0, by unfold Ready Calm; decide +kernel, by decide +kernel, by decide +kernel, by decide +kernel,
    by unfold CanRun Ready Calm; decide +kernel, by unfold CanRun Ready Calm; decide +kernel, by unfold CanRun Ready Calm; decide +kernel⟩

theorem witness_ComparesAndBranchesDecide :
    (∀ cc : Fin 10, (condition cc (1 : DWord) 2).isSome = true) ∧ Ready (at_ 0x100) 4 1 control0 ∧ control0.pBit 0x100 0 = true ∧ control0.pBit 0x100 1 = false ∧
    relTarget (control0.pc 0x100) (1 : BitVec 22) < 2 ^ 48 ∧ relTarget (control0.pc 0x100) (1 : BitVec 21) < 2 ^ 48 ∧
    control0.ea 0x100 0 4 % 4 = 0 ∧ control0.ea 0x100 0 4 < 2 ^ 48 ∧ control0.ea 0x100 0 3 % 4 ≠ 0 ∧ CanTrap 0x100 control0 ∧
    (∀ c ∈ [Instr.cmp (at_ 0x100) 9 1 2 3, .cmpi (at_ 0x100) 9 1 2 0xFFF, .pred (at_ 0x100) 0x10 1 2 0, .br (at_ 0x100) 7 true 0x3FFFFF,
      .jal (at_ 0x100) 1 0x1FFFFF, .jalr (at_ 0x100) 1 2 4], CanRun c 0x100 4 1 control0) := by
  unfold CanRun Ready Calm CanTrap; decide +kernel

/-- The same processor with g1 naming an address of its Core Memory, and g2 one of a register. -/
def reach0 : State := (control0.setG 0x100 1 0x1100000100).setG 0x100 2 (BitVec.ofNat 64 (A.CX_G6 0 0))

/-- The read answers bytes. -/
def answers (r : ReadOut) : Bool :=
  match r with
  | .ok _ => true
  | _ => false

theorem witness_LoadsAndStoresReachMemory :
    Ready (at_ 0x100) 4 (State.memWeight 0x100 (reach0.ea 0x100 1 0) 8 false) reach0 ∧
    reach0.accessFault 0x100 (reach0.ea 0x100 1 0) 8 1 = none ∧ reach0.accessFault 0x100 (reach0.ea 0x100 1 0) 8 2 = none ∧
    PlainRead 0x100 (reach0.ea 0x100 1 0) 8 reach0 ∧ PlainWrite 0x100 (reach0.ea 0x100 1 0) 8 reach0 ∧
    reach0.ea 0x100 1 1 % 2 ≠ 0 ∧ CanTrap 0x100 reach0 ∧
    reach0.accessFault 0x100 (reach0.ea 0x100 2 0) 4 1 = none ∧
    answers ((fetched (at_ 0x100) 4 reach0).coreRead 0x100 (reach0.ea 0x100 2 0) 4 1 0).1 = true ∧
    (∀ c ∈ [Instr.ld (at_ 0x100) 3 1 0 0, .sd (at_ 0x100) 3 1 0], CanRun c 0x100 4 (State.memWeight 0x100 (reach0.ea 0x100 1 0) 8 false) reach0) :=
  ⟨by unfold Ready Calm; decide +kernel, by decide +kernel, by decide +kernel, by unfold PlainRead Calm; decide +kernel,
    by unfold PlainWrite Calm; decide +kernel, by decide +kernel, by unfold CanTrap; decide +kernel, by decide +kernel, by decide +kernel,
    by unfold CanRun Ready Calm; decide +kernel⟩

theorem witness_AtomicsAndBarriers :
    Ready (at_ 0x100) 4 (State.memWeight 0x100 (reach0.g 0x100 1).toNat 8 true) reach0 ∧
    reach0.accessFault 0x100 (reach0.g 0x100 1).toNat 8 3 = none ∧ State.amoPlace (reach0.g 0x100 1).toNat = true ∧
    PlainRead 0x100 (reach0.g 0x100 1).toNat 8 reach0 ∧ PlainWrite 0x100 (reach0.g 0x100 1).toNat 8 reach0 ∧
    (∀ op : Fin 10, (amoValue op (1 : BitVec 64) 2 1).isSome = true ∧ (amoValue op (1 : BitVec 32) 2 1).isSome = true) ∧
    Ready (at_ 0x100) 4 (barrierWeight 0x100 47) reach0 ∧ 47 < 48 ∧ 47 % 16 ≠ 0 ∧ (reach0.hart 0x100).storeErrs = [] ∧
    CanRun (.amo (at_ 0x100) 0x109 3 1 2 0) 0x100 4 (State.memWeight 0x100 (reach0.g 0x100 1).toNat 8 true) reach0 ∧
    CanRun (.barrier (at_ 0x100) 0 0 47) 0x100 4 (barrierWeight 0x100 47) reach0 :=
  ⟨by unfold Ready Calm; decide +kernel, by decide +kernel, by decide +kernel, by unfold PlainRead Calm; decide +kernel,
    by unfold PlainWrite Calm; decide +kernel, by decide +kernel, by unfold Ready Calm; decide +kernel, by decide, by decide, by decide +kernel,
    by unfold CanRun Ready Calm; decide +kernel, by unfold CanRun Ready Calm; decide +kernel⟩

theorem witness_SystemInstructionsAct :
    (Ready (at_ 0x100) 4 1 task0 ∧ CanTrap 0x100 task0 ∧ task0.inTask 0x100 = true) ∧
    (Ready (at_ 0x200) 4 1 tile0 ∧ State.isTile 0x200 = true ∧ (tile0.engine (State.coreOf 0x200) (State.seqOf 0x200 % 16)).cur = some thread ∧
      (tile0.hart 0x200).storeErrs = [] ∧ tile0.coreQ (State.coreOf 0x200) = []) ∧
    (Ready (at_ 0x100) 4 1 control0 ∧ CanTrap 0x100 control0 ∧ control0.wardenMode 0x100 = true ∧ control0.csr 0x100 0x001 % 4 = 0 ∧
      control0.csr 0x100 0x001 < 2 ^ 48 ∧ control0.csr 0x100 0x00B % 4 = 0 ∧ control0.csr 0x100 0x00B < 2 ^ 48 ∧
      (control0.start 0).idleEnds 0x100 = false) ∧
    (let s := withCsr 0x100 0x100 1 (withCsr 0x100 0x008 4 control0)
     Ready (at_ 0x100) 4 1 s ∧ s.wardenMode 0x100 = true ∧ (s.start 0).idleEnds 0x100 = true) ∧
    (∀ c ∈ [Instr.texit (at_ 0x100) 0 0 0, .trap (at_ 0x100) 31 31 0], CanRun c 0x100 4 1 task0) ∧
    (∀ c ∈ [Instr.nop (at_ 0x100) 0 0 0, .brk (at_ 0x100) 0 0 0, .tret (at_ 0x100) 0 0 0, .ntret (at_ 0x100) 0 0 0, .idle (at_ 0x100) 0 0 0],
      CanRun c 0x100 4 1 control0) ∧ CanRun (.texit (at_ 0x200) 0 0 0) 0x200 4 1 tile0 :=
  ⟨⟨ready_task0, by unfold CanTrap; decide +kernel⟩, ⟨ready_tile0, by decide +kernel⟩,
    ⟨ready_control0, by unfold CanTrap; decide +kernel⟩, by unfold Ready Calm; decide +kernel, by unfold CanRun Ready Calm; decide +kernel,
    by unfold CanRun Ready Calm; decide +kernel, by unfold CanRun Ready Calm; decide +kernel⟩

theorem witness_ControlRegistersReadAndWrite :
    Ready (at_ 0x100) 4 1 control0 ∧ control0.csrOk 0x100 0x000 false = true ∧ control0.csrOk 0x100 0x009 false = true ∧
    control0.csrOk 0x100 0x102 true = true ∧ Ready (at_ 0x200) 4 1 tile0 ∧ tile0.csrOk 0x200 0x211 false = true ∧
    tile0.csrOk 0x200 0x010 true = false ∧
    (∀ c ∈ [Instr.ctlRd (at_ 0x100) 1 0 0x009, .ctlWr (at_ 0x100) 0 1 0x102, .ctlXset (at_ 0x100) 1 2 0x102], CanRun c 0x100 4 1 control0) :=
  ⟨ready_control0, by decide +kernel, by decide +kernel, by decide +kernel, ready_tile0, by decide +kernel, by decide +kernel,
    by unfold CanRun Ready Calm; decide +kernel⟩

theorem witness_EventsWakeControlProcessors :
    State.isControl 0x10F = true ∧ Ready (at_ 0x100) 4 1 reach0 ∧
    (BitVec.ofNat 64 (reach0.csr 0x100 0x100) &&& reach0.g 0x100 1 = 0 ∧ reach0.g 0x100 1 ≠ 0 ∧ reach0.g 0x100 0 = 0) ∧
    (let s := withCsr 0x100 0x100 1 (control0.setG 0x100 1 1)
     Ready (at_ 0x100) 4 1 s ∧ BitVec.ofNat 64 (s.csr 0x100 0x100) &&& s.g 0x100 1 ≠ 0) ∧
    (let s := control0.setRun 0x100 (.evwait 1 1 20)
     (s.hart 0x100).run = .evwait 1 1 20 ∧ BitVec.ofNat 64 (s.csr 0x100 0x100) &&& 1 = 0 ∧ 20 ≤ max s.tick 20) ∧
    (let s := withCsr 0x100 0x100 1 (control0.setRun 0x100 (.evwait 1 1 20))
     (s.hart 0x100).run = .evwait 1 1 20 ∧ BitVec.ofNat 64 (s.csr 0x100 0x100) &&& 1 ≠ 0) ∧
    (∀ c ∈ [Instr.evsend (at_ 0x100) 0 1 0, .evwait (at_ 0x100) 3 2 1], CanRun c 0x100 4 1 reach0) :=
  ⟨by decide, by unfold Ready Calm; decide +kernel, by decide +kernel, by unfold Ready Calm; decide +kernel, by decide +kernel, by decide +kernel,
    by unfold CanRun Ready Calm; decide +kernel⟩

theorem witness_TrapsAreTaken :
    (let s := control0.modHart 0x100 (fun x => { x with storeErrs := [8] })
     State.isTile 0x100 = false ∧ (State.isVerdict 0x100 && s.vpRuns (0x100 / 2)) = false ∧ (s.start 0).atBoundary 0x100 = true ∧
       (s.start 0).nmiReady 0x100 = false ∧ bitOf (s.csr 0x100 0) 3 = false ∧ bitOf (s.csr 0x100 0) 4 = false ∧
       (s.hart 0x100).storeErrs.head? = some 8) ∧
    (let s := withCsr 0x100 0x100 1 (withCsr 0x100 0x008 4 (withCsr 0x100 0 2 control0))
     (s.start 0).atBoundary 0x100 = true ∧ (s.start 0).nmiReady 0x100 = false ∧ bitOf (s.csr 0x100 0) 3 = false ∧
       bitOf (s.csr 0x100 0) 4 = false ∧ (s.hart 0x100).storeErrs = [] ∧ (s.start 0).irqNow 0x100 ≠ 0) ∧
    (let s := withCsr 0x100 0x100 1 (withCsr 0x100 0x008 4 (control0.setRun 0x100 .idle))
     (s.hart 0x100).run = .idle ∧ (s.start 0).idleEnds 0x100 = true) ∧
    (let s := control0.modHart 0x100 (fun x => { x with nmi := true })
     (s.start 0).atBoundary 0x100 = true ∧ (s.start 0).nmiReady 0x100 = true) ∧
    (let s := (control0.setRun 0x100 .idle).modHart 0x100 (fun x => { x with storeErrs := [8] })
     (s.hart 0x100).run = .idle ∧ (s.start 0).idleEnds 0x100 = false ∧ (s.hart 0x100).storeErrs ≠ []) := by decide +kernel

/-- A tensor of 64 by 16 elements of format `fmt` in CL0 GDDR6, with flags `fl`. -/
def tensor (fmt fl : Nat) : Desc :=
  { base := 0x10000000000, fmt := fmt, rank := 2, flags := fl, scale := 0, zp := 0, dims := [64, 16, 1, 1], strides := [256, 0, 0],
    cur := [0, 0, 0, 0], out := 0 }

/-- The tile sequencer with that tensor as descriptor 15, and output box 0 over all of it. -/
def tensor0 (fmt fl : Nat) : State :=
  withCsr 0x200 0x208 0 (withCsr 0x200 0x209 (64 + 2 ^ 16 * 16 + 2 ^ 32) (tile0.setTdesc 0x200 15 (tensor fmt fl)))

theorem witness_VectorInstructionsWriteLanes :
    State.isTile 0x2FF = true ∧ State.isTile 0x1FF = false ∧ Ready (at_ 0x200) 4 1 tile0 ∧ vcLegal 1 3 = true ∧ vcLegal 1 4 = false ∧
    (∀ c ∈ [Instr.vi (at_ 0x200) 0x10 1 2 3 7, .vf (at_ 0x200) 9 1 2 0 7, .vact (at_ 0x200) 1 2 4 7, .vmov (at_ 0x200) 1 2 0 7], CanRun c 0x200 4 1 tile0) :=
  ⟨by decide, by decide, ready_tile0, by decide, by decide, by unfold CanRun Ready Calm; decide +kernel⟩

theorem ready_tensor0 : ∀ f ∈ [1, 3, 8, 9, 0xA], ∀ k ∈ [1, 3, 7], Ready (at_ 0x200) 4 1 (tensor0 f k) := by
  unfold Ready Calm; decide +kernel

theorem witness_TileLoadsAndStoresReachTensors :
    State.isTile 0x200 = true ∧ (∀ f ∈ [1, 3, 8, 9, 0xA], ∀ k ∈ [1, 3, 7], Ready (at_ 0x200) 4 1 (tensor0 f k)) ∧
    (tensor0 1 1).accessCount 0x200 0 64 = 64 ∧ (tensor0 1 1).accessCount 0x200 1 64 = 0 ∧ ((tensor0 9 1).setG 0x200 1 1).accessCount 0x200 1 64 = 1 ∧
    (∀ f ∈ [3, 9], (tensor0 f 1).tdesc 0x200 15 = tensor f 1 ∧
      State.loadCheck (tensor f 1) ((tensor f 1).start 0) (fmtDefined f) = none ∧
      PlainTile 0x200 (tensor f 1) ((tensor f 1).start 0) 1 (tensor0 f 1)) ∧
    PlainTile 0x200 (tensor 9 1) ((tensor 9 1).start 0) (32 * 1) (tensor0 9 1) ∧
    (∀ f ∈ [1, 3, 9, 0xA], (tensor0 f 3).storeCheck 0x200 (tensor f 3) ((tensor f 3).start 0) 1 true = none) ∧
    (∀ f ∈ [8, 0xA], (tensor f 7).valid = true ∧ (tensor f 7).isOut = true ∧ (tensor f 7).atomic = true ∧
      State.amoPlace (spanAt (tensor f 7) ((tensor f 7).start 0) 1).1 = true ∧
      PlainRead 0x200 (spanAt (tensor f 7) ((tensor f 7).start 0) 1).1 (spanAt (tensor f 7) ((tensor f 7).start 0) 1).2 (tensor0 f 7)) ∧
    (tensor 0xA 7).inside ((tensor 0xA 7).start 0) 0 = true ∧
    (spanAt (tensor 0xA 7) ((tensor 0xA 7).start 0) 1).1 + (spanAt (tensor 0xA 7) ((tensor 0xA 7).start 0) 1).2 ≤ 2 ^ 48 ∧
    PlainWrite 0x200 (spanAt (tensor 0xA 7) ((tensor 0xA 7).start 0) 1).1 (spanAt (tensor 0xA 7) ((tensor 0xA 7).start 0) 1).2 (tensor0 0xA 7) ∧
    (∀ c ∈ [Instr.tldR (at_ 0x200) 1 15 0 0 0, .tstaI (at_ 0x200) 1 15 0 0 0], CanRun c 0x200 4 1 (tensor0 0xA 7)) :=
  ⟨by decide, ready_tensor0, by decide +kernel, by decide +kernel, by decide +kernel, by unfold PlainTile PlainRead Calm; decide +kernel,
    by unfold PlainTile PlainRead Calm; decide +kernel, by decide +kernel, by unfold PlainRead Calm; decide +kernel, by decide +kernel,
    by decide +kernel, by unfold PlainWrite Calm; decide +kernel, by unfold CanRun Ready Calm; decide +kernel⟩

theorem witness_DescriptorsAndBanksChange :
    State.isTile 0x200 = true ∧ Ready (at_ 0x200) 4 1 (tensor0 1 1) ∧ ((tensor0 1 1).tdesc 0x200 15).valid = true ∧
    (∀ k : Fin 17, (((tensor0 1 1).tdesc 0x200 15).field k).isSome = true) ∧
    (∀ c ∈ [Instr.tget (at_ 0x200) 1 15 0 16, .tset (at_ 0x200) 1 15 0 16, .tawr (at_ 0x200) 1 0 15 1], CanRun c 0x200 4 1 (tensor0 1 1)) :=
  ⟨by decide, ready_tensor0 1 (by decide) 1 (by decide), by decide +kernel, by decide +kernel, by unfold CanRun Ready Calm; decide +kernel⟩

theorem witness_TmmaAccumulates :
    let s := tensor0 1 1
    tensor 1 1 = s.tdesc 0x200 15 ∧ mmaK 1 1 = some 32 ∧ mmaK 3 3 = some 64 ∧ State.isTile 0x200 = true ∧ Ready (at_ 0x200) 8 1 s ∧
    mmaFields 1 56 15 0 0 1 0 = true ∧ (tensor 1 1).valid = true ∧ (tensor 1 1).onBlock ((tensor 1 1).start (s.g 0x200 0)) = true ∧
    (tensor 1 1).isOut = false ∧ (∀ q : Fin 16, s.tag 0x200 q = 0) ∧
    (∀ q : Fin 1, PlainTile 0x200 (tensor 1 1) (mmaAt s 0x200 (tensor 1 1) 0 1 q) 32 s) ∧
    (∀ q : Fin 1, ∀ j : Fin 64, (mmaStep (s.np 0x200) 32 (mmaA s 0x200 (tensor 1 1) 0 1 32 false q)
      (mmaBof s 0x200 56 0 1 false j) (s.acc 0x200 (15 + q) j)).2 = false) ∧
    (∀ (q : Fin 1) (j : Fin 64), s.accRes 0x200 (15 + q) j = residue7 (s.acc 0x200 (15 + q) j).toInt) ∧
    CanRun (.tmma (at_ 0x200) 0 56 15 15 0 0 0 1 false false 0 0) 0x200 8 1 s :=
  ⟨by decide +kernel, by decide, by decide, by decide, by unfold Ready Calm; decide +kernel, by decide, by decide, by decide +kernel, by decide,
    by decide +kernel, by unfold PlainTile PlainRead Calm; decide +kernel, by decide +kernel, by decide +kernel,
    by unfold CanRun Ready Calm; decide +kernel⟩

/-- A record at the front of CD0's trace queue, with the trace buffer full or not. -/
def trace (full : Nat) : State :=
  let s := sets [(F.CT_STATUS_full, full)] State.reset
  s.withCt { s.ct with queues := [(0, [⟨0, 0, []⟩])] }

theorem witness_TraceRecordsAreWritten :
    State.reset.ctFront = none ∧
    (∀ b : Fin 2, (trace b).ctFront = some (0, ⟨0, 0, []⟩) ∧ 0 < max (trace b).tick 1 ∧ ((trace b).start 1).ctRate = true ∧
      (trace b).ct.marker = none ∧ (trace b).ct.armAt ≠ max (trace b).tick 1 + 1 ∧ (trace b).on F.CT_STATUS_full = (b == 1)) ∧
    (let s := State.reset.withCt { State.reset.ct with marker := some (0, 5, 7) }
     s.ct.marker = some (0, 5, 7) ∧ (s.start 1).ctPassed 0 = true ∧ (s.start 1).ctRate = true) ∧
    State.reset.ct.putTick.1 ≠ max State.reset.tick 0 + 1 ∧
    (let s := (sets [(F.CT_TRIG_sw, 1)] State.reset).withCt { State.reset.ct with mode := 2 }
     s.on F.CT_TRIG_sw = true ∧ s.ct.mode = 2 ∧ s.on F.CT_STATUS_trig = false ∧ s.ct.marker = none) := by decide +kernel

theorem witness_PairsHaltAndRestart :
    (let s := sets [(F.SYS_VP_STAT_state 3, 2)] State.reset
     s.f (F.SYS_VP_STAT_state 3) = 2 ∧ Fresh (Src.VP_MISMATCH 3) 0 s) ∧
    State.reset.f (F.SYS_VP_STAT_state 3) ≠ 2 ∧ State.reset.f (F.SYS_VP_STAT_state 3) ≠ 4 ∧
    (sets [(F.SYS_VP_STAT_state 3, 4)] State.reset).f (F.SYS_VP_STAT_state 3) = 4 ∧
    (sets [(F.SYS_VP_STAT_state 3, 4)] State.reset |>.pairX 3).restartDue ≠ max State.reset.tick 0 + State.ms 2 ∧
    (let s := (sets [(F.SYS_VP_STAT_state 3, 2)] State.reset).withRoleMoves [⟨1, 3, 50⟩]
     s.roleMoves.find? (fun m => m.role = 1) = some ⟨1, 3, 50⟩ ∧ s.pairWorks 3 = true ∧ (s.pairX 3).barred = false) ∧
    (State.reset.f F.SYS_SVC_level ≠ 2 ∧ (sets [(F.SYS_SVC_level, 2)] State.reset).f F.SYS_SVC_level = 2) := by
  unfold Fresh; decide +kernel

/-- Pair 0 runs role 0, transport `via` has a session open, and I3CT takes private transfers. -/
def hosted (via : Nat) : State :=
  let s := sets [(F.SYS_VP_STAT_state 0, 2), (State.roleField 0, 8), (F.I3C_T_CFG_en, 1), (F.I3C_T_STAT_dav, 1)] (serving State.reset)
  s.withSec { s.sec with session := some ⟨via, 0⟩ }

/-- A management frame of kind 1 that carries `m` (R427). -/
def mgmtFrame (m : List Byte) : List Byte := List.replicate 14 0 ++ [1, 1, 0, 0, 0, 0, 0, 0] ++ m

/-- The same with the frame `m` delivered: on I3CT, or as the oldest datagram of MAC `via - 1`. -/
def posted (via : Nat) (m : List Byte) (s : State) : State := if via = 0 then s else s.setRxMgmt (via - 1) [mgmtFrame m]

/-- A device that a request of command `c` with payload `p` reaches on transport `via`. -/
def asked (via c : Nat) (p : List Byte) : State := posted via (State.requestFrame c 1 p) (hosted via)

/-- A request of each command, with the payload its row gives it. -/
def requests : List (Nat × List Byte) :=
  [(1, []), (2, []), (3, beBytes 8 0x10000000 ++ [60]), (4, beBytes 8 0x10000000 ++ beBytes 4 7), (5, beBytes 4 (2 * 2 ^ 28 + 1023)),
    (6, [0, 0, 240]), (7, [7]), (8, beBytes 32 7 ++ beBytes 4 0), (9, beBytes 4 0), (0xA, [0, 0]), (0xB, [3, 0, 15]), (0xC, [5]),
    (0xD, [1]), (0xD, 2 :: beBytes 32 0), (0xD, [3])]

theorem admits_asked : ∀ via : Fin 3, ∀ x ∈ requests, Admits 5 via x.1 1 x.2 (asked via x.1 x.2) := by
  unfold Admits Delivers NoLapse; decide +kernel

theorem witness_MailboxRequestsAreAnswered :
    (∀ via : Fin 3, let l := List.replicate 8 (0 : Byte)
     8 ≤ l.length ∧ l.length ≤ 256 ∧ crc32c (l.take (l.length - 4)) ≠ State.beAt l (l.length - 4) 4 ∧
       Delivers via l (posted via l (hosted via)) ∧ (posted via l (hosted via)).role0Runs = true ∧
       Delivers via l (posted via l (sets [(F.I3C_T_CFG_en, 1), (F.I3C_T_STAT_dav, 1)] State.reset)) ∧
       (posted via l (sets [(F.I3C_T_CFG_en, 1), (F.I3C_T_STAT_dav, 1)] State.reset)).role0Runs = false ∧ ¬ Delivers via l State.reset) ∧
    (∀ via : Fin 3, let s := (asked via 1 []).withMbx { Mailbox.reset with cur := some ⟨0, 0, 1, 1⟩ }
     s.mbx.cur = some ⟨0, 0, 1, 1⟩ ∧ Delivers via (State.requestFrame 1 1 []) s ∧ NoLapse 5 s ∧ s.role0Runs = true) ∧
    (∀ via : Fin 3, ∀ x ∈ requests, Admits 5 via x.1 1 x.2 (asked via x.1 x.2)) ∧
    State.wordRange 0x10000000 61 = false ∧ State.wordRange 0x10000000 60 = true ∧ State.wordRange (2 ^ 48 - 240) 60 = true ∧
    (∀ i : Fin 60, PlainRead State.hostMaster (0x10000000 + 4 * i) 4 (asked 1 3 (beBytes 8 0x10000000 ++ [60]))) ∧
    (asked 1 6 [0, 0, 240]).retFlag = [] ∧ (asked 1 6 [0, 0, 240]).injHits 10 0 = false :=
  ⟨by unfold Delivers; decide +kernel, by unfold Delivers NoLapse; decide +kernel, admits_asked, by decide, by decide, by decide,
    by unfold PlainRead Calm; decide +kernel, by decide +kernel, by decide +kernel⟩

theorem witness_HostCommandsChangeTheDevice :
    (∀ via : Fin 3, ∀ x ∈ requests, Admits 5 via x.1 1 x.2 (asked via x.1 x.2)) ∧
    (let s := asked 1 4 (beBytes 8 0x10000000 ++ beBytes 4 7)
     s.gs.ended = [] ∧ State.wordRange 0x10000000 1 = true ∧ s.f F.SYS_SVC_level ≠ 2 ∧ PlainWrite State.hostMaster 0x10000000 4 s ∧
       s.vdBusy = none ∧ (s.withEnabled [1023]).enabled.contains 1023 = true ∧ ((sets [(F.VD_CTX_STATE_state 1023, 2)] s).trust 1023) ≠ 0 ∧
       s.committed = false ∧ (s.withCommitted true).committed = true) ∧
    (State.kindItems 3 ≤ 16 ∧ 15 < State.kindItems 3 ∧ (hosted 0).isFallow 3 15 = false ∧ ((hosted 0).setFallow 3 15 true).isFallow 3 15 = true ∧
      (hosted 0).lb = none) ∧
    (let s := (sets [(F.I3C_T_CFG_en, 1), (F.I3C_T_STAT_dav, 1)] State.reset).withMbx
       { Mailbox.reset with resetHeld := some (0, 0, [1]), response := [1] }
     s.mbx.resetHeld = some (0, 0, s.mbx.response) ∧ s.i3cOn = true ∧ s.on F.I3C_T_STAT_dav = true ∧ s.mbx.response ≠ []) ∧
    (let b : List Byte := [1, 2, 0, 0, 0, 0, 0, 0, 9]
     let s := (sets [(F.ETH_STAT_up 1, 1)] State.reset).withMbx { Mailbox.reset with resetHeld := some (4, 2, [9]) }
     let s := s.setTxMgmt 1 [b]
     s.mbx.resetHeld = some (4, 1 + 1, b.drop 8) ∧ s.ethUp 1 = true ∧ s.isFallow 7 1 = false ∧ s.safetyQ 1 = [] ∧ s.txMgmt 1 = b :: [] ∧
       State.beAt b 1 1 = 2) ∧
    (∀ k : Fin 6, let s := State.reset.withMbx { Mailbox.reset with resetDue := some (k.val, 10) }
     s.mbx.resetDue = some (k.val, 10) ∧ 10 ≤ max s.tick 10 ∧ k.val ≤ 5 ∧ NoHandOver s ∧ (∀ d : Fin 4, Table.get (fun _ => 0) s.dieReset d = 0)) ∧
    (leading.mayHandOver = true ∧ leading.ml.handOver = none) :=
  ⟨admits_asked, by unfold PlainWrite Calm; decide +kernel, by decide +kernel, by decide +kernel, by decide +kernel,
    by unfold NoHandOver; decide +kernel, by decide +kernel⟩

theorem witness_SessionsAndAttestation :
    (∀ via : Fin 3, ∀ x ∈ requests, Admits 5 via x.1 1 x.2 (asked via x.1 x.2)) ∧
    ((hosted 0).drbgStopped = false ∧ (sets [(F.SEC_STATUS_rng, 2)] (hosted 0)).drbgStopped = true) ∧
    ((hosted 0).sec.lockUntil ≤ max (hosted 0).tick 5 ∧ (hosted 0).sec.challenge = none ∧ Fresh Src.SEC_AUTH 5 (hosted 0)) ∧
    (let s := (hosted 0).withSec { (hosted 0).sec with challenge := some ([], 0), lockUntil := 6 }
     s.sec.challenge = some ([], 0) ∧ max s.tick 5 ≤ 0 + State.ms 1000 ∧ max s.tick 5 < s.sec.lockUntil ∧ s.sec.lockUntil ≤ max s.tick 6) ∧
    (let s := sets [(F.SEC_SESS_idle_s, 1)] (hosted 0)
     s.idleDue = some 250000000 ∧ 250000000 ≤ max s.tick 250000000 ∧ max s.tick 249999999 < 250000000) ∧
    ((hosted 0).sec.report = none ∧
      ((hosted 0).withSec { (hosted 0).sec with report := some (beBytes 32 (7 : BitVec 256).toNat, []) }).sec.report = some (beBytes 32 (7 : BitVec 256).toNat, [])) ∧
    (let s := (hosted 0).withSec { (hosted 0).sec with signing := some ([], List.replicate 512 0) }
     let s := s.withMbx { s.mbx with cur := some ⟨0, 0, 8, 1⟩ }
     s.sec.signing = some ([], List.replicate 512 0) ∧ (List.replicate 512 (0 : Byte)).length = 512 ∧ s.mbx.cur = some ⟨0, 0, 8, 1⟩) :=
  ⟨admits_asked, by decide +kernel, by unfold Fresh; decide +kernel, by decide +kernel, by decide +kernel, by decide +kernel, by decide +kernel⟩

theorem witness_ResetsReturnTheDevice :
    bitOf (State.reset.withHolds 1).holds 0 = true ∧ bitOf State.reset.holds 0 = false ∧ bitOf (State.reset.withHolds 2).holds 1 = true ∧
    Table.get (fun _ => 0) State.reset.dieReset 3 = 0 ∧
    Table.get (fun _ => 0) ({ State.reset with dieReset := [(3, 1)] } : State).dieReset 3 ≠ 0 ∧
    (let s := State.reset.withFc { State.reset.fc with chipDue := some 500 }
     s.fc.chipDue = some 500 ∧ 500 ≤ max s.tick 500) ∧ State.reset.fc.chipDue = none ∧
    NoHandOver State.reset ∧ NoFallen State.reset ∧ (leading.mayHandOver = true ∧ leading.ml.handOver = none) := by
  unfold NoHandOver NoFallen; decide +kernel

theorem test_junction_low : State.tjOut 24 = false ∧ State.tjOut 23 = true := by
  unfold State.tjOut State.tjMax; split <;> decide

/-- All clauses but the one of a voltage that the opaque fuses take. -/
theorem witness_RailsAndTemperaturesAreShown :
    State.reset.isStanding Src.SYS_PLL = false ∧ Fresh Src.SYS_PLL 0 State.reset ∧ Fresh Src.SYS_VMON 0 State.reset ∧
    State.reset.isStanding Src.SYS_VMON = false ∧
    (let s := State.reset.withFc { State.reset.fc with standing := BitVec.allOnes 384 }
     s.isStanding Src.SYS_VMON = true ∧ s.isStanding Src.SYS_PLL = true) ∧
    State.reset.boot.trip = false ∧
    ((sets [(F.SYS_BOOT_stage, 4)] State.reset).f F.SYS_BOOT_stage = 4 ∧ State.reset.boot.stopped = false ∧
      State.reset.dieReached 3 = true) ∧ State.reset.f F.SYS_BOOT_stage ≠ 4 := by unfold Fresh; decide +kernel

theorem witness_FaultCommandsAct :
    (let s := (sets [(F.FC_STATUS_cap, 1)] State.reset)
     s.on F.FC_STATUS_cap = true ∧ s.fc.capTick ≠ max s.tick 0 + 1 ∧ s.fc.ackTick ≠ max s.tick 0 + 1 ∧
       (s.withFc { s.fc with ackTick := 1 }).fc.ackTick = max s.tick 0 + 1) ∧
    Fresh 320 0 State.reset ∧ Fresh 383 0 State.reset ∧ Fresh Src.FC_SELF 0 State.reset ∧ State.reset.isStanding Src.FC_SELF = false ∧
    State.injInstances 5 ≤ 48 ∧ 47 < State.injInstances 5 ∧ State.reset.injLeft = 0 ∧
    (sets [(F.FC_INJ_arm, 1), (F.FC_INJ_count, 1)] State.reset).injLeft ≠ 0 ∧
    (let s := (sets [(F.FC_STATUS_fstate, 1), (F.FC_QUIET_ms, 1)] State.reset).withFc { State.reset.fc with quietStart := some 0 }
     (s.start 250000).quietDue = true ∧ (s.start 249999).quietDue = false) ∧
    (State.reset.withBoot { State.reset.boot with loaded := true }).boot.loaded = true ∧ State.reset.boot.loaded = false ∧
    (let s := State.reset.withFc { State.reset.fc with blockReset := 2 }
     s.resetPending 1 = true ∧ s.resetPending 0 = false) := by unfold Fresh; decide +kernel

/-- Watchdog 0 of a running pair: closed for 100 µs, then open for 100 µs; its key waits from tick `k`. -/
def watched (k : Nat) : State := pair0.setWatch 0 ⟨0, k, 2, 65537, 2, 65537, 0⟩

theorem witness_WatchdogsAreServed :
    (pair0.start 0).mayServe 0 2 = false ∧ (∀ t ∈ [25000, 25001, 50000], ((watched 0).start t).mayServe 0 0 = true ∧
      ((watched 0).start t).watchRuns 0 = true ∧ Nat.blt (((watched 0).start t).watchDue 0) (max (watched 0).tick t) = false) ∧
    (State.reset.start 0).watchRuns 0 = false ∧ (State.reset.start 0).mayServe 0 0 = true ∧
    (((watched 25001).start 25001).keyPending 0 = true ∧
      ((watched 25001).start 25001).watchRef 0 + ((watched 25001).start 25001).watchClosed 0 < max (watched 25001).tick 25001) ∧
    (((watched 24990).start 25000).keyPending 0 = true ∧
      max (watched 24990).tick 25000 ≤ ((watched 24990).start 25000).watchRef 0 + ((watched 24990).start 25000).watchClosed 0 ∧
      Fresh (Src.WD_EARLY 0) 25000 (watched 24990) ∧ bitOf ((watched 24990).watch 0).cfg 2 = false) ∧
    ((watched 0).start 25001).keyPending 0 = false ∧
    (((watched 24990).watch 0).key ≠ 0 ∧ ((watched 24990).watch 0).key - 1 + 64 ≤ max (watched 24990).tick 25053) ∧
    (((watched 0).start 49999).watchOverdue 0 = false ∧ ((watched 0).start 50000).watchOverdue 0 = true ∧
      Fresh (Src.WD_EXPIRE 0) 50000 (watched 0) ∧ ((watched 0).watch 0).cfg % 4 ≠ 1) ∧
    (let s := State.reset.withWd { State.reset.wd with resetDue := some (500, 0, true, 4) }
     s.wd.resetDue = some (500, 0, true, 4) ∧ 500 ≤ max s.tick 500) ∧ State.reset.wd.resetDue = none ∧
    (let s := State.reset.withWd { State.reset.wd with resetDue := some (500, 0, false, 4) }
     s.wd.resetDue = some (500, 0, false, 4) ∧ NoHandOver s) ∧
    (let s := leading.withWd { leading.wd with resetDue := some (500, 0, false, 4) }
     s.wd.resetDue = some (500, 0, false, 4) ∧ s.mayHandOver = true ∧ s.ml.handOver = none) := by
  refine ⟨?_, ?_, ?_, ?_, ?_, ?_, ?_, ?_, ?_, ?_, ?_, ?_, ?_⟩ <;>
    first | decide +kernel | (unfold Fresh; decide +kernel) | (unfold NoHandOver; decide +kernel)

/-- CORE 0 of a running die, with a slice of engine 15 since tick 0. -/
def slice (logic : Bool) : State :=
  (sets [(F.SYS_DIE_state 0, 4)] State.reset).setCoreT 0 { CoreTest.reset with slot := some (15, 0), logic := logic }

theorem witness_CoresAreTested :
    (let s := sets [(F.SYS_DIE_state 0, 4)] State.reset
     (s.coreT 0).slot = none ∧ (s.start 0).slotRuns 0 = none ∧ (s.start 0).slotAligned 0 = true ∧ (s.start 0).coreTested 0 = true ∧ (s.start 0).testFits (0 / 4) (State.us 2000) = true ∧
       s.nextEngine 0 (s.coreT 0).next = some 0 ∧ (s.coreT 0).kat = none ∧ (s.coreT 0).katDue ≤ max s.tick 0 ∧
       (s.start 0).testFits (0 / 4) (State.us 40) = true) ∧
    (((slice false).coreT 0).slot = some (15, 0) ∧ (slice false).residents 0 15 = [] ∧ max (slice false).tick 50000 ≤ 0 + State.us 200 ∧
      ((slice false).coreT 0).logic = false ∧ ((slice false).coreT 0).idle = false ∧ 0 + State.us 200 ≤ max (slice false).tick 50000 ∧
      ((slice false).setEngine 0 15 ⟨some thread, []⟩).residents 0 15 ≠ []) ∧
    (let s := (slice false).setCoreT 0 { (slice false).coreT 0 with idle := true }
     (s.coreT 0).slot = some (15, 0) ∧ (s.coreT 0).idle = true ∧ 0 + State.us 2000 ≤ max s.tick 500000) ∧
    (((slice true).coreT 0).slot = some (15, 0) ∧ ((slice true).coreT 0).logic = true ∧ ((slice true).coreT 0).idle = false ∧
      (slice true).awaitsSlice 0 15 = none ∧ 0 + State.us 2000 ≤ max (slice true).tick 500000 ∧ Fresh (Src.ST_LOGIC 0) 500000 (slice true) ∧
      (slice true).engFallow 0 15 = false) ∧
    (let s := State.reset.setCoreT 0 { CoreTest.reset with kat := some 5 }
     (s.coreT 0).kat = some 5 ∧ s.katHeld 0 = [] ∧ Fresh (Src.ST_KAT 0) 0 s) ∧
    (let s := (State.reset.setEngine 0 3 ⟨some thread, []⟩).setCoreT 0 { CoreTest.reset with kat := some 5 }
     (s.coreT 0).kat = some 5 ∧ s.katHeld 0 ≠ []) ∧
    (let s := sets [(F.SYS_DIE_state 0, 4)] State.reset
     ∀ kat : Bool, (s.start (State.ms 0xFFFF)).lapseDue 0 kat 15 = true ∧ (s.start 0).lapseDue 0 kat 15 = false ∧
       Fresh (Src.ST_LAPSE 0) (State.ms 0xFFFF) s) := by unfold Fresh; decide +kernel

theorem witness_ForeignKeysAreRefused :
    (pair0.start 0).mayServe 0 1 = false ∧ (pair0.start 0).mayServe 8 0x10F = true ∧ (pair0.start 0).mayServe 8 0x110 = false ∧
    Fresh Src.BUS_LOCKED 0 pair0 := by unfold Fresh; decide +kernel

/-- Region 63 of 256 bytes at 0x10001000, from flash offset 0, with its check list at 0x10002000 and its scratch at 0x10003000. -/
def region63 : State :=
  let s := sets [(F.DMA_REGEN_LEN_valid 63, 1), (F.DMA_REGEN_LEN_len 63, 1)] State.reset
  let s := ((s.setDword (A.DMA_REGEN_DST 63) 0x10001000).setDword (A.DMA_REGEN_LIST 63) 0x10002000).setDword A.DMA_REGEN_SCR 0x10003000
  s.setMemVal 0x10002000 4 0xf464a5c

/-- The check word of 256 erased bytes, in eight parts. -/
theorem test_crc_erased : crc32c (List.replicate 256 0xFF) = 0xf464a5c := by
  have h : ∀ p ∈ [(0xffffffff, 0x9d5754bc), (0x9d5754bc, 0xd032b199), (0xd032b199, 0xed873e76), (0xed873e76, 0xd0a92145), (0xd0a92145, 0xe9e4f4d2), (0xe9e4f4d2, 0xec1cefa8), (0xec1cefa8, 0x64ee2c21), (0x64ee2c21, 0xf0b9b5a3)], crcStep p.1 (List.replicate 32 0xFF) = p.2 := by decide +kernel
  have e : List.replicate 256 (0xFF : Byte) = List.replicate 32 0xFF ++ (List.replicate 32 0xFF ++ (List.replicate 32 0xFF ++ (List.replicate 32 0xFF ++
      (List.replicate 32 0xFF ++ (List.replicate 32 0xFF ++ (List.replicate 32 0xFF ++ List.replicate 32 0xFF)))))) := by decide +kernel
  have a (c : Nat) (l m : List Byte) : crcStep c (l ++ m) = crcStep (crcStep c l) m := List.foldl_append
  rw [crc32c, e, a, a, a, a, a, a, a]
  simp only [h (0xffffffff, 0x9d5754bc) (by decide), h (0x9d5754bc, 0xd032b199) (by decide), h (0xd032b199, 0xed873e76) (by decide), h (0xed873e76, 0xd0a92145) (by decide), h (0xd0a92145, 0xe9e4f4d2) (by decide), h (0xe9e4f4d2, 0xec1cefa8) (by decide), h (0xec1cefa8, 0x64ee2c21) (by decide), h (0x64ee2c21, 0xf0b9b5a3) (by decide)]
  decide

theorem witness_LostUnitsAreRegenerated :
    (State.region 0x10000000 = .warden ∧ State.reset.unitOf 0x10000000 = none ∧ State.reset.isLost 0x10000000 = false ∧
      Fresh Src.WSRAM_DET 0 State.reset ∧ (State.reset.markLost 0x10000000).isLost 0x10000000 = true) ∧
    (Fresh Src.TRACE_DET 0 State.reset ∧
      Table.get (fun _ => false) (State.reset.withLost [(State.traceKey 32767, true)]).lost (State.traceKey 32767) = true) ∧
    (Fresh Src.SYS_RET_ERR 0 State.reset ∧ State.reset.retBad 4092 = false ∧ (State.reset.withRetFlag [(4092, true)]).retBad 4092 = true) ∧
    (region63.unitOf 0x100010FF = some (63, 0) ∧ region63.regionFailed 63 = false ∧ region63.dma.regen.length < 16 ∧ (63, 0) ∉ region63.dma.regen) ∧
    (let s := region63.withDma { region63.dma with regen := List.replicate 16 (63, 0) }
     16 ≤ s.dma.regen.length ∧ (63, 0) ∈ s.dma.regen ∧ (62, 0) ∉ s.dma.regen) ∧
    (let s := (sets [(F.DMA_REGEN_STAT_busy, 1)] region63).withDma { region63.dma with regen := [(63, 0)] }
     s.mbx.held = none ∧ s.spanFault (s.dword (A.DMA_REGEN_LIST 63) + 4 * 0) 4 false 0x437 = none ∧
       s.spanLost (s.dword (A.DMA_REGEN_LIST 63) + 4 * 0) 4 = false ∧ s.dma.regen ≠ [] ∧ s.dma.regen.head? = some (63, 0) ∧ s.on F.DMA_REGEN_STAT_busy = true ∧
       s.flashBytes 0 (s.f (F.DMA_REGEN_SRC_off 63) + 0x10000 * 0) (s.unitSpan 63 0).2 = List.replicate 256 0xFF ∧
       0xf464a5c = s.memVal (s.dword (A.DMA_REGEN_LIST 63) + 4 * 0) 4 ∧ s.isLost (s.dword (A.DMA_REGEN_LIST 63) + 4 * 0) = false ∧
       s.spanFault (s.unitSpan 63 0).1 (s.unitSpan 63 0).2 false 0x437 = none ∧
       s.spanFault (s.dword A.DMA_REGEN_SCR) (s.unitSpan 63 0).2 true 0x437 = none ∧ Calm s) := by unfold Fresh Calm; decide +kernel

/-- A descriptor at 0x10000000 that moves 8 bytes from 0x10000100 to 0x10000200, `moved` of them moved. -/
def dmaDesc (moved : Nat) (waiting : List (Nat × Nat)) : DmaDesc :=
  { addr := 0x10000000, index := 0, src := 0x10000100, dst := 0x10000200, count := 8, flags := 3, next := 0, moved := moved,
    waiting := waiting, status := 0, bad := false, issued := moved == 8 }

/-- Channel 54 active with channel state `c`, the engine enabled in its mode. -/
def channel (c : DmaCh) : State :=
  (sets [(F.DMA_CTRL_en, 1), (F.DMA_STATUS_rtc_act, 1), (F.DMA_CH_STAT_active 54, 1)] State.reset).setChan 54 c

theorem witness_DmaMovesBytes :
    (sets [(F.DMA_CH_STAT_armed 54, 1)] State.reset).on (F.DMA_CH_STAT_armed 54) = true ∧
    (State.reset.on (F.DMA_CH_STAT_armed 54) = false ∧ (State.reset.chan 54).hand.1 ≠ max State.reset.tick 0 + 1 ∧
      State.reset.heldValue (A.DMA_CH_NEXT 54) 0 % 2 = 0 ∧ ((State.reset.hold (A.DMA_CH_NEXT 54) 1).heldValue (A.DMA_CH_NEXT 54) 0) % 2 = 1 ∧
      State.reset.on (F.DMA_CH_STAT_active 54) = false ∧ (channel DmaCh.reset).on (F.DMA_CH_STAT_active 54) = true) ∧
    ((sets [(F.DMA_CH_CFG_req 54, 127)] State.reset).f (F.DMA_CH_CFG_req 54) = 127 ∧ State.reset.f (F.DMA_CH_STAT_pend 54) < 15 ∧
      (sets [(F.DMA_CH_CFG_req 54, 127)] State.reset).pacing 54 = 127 ∧ State.reset.pacing 54 ≠ 127) ∧
    (let s := (channel { DmaCh.reset with fetch := some 0x10000000 }).setBytes 0x10000000
       (leBytes 8 0x10000100 ++ leBytes 8 0x10000200 ++ leBytes 4 8 ++ [3, 0, 0, 0] ++ leBytes 8 0)
     (s.chan 54).fetch = some 0x10000000 ∧ s.on F.DMA_STATUS_rtc_act = true ∧ s.rtcTurn = some 54 ∧ (s.chan 54).open_ = [] ∧ (s.chan 54).fetched < 65536 ∧ State.inSram 0x10000000 32 = true ∧
       PlainRead (0x400 + 54) 0x10000000 32 s ∧ s.descStatus 54 (s.bytes 0x10000000 32) = 0 ∧ s.memVal (0x10000000 + 16) 4 ≠ 0 ∧
       s.memVal (0x10000000 + 21) 1 % 16 = 0 ∧ (s.chan 54).snoop = 0) ∧
    (let s := sets [(F.DMA_CH_STAT_active 0, 1)] (channel { DmaCh.reset with fetch := some 0x10000000 })
     (s.chan 54).fetch = some 0x10000000 ∧ s.on F.DMA_STATUS_rtc_act = true ∧ s.rtcTurn ≠ some 54) ∧
    State.inSram 0x10FFFFE1 32 = false ∧ State.reset.nextBurst = none ∧
    (let s := channel { DmaCh.reset with open_ := [dmaDesc 0 []], fetched := 1 }
     s.nextBurst = some 54 ∧ (s.chan 54).snoop = 0 ∧ (dmaDesc 0 []).bad = false ∧ (s.chan 54).snooping = false ∧ s.gs.ended = [] ∧ (s.chan 54).open_ = [dmaDesc 0 []] ∧ (dmaDesc 0 []).flags % 4 = 3 ∧
       min (64 * 2 ^ ((s.chan 54).cfg / 65536 % 8)) ((dmaDesc 0 []).count - 0) = 8 ∧ PlainRead (0x400 + 54) 0x10000100 8 s ∧
       PlainWrite (0x400 + 54) 0x10000200 8 s) ∧
    (∀ w ∈ [0, 3], let d := dmaDesc 8 [(w, 0x10000200)]
     let s := channel { DmaCh.reset with open_ := [d], fetched := 1 }
     (s.chan 54).open_ = [d] ∧ d.waiting = [(w, 0x10000200)] ∧ d.issued = true ∧ PlainWrite (0x400 + 54) (d.addr + 22) 2 s ∧ d.bad = false ∧
       Fresh Src.DMA_BUS 0 s) ∧
    (let s := channel { DmaCh.reset with zero := true }
     s.eocDue 54 = true ∧ s.on (F.DMA_CH_STAT_armed 54) = false ∧ (sets [(F.DMA_CH_STAT_armed 54, 1)] s).eocDue 54 = true ∧
       (s.chan 54).aborting = false ∧ (s.chan 54).hand.1 ≠ max s.tick 0 + 1) ∧
    (channel DmaCh.reset).eocDue 54 = false ∧
    ((serving (channel DmaCh.reset)).rtcWanted ≠ (serving (channel DmaCh.reset)).on F.DMA_STATUS_rtc_act ∧
      (∀ j : Fin 55, (State.reset.chan j).open_.all (fun d => d.waiting.isEmpty) = true) ∧
      (channel DmaCh.reset).rtcWanted = (channel DmaCh.reset).on F.DMA_STATUS_rtc_act) :=
  ⟨by decide +kernel, by decide +kernel, by decide +kernel, by unfold PlainRead Calm; decide +kernel, by decide +kernel, by decide +kernel, by decide +kernel,
    by unfold PlainRead PlainWrite Calm; decide +kernel, by unfold PlainWrite Calm Fresh; decide +kernel, by decide +kernel, by decide +kernel,
    by decide +kernel⟩

theorem witness_ScansCheckMemory :
    (let s := sets [(F.CRC_SCAN_STAT_busy 11, 1)] ((State.reset.setDword (A.CRC_SCAN_ADDR 11) 0x10000000).setWord (A.CRC_SCAN_LEN 11) 8)
     s.on (F.CRC_SCAN_STAT_busy 11) = true ∧ s.on (F.CRC_SCAN_CTRL_mode 11) = false ∧
       PlainRead (0x4A0 + 11) (s.dword (A.CRC_SCAN_ADDR 11)) (s.word (A.CRC_SCAN_LEN 11)) s ∧ s.word (A.CRC_SCAN_LEN 11) ≠ 0) ∧
    (State.reset.on (F.CRC_SCAN_STAT_busy 11) = false ∧ State.reset.word (A.CRC_SCAN_LEN 11) = 0 ∧
      State.reset.on (F.DMA_REGEN_LEN_valid 63) = false) := by unfold PlainRead Calm; decide +kernel

/-- R187's worked offset: 0x123456780 of the interleaved view, in channel 6. -/
theorem witness_BothViewsReachOneByte :
    0x123456780 < 0x3E0000000 ∧ 6 = 0x123456780 / 0x1000 % 16 ∧ 1 = 6 / 4 ∧ 2 = 6 % 4 ∧
    0x12345780 = 0x123456780 / 0x10000 * 0x1000 + 0x123456780 % 0x1000 ∧
    0x48D16780 = 0x12345780 / 0x1000 * 0x4000 + 2 * 0x1000 + 0x12345780 % 0x1000 := by decide

theorem witness_TimeIsSteppedAndDisciplined :
    (signed 64 (State.reset.heldValue A.TM_STEP 0) = 0 ∧ signed 64 (State.reset.heldValue A.TM_STEP 0xFFFFFFFF) < 0 ∧
      0 < signed 64 (State.reset.heldValue A.TM_STEP 1) ∧ State.reset.f F.SYS_SVC_level = 0) ∧
    ((serving State.reset).f F.SYS_SVC_level ≠ 0 ∧ (serving State.reset).on F.TM_CTRL_back = false) ∧
    (State.reset.f F.TM_LIMIT_big_us * 1000 * 65536 < (signed 64 (State.reset.heldValue A.TM_OFS 0x7FFFFFFF)).natAbs ∧
      (signed 64 (State.reset.heldValue A.TM_OFS 0)).natAbs ≤ State.reset.f F.TM_LIMIT_big_us * 1000 * 65536 ∧
      State.reset.on F.TM_CTRL_servo_en = false) ∧
    (let s := sets [(F.TM_CTRL_servo_en, 1), (F.TM_SERVO_kp, 1)] (sets [(F.TM_LIMIT_big_us, 1000)] (State.reset.hold A.TM_OFS 65536))
     let e := signed 64 (s.heldValue A.TM_OFS 0)
     let i := State.sat64 (signed 64 (s.dword A.TM_SERVO_I) + s.f F.TM_SERVO_ki * e)
     let r : Int := -(s.f F.TM_SERVO_kp * e / 65536 + i / 65536)
     s.on F.TM_CTRL_servo_en = true ∧ e.natAbs ≤ s.f F.TM_LIMIT_big_us * 1000 * 65536 ∧ r.natAbs ≤ 8589934) ∧
    (let s := sets [(F.TM_CTRL_servo_en, 1), (F.TM_LIMIT_big_us, 1000)] ((State.reset.hold A.TM_OFS 65536).setDword A.TM_SERVO_I (2 ^ 62))
     let e := signed 64 (s.heldValue A.TM_OFS 0)
     let i := State.sat64 (signed 64 (s.dword A.TM_SERVO_I) + s.f F.TM_SERVO_ki * e)
     let r : Int := -(s.f F.TM_SERVO_kp * e / 65536 + i / 65536)
     e.natAbs ≤ s.f F.TM_LIMIT_big_us * 1000 * 65536 ∧ 8589934 < r.natAbs ∧ Fresh Src.TM_SERVO 0 s ∧
       (s.start (State.ms 0xFFFF)).lossReady = true ∧ Fresh Src.TM_GM_LOSS (State.ms 0xFFFF) s) ∧
    (signed 32 8589934).natAbs ≤ 8589934 ∧ 8589934 < (signed 32 8589935).natAbs ∧ (State.reset.start 0).lossReady = false ∧
    ((State.reset.setEtsQ 3 [⟨0, 0, 0⟩]).etsQ 3).head? = some ⟨0, 0, 0⟩ ∧ State.reset.etsQ 3 = [] := by unfold Fresh; decide +kernel

/-- MAC 1 enabled, its link up, full duplex at the rate of code 0, and peer 7 known by identity 0x1234. -/
def linked : State :=
  let s := sets [(F.ETH_CTRL_enb, 1), (F.ETH_STAT_up 1, 1), (F.ETH_VLAN_untag, 1), (F.ETH_PEER_en 7, 1), (F.ETH_PEER_id 7, 0x1234),
    (F.ETH_RXCFG_size, 2), (F.ETH_RXCFG_cmp_us, 1)] State.reset
  (s.setDword A.ETH_RXRING 0x10000000).withEth { s.eth with phy := [(1, 1)] }

/-- A safety datagram of peer 0x1234, sequence 5, with an empty payload. -/
def datagram : List Byte := [1, 0x10, 0x12, 0x34] ++ beBytes 4 5 ++ List.replicate 38 0

/-- Its first copy, from MAC 0. -/
def held : CmpEntry := ⟨7, 5, 0, datagram.take 20, 0, 0⟩

theorem witness_EthernetCarriesFrames :
    State.reset.on (F.ETH_STAT_up 1) = false ∧
    (linked.on (F.ETH_STAT_up 1) = true ∧ Fresh (Src.ETH_LINK 1) 0 linked ∧ linked.phyOf 1 ≠ 0 ∧ linked.macOn 1 = true ∧
      linked.f (F.ETH_CFG_min 1) ≤ 3 ∧ linked.phyOf 1 ≠ 3 + 1 ∧ State.reset.phyOf 1 = 0) ∧
    (State.reset.ethUp 1 = false ∧ linked.ethUp 1 = true ∧ linked.isFallow 7 1 = false ∧ linked.injHits 11 1 = false ∧
      46 ≤ datagram.length ∧ datagram.length ≤ 1500 ∧ linked.on F.ETH_VLAN_untag = true ∧ linked.dword (A.ETH_MAC 1) < 2 ^ 48 ∧
      ((linked.rxMgmt 1).map List.length).sum + datagram.length + 14 ≤ 16384) ∧
    (linked.peerOf (State.beAt datagram 2 2) = some 7 ∧ State.beAt datagram 0 1 = 1 ∧ 0x10 ≤ State.beAt datagram 1 1 ∧
      State.beAt datagram 1 1 ≤ 0x7F ∧ State.beAt datagram 16 2 ≤ 1480 ∧ 20 + State.beAt datagram 16 2 ≤ datagram.length ∧
      State.beAt datagram 4 4 = 5) ∧
    ((linked.peer 7).started = false ∧ linked.eth.cmp.length < 64) ∧
    (let s := (linked.setPeer 7 ⟨true, 0, [], 0⟩)
     let s := s.withEth { s.eth with cmp := [held] }
     s.eth.cmp.find? (fun e => e.peer = 7 && e.seq = 5) = some held ∧ (s.peer 7).started = true ∧
       s.eth.cmp.reverse.find? (fun e => e.peer = 7 && e.seq = 5) = some held ∧ Calm s ∧ held.mac ≠ 1 ∧ held.body = datagram.take (20 + State.beAt datagram 16 2) ∧
       (s.f F.ETH_RXCNT_wr + 1) % 2 ^ s.f F.ETH_RXCFG_size ≠ s.f F.ETH_RXRD_rd ∧
       s.spanFault (s.dword A.ETH_RXRING + 2048 * s.f F.ETH_RXCNT_wr) (16 + held.body.length) true State.ownMaster = none ∧
       max s.tick 249 < held.tick + 250 * s.f F.ETH_RXCFG_cmp_us ∧ held.tick + 250 * s.f F.ETH_RXCFG_cmp_us ≤ max s.tick 250) ∧
    (let q : TxDgram := ⟨[1], 0, 0, 0, 0⟩
     let s := linked.setSafetyQ 1 [q]
     (s.safetyQ 1).head? = some q ∧ (s.safetyQ 1).tail = [] ∧ max s.tick 4999 < q.tick + State.us 20 ∧ q.tick + State.us 20 ≤ max s.tick 5000 ∧
       Fresh (Src.ETH_TXLATE 1) 5000 s) ∧
    (linked.safetyQ 1 = [] ∧ ((linked.setTxMgmt 1 [[1]]).txMgmt 1).head? = some [1]) ∧
    ((linked.start 0).peerSilent 7 = false ∧
      ((linked.setPeer 7 ⟨true, 0, [], 0⟩).start (State.ms 0xFFFF)).peerSilent 7 = true) := by unfold Fresh Calm; decide +kernel

/-- Flash with a valid update descriptor: slot B of 128 KiB from 0x200000, slot A active. -/
def updating (l : List (Field × Nat)) : State :=
  let b := leBytes 4 0x4442575A ++ leBytes 4 1 ++ [0, 0, 0, 0] ++ leBytes 4 0x100000 ++ leBytes 4 0x20000 ++ leBytes 4 0x200000 ++ leBytes 4 0x20000 ++
    List.replicate 32 0
  sets l (State.reset.setFlash 0 0 (b ++ leBytes 4 (crc32c b)))

theorem witness_BulkDataIsStored :
    let s := (updating [(F.SYS_UPD_STAT_state, 1), (F.SYS_UPD_STAT_slot, 1), (F.SYS_UPD_STAT_erase_next, 1)])
    let l : List Byte := List.replicate 8 7
    let m : List Byte := List.replicate 14 0 ++ State.bulkDatagram 9 0 l
    let s := s.setRxMgmt 1 [m]
    s.takeMgmt 1 (fun b => b.take (8 + l.length) = State.bulkDatagram 8 0 l) = none ∧ s.sec.session = none ∧
    let s := s.withSec { s.sec with session := some ⟨1, 0⟩ }
    soundMgmt s 1 = m :: [] ∧ (State.mgmtBody m).take (8 + l.length) = State.bulkDatagram 9 0 l ∧
    s.sec.session.isSome = true ∧ s.f F.SYS_UPD_STAT_state = 1 ∧ s.desc.isSome = true ∧ s.word A.SYS_UPD_ACK ≤ 0 ∧ 0 ≤ s.boot.stored ∧
    (∀ b ∈ s.desc, 0 + 8 ≤ (State.descSlot b (s.f F.SYS_UPD_STAT_slot)).2) ∧ 0 + 8 ≤ 0x10000 * s.f F.SYS_UPD_STAT_erase_next ∧
    max s.boot.stored (0 + 8) / 0x10000 * 0x10000 = s.word A.SYS_UPD_ACK := by decide +kernel

/-- I3CT enabled with a dynamic address, or not. -/
def target (dav : Nat) : State :=
  sets [(F.I3C_T_CFG_en, 1), (F.I3C_T_CFG_ddr, 1), (F.I3C_T_CFG_sa, 0x2A), (F.I3C_T_STAT_dav, dav), (F.I3C_T_STAT_ibien, 1)] State.reset

theorem witness_I3cTargetAnswers :
    (target 0).i3cOn = true ∧ (sets [(F.I3C_T_CFG_en, 0)] State.reset).i3cOn = false ∧
    ((target 0).on F.I3C_T_STAT_dav = false ∧ (target 0).f F.I3C_T_CFG_sa = (0x2A : BitVec 7).toNat ∧ (0x2A : BitVec 7) ≠ 0 ∧ (target 1).on F.I3C_T_STAT_dav = true) ∧
    Fresh Src.I3C_ERR 0 (target 0) ∧ (target 0).on F.I3C_T_CFG_ddr = true ∧
    (let s := (target 1).withMbx { Mailbox.reset with response := [1] }
     s.i3cOn = true ∧ s.mbx.response ≠ [] ∧ s.on F.I3C_T_STAT_dav = true ∧ s.on F.I3C_T_CFG_ddr = true ∧ s.mbx.resetHeld = none) ∧
    (((target 1).withIbi 1).i3cOn = true ∧ ((target 1).withIbi 1).on F.I3C_T_STAT_ibien = true ∧ ((target 1).withIbi 1).ibi ≠ 0) ∧
    (target 1).ibi = 0 := by unfold Fresh; decide +kernel

theorem witness_I3cControllerTransfers :
    (let s := sets [(F.I3C_C_CFG_en, 1)] State.reset
     s.on F.I3C_C_STAT_busy = false ∧ s.on F.I3C_C_CFG_en = true ∧ (0x4000 : Word).toNat / 256 % 128 ≤ 64 ∧
       64 < (0x4100 : Word).toNat / 256 % 128 ∧ s.i3c.cmd = none ∧ s.i3c.ibis.length < 16 ∧ s.i3c.ibis = []) ∧
    State.reset.on F.I3C_C_CFG_en = false ∧
    (let s : State := { State.reset with i3c := { State.reset.i3c with cmd := some 0x404000, ibis := [(5, [1])] } }
     (5 : BitVec 7) ≠ 2 ∧ s.i3c.cmd = some 0x404000 ∧ bitOf 0x404000 22 = true ∧ 0x404000 / 256 % 128 ≤ 64 ∧ s.i3c.ibis.head? = some (5, [1])) := by decide +kernel

theorem witness_FlashDevicesTakeCommands :
    (State.reset.on (F.XSP_CFG_en 1) = false ∧ (sets [(F.XSP_CFG_en 1, 1)] State.reset).on (F.XSP_CFG_en 1) = true ∧
      State.reset.on (F.XSP_STAT_busy 1) = false ∧ State.reset.xspRun 1 = none) ∧
    (∀ k : Fin 4, let s := (sets [(F.XSP_CFG_tmo_ms 1, 1)] State.reset).setXspRun 1 (some ⟨0, k, 0, 2, 0x1000, 16⟩)
     s.xspRun 1 = some ⟨0, k, 0, 2, 0x1000, 16⟩ ∧ Fresh (Src.XSP_ERR 1) 250000 s ∧ 0 + State.ms (s.f (F.XSP_CFG_tmo_ms 1)) ≤ max s.tick 250000 ∧
       max s.tick 249999 < 0 + State.ms (s.f (F.XSP_CFG_tmo_ms 1))) := by unfold Fresh; decide +kernel

/-- A link that is up, on a secondary, with sequence 5 expected. -/
def partnered : State :=
  let s := sets [(F.ML_CTRL_en, 1), (F.ML_STATUS_link, 1), (F.ML_STATUS_role, 2), (F.ML_CFG_tsrc, 1), (F.SYS_SVC_level, 1)] State.reset
  (s.setDword A.ML_MIR_BASE 0x10000000000).withMl { s.ml with expect := some 5 }

/-- A frame's header with sequence `q`. -/
def header (q : Word) : MlHdr := ⟨1, true, 1, 0, q, 0, true, true⟩

theorem witness_MelhanFramesAreReceived :
    InSequence 0 (header 5) partnered ∧ partnered.isSecondary = true ∧
    (State.reset.mlUp = false ∧ partnered.mlUp = true ∧ partnered.injHits 9 0 = false ∧ partnered.f F.ML_STATUS_role ≠ 3 ∧
      partnered.ml.expect = some 5 ∧ State.seqBefore 4 5 = true ∧ State.seqBefore 6 5 = false ∧ State.seqBefore (2 ^ 32 - 1) 0 = true ∧
      partnered.ml.waiting = [] ∧ partnered.gs.ended = []) ∧
    (partnered.on F.ML_CFG_tsrc = true ∧ (partnered.start 0).tm.replicas = partnered.tm.replicas ∧ Fresh Src.TM_SERVO 0 partnered) ∧
    ((partnered.cinP 15).recent = [] ∧
      ((partnered.setCin 15 { CinPort.reset with recent := [(0, 0, 0, 50)] }).cinP 15).recent = [(0, 0, 0, 50)] ∧
      (1 : Word).toNat % 65536 ≠ 0 ∧ 50 ≤ (100050 : DWord).toNat + 100000 ∧ (100050 : DWord).toNat ≤ 50 + 100000) ∧
    (∀ k ∈ [0, 31], partnered.spanFault (0x10000000000 + 0x10000 + 64 * (k % 32)) 64 true State.ownMaster = none) ∧
    partnered.spanFault (0x10000000000 + 0x10800 + 15) 1 true State.ownMaster = none ∧
    (partnered.dword A.ML_MIR_BASE = 0x10000000000 ∧ partnered.memVal 0x10000000000 4 = 0 ∧ partnered.spanFault 0x10000000000 8 true State.ownMaster = none ∧
      partnered.spanFault (0x10000000000 + 0x20000 + 0xDFFFF) 1 true State.ownMaster = none ∧ Calm partnered) ∧
    (partnered.ml.frames = [] ∧ 100000 < State.stampDiff (partnered.start 0).time (2 ^ 64 - 100001) ∧ State.stampDiff (partnered.start 0).time (2 ^ 64 - 100000) ≤ 100000) ∧
    (partnered.f F.SYS_SVC_level = 1 ∧ partnered.on F.ML_STATUS_link = true ∧ partnered.ml.out = [] ∧ partnered.ml.handOver = none ∧
      partnered.ml.hbLog = []) ∧
    (let x : MlFrame := ⟨.handOver [], 9, 0, 1, 0, 0, 0⟩
     let s := partnered.withMl { partnered.ml with handOver := some 0, out := [x] }
     s.ml.handOver.isSome = true ∧ (s.ml.out.any (fun x => [9].contains x.seq && State.isHandOver x.msg)) = true ∧ s.ml.resetAfter = none ∧
       NoTakeover s ∧ InSequence 0 (header 5) s ∧
       (s.withMl { s.ml with resetAfter := some 2 }).ml.resetAfter = some 2) :=
  ⟨⟨by decide +kernel, by decide, by decide, by decide +kernel, by decide +kernel, by decide +kernel, by decide +kernel, by decide +kernel,
      by decide +kernel, by unfold NoTakeover; decide +kernel⟩, by decide +kernel, by decide +kernel, by unfold Fresh; decide +kernel, by decide +kernel,
    by decide +kernel, by decide +kernel, by unfold Calm; decide +kernel, by decide +kernel, by decide +kernel,
    by decide +kernel, by decide +kernel, by decide +kernel, by unfold NoTakeover; decide +kernel,
    ⟨by decide +kernel, by decide, by decide, by decide +kernel, by decide +kernel, by decide +kernel, by decide +kernel, by decide +kernel,
      by decide +kernel, by unfold NoTakeover; decide +kernel⟩, by decide +kernel⟩

theorem witness_PairKeepsItsRoles :
    (partnered.on F.ML_STATUS_pfn = false ∧ (sets [(F.ML_STATUS_pfn, 1)] partnered).on F.ML_STATUS_pfn = true ∧
      Fresh Src.PARTNER_FAULT 0 partnered ∧ partnered.on F.ML_STATUS_hb_lost = false ∧ partnered.f F.ML_STATUS_role ≠ 3 ∧ Healthy partnered ∧
      partnered.isSecondary = true ∧ NoTakeover partnered ∧ (sets [(F.ML_STATUS_hb_lost, 1)] partnered).on F.ML_STATUS_hb_lost = true ∧
      partnered.f F.SYS_SVC_level = 1) ∧
    (∀ k ∈ [2, 3], let x : MlFrame := ⟨.time 0, 9, 0, k, 0, 0, 0⟩
     let s := partnered.withMl { partnered.ml with out := [x] }
     s.ml.out.head? = some x ∧ (9 : Word).toNat = x.seq ∧ max s.tick 124 < x.sentTick + 125 ∧ x.sentTick + 125 ≤ max s.tick 125 ∧
       Fresh Src.ML_LINK 125 s) ∧
    (State.reset.on F.ML_CTRL_en = false ∧
      (let s := sets [(F.ML_CTRL_en, 1), (F.ML_STATUS_role, 3)] State.reset
       s.on F.ML_CTRL_en = true ∧ s.on F.ML_STATUS_link = false ∧ NoTakeover s ∧ s.f F.ML_STATUS_role = 3 ∧ (header 0).role = 1 ∧
         { header 0 with role := 3 }.role ≠ 1 ∧ s.on F.SYS_STRAP_pair_role ≠ (header 0).strap ∧ s.f F.SYS_SVC_level ≠ 2) ∧
      (sets [(F.ML_CTRL_en, 1), (F.ML_STATUS_role, 1)] State.reset).f F.ML_STATUS_role = 1) ∧
    (partnered.ml.hbSent + 25000 ≤ max partnered.tick 25000 ∧ max partnered.tick 24999 < partnered.ml.hbSent + 25000 ∧
      partnered.ml.hbTick = none) ∧
    (∀ m ∈ [0, 1, 2], let s := partnered.withMl { partnered.ml with hbTick := some 0, misses := m }
     s.ml.hbTick = some 0 ∧ s.on F.ML_CTRL_en = true ∧ max s.tick 24999 < 0 + 25000 ∧ 0 + 25000 ≤ max s.tick 25000 ∧ s.ml.misses = m ∧
       s.gs.ended = [] ∧ s.on F.ML_STATUS_hb_lost = false ∧ Fresh Src.ML_HB 25000 s) ∧
    (let s := sets [(F.ML_STATUS_role, 1), (F.ML_STATUS_sync, 1), (F.ML_PARTNER_level, 1)] partnered
     s.leads = true ∧ s.ml.timeSent + State.ms 1 ≤ max s.tick 250000 ∧ max s.tick 249999 < s.ml.timeSent + State.ms 1 ∧
       s.mayHandOver = true ∧ s.f F.ML_STATUS_role = 1) ∧
    (partnered.leads = false ∧ partnered.mayHandOver = false) ∧
    (let s := sets [(F.ML_CTRL_en, 1), (F.ML_STATUS_role, 3), (F.ML_CFG_wait_ms, 1), (F.SYS_STRAP_pair_role, 1)] State.reset
     let s := s.withMl { s.ml with arbStart := some 0 }
     s.on F.ML_CTRL_en = true ∧ s.f F.ML_STATUS_role = 3 ∧ s.on F.ML_STATUS_link = false ∧ s.ml.arbStart = some 0 ∧
       0 + State.ms (s.f F.ML_CFG_wait_ms) ≤ max s.tick 250000 ∧ max s.tick 249999 < 0 + State.ms (s.f F.ML_CFG_wait_ms) ∧
       s.on F.SYS_STRAP_pair_role = true) ∧
    (let s := partnered.withMl { partnered.ml with handOver := some 0 }
     s.ml.handOver.isSome = true ∧ s.ml.handOver = some 0 ∧ 0 + State.us 10 ≤ max s.tick 2500 ∧ max s.tick 2499 < 0 + State.us 10 ∧
       s.f F.SYS_SVC_level ≠ 2 ∧ s.ml.resetAfter = none ∧ (sets [(F.SYS_SVC_level, 2)] s).f F.SYS_SVC_level = 2 ∧
       (s.withMl { s.ml with resetAfter := some 2 }).ml.resetAfter = some 2) :=
  ⟨by unfold Fresh Healthy NoTakeover; decide +kernel, by unfold Fresh; decide +kernel, by unfold NoTakeover; decide +kernel, by decide +kernel,
    by unfold Fresh; decide +kernel, by decide +kernel, by decide +kernel, by decide +kernel, by decide +kernel⟩

/-- Fuses with every field of `l` holding a byte. -/
def fused (l : List Nat) (v : Byte) : State := l.foldl (fun s k => s.setFuse k [v]) State.reset

theorem witness_DeviceIsProvisioned :
    (State.reset.life = 0 ∧ (fused [0] 0x5A).life = 0x5A ∧ (fused [0] 1).life = 0xA5) ∧
    (State.reset.fuse 14 = [] ∧ fuseSecret 14 = true ∧ (fused [14] 1).fuse 14 ≠ [] ∧ State.reset.drbgStopped = false ∧ State.reset.fuse 10 = []) ∧
    (let s := fused [1, 2, 3, 4, 5, 6, 9, 10, 11, 12, 13, 14] 1
     s.life = 0 ∧ ∀ k ∈ [1, 2, 3, 4, 5, 6, 9, 10, 11, 12, 13, 14], s.fuse k ≠ []) ∧
    (let s := (fused [0] 0x5A).setDword A.SEC_AJOB_ADDR 0x10000000000
     s.life = 0x5A ∧ s.drbgStopped = false ∧ Calm s ∧ s.spanFault (s.dword A.SEC_AJOB_ADDR) 32 true State.ownMaster = none ∧ s.sec.retChallenge = none) ∧
    ((fused [1] 1).fuse 1 ≠ [] ∧ fuseSecret 1 = false) ∧
    (let s := (fused [0] 0x5A).setFuse 9 [1]
     let s := s.withSec { s.sec with retChallenge := some [] }
     s.life = 0x5A ∧ s.sec.retChallenge.isSome = true ∧ s.fuse 9 ≠ [] ∧ Fresh Src.SEC_AUTH 0 s) ∧
    (let s := State.reset.withSec { State.reset.sec with returnDue := some 500 }
     s.sec.returnDue = some 500 ∧ 500 ≤ max s.tick 500) ∧ State.reset.sec.returnDue = none := by unfold Fresh Calm; decide +kernel

theorem witness_KeysAndPagesAreHeld :
    State.reset.enabled.contains 3 = false ∧
    (∀ o ∈ [OldKey.none, OldKey.spent 4, OldKey.grace 0 0 0], let s := context 2 { Ctx.reset with old := o }
     s.enabled = [3] ∧ s.enabled.contains 3 = true ∧ s.trust 3 ≠ 0 ∧ (s.ctx 3).change = .none ∧ (s.ctx 3).old = o ∧
       s.f (F.EV_CTX_KEY_epoch 3) ≠ 0xFFFF ∧ (sets [(F.EV_CTX_KEY_epoch 3, 0xFFFF)] s).f (F.EV_CTX_KEY_epoch 3) = 0xFFFF) ∧
    State.reset.enabled = [] ∧ State.reset.f F.SEC_VEPOCH_epoch ≠ 0xFFFF ∧
    (sets [(F.SEC_VEPOCH_epoch, 0xFFFF)] State.reset).f F.SEC_VEPOCH_epoch = 0xFFFF ∧
    (State.reset.on F.SEC_ASTAT_old_valid = false ∧ State.reset.f F.SEC_ASTAT_epoch ≠ 0xFFFF ∧ State.reset.on F.SEC_ASTAT_sweep = false) ∧
    (let s := sets [(F.SEC_ASTAT_old_valid, 1), (F.SEC_ASTAT_sweep, 1)] State.reset
     s.on F.SEC_ASTAT_old_valid = true ∧ s.on F.SEC_ASTAT_sweep = true) ∧
    (State.reset.sec.job = none ∧ State.reset.sec.rotTick ≠ max State.reset.tick 0 + 1) ∧
    (∀ d : Bool, let j : PageJob := ⟨d, 1, 0x10000000, 0⟩
     let s := State.reset.withSec { State.reset.sec with job := some j }
     s.sec.job = some j ∧ j.epoch ≠ s.f F.SEC_ASTAT_epoch ∧ s.on F.SEC_ASTAT_old_valid = false ∧
       s.spanFault j.base 4110 true State.ownMaster = none ∧ PlainRead State.ownMaster j.base 4112 s) ∧
    (Fresh Src.SEC_RNG 0 State.reset ∧ (State.reset.start 0).reseedDue = true) ∧
    (let s := State.reset.withSec { State.reset.sec with seeded := true }
     (s.start 0).reseedDue = false) ∧
    (let s := (sets [(F.SEC_STATUS_rng, 1)] State.reset).withSec { State.reset.sec with requests := 2 ^ 32 }
     s.f F.SEC_STATUS_rng = 1 ∧ 2 ^ 32 ≤ s.sec.requests) := by unfold Fresh PlainRead Calm; decide +kernel

/-- A page to decrypt, with the tag that its key gives it. -/
theorem witness_KeysAndPagesAreHeld_page :
    let j : PageJob := ⟨true, 0, 0x10000000, 0⟩
    let s0 := State.reset.withSec { State.reset.sec with job := some j }
    let iv := State.pageIv j.epoch (s0.memVal (j.base + 4098) 8)
    let s := s0.putBytes (j.base + 4080) (Config.gcmTag (s0.archiveKey j.epoch) iv (s0.bytes (j.base + 4096) 10) (s0.bytes j.base 4080))
    s.sec.job = some j ∧ j.epoch = s.f F.SEC_ASTAT_epoch ∧ PlainRead State.ownMaster j.base 4112 s ∧
      s.spanFault j.base 4080 true State.ownMaster = none ∧
      Config.gcmTag (s.archiveKey j.epoch) (State.pageIv j.epoch (s.memVal (j.base + 4098) 8)) (s.bytes (j.base + 4096) 10) (s.bytes j.base 4080) =
        s.bytes (j.base + 4080) 16 := by
  intro j s0 iv s
  have l : (Config.gcmTag (s0.archiveKey j.epoch) iv (s0.bytes (j.base + 4096) 10) (s0.bytes j.base 4080)).length = 16 := by
    simp [Config.gcmTag, Config.bytesOf, Config.lowBytes]
  have q (i : Nat) (h : i < 4112) : State.phys (j.base + i) = j.base + i := if_neg (by have : j.base = 0x10000000 := rfl; omega)
  have a (l : List Byte) : ∀ (u : State) (c : Nat), (u.putBytes c l).archiveKey j.epoch = u.archiveKey j.epoch := by
    induction l with
    | nil => exact fun u c => rfl
    | cons x l ih => exact fun u c => (ih (u.setByte c x) (c + 1)).trans rfl
  have e (i : Nat) (h : i < 4112) (k : i < 4080 ∨ 4096 ≤ i) : s.byte (j.base + i) = s0.byte (j.base + i) :=
    State.byte_putBytes_ne _ _ _ _ (fun x hx => by
      rw [l] at hx
      rw [q i h, Nat.add_assoc, q (4080 + x) (by omega)]; omega)
  have b (n m : Nat) (h : n + m ≤ 4112) (k : n + m ≤ 4080 ∨ 4096 ≤ n) : s.bytes (j.base + n) m = s0.bytes (j.base + n) m :=
    List.map_congr_left (fun x hx => by
      have := List.mem_range.1 hx
      rw [Nat.add_assoc, e (n + x) (by omega) (by omega)])
  refine ⟨by decide +kernel, by decide +kernel, by unfold PlainRead Calm; decide +kernel, by decide +kernel, ?_⟩
  have t : s.bytes (j.base + 4080) 16 =
      Config.gcmTag (s0.archiveKey j.epoch) iv (s0.bytes (j.base + 4096) 10) (s0.bytes j.base 4080) :=
    Eq.trans (congrArg _ l.symm) (State.bytes_putBytes _ _ _ (fun x y hx hy => by
      rw [l] at hy
      rw [Nat.add_assoc, Nat.add_assoc, q (4080 + x) (by omega), q (4080 + y) (by omega)]; omega))
  rw [t, a, show s.memVal (j.base + 4098) 8 = s0.memVal (j.base + 4098) 8 from congrArg leVal (b 4098 8 (by decide) (.inr (by decide))),
    b 4096 10 (by decide) (.inr (by decide)), show s.bytes j.base 4080 = s0.bytes j.base 4080 from b 0 4080 (by decide) (.inl (by decide))]

theorem witness_BootStagesEnd :
    ((State.reset.withHolds 1).holds ≠ 0 ∧ State.reset.holds = 0 ∧ State.reset.boot.stopped = false ∧ State.reset.f F.SYS_SVC_level = 0) ∧
    (∀ k : Fin 9, (sets [(F.SYS_BOOT_stage, k)] State.reset).f F.SYS_BOOT_stage = k) ∧
    (let s := sets [(F.SYS_BOOT_stage, 4), (F.FP_CTRL_pass, 0), (F.CX_LINK_wl_fallow 0, 0xF), (F.CX_LINK_wl_fallow 1, 0xF),
       (F.CX_LINK_wl_fallow 2, 0xF), (F.CX_LINK_wl_fallow 3, 0xF)] State.reset
     let u := sets [(F.SYS_VP_STAT_state 0, 2), (F.SYS_VP_STAT_state 1, 2)] s
     s.f F.SYS_BOOT_stage = 4 ∧ s.workingPairs < 2 ∧ u.f F.SYS_BOOT_stage = 4 ∧ 2 ≤ u.workingPairs ∧ (∀ d : Fin 4, u.dieReached d = false) ∧
       u.on F.FP_CTRL_pass = false) ∧
    (∀ k : Fin 9, let s := sets [(F.SYS_VP_STAT_state 0, 2), (F.SYS_VP_STAT_state 1, 2), (F.SYS_BOOT_stage, k)] State.reset
     s.f F.SYS_BOOT_stage = k ∧ 2 ≤ s.workingPairs) ∧
    (let s := (sets [(F.SYS_VP_STAT_state 0, 2), (F.SYS_VP_STAT_state 1, 2), (F.SYS_BOOT_stage, 7), (F.VD_CTX_CFG_en 3, 1), (F.VD_CTX_CFG_acc 3, 2)]
       State.reset).withEnabled [3]
     s.f F.SYS_BOOT_stage = 7 ∧ 2 ≤ s.workingPairs ∧ s.enabled.any (fun n => s.bound n 2) = true ∧ s.on (F.SIO_ACC_STAT_pwr 2) = false ∧
       s.on (F.SIO_ACC_STAT_rst 2) = false) ∧
    (let s := sets [(F.SYS_VP_STAT_state 0, 2), (F.SYS_VP_STAT_state 1, 2), (F.SYS_BOOT_stage, 8)] State.reset
     2 ≤ s.workingPairs ∧ s.enabled = [] ∧ s.f F.SYS_UPD_STAT_state ≠ 3 ∧ s.on F.ML_CTRL_en = false) := by decide +kernel

/-- A Safety Parameter Set of one record: n = 16 and m = 16 for context 0, or the reserved value `v`. -/
def spsBody (v : Nat) : List Byte :=
  leBytes 4 0x5053575A ++ leBytes 4 1 ++ leBytes 8 0 ++ leBytes 8 (A.VD_CTX_THR 0) ++ leBytes 4 v ++ leBytes 4 0

/-- A header of an image of kind 7, its body of 32 bytes, under the first image key. -/
def spsHeader : List Byte := leBytes 4 0x4957575A ++ [1, 0, 7, 0, 64] ++ List.replicate 7 0 ++ leBytes 8 32 ++ List.replicate 104 0

/-- That image in warden SRAM. -/
def setPlaced (body : List Byte) : State :=
  ((((State.reset.setFuse 3 [1]).setBytes 0x10000000 spsHeader).setBytes 0x10002000 body)).setDword A.SYS_SPS_ADDR 0x10000000

theorem witness_ParameterSetsAreCommitted_image :
    (let s := setPlaced (spsBody 0x1010)
     s.boot.spsWrite = none ∧ Fresh Src.SEC_AUTH 0 s ∧ s.spsImage = (spsHeader, spsBody 0x1010) ∧ s.imageOk 7 spsHeader true = true ∧
       State.spsBodyOk (spsBody 0x1010) = true) ∧
    (let s := setPlaced (List.replicate 32 0)
     s.boot.spsWrite = none ∧ s.imageOk 7 s.spsImage.1 true = true ∧ State.spsBodyOk s.spsImage.2 = false) ∧
    (let s := State.reset.withBoot { State.reset.boot with spsWrite := some [1] }
     s.boot.spsWrite.isSome = true ∧ s.boot.spsWrite = some [1] ∧ [(1 : Byte)].length ≤ 0x20000) := by unfold Fresh; decide +kernel

theorem witness_ParameterSetsAreCommitted_body :
    (∃ r, ((setPlaced (spsBody 0x1010)).start 0).stageSet (spsBody 0x1010) = .ok r) ∧
    ∃ k, ((setPlaced (spsBody 0xFFFFFFFF)).start 0).stageSet (spsBody 0xFFFFFFFF) = .error k := by
  have a : (match ((setPlaced (spsBody 0x1010)).start 0).stageSet (spsBody 0x1010) with | .ok _ => true | .error _ => false) = true := by decide +kernel
  have b : (match ((setPlaced (spsBody 0xFFFFFFFF)).start 0).stageSet (spsBody 0xFFFFFFFF) with | .ok _ => false | .error _ => true) = true := by decide +kernel
  exact ⟨by split at a <;> simp_all, by split at b <;> simp_all⟩

/-- A state of an update: SYS_UPD_STAT.state, the target slot 1, and sectors erased. -/
def updState (k e : Nat) (l : List (Field × Nat)) : State :=
  updating ([(F.SYS_UPD_STAT_state, k), (F.SYS_UPD_STAT_slot, 1), (F.SYS_UPD_STAT_erase_next, e), (F.SYS_SVC_level, 1)] ++ l)

theorem witness_UpdatesAreMade_commands :
    ((updating []).boot.upd = none ∧ (updating []).f F.SYS_UPD_STAT_state = 0 ∧ (updating []).desc.isSome = true ∧
      (updating []).ctxs = []) ∧
    (let s := updState 1 2 []
     s.f F.SYS_UPD_STAT_state = 1 ∧ s.f F.SYS_UPD_STAT_state ≠ 0 ∧ s.f F.SYS_UPD_STAT_state ≠ 2 ∧ s.f F.SYS_UPD_STAT_state ≠ 3 ∧
       s.updSectors ≤ s.f F.SYS_UPD_STAT_erase_next ∧ 1 ≤ s.f F.SYS_UPD_STAT_state ∧ s.f F.SYS_UPD_STAT_state ≤ 3) ∧
    (let s := updState 1 1 []
     s.f F.SYS_UPD_STAT_erase_next < s.updSectors ∧ s.updSlot.1 % 0x10000 = 0) ∧
    (updState 2 2 []).f F.SYS_UPD_STAT_state = 2 ∧
    (let s := updState 3 2 [(F.SYS_BOOT_slot, 1)]
     s.boot.upd = none ∧ s.f F.SYS_UPD_STAT_state = 3 ∧ s.f F.SYS_BOOT_slot = s.f F.SYS_UPD_STAT_slot ∧ s.f F.SYS_SVC_level = 1) ∧
    (let s := updState 1 0 []
     (s.f F.SYS_UPD_STAT_erase_next + 1) % 16 ≠ 0 ∧ s.f F.SYS_UPD_STAT_erase_next + 1 ≠ s.updSectors) := by decide +kernel

theorem witness_UpdatesAreMade_ends : ∀ x ∈ [(⟨2, true⟩ : UpdRun), ⟨2, false⟩, ⟨3, true⟩, ⟨4, true⟩, ⟨5, true⟩],
    let s := (updState 1 2 []).withBoot { (updState 1 2 []).boot with upd := some x }
    s.boot.upd.isSome = true ∧ s.boot.upd = some x ∧ s.on F.XSP_STRIPE_en = false ∧ Fresh Src.SEC_AUTH 0 s := by unfold Fresh; decide +kernel

/-- Input 3 enabled, in state `k` from tick 0 on. -/
def input3 (k : Nat) (l : List (Field × Nat)) : State :=
  sets ([(F.SIO_IN_CFG_en 3, 1), (F.SIO_IN_STAT_state 3, k), (F.SIO_IN_CFG_disc_ms 3, 1)] ++ l) State.reset

/-- Output 2 enabled, on and driven, nothing holding it. -/
def output2 (l : List (Field × Nat)) : State :=
  sets ([(F.SYS_SVC_level, 1), (F.SYS_VP_STAT_state 0, 2), (F.SIO_OUT_CFG_en 2, 1), (F.SIO_OUT_CTRL_on 2, 1), (F.SIO_OUT_STAT_drive 2, 1),
    (F.SIO_OUT_CFG_tp_us 2, 1), (F.SIO_OUT_CFG_tp_ms 2, 1), (F.SIO_OUT_CFG_rb_us 2, 1), (F.SIO_OUT_CFG_fsafe 2, 0), (F.SYS_SPS_STAT_conf, 1)] ++ l) State.reset

theorem witness_SafetyLevelsAct :
    (State.reset.on (F.SIO_IN_CFG_en 3) = false ∧ State.reset.f (F.SIO_IN_STAT_state 3) ≠ 2) ∧
    ((input3 3 []).on (F.SIO_IN_CFG_en 3) = true ∧ (input3 3 []).f (F.SIO_IN_STAT_state 3) = 3 ∧ (input3 0 []).f (F.SIO_IN_STAT_state 3) ≠ 3 ∧
      (input3 0 []).on (F.SIO_IN_CFG_mode 3) = false ∧ (input3 0 [(F.SIO_IN_CFG_mode 3, 1)]).on (F.SIO_IN_CFG_mode 3) = true) ∧
    (let s := input3 2 []
     s.f (F.SIO_IN_STAT_state 3) = 2 ∧ s.discDue 3 ≤ max s.tick 250000 ∧ max s.tick 249999 < s.discDue 3 ∧ Fresh (Src.SIO_DISC 3) 250000 s) ∧
    (let s := output2 []
     s.soutBase 2 = true ∧ s.on (F.SIO_OUT_STAT_drive 2) = true ∧ s.f (F.SIO_OUT_CFG_tp_us 2) ≠ 0 ∧
       (s.outX 2).periodFrom + State.ms (s.f (F.SIO_OUT_CFG_tp_ms 2)) ≤ max s.tick 250000 ∧
       max s.tick 249999 < (s.outX 2).periodFrom + State.ms (s.f (F.SIO_OUT_CFG_tp_ms 2)) ∧
       false ≠ s.on (F.SIO_OUT_STAT_drive 2) ∧ true = s.on (F.SIO_OUT_STAT_drive 2) ∧
       (s.outX 2).changed + State.us (s.f (F.SIO_OUT_CFG_rb_us 2)) < max s.tick 251 ∧
       max s.tick 250 ≤ (s.outX 2).changed + State.us (s.f (F.SIO_OUT_CFG_rb_us 2)) ∧
       s.on (F.SIO_OUT_STAT_latch 2) = false ∧ Fresh (Src.SIO_READBACK 2) 251 s ∧ s.on (F.SIO_OUT_STAT_rb 2) = false) ∧
    (let s := sets [(F.SIO_OUT_STAT_pulse 2, 1), (F.SIO_OUT_STAT_rb 2, 1)] (output2 [])
     s.on (F.SIO_OUT_STAT_pulse 2) = true ∧ (s.outX 2).pulseFrom + State.us (s.f (F.SIO_OUT_CFG_tp_us 2)) ≤ max s.tick 250 ∧
       max s.tick 249 < (s.outX 2).pulseFrom + State.us (s.f (F.SIO_OUT_CFG_tp_us 2)) ∧ s.on (F.SIO_OUT_STAT_rb 2) = true) ∧
    State.reset.on (F.SIO_OUT_STAT_drive 2) = false ∧ (output2 [(F.SIO_OUT_CFG_tp_us 2, 0)]).f (F.SIO_OUT_CFG_tp_us 2) = 0 ∧ State.reset.on (F.SIO_OUT_STAT_pulse 2) = false ∧
    bitOf (1 : Word).toNat 0 = true ∧ bitOf (0 : Word).toNat 0 = false := by unfold Fresh; decide +kernel

/-- A loop-back test of an ordinary item, set up but not started. -/
def looped (l : List (Field × Nat)) : State :=
  sets ([(F.SYS_LB_CFG_ms, 1), (F.SYS_LB_CFG_depth, 1), (F.SYS_LB_CFG_iface, 5), (F.SYS_LB_CFG_num, 47)] ++ l) State.reset

/-- With no test running, and with one. -/
theorem witness_LoopbacksAndJtagAct_tests :
    ((looped []).lb = none ∧ (looped []).f F.SYS_LB_CFG_ms ≠ 0 ∧ (looped []).f F.SYS_LB_CFG_depth = 1 ∧ (looped []).f F.SYS_LB_CFG_iface = 5 ∧
      (looped []).f F.SYS_LB_CFG_num < 48 ∧ (looped []).lbAllowed = true ∧ ((looped []).setFuse 0 [0x5A]).lbAllowed = false) ∧
    (State.reset.f F.SYS_LB_CFG_ms = 0 ∧ State.reset.f F.SYS_LB_CFG_depth = 0 ∧ State.reset.f F.SYS_LB_CFG_iface = 0 ∧
      8 < (looped [(F.SYS_LB_CFG_iface, 9)]).f F.SYS_LB_CFG_iface) ∧
    (let s := (looped []).withLb (some ⟨0, none⟩)
     s.lb.isSome = true ∧ s.lb = some ⟨0, none⟩ ∧ max s.tick 2500000 ≤ 0 + State.ms 10 ∧ 0 + State.ms 10 ≤ max s.tick 2500000 ∧
       max s.tick 2499999 < 0 + State.ms 10 ∧ (s.f F.SYS_LB_CFG_iface ≠ 6 ∨ s.f F.SYS_LB_CFG_depth ≠ 2)) ∧
    (let s := (looped []).withLb (some ⟨0, some 0⟩)
     s.lb = some ⟨0, some 0⟩ ∧ s.f F.SYS_LB_CFG_iface ≠ 6 ∧ (s.start 250000).lbOver 0 = true ∧ (s.start 249999).lbOver 0 = false) ∧
    State.reset.life ≠ 0x5A ∧ (fused [0] 0x5A).life = 0x5A := by decide +kernel

/-- JTAG reaches the warden die's memory under whatever number it records. -/
theorem wardenMay_jtag (x : Nat) : State.wardenMay (State.jtagMaster x) = true := by
  have h : Nat.ble 0x800 (State.jtagMaster x) = true := by rw [Nat.ble_eq]; exact Nat.le_add_right _ _
  rw [State.wardenMay, h, Bool.or_true]

theorem witness_LoopbacksAndJtagAct_debug :
    (1 : BitVec 48).toNat % 4 ≠ 0 ∧ (0x10000000 : BitVec 48).toNat % 4 = 0 ∧ State.region (0x10000000 : BitVec 48).toNat = .warden ∧
    (∀ x, PlainWrite (State.jtagMaster x) (0x10000000 : BitVec 48).toNat 4 State.reset) ∧
    (∀ x, PlainRead (State.jtagMaster x) (0x10000000 : BitVec 48).toNat 4 State.reset) ∧ State.reset.gs.ended = [] := by
  have h : ∀ i : Fin 4, State.region (0x10000000 + i) = .warden := by decide
  have m (x : Nat) (i : Fin 4) : State.masterMay (State.jtagMaster x) (0x10000000 + i) = true := by
    simp only [State.masterMay, h, wardenMay_jtag]
  have n (i : Fin 4) : State.masterMay State.ownMaster (0x10000000 + i) = true := by
    simp only [State.masterMay, h]; decide
  have a : ∀ (w : Bool) (i : Fin 4), State.reset.byteResp (0x10000000 + i) w State.ownMaster = .ok := by decide +kernel
  have b (w : Bool) (x : Nat) (i : Fin 4) : State.reset.byteResp (0x10000000 + i) w (State.jtagMaster x) = .ok := by
    have e := a w i
    simp only [State.byteResp, m, n, h, Bool.not_true, Bool.false_eq_true, if_false] at e ⊢
    exact e
  have f (w : Bool) (x : Nat) : State.reset.spanFault 0x10000000 4 w (State.jtagMaster x) = none := by
    have h := fun i => b w x i
    have h0 := h 0; have h1 := h 1; have h2 := h 2; have h3 := h 3
    simp [State.spanFault, List.range_succ] at h0 h1 h2 h3 ⊢
    simp [h0, h1, h2, h3]
  have c : ∀ x, State.reset.spanFault (0x10000000 : BitVec 48).toNat 4 true (State.jtagMaster x) = none := fun x => f true x
  have d : ∀ x, State.reset.spanFault (0x10000000 : BitVec 48).toNat 4 false (State.jtagMaster x) = none := fun x => f false x
  refine ⟨by decide, by decide, by decide, fun x => ⟨by decide, c x, by decide +kernel, by unfold Calm; decide +kernel⟩,
    fun x => ⟨?_, by decide +kernel, by unfold Calm; decide +kernel⟩, rfl⟩
  simp only [State.plainRead, d x]
  decide +kernel

theorem witness_OneLoopbackAtATime :
    let s := (looped []).withLb (some ⟨0, none⟩)
    s.lb.isSome = true ∧ s.regReach A.SYS_LB_CFG (0 : BitVec 11).toNat true = true ∧ Healthy s := by unfold Healthy; decide +kernel

theorem witness_StepRunsFrontCommand :
    ({ State.reset with pending := [.bypass 0] } : State).pending = [.bypass 0] ∧ State.reset.pending = [] := by decide

theorem witness_RegistersAreReadAndWritten :
    (State.region (0x20040002 : BitVec 48).toNat = .regs ∧ (0x20040002 : BitVec 48).toNat % 4 ≠ 0 ∧ (⟨1, 0⟩ : Form).size ≠ 2) ∧
    (∀ w : Bool, State.reset.regReach 0x20040000 0x200 w = false ∧ State.reset.regReach 0x20040000 0 w = true) ∧
    (let a : BitVec 48 := 0x2000FFF0
     State.region a.toNat = .regs ∧ a.toNat % 4 = 0 ∧ State.inRetained a.toNat = false ∧ regAt a.toNat = none ∧
       (∀ w : Bool, State.reset.regReach a.toNat 0 w = true) ∧ State.reset.gs.ended = [] ∧ Healthy State.reset) := by unfold Healthy; decide +kernel

/-- The clauses of registers, at a read-write word, a locked word, a W1C word and a low word. -/
theorem witness_RegistersAreReadAndWritten_rows :
    (∀ a ∈ [A.VD_CTX_THR 1023, A.XSP_LEN 1, A.WD_REF 8, A.FC_PEND 0], State.region a = .regs ∧ a % 4 = 0 ∧ State.inRetained a = false ∧
      (regAt a).isSome = true) ∧
    (∀ a ∈ [A.VD_CTX_THR 1023, A.XSP_LEN 1, A.FC_PEND 0], ∀ p ∈ regAt a,
      ((State.reset.start 0).actOn a (a - p.1.stride * p.2.1 - 4 * p.2.2) p.2.1 p.2.2 5 2 0).isNone = true) ∧
    (∀ a ∈ [A.VD_CTX_THR 1023, A.XSP_LEN 1, A.VD_ADMIT 0], State.reset.regReach a 0 true = true) ∧
    (State.reset.regReach (A.WD_REF 8) 0 false = true ∧ State.reset.regReach (A.CT_REC 0) 0 false = true ∧
      (⟨2, 1⟩ : Form).det ≠ 2 ∧ A.WD_REF 8 < A.CT_REC 0 ∧ State.reset.committed = false ∧
      ({ State.reset with committed := true } : State).committed = true) ∧
    Table.get (fun _ => none) State.reset.latch (A.WD_REF 8) = none ∧
    (let s : State := { State.reset with latch := [(A.WD_REF 8, some 7)] }
     Table.get (fun _ => none) s.latch (0 * 2 ^ 48 + A.WD_REF 8) = some 7) := by decide +kernel

/-- The reset state is well formed, and steps. -/
theorem witness_StepKeepsStateWellFormed :
    Memory.wf State.reset ∧ Registers.wf State.reset ∧ Contexts.inRange State.reset ∧ ∃ u, step State.reset = .next u :=
  ⟨by decide +kernel, by decide +kernel, by unfold Contexts.inRange; decide +kernel, _, rfl⟩

theorem witness_LifecycleOnlyMovesForward : ∃ u, step State.reset = .next u := ⟨_, rfl⟩

/-! ### One step of some commands -/

/-- Source 320 is counted with the detail's low half. -/
theorem test_fc_raise : (after (.fcRaise 5 (BitVec.ofNat 32 (0x12340000 + 320))) State.reset).f (F.FC_CNT_count 320) = 1 := by decide +kernel

/-- IDCODE shifts the code of R518. -/
theorem test_idcode : (after (.idcode 0) State.reset).rdata = [0x1A31666F] := by decide +kernel

end Sys2Proof.Tests
end

section
/-!
The two views of GDDR6 (R185 to R187): where an offset of each view lies, and that a local-view address and the interleaved address
of the same byte have one physical address.
-/
namespace Sys2Proof.Machine.State

/-- The offset in its die's local view (R186) of the byte at offset `o` of the interleaved view. -/
def g6LocalOffset (o : Nat) : Nat := o / 0x10000 * 0x4000 + o / 0x1000 % 4 * 0x1000 + o % 0x1000

/-- The die that holds the byte at offset `o` of the interleaved view (R187). -/
def g6Die (o : Nat) : Nat := o / 0x4000 % 4

theorem localView_interleaved (o : Nat) :
    localView (0x10000000000 + o) = 0x1000000000 + 0x400000000 * g6Die o + g6LocalOffset o := by
  simp only [localView, g6Die, g6LocalOffset, Nat.add_sub_cancel_left]

theorem g6Die_lt (o : Nat) : g6Die o < 4 := Nat.mod_lt _ (by decide)

theorem g6Die_eq_channel_div (o : Nat) : g6Die o = o / 0x1000 % 16 / 4 := by
  unfold g6Die; omega

/-- The local-view offset that R186 takes apart into R187's local channel and channel offset. -/
theorem g6LocalOffset_eq_channelOffset (o : Nat) :
    g6LocalOffset o = (o / 0x10000 * 0x1000 + o % 0x1000) / 0x1000 * 0x4000 + o / 0x1000 % 16 % 4 * 0x1000 +
      (o / 0x10000 * 0x1000 + o % 0x1000) % 0x1000 := by
  unfold g6LocalOffset; omega

theorem g6LocalOffset_lt {o : Nat} (h : o < 0x3E0000000) : g6LocalOffset o < 0xF8000000 := by
  unfold g6LocalOffset; omega

theorem g6LocalOffset_div_grain_mod (o : Nat) : g6LocalOffset o / 0x1000 % 4 = o / 0x1000 % 4 := by
  unfold g6LocalOffset; omega

theorem localToInterleaved_g6LocalOffset (o : Nat) : localToInterleaved (g6Die o) (g6LocalOffset o) = o := by
  have hrow : g6LocalOffset o / 0x4000 = o / 0x10000 := by unfold g6LocalOffset; omega
  have hbyte : g6LocalOffset o % 0x1000 = o % 0x1000 := by unfold g6LocalOffset; omega
  simp only [localToInterleaved, g6LocalOffset_div_grain_mod, hrow, hbyte, g6Die]
  omega

section
variable {d l : Nat} (hd : d < 4) (hl : l < 0xF8000000)
include hd hl

/-- An address of a die's local view lies in the compute window, at offset `l` of window `d` (R9, R185). -/
theorem local_window :
    (0x1000000000 ≤ 0x1000000000 + 0x400000000 * d + l ∧ 0x1000000000 + 0x400000000 * d + l < 0x2000000000) ∧
    (0x1000000000 + 0x400000000 * d + l - 0x1000000000) / 0x400000000 = d ∧
    (0x1000000000 + 0x400000000 * d + l - 0x1000000000) % 0x400000000 = l := by
  omega

theorem phys_local : phys (0x1000000000 + 0x400000000 * d + l) = 0x10000000000 + localToInterleaved d l := by
  obtain ⟨⟨hlo, hhi⟩, hdie, hoff⟩ := local_window hd hl
  rw [phys, hdie, hoff, if_pos ⟨hlo, hhi, hl⟩]

theorem region_local : region (0x1000000000 + 0x400000000 * d + l) = .gddr (4 * d + l / 0x1000 % 4) := by
  obtain ⟨hwin, hdie, hoff⟩ := local_window hd hl
  rw [region, if_neg (by omega), if_neg (by omega), if_neg (by omega), if_pos hwin]
  simp only [hdie, hoff, if_pos hl]
end

theorem phys_interleaved (o : Nat) : phys (0x10000000000 + o) = 0x10000000000 + o :=
  if_neg (by omega)

theorem region_interleaved {o : Nat} (h : o < 0x3E0000000) : region (0x10000000000 + o) = .gddr (o / 0x1000 % 16) := by
  rw [region, if_neg (by omega), if_neg (by omega), if_neg (by omega), if_neg (by omega), if_pos (by omega),
    Nat.add_sub_cancel_left]

section
variable {o : Nat} (h : o < 0x3E0000000)
include h

theorem phys_localView : phys (localView (0x10000000000 + o)) = 0x10000000000 + o := by
  rw [localView_interleaved, phys_local (g6Die_lt o) (g6LocalOffset_lt h), localToInterleaved_g6LocalOffset]

theorem region_localView : region (localView (0x10000000000 + o)) = .gddr (o / 0x1000 % 16) := by
  have hc : 4 * g6Die o + o / 0x1000 % 4 = o / 0x1000 % 16 := by unfold g6Die; omega
  rw [localView_interleaved, region_local (g6Die_lt o) (g6LocalOffset_lt h), g6LocalOffset_div_grain_mod, hc]

theorem byte_localView (s : State) : s.byte (localView (0x10000000000 + o)) = s.byte (0x10000000000 + o) := by
  rw [byte, byte, phys_localView h, phys_interleaved]
end

end Sys2Proof.Machine.State

namespace Sys2Proof.Machine

/-- Settles O39: R187's die, local channel and channel offset name `localView`, which has the physical address of the interleaved
view. -/
theorem bothViewsReachOneByte : Obligations.BothViewsReachOneByte := by
  unfold Obligations.BothViewsReachOneByte
  rintro o c die lc co l ho rfl rfl rfl rfl rfl
  rw [← State.g6Die_eq_channel_div, ← State.g6LocalOffset_eq_channelOffset, ← State.localView_interleaved]
  have hco : o / 0x10000 * 0x1000 + o % 0x1000 < 992 * 2 ^ 20 := by omega
  exact ⟨hco, State.g6LocalOffset_lt ho, State.region_interleaved ho, State.region_localView ho, State.byte_localView ho⟩

end Sys2Proof.Machine
end

section
/-!
A refused key (R358, R359): which words the reactions of a raise write beside the count and the pending bit of its source, what
the ended jobs of the ZW16 leave, and that neither reaches the watchdogs or BUS_LOCKED.
-/
namespace Sys2Proof.Machine

/-! ### A raise beside its own count and pending bit -/

/-- The words that the capture and the reactions of a raise can change: `FaultWord` without the counts and the pending bits of the
sources (R337, R340, R341). -/
def ReactWord (a : Nat) : Prop :=
  a = A.FC_STATUS ∨ (A.FC_CAP0 ≤ a ∧ a < A.FC_CAP0 + 0x40) ∨ (retBase ≤ a ∧ a < retBase + 0x1000) ∨ a = A.CT_STATUS ∨ a = A.CT_TRIG_POS
    ∨ (A.SIO_OUT_STAT 0 ≤ a ∧ a ≤ A.SIO_OUT_STAT 3)

theorem react_status : ReactWord A.FC_STATUS := Or.inl rfl
theorem react_ct : ReactWord A.CT_STATUS := Or.inr (Or.inr (Or.inr (Or.inl rfl)))
theorem react_trig : ReactWord A.CT_TRIG_POS := Or.inr (Or.inr (Or.inr (Or.inr (Or.inl rfl))))

theorem react_cap (i : Nat) (h : i < 16) : ReactWord (A.FC_CAP0 + 4 * i) :=
  Or.inr (Or.inl (by omega))

theorem react_ret (o : Nat) (h : o < 0x1000) : ReactWord (retBase + o) :=
  Or.inr (Or.inr (Or.inl (by omega)))

theorem react_rec (k i : Nat) (h : i < 16) : ReactWord (State.retRec k + 4 * i) := by
  unfold State.retRec State.recOffset
  rw [Nat.add_assoc]
  exact react_ret _ (by omega)

theorem react_sioStat (o : Nat) (h : o < 4) : ReactWord (A.SIO_OUT_STAT o) := by
  unfold ReactWord A.SIO_OUT_STAT; omega

theorem reactAside_logRecord (s : State) (k : Nat) : Aside ReactWord s (s.logRecord k) := aside_mlSend s _ react_ct

theorem reactAside_setMerges (s : State) (m x : Nat) : Aside ReactWord s (s.setMerges m x) := by
  unfold State.setMerges
  extract_lets upd o
  have hupd (u : State) (b : Nat) (h : ∀ i, i < 16 → ReactWord (b + 4 * i)) : Aside ReactWord u (upd u b) :=
    (aside_setWord u _ _ (h 5 (by decide))).trans (aside_setWord _ _ _ (h 6 (by decide)))
  exact (((hupd s _ react_cap).trans (hupd _ _ (react_rec _))).trans (aside_freshRet _ _)).trans (aside_freshRet _ _)

theorem reactAside_mergeCap (s : State) (sv : Nat) : Aside ReactWord s (s.mergeCap sv) := by
  unfold State.mergeCap
  exact ((reactAside_setMerges s _ _).trans (.ite (aside_setF _ F.FC_STATUS_sat 1 react_status) (.refl _ _))).trans
    (reactAside_logRecord _ _)

/-- A record written into FC_CAP and into a slot of the retained ring (R341). -/
theorem reactAside_putRecord (s : State) (k : Nat) (l : List Byte) :
    Aside ReactWord s ((s.setWordBytes A.FC_CAP0 16 l).setRetBytes (State.recOffset k) 16 l) :=
  (aside_setWordBytes 16 s _ _ react_cap).trans (aside_setRetBytes 16 _ _ _ (react_rec k))

theorem reactAside_putCap (s : State) (l : List Byte) : Aside ReactWord s (s.putCap l) := by
  unfold State.putCap
  extract_lets slot held a b src c
  have ha : Aside ReactWord s a := reactAside_putRecord s slot l
  have hb : Aside ReactWord a b := aside_setRet _ _ _ (react_ret _ (by decide))
  have hc : Aside ReactWord b c := (aside_setF b F.FC_STATUS_cap 1 react_status).trans (aside_withFc _ _)
  exact ((ha.trans hb).trans hc).trans (reactAside_logRecord _ _)

theorem reactAside_detailCap (s : State) (r : Raise) : Aside ReactWord s (s.detailCap r) := by
  unfold State.detailCap
  refine .ite ?_ (.ite (aside_withFc _ _) (.refl _ s))
  exact ((aside_setWord s _ _ (react_cap 7 (by decide))).trans (aside_setWord _ _ _ (react_rec _ 7 (by decide)))).trans
    (reactAside_logRecord _ _)

theorem reactAside_capture (s : State) (r : Raise) : Aside ReactWord s (s.capture r) := by
  unfold State.capture
  extract_lets sv src sev merge mx rec64
  refine .ite (reactAside_putCap s _) (.ite ?_ (.ite ?_ (reactAside_mergeCap s _)))
  · exact (aside_noteMerge s r).trans (reactAside_mergeCap _ _)
  · exact (reactAside_putRecord s _ _).trans (reactAside_logRecord _ _)

theorem reactAside_enterFault (s : State) (fn : Bool) (sv : Nat) : Aside ReactWord s (s.enterFault fn sv) := by
  unfold State.enterFault
  extract_lets restart
  have hr (u : State) : Aside ReactWord u (restart u) := by
    dsimp only [restart]
    split
    · exact .refl _ u
    · exact aside_withFc _ _
  exact .ite (.ite (hr s) (.refl _ s)) (.ite ((aside_setF s F.FC_STATUS_fstate 1 react_status).trans (hr _)) (.refl _ s))

theorem reactAside_react (s : State) (r : Raise) : Aside ReactWord s (s.react r) := by
  unfold State.react
  extract_lets all n sv a b c src d
  have ha : Aside ReactWord s a := reactAside_enterFault _ _ _
  have hb : Aside ReactWord a b :=
    .ite (((aside_setF _ F.FC_STATUS_irq 1 react_status).trans (aside_pendRole3 _)).trans (aside_withIbi _ _)) (.refl _ _)
  have hc : Aside ReactWord b c := .ite (aside_nmiTo _ _) (.refl _ _)
  have hd : Aside ReactWord c d := .ite (aside_withFc _ _) (.refl _ _)
  exact (((ha.trans hb).trans hc).trans hd).trans (.ite (aside_requestChipReset _) (.refl _ _))

namespace State

/-- A raise that is the first of its source in this tick, as far as its count and its pending bit (R337). -/
def counted (s : State) (r : Raise) : State :=
  (((s.withFc { s.fc with
      lastRaise := Table.put (fun _ => 0) s.fc.lastRaise r.src (s.tick + 1)
      lastInst := Table.put (fun _ => 0) s.fc.lastInst r.src r.inst }).count (F.FC_CNT_count r.src) F.FC_STATUS_sat).setF
    (F.FC_CNT_last r.src) r.detail).hwSet (A.FC_PEND (r.src / 32)) (2 ^ (r.src % 32))

end State

/-- The first raise of a source in a tick, after its count: its capture, its reactions, the trigger and the safe outputs. -/
theorem reactAside_raise_counted (s : State) (r : Raise) (h : (sourceRow r.src).isSome = true)
    (hf : Table.get (fun _ => 0) s.fc.lastRaise r.src ≠ s.tick + 1) : Aside ReactWord (s.counted r) (s.raise r) := by
  unfold State.raise
  rw [if_neg (by simpa [Option.isSome_iff_ne_none] using h), if_neg hf]
  exact ((((reactAside_capture _ r).trans (reactAside_react _ r)).trans (aside_noteDouble _ r)).trans
    (.ite (aside_ctTrigger _ _ react_ct react_trig) (.refl _ _))).trans (aside_driveOuts _ react_sioStat)

/-- The words that a raise of source `n` can change. -/
def RaiseWord (n a : Nat) : Prop := a = A.FC_CNT n ∨ a = A.FC_PEND (n / 32) ∨ ReactWord a

theorem raiseAside_counted (s : State) (r : Raise) : Aside (RaiseWord r.src) s (s.counted r) :=
  (((aside_withFc s _).trans (aside_count _ _ _ (Or.inl rfl) (Or.inr (Or.inr react_status)))).trans
    (aside_setF _ _ _ (Or.inl rfl))).trans (aside_hwSet _ _ _ (Or.inr (Or.inl rfl)))

/-- A raise changes no other source's count, and the pending bits of its own word alone. -/
theorem raiseAside_raise (s : State) (r : Raise) : Aside (RaiseWord r.src) s (s.raise r) := by
  by_cases h : (sourceRow r.src).isSome = true
  case neg =>
    unfold State.raise
    rw [if_pos (by simpa using h)]
    exact .refl _ s
  by_cases hf : Table.get (fun _ => 0) s.fc.lastRaise r.src = s.tick + 1
  case neg =>
    exact (raiseAside_counted s r).trans ((reactAside_raise_counted s r h hf).mono fun _ ha => Or.inr (Or.inr ha))
  unfold State.raise
  rw [if_neg (by simpa [Option.isSome_iff_ne_none] using h), if_pos hf]
  refine .ite ?_ (aside_noteDouble s r)
  exact (((aside_withFc s _).trans (aside_setF _ _ _ (Or.inl rfl))).trans
    ((reactAside_detailCap _ r).mono fun _ ha => Or.inr (Or.inr ha))).trans (aside_noteDouble _ r)

/-- A count by one reads one more, up to its all-ones value, when its saturation flag stands in another word (R6). -/
theorem f_count_self (s : State) (x sat : Field) (h : x.lo + x.width ≤ 32) (ha : x.addr ≠ sat.addr) :
    (s.count x sat).f x = min (s.f x + 1) (2 ^ x.width - 1) := by
  have hv : min (s.f x + 1) (2 ^ x.width - 1) < 2 ^ x.width := by
    have := Nat.two_pow_pos x.width
    omega
  have hs : (s.setF x (min (s.f x + 1) (2 ^ x.width - 1))).f x = min (s.f x + 1) (2 ^ x.width - 1) := by
    rw [State.f_setF_self _ _ _ h, Nat.mod_eq_of_lt hv]
  unfold State.count State.countBy
  dsimp only
  split
  · rw [State.f_setF_addr _ _ _ _ ha, hs]
  · exact hs

/-- A W1C bit that hardware sets reads set (R7). -/
theorem on_hwSet (s : State) (a i : Nat) (h : i < 32) : (s.hwSet a (2 ^ i)).on ⟨a, i, 1⟩ = true := by
  have hw : (s.hwSet a (2 ^ i)).word a = (s.word a ||| 2 ^ i) % 2 ^ 32 := by
    simp only [State.hwSet, (Nat.two_pow_pos i).ne', if_false]
    exact State.word_setWord_self s a _
  have hb : ((s.word a ||| 2 ^ i).testBit i) = true := by simp [Nat.testBit_or]
  rw [Nat.testBit_eq_decide_div_mod_eq, decide_eq_true_eq] at hb
  have hf : (s.hwSet a (2 ^ i)).f ⟨a, i, 1⟩ = 1 := by
    rw [State.f, hw, bits_mod32 _ _ _ (by simpa using h), bits, pow_one, hb]
  rw [State.on, hf]
  rfl

/-- The count and the pending word of a source are apart from each other and from what a reaction writes. -/
theorem countWord_pendWord_apart (n : Nat) (h : n < 384) : ¬ ReactWord (A.FC_CNT n) ∧ ¬ ReactWord (A.FC_PEND (n / 32)) ∧
    A.FC_CNT n ≠ A.FC_PEND (n / 32) ∧ A.FC_CNT n ≠ A.FC_STATUS := by
  simp only [ReactWord, A.FC_CNT, A.FC_PEND, A.FC_STATUS, A.FC_CAP0, A.CT_STATUS, A.CT_TRIG_POS, A.SIO_OUT_STAT, retBase]
  omega

section
variable {s : State} {r : Raise} (h : (sourceRow r.src).isSome = true)
  (hf : Table.get (fun _ => 0) s.fc.lastRaise r.src ≠ s.tick + 1)
include h hf

/-- The first raise of a source in a tick counts (R337). -/
theorem counted_raise : Counted (F.FC_CNT_count r.src) s (s.raise r) := by
  obtain ⟨hcnt, -, hne, hst⟩ := countWord_pendWord_apart r.src (sourceRow_lt _ (by simpa using h))
  unfold Counted
  rw [(reactAside_raise_counted s r h hf).field _ hcnt, State.counted, (aside_hwSet (W := (· = A.FC_PEND (r.src / 32))) _ _ _ rfl).field _ hne,
    State.f_setF_apart _ (F.FC_CNT_last r.src) (F.FC_CNT_count r.src) _ rfl (by decide : 16 + 16 ≤ 32) (Or.inr (by decide : 0 + 16 ≤ 16))]
  exact f_count_self _ _ _ (by decide : 16 + 16 ≤ 32) hst

/-- The first raise of a source in a tick sets its pending bit (R337). -/
theorem pending_raise : (s.raise r).on (State.pendField r.src) = true := by
  obtain ⟨-, hpend, -, -⟩ := countWord_pendWord_apart r.src (sourceRow_lt _ (by simpa using h))
  rw [State.on, (reactAside_raise_counted s r h hf).field _ hpend]
  exact on_hwSet _ _ _ (Nat.mod_lt _ (by decide))
end

theorem Aside.wd {W : Nat → Prop} {s u : State} (h : Aside W s u) : u.wd = s.wd := by
  have e := congrArg State.wd h.rest
  exact e

/-! ### The ended jobs of the ZW16's own -/

/-- `u` has the memory, the response and the watchdogs of `s`, and its register words but for those of `W`. -/
structure Spares (W : Nat → Prop) (s u : State) : Prop where
  words : ∀ a, ¬ W a → u.word a = s.word a
  mem : u.mem = s.mem
  resp : u.resp = s.resp
  wd : u.wd = s.wd

namespace Spares

variable {W V : Nat → Prop} {s u v : State}

theorem refl (W : Nat → Prop) (s : State) : Spares W s s := ⟨fun _ _ => rfl, rfl, rfl, rfl⟩

theorem trans (h : Spares W s u) (k : Spares W u v) : Spares W s v :=
  ⟨fun a ha => (k.words a ha).trans (h.words a ha), k.mem.trans h.mem, k.resp.trans h.resp, k.wd.trans h.wd⟩

theorem mono (h : Spares W s u) (hw : ∀ a, W a → V a) : Spares V s u :=
  ⟨fun a ha => h.words a fun x => ha (hw a x), h.mem, h.resp, h.wd⟩

theorem of_aside (h : Aside W s u) : Spares W s u := ⟨h.words, h.mem, h.resp, h.wd⟩

theorem ite {c : Prop} [Decidable c] (h : Spares W s u) (k : Spares W s v) : Spares W s (if c then u else v) := by
  split
  · exact h
  · exact k

theorem foldl {β : Type} {g : State → β → State} (hg : ∀ s x, Spares W s (g s x)) (l : List β) (s : State) :
    Spares W s (l.foldl g s) := by
  induction l generalizing s with
  | nil => exact refl W s
  | cons x r ih => exact (hg s x).trans (ih _)

theorem field (h : Spares W s u) (x : Field) (hx : ¬ W x.addr) : u.f x = s.f x := by
  simp only [State.f, h.words _ hx]

end Spares

/-- The words that taking the ended jobs can change: those of a raise of CK_INTERNAL, and those from the CK block on (R134, R218). -/
def JobWord (a : Nat) : Prop := RaiseWord Src.CK_INTERNAL a ∨ A.CK_CTRL ≤ a

theorem spares_modFrm {W : Nat → Prop} (s : State) (n o : Nat) (g : Frm → Frm) : Spares W s (s.modFrm n o g) :=
  ⟨fun _ _ => rfl, rfl, rfl, rfl⟩

theorem spares_withVp2 {W : Nat → Prop} (s : State) (x : Vp2) : Spares W s (s.withVp2 x) := ⟨fun _ _ => rfl, rfl, rfl, rfl⟩

theorem spares_showVp (s : State) : Spares JobWord s s.showVp :=
  have hw : JobWord A.CK_AG_STATUS := Or.inr (by decide)
  .of_aside ((aside_setF s F.CK_AG_STATUS_depth _ hw).trans (aside_setF _ F.CK_AG_STATUS_hwm _ hw))

theorem spares_vpFree (s : State) : Spares JobWord s s.vpFree := by
  unfold State.vpFree
  split
  · exact .refl _ s
  · refine .trans ?_ ((spares_withVp2 _ _).trans (spares_showVp _))
    exact .ite (.of_aside (aside_setHart _ _ _)) (.refl _ _)

theorem spares_dropEntry (s : State) (n o : Nat) (dec : Bool) : Spares JobWord s (s.dropEntry n o dec) := by
  unfold State.dropEntry
  exact ((spares_withVp2 s _).trans (.ite (spares_vpFree _) (.refl _ _))).trans (spares_showVp _)

/-- An entry of a frame joins VP2's queue (R142). -/
theorem spares_enqueue (s : State) (n o : Nat) (x : Vp2) (g : Frm → Frm) :
    Spares JobWord s (((s.withVp2 x).modFrm n o g).showVp) :=
  ((spares_withVp2 s x).trans (spares_modFrm _ n o g)).trans (spares_showVp _)

theorem spares_queueAgreement (s : State) (n o : Nat) : Spares JobWord s (s.queueAgreement n o) := by
  unfold State.queueAgreement
  split
  · exact .refl _ s
  · exact .ite (.refl _ s) (.ite ((spares_dropEntry s _ _ _).trans (spares_modFrm _ _ _ _)) (.ite (.refl _ s)
      (.ite (spares_modFrm s _ _ _) (.ite (spares_enqueue s _ _ _ _) (.refl _ s)))))

theorem spares_queueDecoder (s : State) (n o : Nat) : Spares JobWord s (s.queueDecoder n o) := by
  unfold State.queueDecoder
  split
  · exact .refl _ s
  · exact .ite (spares_enqueue s _ _ _ _) (.refl _ s)

theorem spares_ckInternal (s : State) (n o : Nat) : Spares JobWord s (s.ckInternal n o) := by
  have hcnt : JobWord (A.CK_CTX_CNT2 n) := Or.inr (by unfold A.CK_CTX_CNT2 A.CK_CTRL; omega)
  have hst : JobWord A.CK_STATUS := Or.inr (by decide)
  have hcause : Spares JobWord s (s.addCause n o Cause.ckLate) := spares_modFrm s n o _
  refine hcause.trans (.of_aside ?_)
  exact ((aside_count _ (F.CK_CTX_CNT2_internal n) F.CK_STATUS_sat hcnt hst).trans (aside_setF _ F.CK_STATUS_internal 1 hst)).trans
    ((raiseAside_raise _ _).mono fun _ => Or.inl)

theorem spares_failCheck {W : Nat → Prop} (s : State) (n o kind id : Nat) (c : Cmp) : Spares W s (s.failCheck n o kind id c) := by
  unfold State.failCheck
  refine .ite (.refl _ s) ?_
  cases c.count <;> exact ⟨fun _ _ => rfl, rfl, rfl, rfl⟩

theorem spares_cmpShadowSums {W : Nat → Prop} (s : State) (n : Nat) (f : Frm) (els : List (Int × Nat)) :
    Spares W s (s.cmpShadowSums n f els) := by
  unfold State.cmpShadowSums
  refine .ite (.refl _ s) (.foldl (fun s i => ?_) _ s)
  split
  · exact .refl _ s
  · exact spares_failCheck s _ _ _ _ _

theorem spares_compareOut {W : Nat → Prop} (s : State) (n : Nat) (f : Frm) (x : Out) : Spares W s (s.compareOut n f x) := by
  unfold State.compareOut
  extract_lets pb u
  split
  case h_1 => exact .refl _ s
  case h_2 => exact spares_cmpShadowSums s _ _ _
  case h_3 =>
    split
    · exact .ite (spares_failCheck s _ _ _ _ _) (spares_failCheck s _ _ _ _ _)
    · exact .refl _ s
  case h_4 =>
    refine .ite (.refl _ s) ?_
    split
    · exact spares_failCheck s _ _ _ _ _
    · exact .refl _ s

theorem spares_compareHeld (s : State) (n o : Nat) : Spares JobWord s (s.compareHeld n o) := by
  unfold State.compareHeld
  split
  · exact .refl _ s
  · refine .ite ?_ (.refl _ s)
    exact ((Spares.foldl (fun s x => spares_compareOut s n _ x) _ s).trans (spares_modFrm _ _ _ _)).trans (spares_queueDecoder _ _ _)

theorem spares_endFallback (s : State) (n : Nat) (f : Frm) (status : Nat) (l : Launch) :
    Spares JobWord s (s.endFallback n f status l) := by
  unfold State.endFallback
  exact (spares_modFrm s _ _ _).trans (spares_queueAgreement _ _ _)

theorem spares_endCheck (s : State) (n : Nat) (f : Frm) (p : Purpose) (status : Nat) (l : Launch) (im arena : Nat) :
    Spares JobWord s (s.endCheck n f p status l im arena) := by
  unfold State.endCheck
  refine (((spares_modFrm s _ _ _).trans (.ite ?_ (spares_ckInternal _ _ _))).trans (spares_compareHeld _ _ _)).trans
    (spares_queueDecoder _ _ _)
  exact (Spares.foldl (fun s _ => spares_ckInternal s _ _) _ _).trans (spares_modFrm _ _ _ _)

/-- Taking the ended jobs leaves memory, the response and the watchdogs (R134, R140, R218, R219). -/
theorem spares_takeEnded (s : State) : Spares JobWord s s.takeEnded := by
  have hgs : Spares JobWord s (s.withGs { s.gs with ended := [] }) := ⟨fun _ _ => rfl, rfl, rfl, rfl⟩
  refine hgs.trans (.foldl (fun s e => ?_) s.gs.ended _)
  obtain ⟨job, status, la, im, arena⟩ := e
  dsimp only
  split
  · exact .refl _ s
  · split
    · exact .ite (spares_endFallback s _ _ _ _) (.refl _ s)
    · exact .ite (spares_endCheck s _ _ _ _ _ _ _) (.refl _ s)

/-! ### The refused key -/

/-- What is raised when a master that may not serve watchdog `w` writes its key (R359). -/
def lockedKey (w master : Nat) : Raise := { src := Src.BUS_LOCKED, addr := A.WD_KEY w, acc := 2, master := master }

@[simp] theorem lockedKey_src (w m : Nat) : (lockedKey w m).src = Src.BUS_LOCKED := rfl

theorem State.writeKey_of_not_mayServe {s : State} {w m : Nat} (h : s.mayServe w m = false) (k : Nat) :
    s.writeKey w m k = (s.respond .errLocked).raise (lockedKey w m) := by
  rw [State.writeKey, h, Bool.not_false, if_pos rfl, lockedKey]

theorem spares_raise_takeEnded (s : State) (r : Raise) :
    Spares (fun a => RaiseWord r.src a ∨ JobWord a) s (s.raise r).takeEnded :=
  ((Spares.of_aside (raiseAside_raise s r)).mono fun _ => Or.inl).trans ((spares_takeEnded _).mono fun _ => Or.inr)

/-- The words of the watchdogs lie in none of the words that a raise or an ended job writes. -/
theorem watchdogWord_apart {a : Nat} (h : 0x20010000 ≤ a ∧ a < 0x20020000) :
    ¬ RaiseWord Src.BUS_LOCKED a ∧ ¬ JobWord a ∧ ¬ State.Clock a := by
  simp only [JobWord, RaiseWord, ReactWord, State.Clock, A.FC_CNT, A.FC_PEND, A.FC_STATUS, A.FC_CAP0, A.CT_STATUS, A.CT_TRIG_POS,
    A.SIO_OUT_STAT, A.CK_CTRL, A.TM_TIME, A.TM_FRAC, Src.BUS_LOCKED, Src.CK_INTERNAL, retBase]
  omega

/-- An ended job neither counts BUS_LOCKED nor touches its pending bit. -/
theorem busLockedWord_not_job : ¬ JobWord (A.FC_CNT Src.BUS_LOCKED) ∧ ¬ JobWord (A.FC_PEND (Src.BUS_LOCKED / 32)) := by
  simp only [JobWord, RaiseWord, ReactWord, A.FC_CNT, A.FC_PEND, A.FC_STATUS, A.FC_CAP0, A.CT_STATUS, A.CT_TRIG_POS,
    A.SIO_OUT_STAT, A.CK_CTRL, Src.BUS_LOCKED, Src.CK_INTERNAL, retBase]
  omega

/-- Whatever value a master that may not serve watchdog `w` writes to WD_KEY_w, the write is refused (R359). -/
theorem keyRefused_writeKey {t : Nat} {w : Fin 9} {m : Nat} {s : State} (hm : (s.start t).mayServe w m = false)
    (hf : Fresh Src.BUS_LOCKED t s) (k : Nat) : KeyRefused w s ((s.start t).writeKey w m k).takeEnded := by
  rw [State.writeKey_of_not_mayServe hm]
  have hrow : (sourceRow (lockedKey w m).src).isSome = true := hf.1
  have hnew : Table.get (fun _ => 0) ((s.start t).respond .errLocked).fc.lastRaise (lockedKey w m).src ≠
      ((s.start t).respond .errLocked).tick + 1 := by
    simpa using hf.2
  obtain ⟨hcnt, hpend⟩ := busLockedWord_not_job
  have hjob := spares_takeEnded (((s.start t).respond .errLocked).raise (lockedKey w m))
  have hall := spares_raise_takeEnded ((s.start t).respond .errLocked) (lockedKey w m)
  have hword {a : Nat} (ha : 0x20010000 ≤ a ∧ a < 0x20020000) :
      (((s.start t).respond .errLocked).raise (lockedKey w m)).takeEnded.word a = s.word a := by
    obtain ⟨hr, hj, hc⟩ := watchdogWord_apart ha
    rw [hall.words a (not_or.mpr ⟨hr, hj⟩)]
    exact State.word_start s t a hc
  refine ⟨hall.resp, ?counted, ?pending, hall.wd.trans (s.start_wd t), hword ?stat, ?sat, fun a => ?memory⟩
  case counted =>
    have hstart : (s.start t).f (F.FC_CNT_count Src.BUS_LOCKED) = s.f (F.FC_CNT_count Src.BUS_LOCKED) :=
      State.f_start s t _ (by unfold State.Clock; decide)
    unfold Counted
    rw [hjob.field _ hcnt, ← hstart]
    exact counted_raise hrow hnew
  case pending =>
    rw [State.on, hjob.field _ hpend]
    exact pending_raise hrow hnew
  case stat => unfold A.WD_STAT; omega
  case sat => exact congrArg (bits · 0 1) (hword (a := F.WD_STATUS_sat.addr) (by decide))
  case memory => exact State.byte_congr (hall.mem.trans (s.start_mem t)) a

/-- Settles O35: the write answers ERR_LOCKED and raises BUS_LOCKED, and nothing that follows it reaches the watchdogs. -/
theorem foreignKeysAreRefused : Obligations.ForeignKeysAreRefused := by
  unfold Obligations.ForeignKeysAreRefused
  intro t w m s hm hf
  exact ⟨⟨_, rfl, keyRefused_writeKey hm hf _⟩, ⟨_, rfl, keyRefused_writeKey hm hf _⟩,
    fun k => ⟨_, rfl, keyRefused_writeKey hm hf _⟩⟩

end Sys2Proof.Machine
end

section
/-!
A write of SYS_LB_CFG while a loop-back test runs (R513). The register ignores it and answers ST_BUSY; then, as after every register
write, items that have gone fallow take their effect. An entry to FALLOW (R39) sets the context's bit of VD_FALLOW, and the state may
list an enabled context beyond the 1024 of R13 whose bit would lie in SYS_LB_CFG.
-/
namespace Sys2Proof.Machine

/-- SYS_LB_CFG ignores a write while a loop-back test runs (R513). -/
theorem State.writeWord_lbCfg_of_running {s : State} (h : s.lb.isSome = true) (v acc m : Nat) :
    s.writeWord A.SYS_LB_CFG v acc m = s.respond .stBusy := by
  have hrow : (regAt A.SYS_LB_CFG).map (fun x => (x.1.stride, x.2)) = some (0, 0, 0) := by decide
  obtain ⟨⟨r, i, w⟩, hreg, hx⟩ := Option.map_eq_some_iff.mp hrow
  simp only [Prod.mk.injEq] at hx
  obtain ⟨hstride, rfl, rfl⟩ := hx
  have hact : s.actOn A.SYS_LB_CFG A.SYS_LB_CFG 0 0 v acc m = some (s.respond .stBusy) := by
    have hhigh : s.actHigh A.SYS_LB_CFG 0 0 v = some (s.respond .stBusy) := by
      simp [State.actHigh, h, A.SYS_LB_CFG, A.ETH_CLR, A.I3C_C_CMD, A.XSP_CLR, A.XSP_CMD, A.ML_CLR, A.ML_CMD, A.SEC_CLR, A.SEC_KCMD,
        A.SEC_ACMD, A.SEC_AJOB, A.SEC_PROV_CMD, A.SEC_PROV_DATA, A.SYS_RST_CMD, A.SYS_SPS_CMD, A.SYS_UPD_CMD, A.SYS_LB_CMD]
    rw [State.actOn, if_neg (by decide), if_neg (by decide), if_neg (by decide), hhigh]
  simp only [State.writeWord, hreg, hstride, Nat.mul_zero, Nat.sub_zero, hact]

/-- A register write of SYS_LB_CFG by a master that reaches it, while a loop-back test runs: what follows of fallow items takes effect,
and the answer is ST_BUSY. -/
theorem exec_registerWrite_lbCfg_of_running {s : State} {m : BitVec 11} (t : Nat) (v : DWord) (h : s.lb.isSome = true)
    (hm : (s.start t).regReach A.SYS_LB_CFG m.toNat true = true) :
    exec (.registerWrite t m (BitVec.ofNat 48 A.SYS_LB_CFG) ⟨2, 0⟩ v) s =
      .next (((s.start t).respond .stBusy).settle.takeEnded.respond .stBusy) := by
  have hlb : ((s.start t).respond .ok).lb.isSome = true := by rwa [← State.start_lb s t] at h
  have hbus : (s.start t).busWrite A.SYS_LB_CFG (leBytes (2 ^ (2 : Fin 4).val) v.toNat) 2 m.toNat (0 : Fin 3).val =
      (.stBusy, ((s.start t).respond .stBusy).settle.takeEnded) := by
    have hlen : (leBytes (2 ^ (2 : Fin 4).val) v.toNat).length = 4 := rfl
    rw [State.busWrite, if_pos (by decide), if_neg (by rw [hlen]; decide), hm, State.writeWord_lbCfg_of_running hlb]
    rfl
  have haddr : (BitVec.ofNat 48 A.SYS_LB_CFG).toNat = A.SYS_LB_CFG := by decide
  have harm : exec (.registerWrite t m (BitVec.ofNat 48 A.SYS_LB_CFG) ⟨2, 0⟩ v) s =
      execRegisterWrite t m (BitVec.ofNat 48 A.SYS_LB_CFG) ⟨2, 0⟩ v s := rfl
  simp only [harm, execRegisterWrite, haddr, hbus]

/-- A context number beyond 1023 whose word of VD_FALLOW is SYS_LB_CFG. -/
def strayContext : Nat := 32 * ((A.SYS_LB_CFG - A.VD_FALLOW 0) / 4)

theorem fallowWord_strayContext : A.VD_FALLOW (strayContext / 32) = A.SYS_LB_CFG := by decide

/-- A loop-back test runs, evidence port 0 has gone fallow while its silence timer ran, and the enabled context `strayContext`, in
ADMITTING, is bound to it. -/
def strayState : State :=
  { (State.reset.setF (F.EV_EIN_STAT_fallow 0) 1).setF (F.VD_CTX_STATE_state strayContext) 1 with
    enabled := [strayContext], evTimerOn := [(0, true)], lb := some ⟨0, none⟩ }

theorem word_lbCfg_strayState : strayState.word A.SYS_LB_CFG = 0 := by decide +kernel

/-- `strayContext` enters FALLOW with the fallow port it is bound to, and its bit of VD_FALLOW is set (R39). -/
theorem fallowWord_settle_strayState :
    (((strayState.start 0).respond .stBusy).settle.takeEnded.respond .stBusy).word (A.VD_FALLOW (strayContext / 32)) = 1 := by
  decide +kernel

/-- Refutes O54: the statement does not ask for `Contexts.inRange`, and in `strayState` the write of SYS_LB_CFG, though refused with
ST_BUSY, is followed by an entry to FALLOW that sets bit 0 of SYS_LB_CFG. -/
theorem not_oneLoopbackAtATime : ¬ Obligations.OneLoopbackAtATime := by
  unfold Obligations.OneLoopbackAtATime
  intro h
  have hlb : strayState.lb.isSome = true := rfl
  obtain ⟨-, -, hwrite⟩ := h 0 0 0 strayState hlb
  obtain ⟨u, hu, -, -, hcfg, -⟩ := hwrite (by decide +kernel)
  rw [exec_registerWrite_lbCfg_of_running 0 0 hlb (by decide +kernel)] at hu
  rw [← Host.Outcome.next.inj hu, word_lbCfg_strayState, ← fallowWord_strayContext, fallowWord_settle_strayState] at hcfg
  exact absurd hcfg (by decide)

end Sys2Proof.Machine
end
